-- ==== Sys2Proof/Word.lean ====
section
/-! DEFINITION. Words of the device: bytes, 32-bit register words, 64-bit words, and their plainest arithmetic. -/

namespace Sys2Proof

/-- One byte, the smallest addressable unit (R36). -/
abbrev Byte := BitVec 8

/-- A 32-bit word: a control register (R517), a lane-profile g register (R40). -/
abbrev W32 := BitVec 32

/-- A 64-bit word: a host-profile g register (R40). -/
abbrev W64 := BitVec 64

/-- The larger unsigned 64-bit value. -/
def W32.max (a b : W32) : W32 := if a.ult b then b else a

/-- Saturating 32-bit addition at 0xFFFF_FFFF (R109, TADD; every saturating counter). -/
def W32.satAdd (a b : W32) : W32 :=
  if a.toNat + b.toNat ≥ 0xFFFFFFFF then 0xFFFFFFFF#32 else a + b

end Sys2Proof
end

