-- ==== Sys2Proof/Syntax.lean ====
section
/-! DEFINITION. Syntax: who sends a command, the field groups of the Eopehal formats, and the commands the block
takes, one constructor per row of the opcode table. -/

namespace Sys2Proof

/-- Who executes an instruction or makes a register access: host core 0 to 7, firmware processor 0 to 4 (scheduler,
memory, sensor, power, security), or a gang of a physical core's thread slots (R40, R80). -/
inductive Agent where
  | host (n : Nat)
  | fw (p : Nat)
  | lane (core gang : Nat)
  deriving DecidableEq, Repr

/-- Whose access to a vault has had no answer (R266, R267): an agent's, an FMOVE's of a core by its sequence number, the filler's of
a window, or a block's. -/
inductive VaultReader where
  | agent (ag : Agent)
  | move (core seq : Nat)
  | window (n : Nat)
  | block
  deriving DecidableEq, Repr

/-- What a port's receiver finds of a long packet: whether the CRC of its payload holds, and whether its header had a single-bit
error, which was corrected (R380). -/
structure PacketCheck where
  crcOk : Bool
  ecc1 : Bool
  deriving DecidableEq, Repr

/-- What the board and the die show the boot, sampled at the release of PORST_N: straps, the mute switch, whether the hardware
BIST, the PUF and the protection store pass, the cores that fail their check, full BIST outcomes, READ_VOUT, and the vault words
that stand with a single-bit error, by physical address / 32 (R266), and of private SRAM those that show a parity error, by processor
and 64-bit word (R304). -/
structure BootEnv where
  gpio0 : Bool := false
  gpio1 : Bool := false
  sramOk : Bool := true
  pufOk : Bool := true
  storeOk : Bool := true
  /-- The on-package flash takes writes of the protection store (R475). -/
  storeWrites : Bool := true
  failing : List Nat := []
  columns : List (Nat × Nat) := []
  vout : Option Nat := none
  weak : List Nat := []
  parity : List (Nat × Nat) := []
  /-- 64-bit words of the Stacks that stand with a parity error, by offset / 8 (*Fault coverage*). -/
  stackBad : List Nat := []
  /-- MUTE_SW_N is low at the release of PORST_N (R354). -/
  muted : Bool := false
  /-- Fabric time at which the boot ends; R468 bounds it. -/
  took : Nat := 0
  deriving DecidableEq, Repr

/-- The register and guard fields of format R32 (R46). -/
structure R3 where
  d : BitVec 5
  a : BitVec 5
  b : BitVec 5
  guard : BitVec 4 := 0
  deriving DecidableEq, Repr

/-- The fields of formats I32 and S32; for S32 the field `d` is B, the data register (R46). -/
structure I3 where
  d : BitVec 5
  a : BitVec 5
  guard : BitVec 4 := 0
  imm : BitVec 11
  deriving DecidableEq, Repr

/-- The fields of format B32 (R46). -/
structure B3 where
  guard : BitVec 4 := 0
  off : BitVec 21
  deriving DecidableEq, Repr

/-- The fields of format X64 (R46). -/
structure X3 where
  d : BitVec 5
  a : BitVec 5
  b : BitVec 5 := 0
  guard : BitVec 4 := 0
  func : BitVec 6 := 0
  imm : BitVec 32
  deriving DecidableEq, Repr

/-- The fields of format T64 but for func (R46). -/
structure T3 where
  tdA : BitVec 4 := 0
  tdB : BitVec 4 := 0
  tdC : BitVec 4 := 0
  bank : BitVec 2 := 0
  g : BitVec 5 := 0
  imm : BitVec 32 := 0
  deriving DecidableEq, Repr

/-- The commands the block takes, one constructor per row of the opcode table. -/
inductive Instr where
  /-- POWER_ON_RESET (R509): PORST_N is pulsed low and released, which resets the whole device, samples the straps and starts fabric time and boot. -/
  | powerOnReset (env : BootEnv)
  /-- LO_HI_READ_LATCH (R9): A read of a _LO register returns its half and latches the matching _HI register. -/
  | loHiReadLatch (ag : Agent) (off : BitVec 28)
  /-- REGISTER_WRITE (R11): A write to a register that has no row of its own acts under its access types, and a value that does not occur makes the device ignore the whole write. -/
  | registerWrite (ag : Agent) (off : BitVec 28) (v : W32)
  /-- TIME_TREE_REALIGN (R27): Every 1,024 ns each local copy of fabric time is realigned to the master keeper. -/
  | timeTreeRealign
  /-- HOLDOVER_ENTRY (R32): After 3 Sync intervals without a measurement the keeper enters HOLDOVER and keeps its last rate. -/
  | holdoverEntry
  /-- TOP_FT_CTRL_WRITE (R35): A write of SRC makes the keeper enter ACQUIRING for a gPTP domain, or FREE for free run. -/
  | topFtCtrlWrite (ag : Agent) (v : W32)
  /-- ADD (R50): ALU ADD: gD = gA + gB modulo 2^w. -/
  | add (ag : Agent) (w32 : Bool) (f : R3)
  /-- SUB (R50): ALU SUB: gD = gA − gB. -/
  | sub (ag : Agent) (w32 : Bool) (f : R3)
  /-- MUL (R50): ALU MUL: gD = low w bits of the product. -/
  | mul (ag : Agent) (w32 : Bool) (f : R3)
  /-- MULH (R50): ALU MULH: gD = high w bits of the signed product. -/
  | mulh (ag : Agent) (w32 : Bool) (f : R3)
  /-- MULHU (R50): ALU MULHU: gD = high w bits of the unsigned product. -/
  | mulhu (ag : Agent) (w32 : Bool) (f : R3)
  /-- DIV (R51): ALU DIV: signed quotient, with the fixed results for division by zero and overflow. -/
  | div (ag : Agent) (w32 : Bool) (f : R3)
  /-- DIVU (R51): ALU DIVU: unsigned quotient. -/
  | divu (ag : Agent) (w32 : Bool) (f : R3)
  /-- REM (R51): ALU REM: signed remainder. -/
  | rem (ag : Agent) (w32 : Bool) (f : R3)
  /-- REMU (R51): ALU REMU: unsigned remainder. -/
  | remu (ag : Agent) (w32 : Bool) (f : R3)
  /-- AND (R50): ALU AND: bitwise AND. -/
  | and (ag : Agent) (w32 : Bool) (f : R3)
  /-- OR (R50): ALU OR: bitwise OR. -/
  | or (ag : Agent) (w32 : Bool) (f : R3)
  /-- XOR (R50): ALU XOR: bitwise XOR. -/
  | xor (ag : Agent) (w32 : Bool) (f : R3)
  /-- SHL (R50): ALU SHL: logical shift left by B mod w. -/
  | shl (ag : Agent) (w32 : Bool) (f : R3)
  /-- SHR (R50): ALU SHR: logical shift right by B mod w. -/
  | shr (ag : Agent) (w32 : Bool) (f : R3)
  /-- SRA (R50): ALU SRA: arithmetic shift right by B mod w. -/
  | sra (ag : Agent) (w32 : Bool) (f : R3)
  /-- MIN (R50): ALU MIN: signed minimum. -/
  | min (ag : Agent) (w32 : Bool) (f : R3)
  /-- MINU (R50): ALU MINU: unsigned minimum. -/
  | minu (ag : Agent) (w32 : Bool) (f : R3)
  /-- MAX (R50): ALU MAX: signed maximum. -/
  | max (ag : Agent) (w32 : Bool) (f : R3)
  /-- MAXU (R50): ALU MAXU: unsigned maximum. -/
  | maxu (ag : Agent) (w32 : Bool) (f : R3)
  /-- CLZ (R50): ALU CLZ: count of leading zeros of gA. -/
  | clz (ag : Agent) (w32 : Bool) (f : R3)
  /-- POPC (R50): ALU POPC: count of set bits of gA. -/
  | popc (ag : Agent) (w32 : Bool) (f : R3)
  /-- ADDP (R50): Lane ADDP: a 64-bit pair plus a sign-extended gB. -/
  | addp (ag : Agent) (w32 : Bool) (f : R3)
  /-- ADDI (R51): gD = gA + sign-extended imm11. -/
  | addi (ag : Agent) (f : I3)
  /-- ANDI (R51): gD = gA AND sign-extended imm11. -/
  | andi (ag : Agent) (f : I3)
  /-- ORI (R51): gD = gA OR sign-extended imm11. -/
  | ori (ag : Agent) (f : I3)
  /-- XORI (R51): gD = gA XOR sign-extended imm11. -/
  | xori (ag : Agent) (f : I3)
  /-- SHI (R51): Shifts gA by an immediate, left, right logically or right arithmetically. -/
  | shi (ag : Agent) (f : I3)
  /-- LI (R51): Sets gD to imm32. -/
  | li (ag : Agent) (f : X3)
  /-- ADDX (R51): gD = gA + sign-extended imm32. -/
  | addx (ag : Agent) (f : X3)
  /-- CMP (R52): Compares gA with gB under an integer or FP32 condition and writes a predicate or gD. -/
  | cmp (ag : Agent) (func : BitVec 6) (f : R3)
  /-- PAND (R53): pD = pA AND pB. -/
  | pand (ag : Agent) (f : R3)
  /-- POR (R53): pD = pA OR pB. -/
  | por (ag : Agent) (f : R3)
  /-- PXOR (R53): pD = pA XOR pB. -/
  | pxor (ag : Agent) (f : R3)
  /-- PANDN (R53): pD = pA AND NOT pB. -/
  | pandn (ag : Agent) (f : R3)
  /-- PNOT (R53): pD = NOT pA. -/
  | pnot (ag : Agent) (f : R3)
  /-- P2G (R53): gD = 1 when pA is 1, and 0 otherwise. -/
  | p2g (ag : Agent) (f : R3)
  /-- G2P (R53): pD = 1 when gA is not 0. -/
  | g2p (ag : Agent) (f : R3)
  /-- FADD (R55): FP32 addition, rounded once. -/
  | fadd (ag : Agent) (f : R3)
  /-- FSUB (R55): FP32 subtraction, rounded once. -/
  | fsub (ag : Agent) (f : R3)
  /-- FMUL (R55): FP32 multiplication, rounded once. -/
  | fmul (ag : Agent) (f : R3)
  /-- FFMA (R55): D = A × B + D, rounded once. -/
  | ffma (ag : Agent) (f : R3)
  /-- FMIN (R55): FP32 minimumNumber. -/
  | fmin (ag : Agent) (f : R3)
  /-- FMAX (R55): FP32 maximumNumber. -/
  | fmax (ag : Agent) (f : R3)
  /-- FABS (R55): Clears the sign bit. -/
  | fabs (ag : Agent) (f : R3)
  /-- FNEG (R55): Flips the sign bit. -/
  | fneg (ag : Agent) (f : R3)
  /-- FMV_GF (R55): Host only: moves bits 31:0 of gA into fD. -/
  | fmvGf (ag : Agent) (f : R3)
  /-- FMV_FG (R55): Host only: moves the bits of fA into gD, zero-extended. -/
  | fmvFg (ag : Agent) (f : R3)
  /-- FEXP2 (R55): SFU 2^A. -/
  | fexp2 (ag : Agent) (f : R3)
  /-- FLOG2 (R55): SFU log2 A. -/
  | flog2 (ag : Agent) (f : R3)
  /-- FRCP (R55): SFU 1/A. -/
  | frcp (ag : Agent) (f : R3)
  /-- FRSQ (R55): SFU 1/√A. -/
  | frsq (ag : Agent) (f : R3)
  /-- FSIG (R55): SFU logistic sigmoid. -/
  | fsig (ag : Agent) (f : R3)
  /-- FTANH (R55): SFU tanh. -/
  | ftanh (ag : Agent) (f : R3)
  /-- CVT (R56): Converts between number formats under the selected rounding, with block scales for FP6-B and FP4-B. -/
  | cvt (ag : Agent) (func : BitVec 6) (f : R3)
  /-- ADD2 (R57): PK ADD2 on two packed BF16 or FP16 elements. -/
  | add2 (ag : Agent) (fp16 : Bool) (f : R3)
  /-- MUL2 (R57): PK MUL2 on two packed elements. -/
  | mul2 (ag : Agent) (fp16 : Bool) (f : R3)
  /-- FMA2 (R57): PK FMA2 on two packed elements. -/
  | fma2 (ag : Agent) (fp16 : Bool) (f : R3)
  /-- MIN2 (R57): PK MIN2 on two packed elements. -/
  | min2 (ag : Agent) (fp16 : Bool) (f : R3)
  /-- MAX2 (R57): PK MAX2 on two packed elements. -/
  | max2 (ag : Agent) (fp16 : Bool) (f : R3)
  /-- LDB (R58): Loads a byte, sign-extended. -/
  | ldb (ag : Agent) (f : I3)
  /-- LDBU (R58): Loads a byte, zero-extended. -/
  | ldbu (ag : Agent) (f : I3)
  /-- LDH (R58): Loads a halfword, sign-extended. -/
  | ldh (ag : Agent) (f : I3)
  /-- LDHU (R58): Loads a halfword, zero-extended. -/
  | ldhu (ag : Agent) (f : I3)
  /-- LDW (R58): Loads a word. -/
  | ldw (ag : Agent) (f : I3)
  /-- LDWU (R58): Host only: loads a word, zero-extended. -/
  | ldwu (ag : Agent) (f : I3)
  /-- LDD (R58): Loads a doubleword. -/
  | ldd (ag : Agent) (f : I3)
  /-- STB (R58): Stores a byte. -/
  | stb (ag : Agent) (f : I3)
  /-- STH (R58): Stores a halfword. -/
  | sth (ag : Agent) (f : I3)
  /-- STW (R58): Stores a word. -/
  | stw (ag : Agent) (f : I3)
  /-- STD (R58): Stores a doubleword. -/
  | std (ag : Agent) (f : I3)
  /-- LDW_ACQ (R59): Acquire load of a word at a scope. -/
  | ldwAcq (ag : Agent) (scope : BitVec 3) (f : R3)
  /-- LDD_ACQ (R59): Acquire load of a doubleword at a scope. -/
  | lddAcq (ag : Agent) (scope : BitVec 3) (f : R3)
  /-- STW_REL (R59): Release store of a word at a scope. -/
  | stwRel (ag : Agent) (scope : BitVec 3) (f : R3)
  /-- STD_REL (R59): Release store of a doubleword at a scope. -/
  | stdRel (ag : Agent) (scope : BitVec 3) (f : R3)
  /-- FENCE_ACQ (R59): Acquire fence at a scope. -/
  | fenceAcq (ag : Agent) (scope : BitVec 3) (f : R3)
  /-- FENCE_REL (R59): Release fence at a scope. -/
  | fenceRel (ag : Agent) (scope : BitVec 3) (f : R3)
  /-- FENCE_AR (R102): Acquire-and-release fence that also orders earlier stores before later loads. -/
  | fenceAr (ag : Agent) (scope : BitVec 3) (f : R3)
  /-- ATOM_ADD (R60): Relaxed atomic add. -/
  | atomAdd (ag : Agent) (dw : Bool) (scope : BitVec 2) (f : R3)
  /-- ATOM_MIN (R60): Relaxed atomic signed minimum. -/
  | atomMin (ag : Agent) (dw : Bool) (scope : BitVec 2) (f : R3)
  /-- ATOM_MAX (R60): Relaxed atomic signed maximum. -/
  | atomMax (ag : Agent) (dw : Bool) (scope : BitVec 2) (f : R3)
  /-- ATOM_AND (R60): Relaxed atomic AND. -/
  | atomAnd (ag : Agent) (dw : Bool) (scope : BitVec 2) (f : R3)
  /-- ATOM_OR (R60): Relaxed atomic OR. -/
  | atomOr (ag : Agent) (dw : Bool) (scope : BitVec 2) (f : R3)
  /-- ATOM_XOR (R60): Relaxed atomic XOR. -/
  | atomXor (ag : Agent) (dw : Bool) (scope : BitVec 2) (f : R3)
  /-- ATOM_SWAP (R60): Relaxed atomic swap. -/
  | atomSwap (ag : Agent) (dw : Bool) (scope : BitVec 2) (f : R3)
  /-- ATOM_CAS (R60): Relaxed atomic compare-and-swap. -/
  | atomCas (ag : Agent) (dw : Bool) (scope : BitVec 2) (f : R3)
  /-- ATOM_AR_ADD (R60): Acquire-release atomic add. -/
  | atomArAdd (ag : Agent) (dw : Bool) (scope : BitVec 2) (f : R3)
  /-- ATOM_AR_MIN (R60): Acquire-release atomic signed minimum. -/
  | atomArMin (ag : Agent) (dw : Bool) (scope : BitVec 2) (f : R3)
  /-- ATOM_AR_MAX (R60): Acquire-release atomic signed maximum. -/
  | atomArMax (ag : Agent) (dw : Bool) (scope : BitVec 2) (f : R3)
  /-- ATOM_AR_AND (R60): Acquire-release atomic AND. -/
  | atomArAnd (ag : Agent) (dw : Bool) (scope : BitVec 2) (f : R3)
  /-- ATOM_AR_OR (R60): Acquire-release atomic OR. -/
  | atomArOr (ag : Agent) (dw : Bool) (scope : BitVec 2) (f : R3)
  /-- ATOM_AR_XOR (R60): Acquire-release atomic XOR. -/
  | atomArXor (ag : Agent) (dw : Bool) (scope : BitVec 2) (f : R3)
  /-- ATOM_AR_SWAP (R60): Acquire-release atomic swap. -/
  | atomArSwap (ag : Agent) (dw : Bool) (scope : BitVec 2) (f : R3)
  /-- ATOM_AR_CAS (R60): Acquire-release atomic compare-and-swap. -/
  | atomArCas (ag : Agent) (dw : Bool) (scope : BitVec 2) (f : R3)
  /-- BRA (R62): Branches to PC + off21 × 4 when the guard holds. -/
  | bra (ag : Agent) (f : B3)
  /-- CALL (R62): Writes PC + 4 to g31 and branches. -/
  | call (ag : Agent) (f : B3)
  /-- JR (R62): Branches to gA and optionally links in gD. -/
  | jr (ag : Agent) (f : R3)
  /-- BRAL (R62): Branches to PC + sign-extended imm32. -/
  | bral (ag : Agent) (f : X3)
  /-- NOP (R63): Does nothing. -/
  | nop (ag : Agent) (f : R3)
  /-- EXIT (R63): The thread ends and releases its slot. -/
  | exit (ag : Agent) (f : R3)
  /-- BAR (R63): The thread waits until every thread of its gang that has not exited reaches this BAR, and then all continue. -/
  | bar (ag : Agent) (f : R3)
  /-- YIELD (R90): The gang offers its issue slot and is not ready until other gangs have issued or 64 cycles pass. -/
  | yield (ag : Agent) (f : R3)
  /-- YIELD_EXPIRY (R90): A YIELDed gang becomes ready again after 64 ARITH cycles. -/
  | yieldExpiry (core gang : Nat)
  /-- UPCALL (R63): Raises the UPCALL cause of the current mode. -/
  | upcall (ag : Agent) (f : R3)
  /-- BREAK (R63): Raises BREAKPOINT. -/
  | brk (ag : Agent) (f : R3)
  /-- TRET (R73): Returns from a trap to the mode in FROM, restoring IE and the return address. -/
  | tret (ag : Agent) (f : R3)
  /-- SNOOZE (R63): The hart stalls until an interrupt is pending. -/
  | snooze (ag : Agent) (f : R3)
  /-- IFLUSH (R63): Later fetches of this core see its earlier stores. -/
  | iflush (ag : Agent) (f : R3)
  /-- RDS (R64): Reads a special, such as tid, core or fabric time, into gD. -/
  | rds (ag : Agent) (f : I3)
  /-- CRD (R75): Reads a host control register into gD. -/
  | crd (ag : Agent) (f : I3)
  /-- CWR (R75): Writes a host control register and returns its previous value. -/
  | cwr (ag : Agent) (f : I3)
  /-- CMSK (R75): Writes the masked bits of a host control register and returns its previous value. -/
  | cmsk (ag : Agent) (f : X3)
  /-- TIMER_INTERRUPT_PENDING (R74): When fabric time reaches csr_alarm, the timer interrupt becomes pending. -/
  | timerInterruptPending (ag : Agent)
  /-- INTERRUPT_TAKE (R74): A pending, enabled interrupt is taken at an instruction boundary, or during a TWAIT, into its target mode. -/
  | interruptTake (ag : Agent)
  /-- SHFL (R65): gD = gA of lane gB mod 64. -/
  | shfl (ag : Agent) (f : R3)
  /-- BALLOT (R65): Builds a 64-bit mask of the active lanes whose pA is 1. -/
  | ballot (ag : Agent) (f : R3)
  /-- ANY (R65): OR of pA over the active lanes. -/
  | any (ag : Agent) (f : R3)
  /-- ALL (R65): AND of pA over the active lanes. -/
  | all (ag : Agent) (f : R3)
  /-- RADD (R65): Integer sum of gA over the active lanes. -/
  | radd (ag : Agent) (f : R3)
  /-- RMIN (R65): Signed minimum over the active lanes. -/
  | rmin (ag : Agent) (f : R3)
  /-- RMAX (R65): Signed maximum over the active lanes. -/
  | rmax (ag : Agent) (f : R3)
  /-- FRADD (R66): FP32 sum over the active lanes in a fixed tree. -/
  | fradd (ag : Agent) (f : R3)
  /-- FRMIN (R65): FP32 minimumNumber over the active lanes. -/
  | frmin (ag : Agent) (f : R3)
  /-- FRMAX (R65): FP32 maximumNumber over the active lanes. -/
  | frmax (ag : Agent) (f : R3)
  /-- TSIG (R109): Raises a tally to max(value, gB) at its home, as a release, and ends waits that it meets. -/
  | tsig (ag : Agent) (scope : BitVec 3) (f : R3)
  /-- TADD (R109): Adds to a tally with saturation at its home, as a release, and ends waits that it meets. -/
  | tadd (ag : Agent) (scope : BitVec 3) (f : R3)
  /-- TWAIT (R110): Waits at the home until the tally meets the threshold or the deadline passes. -/
  | twait (ag : Agent) (scope : BitVec 3) (f : R3)
  /-- TREAD (R109): Reads a tally's value, as an acquire. -/
  | tread (ag : Agent) (scope : BitVec 3) (f : R3)
  /-- TWAIT_TIMEOUT (R110): The home's fabric time passes a wait's deadline with no qualifying signal, and the wait ends TIMEOUT. -/
  | twaitTimeout (ag : Agent) (lane : Nat)
  /-- TDLD (R68): Loads a 32-byte tensor descriptor. -/
  | tdld (ag : Agent) (f : T3)
  /-- TDW (R68): Writes one 32-bit word of a tensor descriptor. -/
  | tdw (ag : Agent) (f : T3)
  /-- TDST (R68): Stores a 32-byte tensor descriptor. -/
  | tdst (ag : Agent) (f : T3)
  /-- FMOVE (R258): Hands the folio engine a move of the folios of tdA to tdC. -/
  | fmove (ag : Agent) (f : T3)
  /-- TMMA (R69): Accumulates A·B into a bank, directly or through the window or recirculation mappings. -/
  | tmma (ag : Agent) (f : T3)
  /-- TDRAIN (R132): Corrects, converts and writes bank cells to the carrel, gathering statistics. -/
  | tdrain (ag : Agent) (f : T3)
  /-- ACC_SCALE (R136): Multiplies bank rows by the FP32 elements of tdA. -/
  | accScale (ag : Agent) (f : T3)
  /-- TCLR (R119): Sets every cell of a bank to 0 and makes it CLEAR. -/
  | tclr (ag : Agent) (f : T3)
  /-- TREC (R137): Appends a bank to the recirculation list and applies its reset marks. -/
  | trec (ag : Agent) (f : T3)
  /-- STATE_AUDIT (R141): Counts executions and checkpoints the bank every G executions. -/
  | stateAudit (ag : Agent) (f : T3)
  /-- TSYNC (R71): Waits for the gang's earlier tensor instructions and returns and resets the tensor status. -/
  | tsync (ag : Agent) (f : T3)
  /-- ROPE (R192): Rotates rows of tdA by rotary position angles into tdC. -/
  | rope (ag : Agent) (f : T3)
  /-- TMASK (R194): Sets masked bank cells to −∞ from a mask bitmap. -/
  | tmask (ag : Agent) (f : T3)
  /-- TSMAX_STEP (R198): One online-softmax block: updates m and l, writes P and the rescale factors. -/
  | tsmaxStep (ag : Agent) (f : T3)
  /-- TSMAX_FINAL (R200): Writes the 1/l factors and the EMPTY bits. -/
  | tsmaxFinal (ag : Agent) (f : T3)
  /-- TSMAX_MERGE (R203): Merges a partial softmax state into the running state. -/
  | tsmaxMerge (ag : Agent) (f : T3)
  /-- TSMAX_INIT (R197): Resets a softmax state block. -/
  | tsmaxInit (ag : Agent) (f : T3)
  /-- TENSOR_INSTR_START (R128): A queued tensor instruction starts once its port is free and its bank and carrel dependencies have finished. -/
  | tensorInstrStart (core seq : Nat)
  /-- TENSOR_INSTR_FINISH (R129): A tensor instruction finishes and its results become readable. -/
  | tensorInstrFinish (core seq : Nat)
  /-- PRISM_FEED_FETCH (R175): The Prism feed fetches lines and weights into the Prism store when it has room. -/
  | prismFeedFetch (core : Nat)
  /-- FMOVE_FINISH (R260): A folio move finishes when the last of its writes has been accepted at its home. -/
  | fmoveFinish (core seq : Nat)
  /-- GANG_ADMIT (R84): A gang is admitted once a gang number, storage and its banks are free, with its registers initialised. -/
  | gangAdmit (core parcel gang : Nat) (banks : List Nat)
  /-- GANG_RETIRE (R84): A gang whose threads have exited and whose tensor work has finished retires and frees its resources. -/
  | gangRetire (core gang : Nat)
  /-- GANG_PARK_SWAP (R87): The core parks a blocked live gang and unparks a ready parked one. -/
  | gangParkSwap (core : Nat)
  /-- CORE_FLT_CAUSE_CLEAR (R93): Writing 1 to VALID clears the core's fault record. -/
  | coreFltCauseClear (ag : Agent) (core : Nat) (v : W32)
  /-- SCHED_TALLY_ALLOC (R290): A read of SCHED_TALLY_ALLOC_LO allocates a tally for the context in SCHED_TALLY_CTX. -/
  | schedTallyAlloc (ag : Agent)
  /-- SCHED_TALLY_FREE (R290): A write of a handle frees that tally and ends its pending waits with TALLY_FREED. -/
  | schedTallyFree (ag : Agent) (v : W32)
  /-- PARCEL_RERUN (R161): A parcel whose saturated fraction exceeded the threshold is re-run once with narrow drains altered to BF16. -/
  | parcelRerun (n : Nat)
  /-- PIDX_RQ_DB (R210): A doorbell write wakes the memory processor to examine the request ring. -/
  | pidxRqDb (ag : Agent) (v : W32)
  /-- OPEN (R212): Opens the lowest CLOSED sequence record from an OPEN block. -/
  | kvOpen
  /-- CLOSE (R212): Frees every page of a sequence and closes it. -/
  | close
  /-- PIN (R219): Restores residency and adds a pin to a sequence. -/
  | pin
  /-- UNPIN (R215): Removes a pin and, at 0, frees held empty pages. -/
  | unpin
  /-- APPEND (R212): Restores residency and reserves committed slots. -/
  | append
  /-- TAPPEND (R212): Restores residency and reserves tentative slots. -/
  | tappend
  /-- COMMIT (R212): Makes the first c tentative slots committed. -/
  | commit
  /-- DISCARD (R215): Releases the last n tentative slots and frees or holds emptied pages. -/
  | discard
  /-- KV_BAD_REQUEST (R212): A request entry with an unlisted OP is refused. -/
  | kvBadRequest
  /-- RECOMPUTE_COMPLETE (R219): The recompute parcel completes; the pages become LIVE or are freed, and the request continues or fails. -/
  | recomputeComplete (n : Nat)
  /-- REFLEX_CORE_ENABLE (R228): Setting EN reserves a logical core for reflex work and starts its drain. -/
  | reflexCoreEnable (ag : Agent) (n : BitVec 4) (lcore : BitVec 8)
  /-- REFLEX_CORE_DISABLE (R228): Clearing EN returns a core that is not RUNNING to dispatch. -/
  | reflexCoreDisable (ag : Agent) (n : BitVec 4)
  /-- REFLEX_CORE_READY (R228): When the last admitted gang retires, a DRAINING reflex core becomes READY. -/
  | reflexCoreReady (n : Nat)
  /-- REFLEX_FRAME_LANDING (R232): A frame that passes a group's stream filter lands in the workspace and IN_TALLY is signalled. -/
  | reflexFrameLanding
  /-- REFLEX_TICK (R234): A TIMED tick latches a step; a tick that finds the previous step not started counts OVERRUN. -/
  | reflexTick (n k : Nat)
  /-- REFLEX_ARRIVE_LATCH (R234): Under ARRIVE, a landing latches a step no sooner than PERIOD after the previous latch. -/
  | reflexArriveLatch (n k : Nat)
  /-- REFLEX_STEP_START (R235): A due step starts in order of deadline when the array is free, applying reset marks. -/
  | reflexStepStart (n : Nat)
  /-- REFLEX_STEP_END (R234): A step's state write ends, and STEP_TALLY and the counters advance. -/
  | reflexStepEnd (n k : Nat)
  /-- REFLEX_OUTPUT_FRAME (R233): After the head, an output frame is built and queued for each output stream. -/
  | reflexOutputFrame (n k : Nat)
  /-- REFLEX_RESET_MARK (R237): A W1S write of MARK bits requests row resets at the next latch. -/
  | reflexResetMark (ag : Agent) (group : BitVec 6) (v : W32)
  /-- REFLEX_STOP (R241): Writing STOP asks a group to end at its next step boundary. -/
  | reflexStop (ag : Agent) (group : BitVec 6)
  /-- REFLEX_GROUP_END (R241): At the step boundary a stopping group's slices are cleared and its parcel completes. -/
  | reflexGroupEnd (n k : Nat)
  /-- REFLEX_HOLD_EXPIRY (R242): After 60 s on HOLD without a reclaim, the group ends with LEASE_LOST. -/
  | reflexHoldExpiry (n k : Nat)
  /-- REFLEX_RESUME (R243): After a fence, the group resumes on the spare from its checkpoint or initial states. -/
  | reflexResume (n k : Nat)
  /-- VLT_CMAP_WRITE (R250): Writing CMAP makes the memory processor build the carrel mapping tables. -/
  | vltCmapWrite (ag : Agent) (hi : Bool) (v : W32)
  /-- VLT_TLBINV (R253): Writing VLT_TLBINV_LO starts a translation invalidation for a firmware processor. -/
  | vltTlbinv (ag : Agent) (hi : Bool) (v : W32)
  /-- TLBINV_DONE (R253): Every translation cache has dropped the entry and BUSY clears. -/
  | tlbinvDone
  /-- VLT_LBLK_WRITE (R257): A change of block placement takes effect within 1 µs. -/
  | vltLblkWrite (ag : Agent) (n : BitVec 10) (v : W32)
  /-- WINDOW_START (R261): Setting START checks a window descriptor and starts weight streaming. -/
  | windowStart (ag : Agent) (n : BitVec 4)
  /-- WINDOW_STOP (R264): Setting STOP ends a window once its chunks in flight have landed. -/
  | windowStop (ag : Agent) (n : BitVec 4)
  /-- CHUNK_START (R262): The filler starts a chunk once there is room in the ring and fewer than 4 chunks are in flight. -/
  | chunkStart (n : Nat)
  /-- CHUNK_LANDED (R262): A chunk lands, and FILL is signalled up to the last chunk landed in order. -/
  | chunkLanded (n g : Nat)
  /-- VAULT_ACCESS_TIMEOUT (R266): An unanswered vault access is retired after 20 µs as uncorrectable, and the interface retrains.
  `va` is the address and `fetch` the kind of an agent's access. -/
  | vaultAccessTimeout (rd : VaultReader) (va pa : Nat) (fetch : Bool)
  /-- VAULT_RETRAIN_END (R266): A retraining ends; after three failures in a row the vault enters DOWN. -/
  | vaultRetrainEnd (v : Nat) (ok : Bool)
  /-- ROW_SPARING (R268): The memory processor copies a failing row into a spare row and remaps it. -/
  | rowSparing (pa waited : Nat)
  /-- PATROL_READ (R269): The patrol reads and corrects vault words on its schedule. -/
  | patrolRead (pa err : Nat)
  /-- VAULT_REFRESH (R269): Each bank is unavailable for 120 ns at each refresh interval. -/
  | vaultRefresh (v waited : Nat)
  /-- SCHED_CARD_SYNC (R276): Writing a card number asks the device to take the card up from the Catalogue. -/
  | schedCardSync (ag : Agent) (n : BitVec 14)
  /-- CARD_TAKE_UP (R276): At the kind's boundary the card is read and checked, and SYNC is written. -/
  | cardTakeUp (n : Nat)
  /-- CARD_FETCH (R275): A needed card that is absent is fetched into the card cache, evicting the least recently used. -/
  | cardFetch (n : Nat)
  /-- CONTEXT_ENABLE (R277): Setting EN makes a context ACTIVE. -/
  | contextEnable (ag : Agent) (n : BitVec 12) (v : W32)
  /-- CONTEXT_DISABLE (R277): Clearing EN stops a context's channels taking work and makes it DRAINING. -/
  | contextDisable (ag : Agent) (n : BitVec 12)
  /-- SCHED_DB (R280): A doorbell write moves a queue's or mailbox's tail, or a mailbox's consumed index, under the range rule. -/
  | schedDb (ag : Agent) (v : W32)
  /-- PARCEL_TAKE (R281): The scheduler takes a queue entry, stamps it and checks its descriptor. -/
  | parcelTake (card : Nat)
  /-- PARCEL_WAIT_END (R284): A parcel's waited tallies are met, and it is checked and dispatched. -/
  | parcelWaitEnd (n : Nat)
  /-- PARCEL_WAIT_TIMEOUT (R284): A parcel's deadline passes before its waits are met, and it completes TIMEOUT. -/
  | parcelWaitTimeout (n : Nat)
  /-- PERMIT_GRANT (R440): The Ledger grants the oldest permit request when the bucket and the grant rate allow. -/
  | permitGrant
  /-- PERMIT_TIMEOUT (R441): A first gang's permit wait passes PERMIT_TO, and the parcel or re-run ends NO_PERMIT. -/
  | permitTimeout (n : Nat)
  /-- PARCEL_COMPLETE (R287): The completion record is written and the tallies are signalled once the parcel's work has ended. -/
  | parcelComplete (n : Nat)
  /-- MAILBOX_DELIVER (R292): A message is delivered into a free receive slot, and interrupt code 4 may become pending. -/
  | mailboxDeliver (n : Nat)
  /-- MAILBOX_TX_TAKE (R292): The device takes a transmit slot that a doorbell covers. -/
  | mailboxTxTake (n : Nat)
  /-- FWP_RESTART_REQUEST (R300): Writing RESTART restarts a firmware processor alone, or leaves it HALTED after repeated restarts. -/
  | fwpRestartRequest (ag : Agent) (p : Nat)
  /-- FWP_RESTART_END (R300): A restarted processor reaches RUNNING and RSTTIME is stamped. -/
  | fwpRestartEnd (p : Nat)
  /-- FWP_KICK (R304): A processor's write to its KICK register restarts its watchdog period. -/
  | fwpKick (p : Nat)
  /-- WATCHDOG_EXPIRY (R304): A processor that has not kicked for 2^WDOG ms is restarted. -/
  | watchdogExpiry (p : Nat)
  /-- FW_FLASH_WRITE_END (R306): The boot flash write of an update ends and the take-up restarts begin. -/
  | fwFlashWriteEnd
  /-- SCHED_HEARTBEAT (R308): A write renews the named session's lease. -/
  | schedHeartbeat (ag : Agent) (v : W32)
  /-- LEASE_EXPIRY (R309): A session's lease expires and its orphan policy is applied. -/
  | leaseExpiry (n : Nat)
  /-- HOLD_EXPIRY (R311): A HELD session is not reclaimed within 60 s and is released. -/
  | holdExpiry (n : Nat)
  /-- SESSION_RELEASE (R311): A session's contexts, parcels, cards, tallies and sequences are released and it becomes CLOSED. -/
  | sessionRelease (n : Nat)
  /-- HELLO (R324): Opens a session and replies ACCEPT with the negotiated features. -/
  | hello
  /-- BYE (R325): Releases the session and replies when the release ends. -/
  | bye
  /-- HEARTBEAT (R325): Renews the session's lease. -/
  | heartbeat
  /-- LEASE_CFG (R325): Sets the session's policy, misses and heartbeat period. -/
  | leaseCfg
  /-- SUBMIT (R326): Writes parcel descriptors into a queue's ring and acts as its doorbell. -/
  | submit
  /-- CARD_SYNC (R325): Asks for a card take-up and replies when SYNC is written. -/
  | cardSync
  /-- DOORBELL (R325): Acts as a write of SCHED_DB. -/
  | doorbell
  /-- TALLY_ALLOC (R325): Allocates up to 64 tallies for a context, all or none. -/
  | tallyAlloc
  /-- TALLY_FREE (R325): Frees a list of tallies, or none when any is invalid. -/
  | tallyFree
  /-- TALLY_OP_TSIG (R325): Performs TSIG at system scope at a tally's home. -/
  | tallyOpTsig
  /-- TALLY_OP_TADD (R325): Performs TADD at system scope at a tally's home. -/
  | tallyOpTadd
  /-- TALLY_OP_TREAD (R325): Reads a tally at system scope. -/
  | tallyOpTread
  /-- TALLY_WATCH (R327): Holds a watch at a tally's home until the threshold is met or the deadline passes. -/
  | tallyWatch
  /-- TALLY_WATCH_TIMEOUT (R327): A watch's deadline passes and its deferred reply carries TIMEOUT. -/
  | tallyWatchTimeout (session seq : Nat)
  /-- READ (R328): Reads device memory under a context. -/
  | read
  /-- WRITE (R328): Writes device memory under a context and replies once the data is visible. -/
  | write
  /-- SNAPSHOT (R485): A Mehryen message arms a snapshot at a fabric time. -/
  | snapshot
  /-- REG_READ (R325): Reads registers in increasing offset. -/
  | regRead
  /-- REG_WRITE (R325): Writes registers in order. -/
  | regWrite
  /-- LOG_READ (R491): Returns a processor's log records from a given SEQ. -/
  | logRead
  /-- POWER_STATE (R428): A Mehryen message requests a power state. -/
  | powerState
  /-- POWER_CAP (R443): A Mehryen message sets the power cap, as a write to PWR_CAP. -/
  | powerCap
  /-- PACE_BIND (R329): Binds a job of several packages for PACE exchange. -/
  | paceBind
  /-- PACE (R329): A received PACE executes TSIG of its epoch on the peer's tally. -/
  | pace
  /-- PACE_RESEND (R329): An unanswered PACE is resent every 100 µs. -/
  | paceResend
  /-- PROPOSE (R474): Checks and holds the first signature of a two-party change. -/
  | propose
  /-- COUNTERSIGN (R475): Checks the second signature and applies the held change. -/
  | countersign
  /-- ATTEST (R480): Issues a fresh attestation certificate for the session. -/
  | attest
  /-- FW_UPDATE (R305): Checks a staged firmware image and writes it to the boot flash. -/
  | fwUpdate
  /-- FW_RESTART (R325): Restarts a firmware processor, including one that is HALTED. -/
  | fwRestart
  /-- MESSAGE_UNKNOWN_OPCODE (R325): A message with an unknown or unnegotiated opcode is answered FEATURE. -/
  | messageUnknownOpcode
  /-- REASSEMBLY_TIMEOUT (R323): A message in parts whose next part has not arrived within 100 ms is abandoned. -/
  | reassemblyTimeout (n : Nat)
  /-- ETH_FRAME_RX (R335): A frame received on a port is filtered, forwarded or delivered at port 4. -/
  | ethFrameRx (n : Nat) (raw : List Byte) (fcsOk : Bool)
  /-- ETH_FRAME_TX_START (R343): A queued frame starts transmission when its gate and shaper allow. -/
  | ethFrameTxStart (n : Nat)
  /-- GATE_CONTROL_ENTRY (R342): A gate-control interval ends and the next entry's gate states apply. -/
  | gateControlEntry (n : Nat)
  /-- QBV_CHANGE (R342): Setting CHANGE copies the admin gate list for use at the base time. -/
  | qbvChange (ag : Agent) (n : BitVec 2) (v : W32)
  /-- QBV_CONFIG_CHANGE (R342): At the base time the new gate list becomes the oper list. -/
  | qbvConfigChange (n : Nat)
  /-- LINK_DOWN (R334): A port's LINK leaves UP and its queued frames are discarded. -/
  | linkDown (n : Nat) (fault : Bool)
  /-- LINK_UP (R334): A port's link comes up at its configured speed. -/
  | linkUp (n : Nat) (verified : Bool)
  /-- ETH_TBL_READ (R337): A table command reads a TSN table entry into the data words. -/
  | ethTblRead
  /-- ETH_TBL_WRITE (R337): A table command writes a TSN table entry between frames. -/
  | ethTblWrite
  /-- FDB_AGE_OUT (R335): A learned forwarding entry ages out after AGE seconds without a frame. -/
  | fdbAgeOut (n : Nat)
  /-- CB_HISTORY_RESET (R341): A CB stream's history is cleared after RESET ms with no frame passed. -/
  | cbHistoryReset (n : Nat)
  /-- SAK_REKEY (R344): The key server distributes a fresh SAK when an SA's packet number reaches three quarters of its range. -/
  | sakRekey (n : Nat)
  /-- ETH_FLOW_DB (R346): A doorbell write moves a network flow's consumed index or transmit tail. -/
  | ethFlowDb (ag : Agent) (v : W32)
  /-- FLOW_TX_TAKE (R346): The device takes a network flow's transmit slot and sends its frame. -/
  | flowTxTake (n : Nat)
  /-- MUTE_ENGAGE (R354): After 5 low samples of MUTE_SW_N the mute path engages, stops the microphones and zeroes the archive. -/
  | muteEngage
  /-- MUTE_RELEASE (R355): After 5 high samples the mute path releases. -/
  | muteRelease
  /-- MIC_CLOCK_START (R353): A microphone clock starts PWRDLY ms after MIC_PWR_ENn rises. -/
  | micClockStart (n : Nat)
  /-- ARCHIVE_ROW_COMPLETE (R358): A 32 ms row is completed and written into its archive slot. -/
  | archiveRowComplete (samples : List (List (BitVec 16)))
  /-- ARCHIVE_COPY (R362): Writing GO checks and starts an archive copy. -/
  | archiveCopy (ag : Agent) (v : W32)
  /-- ARCHIVE_COPY_END (R363): A copy ends, STATUS is written and TALLY is signalled. -/
  | archiveCopyEnd
  /-- LOUPE_FRAME (R371): Loupe judges one 10 ms frame and may trigger or end activity. -/
  | loupeFrame (n : Nat) (xs : List (BitVec 16))
  /-- LENS_HOP (R372): Lens scores one hop and may decide and write a wake ticket. -/
  | lensHop (n hop : Nat)
  /-- MIC_BLOCK_DELIVER (R367): A microphone block is written to the receive ring or dropped. -/
  | micBlockDeliver (n : Nat) (mics : List (List (BitVec 16)))
  /-- OUTPUT_BLOCK_PLAY (R368): At a block boundary a ready block starts playing, or zeros play. -/
  | outputBlockPlay (n : Nat)
  /-- AUD_RING_DB (R369): A doorbell write moves an audio card's consumed index or tail. -/
  | audRingDb (ag : Agent) (v : W32)
  /-- CAMERA_FRAME_START (R382): A Frame Start packet opens a frame, or drops it when the ring is full. -/
  | cameraFrameStart (port vc fnum : Nat) (ecc1 : Bool)
  /-- CSI_LINE (R384): A long packet of image data is sized to WIDTH and takes a line slot. -/
  | csiLine (port vc dt : Nat) (px : List Nat) (crcOk ecc1 : Bool)
  /-- EMBEDDED_DATA_PACKET (R395): An embedded-data packet is kept and read for the sensor counter. -/
  | embeddedDataPacket (port vc : Nat) (data : List Byte) (found : PacketCheck)
  /-- CAMERA_FRAME_END (R385): A Frame End packet closes the open frame. -/
  | cameraFrameEnd (port vc : Nat) (ecc1 : Bool)
  /-- FRAME_WATCHDOG_EXPIRY (R385): A frame's watchdog expires and the frame closes as short and late. -/
  | frameWatchdogExpiry (n : Nat)
  /-- ISP_LINE_PROCESS (R388): The pipe reads the earliest completed line through its stages. -/
  | ispLineProcess (pipe : Nat)
  /-- FRAME_DELIVER (R387): A finished frame's outputs, statistics and descriptor are written and the produced index advances. -/
  | frameDeliver (n : Nat)
  /-- CSI_RING_DB (R383): A doorbell write moves a camera stream's consumed index. -/
  | csiRingDb (ag : Agent) (v : W32)
  /-- ISP_ARM (R394): A write copies the mirror bank into a keyed pending set with its tag. -/
  | ispArm (ag : Agent) (stream : BitVec 4) (v : W32)
  /-- FSYNC_EDGE (R397): An FSYNC output pulses at PHASE + n × PERIOD. -/
  | fsyncEdge (k : Nat)
  /-- I3C_XFER (R398): Writing GO arms an I3C or I2C transfer for time AT. -/
  | i3cXfer (ag : Agent) (bus : BitVec 2) (v : W32)
  /-- I3C_XFER_START (R399): The transfer drives its START at the first SCL boundary at or after AT. -/
  | i3cXferStart (k : Nat)
  /-- I3C_XFER_DONE (R399): The transfer ends, setting DONE or NACK. -/
  | i3cXferDone (k : Nat) (nack : Bool) (data : List Byte)
  /-- LADDER_ENABLE (R405): Setting EN makes the sensor processor take up the ladder table. -/
  | ladderEnable (ag : Agent) (v : W32)
  /-- LADDER_DISABLE (R405): Clearing EN takes every ladder to 0xFF and stops SERVICE parcels. -/
  | ladderDisable (ag : Agent)
  /-- LADDER_RELOAD (R405): Setting RELOAD takes up the table again. -/
  | ladderReload (ag : Agent)
  /-- VERDICT_DEADLINE (R406): A verdict not in by VDL counts as a score of 0. -/
  | verdictDeadline (k : Nat)
  /-- DEMOTION_EXPIRY (R408): A demotion timer expires and the ladder comes down. -/
  | demotionExpiry (k : Nat)
  /-- PERIODIC_SUBMIT (R410): A PERIODIC rung submits again on the first frame after each due time. -/
  | periodicSubmit (k : Nat)
  /-- TICKET_MOVE (R413): A ticket waiting in the island queue enters the ring once it has room. -/
  | ticketMove
  /-- AUD_LAD_ACK (R414): A write moves the ticket ring's acknowledged index. -/
  | audLadAck (ag : Agent) (v : W32)
  /-- PWR_STATE_REQUEST (R427): Writing GO requests the state in TARGET. -/
  | pwrStateRequest (ag : Agent) (target : BitVec 3)
  /-- POWER_ENTRY_BEGIN (R428): Drain completes and the entry into a lower state begins. -/
  | powerEntryBegin
  /-- POWER_DRAIN_TIMEOUT (R428): Drain is not complete within DRAIN_MS and the request fails. -/
  | powerDrainTimeout
  /-- DEEP_SLEEP_ENTRY_BEGIN (R428): In SLEEP, once no armed array is active, the entry into DEEP_SLEEP begins. -/
  | deepSleepEntryBegin
  /-- POWER_ENTRY_COMPLETE (R429): An entry completes, and any wake that arrived during it takes effect. -/
  | powerEntryComplete
  /-- AUTO_IDLE_ENTRY (R427): After IDLE_AFTER ms with no resident gang and no RUN claim, the device enters IDLE. -/
  | autoIdleEntry
  /-- WAKE_PIN (R430): The WAKE pin, held high for 3 crystal cycles, wakes the device to its target. -/
  | wakePin
  /-- WAKE_TIMER (R430): Fabric time reaches PWR_WAKE_AT and wakes the device. -/
  | wakeTimer
  /-- POWER_RETURN (R431): The device returns from SLEEP to IDLE or RUN, reloading time and extending leases. -/
  | powerReturn
  /-- CLUSTER_WAKE (R424): A dormant cluster that receives a parcel wakes at its BASE point. -/
  | clusterWake (c : Nat)
  /-- DVFS_TARGET_WRITE (R434): Writing TARGET makes the sequencer move a cluster or HOST to a point. -/
  | dvfsTargetWrite (ag : Agent) (c : Nat) (v : BitVec 2)
  /-- CLK_DIV_WRITE (R434): A DIV write is accepted or refused under the voltage rule. -/
  | clkDivWrite (ag : Agent) (c : Nat) (v : BitVec 2)
  /-- DVFS_VSEL_WRITE (R434): A VSEL write is accepted or refused under the frequency rule. -/
  | dvfsVselWrite (ag : Agent) (c : Nat) (v : BitVec 2)
  /-- DVFS_STEP_END (R435): A DVFS change completes and trace point 0x0040 is emitted. -/
  | dvfsStepEnd (c : Nat)
  /-- VSTEP_ACK (R436): VSTEP_ACK rises, reporting that VDD_HOST has settled. -/
  | vstepAck
  /-- VSTEP_TIMEOUT (R436): VSTEP_ACK does not rise within 1 ms and the HOST step fails. -/
  | vstepTimeout
  /-- LEDGER_REFILL (R438): At each microsecond boundary the Ledger credits its refill rate to the bucket. -/
  | ledgerRefill
  /-- LEDGER_RATE_UPDATE (R438): Every 1 ms the power processor sets the refill rate, applies the cap and moves clusters. -/
  | ledgerRateUpdate (powerMw fixedMw : Nat) (hostUp hostDown : Bool)
  /-- PWR_CAP_WRITE (R443): A cap write takes effect at the next 1 ms update, or is refused when hot. -/
  | pwrCapWrite (ag : Agent) (v : W32)
  /-- PWR_MODE_WRITE (R445): A write sets fixed-frequency or adaptive mode, or is refused. -/
  | pwrModeWrite (ag : Agent) (v : W32)
  /-- DROOP_DETECT (R446): A supply falls below the droop level and the clock is stretched. -/
  | droopDetect (c : Nat)
  /-- DROOP_STRETCH_END (R446): The supply stays above the level for 256 cycles and the stretch ends. -/
  | droopStretchEnd (c : Nat)
  /-- TEMP_SAMPLE (R447): Every 1 ms the sensors are read and the thermal responses are applied. -/
  | tempSample (temps : List (BitVec 8))
  /-- THERMAL_TRIP (R448): A sensor reaches 112 °C; THERM_TRIP_N goes low and the clocks stop until PORST_N. -/
  | thermalTrip
  /-- CORE_FENCE (R458): A detected core fault fences the core, and its parcels are treated under the restart rules. -/
  | coreFence (core cause : Nat)
  /-- HANG_DETECT (R458): A LIVE core with a ready gang that issues nothing for 1 ms is fenced. -/
  | hangDetect (core : Nat)
  /-- SUPPLY_MONITOR_FENCE (R506): A cluster regulator out of range for 10 µs fences the cluster's LIVE cores. -/
  | supplyMonitorFence (cl : Nat)
  /-- FIX_FENCE (R458): A write to FIX_FENCE fences a named physical core. -/
  | fixFence (ag : Agent) (v : W32)
  /-- ENTRY_CHECK_END (R459): A spare's entry check ends; it becomes LIVE for the number or is retired. -/
  | entryCheckEnd (core : Nat) (pass : Bool)
  /-- DEGRADED_TIMEOUT (R461): A parcel waiting for a backed core beyond DEG_MS completes FENCED_RETRY. -/
  | degradedTimeout (n : Nat)
  /-- LEDGER_APPEND (R460): The security processor appends a record to the Fence Ledger. -/
  | ledgerAppend
  /-- LEDGER_COMPACT (R466): The ledger is compacted into its other half before the active half fills. -/
  | ledgerCompact
  /-- SPARE_BIST_START (R462): A spare's periodic full BIST begins. -/
  | spareBistStart (core : Nat)
  /-- BIST_END (R464): A full BIST ends; the core is reinstated, records a column, stays fenced or retires. -/
  | bistEnd (core fails : Nat) (column : W32)
  /-- REINSTATE_BIST (R464): A fenced core that passed runs a second BIST 1 h later. -/
  | reinstateBist (core : Nat)
  /-- ROLLING_SWAP_START (R463): A rolling swap of a logical number to a spare begins on its schedule. -/
  | rollingSwapStart
  /-- ROLLING_SWAP_TIMEOUT (R463): The old core still holds gangs after 10 ms and the swap is abandoned. -/
  | rollingSwapTimeout
  /-- ROLLING_SWAP_COPY_END (R463): The carrel copy ends, the number is remapped and the old core enters TESTING. -/
  | rollingSwapCopyEnd
  /-- SETTLE_END (R478): The post-switch settle ends at SETTLE_C or after SETTLE_MAX. -/
  | settleEnd
  /-- TENANT_SWITCH_END (R478): Step 9 brings in the tenancy, releases or holds the host cores and replies to the COUNTERSIGN. -/
  | tenantSwitchEnd
  /-- MODEL_MEASURE (R481): Writing GO starts measuring a model image into the measurement list. -/
  | modelMeasure (ag : Agent) (v : W32)
  /-- MODEL_MEASURE_END (R481): A model measurement ends and its entry is appended. -/
  | modelMeasureEnd
  /-- TOP_SNAP_ARM (R485): Writing ARM arms a snapshot at TOP_SNAP_T. -/
  | topSnapArm (ag : Agent)
  /-- TOP_SNAP_CANCEL (R485): Writing CANCEL disarms a snapshot. -/
  | topSnapCancel (ag : Agent)
  /-- SNAPSHOT_TAKE (R486): At T every unit copies its counters into their shadows and SEQ advances. -/
  | snapshotTake
  /-- OBS_TRC_ACK (R490): A write moves the trace ring's consumed index. -/
  | obsTrcAck (ag : Agent) (v : W32)
  /-- ERR_SUM_CLEAR (R492): A W1C write clears error summary bits with no later event. -/
  | errSumClear (ag : Agent) (v : W32)
  /-- UART1_SEND (R501): A write of TOP_UART1_DATA queues a byte to send. -/
  | uart1Send (ag : Agent) (b : Byte)
  /-- UART1_RECEIVE_READ (R501): A read of TOP_UART1_DATA pops the oldest received byte. -/
  | uart1ReceiveRead (ag : Agent)
  /-- UART1_BYTE_RX (R501): A byte arrives on UART1_RXD and is buffered, or is lost to a full buffer. -/
  | uart1ByteRx (b : Byte)
  /-- SUPPLY_BELOW_RANGE (R509): VDD_AON, VIO_18, VDD_SOC or VDD_SRAM falls below its range and the device holds itself in reset whatever PORST_N shows. -/
  | supplyBelowRange
  /-- ILLEGAL_INSTR (R45): An instruction word with a reserved major or func, or a length bit that disagrees with its major, such as a word of all zeros, raises ILLEGAL_INSTR. -/
  | illegalInstr (ag : Agent) (w0 w1 : W32)
  /-- GPTP_MESSAGE_INTERVAL (R338): At its IEEE 802.1AS-2020 intervals each gPTP instance sends peer-delay requests and, as grandmaster, Sync and Announce. -/
  | gptpMessageInterval (d : Nat)
  /-- MKA_TIMER (R344): On a protected port the MKA hello and live-peer timers send MKPDUs, and when a peer lapses the port drops out of SECURED. -/
  | mkaTimer (n : Nat)
  /-- CSI_LINK_STATE_CHANGE (R378): A camera port's D-PHY lanes move between STOP, ACTIVE and ULPS, or complete deskew calibration, as the sensor drives them, which sets CSI_Pn_STAT. -/
  | csiLinkStateChange (port link : Nat) (deskewed : Bool)
  /-- CSI_PACKET_DISCARD (R380): A packet with an uncorrectable header, an unsupported data type or no enabled stream is discarded and counted in ECC2, BADDT or NOSTREAM. -/
  | csiPacketDiscard (port cause : Nat)
  /-- UART1_BYTE_SENT (R501): A queued byte finishes shifting out on UART1_TXD, and the count of bytes awaiting transmission falls. -/
  | uart1ByteSent
  /-- JTAG_TCK_EDGE (R482): A TCK edge advances the IEEE 1149.1 TAP, which offers IDCODE 0x0176_0021 and BYPASS and treats other instructions as BYPASS while debug is locked. -/
  | jtagTckEdge (tms tdi trstN : Bool)
  deriving DecidableEq, Repr

end Sys2Proof
end

