-- ==== Sys2Proof/Config.lean ====
section
/-! DEFINITION. What the spec leaves open: constants and functions with no body, so that nothing can be proved of
their values, and a statement about the model holds for every choice of them. -/

namespace Sys2Proof.Config

/-- The result an SFU function offers for an operand; it is taken only inside the error bound of R55. -/
opaque sfuOffer (func : Nat) (a : W32) : W32

/-- Whether FLT and FLE on a quiet NaN set csr_fpctl.INVALID; R52 and R54 state only the result. -/
opaque cmpQuietNaNInvalid : Bool

/-- csr_cyc: HOST cycles have no rule by command, so each read takes a free value (R75). -/
opaque hostCycles (n : Nat) : W64

/-- A word no rule determines, drawn by the state's counter `free`: random tokens, keys and nonces. -/
opaque freeWord (n : Nat) : W64

/-- Register `i` of a host core, integer below 32 and floating-point from 32, after SLEEP has lost it, by the count of free values
drawn (R425). -/
opaque lostRegister (n i : Nat) : W64

/-- How far a temperature sensor lies from a cluster other than its own: the spec gives no floor plan (R447). -/
opaque sensorDistance (sensor cluster : Nat) : Nat

/-- How far a block's copy of fabric time stands behind the master after a realignment; taken modulo 5 (R27). -/
opaque copyLag (n block : Nat) : Nat

/-- The place of a lane in the order in which the homes perform the accesses of one instruction of a gang: no rule orders
them (R103). -/
opaque laneOrder (n lane : Nat) : Nat

/-- The SRAM column record of the column that holds a 64-bit word of the Stacks: the spec gives the numbering of the macros no
layout (*Fault coverage*). -/
opaque stacksColumn (word : Nat) : W32

/-- Which learned entry of a full bucket of the forwarding database gives way to another (R335, R337). -/
opaque fdbVictim (n : Nat) : Nat

/-- Page number of the level-1 table of the carrel mapping; the memory processor chooses it (R250). -/
opaque cmapPage : Nat

/-- The result the exp2 unit of TSMAX offers for an exponent m * 2^e below 0; taken only inside its bound (R198). -/
opaque exp2Offer (m : Nat) (e : Int) : W32

/-- The cosine (false) or sine (true) that ROPE offers for position n and frequency w; taken only inside its bound
(R192). -/
opaque ropeOffer (sine : Bool) (n w : W32) : W32

/-- The sigmoid (false) or hyperbolic tangent (true) the reflex cell unit offers; taken only inside its bound (R225). -/
opaque gateOffer (tanh : Bool) (a : W32) : W32

/-- The echo-cancelled sample of an archive channel: from AUD_AEC_CFG, the archive index at which the weights were last 0, the index
and value of the captured sample, and what the reference port plays. R366 rests on a decimation filter that the spec bounds and
does not give, and on an order of FP32 sums that it does not state. -/
opaque aecSample (cfg channel from_ index : Nat) (captured : BitVec 16) (played : List Byte) : BitVec 16

/-- A hop of the keyword model on one island beam: the model's state after it, and its score. The sensor processor loads the model
into island SRAM, and the spec does not give it (R372). -/
opaque lensModel (state : Nat) (beam : List Int) : Nat × BitVec 8

/-- The level E that Loupe measures for a sum of squares, in units of 1 / 3,603,600 dB; taken only within 0.25 dB of the level. -/
opaque loupeLevel (sum : Nat) : Int

/-- A component of an RGB planar output of a YUV422 stream, which enters the pipe after the stage that R391 reads: the spec
states no value. By a count of draws and the place. -/
opaque camUnstated (n plane index : Nat) : Nat

/-- SHAKE256 of a byte string, as the number its first 64 bytes spell; the spec names the function and does not give it. -/
opaque shakeWord (bytes : List Byte) : BitVec 512

/-- The first 64 bytes of SHAKE256 of a byte string. -/
def shake256 (bytes : List Byte) : List Byte := (List.range 64).map fun i => (shakeWord bytes).extractLsb' (8 * i) 8

/-- Whether a Falcon-1024 signature verifies under a key over a message (R473). -/
opaque falconVerify (key message signature : List Byte) : Bool

/-- A Falcon-1024 signature made by the device key over a message. -/
opaque falconSign (message : List Byte) : List Byte

/-- Page number of the virtual address at which the memory processor maps the sequence table (R209); it chooses it. -/
opaque seqPage : Nat

/-- Bucket of the forwarding database for a MAC address and VLAN (R337 names 8-entry hash buckets and no hash). -/
opaque fdbHash (mac vid : Nat) : Nat

/-- What a protected frame holds under a SAK, if it authenticates (IEEE 802.1AE, which the spec names and does not give). -/
opaque macsecOpen (sak : W64) (bytes : List Byte) : Option (List Byte)

/-- Whether an EAPOL frame is a valid MKPDU of a live peer under the fleet link key of a key group (IEEE 802.1X MKA). -/
opaque mkaAccepts (keygrp : Nat) (bytes : List Byte) : Bool

/-- The SAK that an MKPDU distributes under that key, if it distributes one. -/
opaque mkaSak (keygrp : Nat) (bytes : List Byte) : Option W64

/-- The octets of an MKPDU under that key: with a key server priority, the SAK that a key server distributes, and a count. -/
opaque mkaBody (keygrp prio : Nat) (sak : Option W64) (n : Nat) : List Byte

/-- The rate that the servo chooses for a measured offset, in parts per 10^9, by a count of draws (R31). -/
opaque servoRate (n : Nat) (offset : Int) : Int

/-- Octets at the end of a fragment that a preemption still sends, taken inside the bound of R343, by a count of draws. -/
opaque fragTail (n : Nat) : Nat

/-- A byte of a carrel or of the Stacks that SLEEP has lost, by the count of such losses (R425). -/
opaque lostByte (count addr : Nat) : Byte

/-- The public key of Stopirum, in the device since manufacture (R305). -/
opaque stopirumKey : List Byte

/-- The key of the Fence Ledger (R465). -/
opaque ledgerKey : List Byte

/-- A byte of a carrel after a full BIST of its core, by a count of draws and the place: the march tests leave no stated value. -/
opaque bistByte (n i : Nat) : Byte

/-- Number of bits of the JTAG instruction register, and the code of IDCODE, which R482 does not give. -/
opaque jtagIrLen : Nat
opaque jtagIdcode : Nat

/-- Octets of the device certificate that an attestation certificate copies: its signature algorithm identifier, its subject,
its subjectPublicKeyInfo, and the content octets of the first policy identifier (R480), read from the certificate. -/
opaque certPart (certificate : List Byte) (part : Nat) : List Byte

/-- LEVEL of the log record of a restart's end: R300 has the record written and states no level. -/
opaque restartLevel : Nat

/-- Whether a gang that nothing else holds back cannot issue in a cycle of a core, by fabric time, the core's count of issues and
the gang: a source register of its next instruction is not available yet, or that instruction waits for the tensor queue (R89). -/
opaque sourceHeld (now issued gang : Nat) : Bool

/-- The Sync interval of the gPTP domain followed, in nanoseconds; the spec does not give it (R32). -/
opaque syncInterval : Nat

/-- The physical core that an SRAM macro belongs to, in the numbering of the FIX block, which the spec does not give (R457). -/
opaque macroCore (m : Nat) : Option Nat

end Sys2Proof.Config
end

