-- ==== Sys2Proof/Machine/Fp.lean ====
section
/-! DEFINITION. Number formats and exact arithmetic: the storage and accumulator formats of R143 and R144, one
rounding function for every mode of R149, the conversions of R153, and the special-function unit of R55. A finite
value is held exactly as a magnitude times a power of two. -/

namespace Sys2Proof.Fp

/-- A value of any floating format: NaN, a signed infinity, or a signed magnitude `m * 2^e`. -/
inductive Val where
  | nan
  | inf (neg : Bool)
  | fin (neg : Bool) (m : Nat) (e : Int)
  deriving DecidableEq, Repr

/-- How the top codes of a format are used (R143). -/
inductive Special where
  | ieee   -- the largest exponent holds infinity and NaN
  | e4m3   -- only the all-ones code is NaN
  | none   -- every code is finite
  deriving DecidableEq, Repr

/-- A floating format: exponent bits, stored significand bits, bias, and the use of its top codes. -/
structure Format where
  ebits : Nat
  mbits : Nat
  bias : Nat
  special : Special
  deriving DecidableEq, Repr

def fp32 : Format := ⟨8, 23, 127, .ieee⟩
def bf16 : Format := ⟨8, 7, 127, .ieee⟩
def fp16 : Format := ⟨5, 10, 15, .ieee⟩
def e4m3 : Format := ⟨4, 3, 7, .e4m3⟩
def e5m2 : Format := ⟨5, 2, 15, .ieee⟩
def e3m2 : Format := ⟨3, 2, 3, .none⟩
def e2m1 : Format := ⟨2, 1, 1, .none⟩
/-- The accumulator cell of R120. -/
def a40 : Format := ⟨8, 31, 127, .ieee⟩

/-- The width of a format in bits. -/
def Format.width (f : Format) : Nat := 1 + f.ebits + f.mbits

/-- The largest finite magnitude code (R143). -/
def Format.maxCode (f : Format) : Nat :=
  match f.special with
  | .ieee => (2 ^ f.ebits - 1) * 2 ^ f.mbits - 1
  | .e4m3 => 2 ^ (f.ebits + f.mbits) - 2
  | .none => 2 ^ (f.ebits + f.mbits) - 1

/-- The canonical NaN code of a format; a format without NaN gives +0 (R143, R153). -/
def Format.nanCode (f : Format) : Nat :=
  match f.special with
  | .ieee => (2 ^ f.ebits - 1) * 2 ^ f.mbits + 2 ^ (f.mbits - 1)
  | .e4m3 => 2 ^ (f.ebits + f.mbits) - 1
  | .none => 0

/-- The code of an infinity of an IEEE-like format. -/
def Format.infCode (f : Format) (neg : Bool) : Nat :=
  (2 ^ f.ebits - 1) * 2 ^ f.mbits + (if neg then 2 ^ (f.ebits + f.mbits) else 0)

/-- Put the sign bit on a magnitude code. -/
def Format.signed (f : Format) (neg : Bool) (code : Nat) : Nat :=
  code + (if neg then 2 ^ (f.ebits + f.mbits) else 0)

/-- The value a code stands for (R143). -/
def Format.value (f : Format) (bits : Nat) : Val :=
  let neg := bits / 2 ^ (f.ebits + f.mbits) % 2 = 1
  let e := bits / 2 ^ f.mbits % 2 ^ f.ebits
  let m := bits % 2 ^ f.mbits
  let finite : Val :=
    if e = 0 then .fin neg m (1 - (f.bias : Int) - f.mbits)
    else .fin neg (2 ^ f.mbits + m) ((e : Int) - f.bias - f.mbits)
  match f.special with
  | .ieee => if e = 2 ^ f.ebits - 1 then (if m = 0 then .inf neg else .nan) else finite
  | .e4m3 => if e = 2 ^ f.ebits - 1 ∧ m = 2 ^ f.mbits - 1 then .nan else finite
  | .none => finite

/-- Rounding modes (R149); the stochastic mode carries its 16-bit draw r (R150). -/
inductive Rnd where
  | nearest | zero | up | down
  | stochastic (r : Nat)
  deriving DecidableEq, Repr

/-- `m * 2^e` as an integer quotient of `2^q`, and whether a remainder is left: (quotient, remainder, divisor). -/
def quotient (m : Nat) (e q : Int) : Nat × Nat × Nat :=
  if e ≥ q then (m * 2 ^ (e - q).toNat, 0, 1)
  else
    let d := 2 ^ (q - e).toNat
    (m / d, m % d, d)

/-- Round a non-negative quotient `t + rem/d` to an integer under a mode (R149, R150). -/
def roundQuotient (rnd : Rnd) (neg : Bool) (t rem d : Nat) : Nat :=
  if rem = 0 then t
  else match rnd with
    | .nearest => if 2 * rem > d ∨ (2 * rem = d ∧ t % 2 = 1) then t + 1 else t
    | .zero => t
    | .up => if neg then t else t + 1
    | .down => if neg then t + 1 else t
    | .stochastic r => if rem * 65536 / d + r ≥ 65536 then t + 1 else t

/-- The outcome of rounding a finite magnitude: its magnitude code, and whether it is inexact. The code of a magnitude
beyond the largest finite value is larger than `maxCode`. -/
def Format.roundMag (f : Format) (rnd : Rnd) (neg : Bool) (m : Nat) (e : Int) : Nat × Bool :=
  if m = 0 then (0, false)
  else
    let top : Int := e + Nat.log2 m
    let emin : Int := 1 - (f.bias : Int)
    let q : Int := (if top < emin then emin else top) - f.mbits
    let (t, rem, d) := quotient m e q
    let n := roundQuotient rnd neg t rem d
    (((q + f.mbits + f.bias).toNat - 1) * 2 ^ f.mbits + n, rem != 0)

/-- Exact negation. -/
def Val.neg : Val → Val
  | .nan => .nan
  | .inf s => .inf (!s)
  | .fin s m e => .fin (!s) m e

/-- Exact sum; the sign of an exact zero follows IEEE 754 under the mode (R54, R118). -/
def Val.add (rnd : Rnd) : Val → Val → Val
  | .nan, _ => .nan
  | _, .nan => .nan
  | .inf s, .inf s' => if s = s' then .inf s else .nan
  | .inf s, .fin .. => .inf s
  | .fin .., .inf s => .inf s
  | .fin s m e, .fin s' m' e' =>
    let q := min e e'
    let a : Int := (m * 2 ^ (e - q).toNat : Nat)
    let b : Int := (m' * 2 ^ (e' - q).toNat : Nat)
    let r : Int := (if s then -a else a) + (if s' then -b else b)
    if r = 0 then
      .fin (if m = 0 ∧ m' = 0 ∧ s = s' then s else rnd = .down) 0 q
    else .fin (r < 0) r.natAbs q

/-- Exact product; infinity times zero is NaN (R118). -/
def Val.mul : Val → Val → Val
  | .nan, _ => .nan
  | _, .nan => .nan
  | .inf s, .inf s' => .inf (s != s')
  | .inf s, .fin s' m _ => if m = 0 then .nan else .inf (s != s')
  | .fin s m _, .inf s' => if m = 0 then .nan else .inf (s != s')
  | .fin s m e, .fin s' m' e' => .fin (s != s') (m * m') (e + e')

/-- An integer as an exact value. -/
def Val.ofInt (i : Int) : Val := .fin (i < 0) i.natAbs 0

/-- Multiply by a power of two, exactly (R146). -/
def Val.scale (k : Int) : Val → Val
  | .fin s m e => .fin s m (e + k)
  | v => v

/-- Sign of a value; NaN has none. -/
def Val.isNeg : Val → Bool
  | .nan => false
  | .inf s => s
  | .fin s _ _ => s

/-- Zero of either sign. -/
def Val.isZero : Val → Bool
  | .fin _ m _ => m = 0
  | _ => false

/-- NaN. -/
def Val.isNan : Val → Bool
  | .nan => true
  | _ => false

/-- Infinite. -/
def Val.isInf : Val → Bool
  | .inf _ => true
  | _ => false

/-- Exact comparison of two values that are not NaN: -1, 0 or 1, with -0 equal to +0. -/
def Val.cmp : Val → Val → Int
  | .inf s, .inf s' => if s = s' then 0 else if s then -1 else 1
  | .inf s, _ => if s then -1 else 1
  | _, .inf s => if s then 1 else -1
  | .fin s m e, .fin s' m' e' =>
    let q := min e e'
    let a : Int := (m * 2 ^ (e - q).toNat : Nat)
    let b : Int := (m' * 2 ^ (e' - q).toNat : Nat)
    let a := if s then -a else a
    let b := if s' then -b else b
    if a < b then -1 else if a = b then 0 else 1
  | _, _ => 0

/-- The sticky flags of csr_fpctl that one operation raises (R54). -/
structure Flags where
  invalid : Bool := false
  divzero : Bool := false
  overflow : Bool := false
  underflow : Bool := false
  inexact : Bool := false
  deriving DecidableEq, Repr

/-- The union of two sets of flags. -/
def Flags.or (a b : Flags) : Flags :=
  ⟨a.invalid || b.invalid, a.divzero || b.divzero, a.overflow || b.overflow,
    a.underflow || b.underflow, a.inexact || b.inexact⟩

/-- Whether an IEEE overflow under a mode gives infinity or the largest finite value (R153). -/
def overflowsToInf (rnd : Rnd) (neg : Bool) : Bool :=
  match rnd with
  | .nearest => true
  | .stochastic _ => true
  | .zero => false
  | .up => !neg
  | .down => neg

/-- Round an exact value to an IEEE-like format, with its flags: the arithmetic result of R54. -/
def Format.round (f : Format) (rnd : Rnd) : Val → Nat × Flags
  | .nan => (f.nanCode, {})
  | .inf s => (f.infCode s, {})
  | .fin s m e =>
    let (code, ix) := f.roundMag rnd s m e
    if code > f.maxCode then
      (if overflowsToInf rnd s then f.infCode s else f.signed s f.maxCode,
        { overflow := true, inexact := true })
    else (f.signed s code, { inexact := ix, underflow := ix && code < 2 ^ f.mbits })

/-- A signaling NaN code of FP32: NaN whose top significand bit is 0. -/
def isSignaling (a : W32) : Bool :=
  decide (fp32.value a.toNat = .nan) && !a.getLsbD 22

/-- An FP32 operation on exact operands: the rounded result, with INVALID when a NaN arises or a signaling NaN is read.
DESIGN CHOICE, log 137: FFMA of 0 times infinity plus a quiet NaN does not set INVALID, which IEEE 754-2019 leaves to the
implementation. -/
def fp32Result (rnd : Rnd) (ops : List W32) (exact : Val) : W32 × Flags :=
  let (c, fl) := fp32.round rnd exact
  let anyNan := ops.any fun a => decide (fp32.value a.toNat = .nan)
  (BitVec.ofNat 32 c,
    { fl with invalid := ops.any isSignaling || (decide (exact = .nan) && !anyNan) })

/-- FADD (R55). -/
def fadd (rnd : Rnd) (a b : W32) : W32 × Flags :=
  fp32Result rnd [a, b] (Val.add rnd (fp32.value a.toNat) (fp32.value b.toNat))

/-- FSUB (R55). -/
def fsub (rnd : Rnd) (a b : W32) : W32 × Flags :=
  fp32Result rnd [a, b] (Val.add rnd (fp32.value a.toNat) (fp32.value b.toNat).neg)

/-- FMUL (R55). -/
def fmul (rnd : Rnd) (a b : W32) : W32 × Flags :=
  fp32Result rnd [a, b] (Val.mul (fp32.value a.toNat) (fp32.value b.toNat))

/-- FFMA: A times B plus D, rounded once (R55). -/
def ffma (rnd : Rnd) (a b d : W32) : W32 × Flags :=
  fp32Result rnd [a, b, d]
    (Val.add rnd (Val.mul (fp32.value a.toNat) (fp32.value b.toNat)) (fp32.value d.toNat))

/-- minimumNumber or maximumNumber of IEEE 754-2019 on codes of a format; -0 is less than +0 (R55). -/
def Format.minMax (f : Format) (wantMax : Bool) (a b : Nat) : Nat :=
  match f.value a, f.value b with
  | .nan, .nan => f.nanCode
  | .nan, _ => b
  | _, .nan => a
  | va, vb =>
    let c := Val.cmp va vb
    let aLess := if c = 0 then va.isNeg && !vb.isNeg else decide (c < 0)
    if wantMax then (if aLess then b else a)
    else (if c = 0 && va.isNeg == vb.isNeg then a else if aLess then a else b)

/-- FMIN and FMAX (R55). -/
def fminmax (wantMax : Bool) (a b : W32) : W32 × Flags :=
  (BitVec.ofNat 32 (fp32.minMax wantMax a.toNat b.toNat),
    { invalid := isSignaling a || isSignaling b })

/-- The FP32 conditions of R52: FEQ 8, FLT 9, FLE 10, FUN 11. -/
def fcmp (cond : Nat) (a b : W32) : Bool × Flags :=
  let va := fp32.value a.toNat
  let vb := fp32.value b.toNat
  let anyNan := va.isNan || vb.isNan
  let sig := isSignaling a || isSignaling b
  let res := match cond with
    | 8 => !anyNan && decide (Val.cmp va vb = 0)
    | 9 => !anyNan && decide (Val.cmp va vb < 0)
    | 10 => !anyNan && decide (Val.cmp va vb ≤ 0)
    | _ => anyNan
  (res, { invalid := sig || ((cond == 9 || cond == 10) && anyNan && Config.cmpQuietNaNInvalid) })

/-! ## Conversions (R153 to R155) -/

/-- The floating format of a storage-format code, if it is one (R143, R144). -/
def floatOf (code : Nat) : Option Format :=
  match code with
  | 0 => some fp32 | 1 => some bf16 | 2 => some fp16 | 3 => some e4m3
  | 4 => some e5m2 | 5 => some e3m2 | 6 => some e2m1 | 14 => some a40
  | _ => none

/-- The width of an integer format code, if it is one. -/
def intWidth (code : Nat) : Option Nat :=
  match code with
  | 7 => some 16 | 8 => some 8 | 9 => some 4 | 15 => some 32
  | _ => none

/-- The width in bits of a format code in memory (R143, R144). -/
def widthOf (code : Nat) : Nat :=
  match code with
  | 0 => 32 | 1 => 16 | 2 => 16 | 3 => 8 | 4 => 8 | 5 => 6 | 6 => 4 | 7 => 16 | 8 => 8 | 9 => 4
  | 14 => 64 | 15 => 32 | _ => 0

/-- An FP6-B or FP4-B code, which carries an E8M0 block scale (R146). -/
def isBlock (code : Nat) : Bool := code = 5 || code = 6

/-- An integer format code. -/
def isInt (code : Nat) : Bool := (intWidth code).isSome

/-- The two's complement value of the low w bits. -/
def toSigned (w n : Nat) : Int :=
  let x := n % 2 ^ w
  if x ≥ 2 ^ (w - 1) then (x : Int) - 2 ^ w else x

/-- The value of the element code of a format, before any block scale. -/
def valueOf (code bits : Nat) : Val :=
  match floatOf code with
  | some f => f.value bits
  | none => match intWidth code with
    | some w => Val.ofInt (toSigned w bits)
    | none => .nan

/-- The value of an element under an E8M0 block scale; scale code 255 is NaN (R146). -/
def scaledValue (code bits scale : Nat) : Val :=
  if isBlock code then
    (if scale = 255 then .nan else (valueOf code bits).scale ((scale : Int) - 127))
  else valueOf code bits

/-- The outcome of one conversion: the bits, whether the element saturated, and the host flags (R153, R155). -/
structure Conv where
  bits : Nat
  sat : Bool := false
  flags : Flags := {}
  deriving DecidableEq, Repr

/-- Convert an exact value to a floating format; `ieee` is CVT's path for FP32, BF16 and FP16 (R153). -/
def convFloat (f : Format) (ieee : Bool) (rnd : Rnd) (v : Val) : Conv :=
  match v with
  | .nan => { bits := f.nanCode, flags := { invalid := decide (f.special = .none) } }
  | .inf s =>
    if ieee then { bits := f.infCode s }
    else { bits := f.signed s f.maxCode, sat := true, flags := { overflow := true, inexact := true } }
  | .fin s m e =>
    let (code, ix) := f.roundMag rnd s m e
    if code > f.maxCode then
      let fl : Flags := { overflow := true, inexact := true }
      if ieee then
        { bits := if overflowsToInf rnd s then f.infCode s else f.signed s f.maxCode, flags := fl }
      else { bits := f.signed s f.maxCode, sat := true, flags := fl }
    else
      { bits := f.signed s code
        flags := { inexact := ix, underflow := ix && decide (code < 2 ^ f.mbits) } }

/-- Round a finite value to an integer under a mode, without saturation (R154). -/
def roundInt (rnd : Rnd) (s : Bool) (m : Nat) (e : Int) : Int × Bool :=
  let (t, rem, d) := quotient m e 0
  let n := roundQuotient rnd s t rem d
  (if s then -(n : Int) else n, rem != 0)

/-- Convert an exact value to a two's complement format of width w, saturating (R153, R154). -/
def convInt (w : Nat) (rnd : Rnd) (v : Val) : Conv :=
  let hi : Int := 2 ^ (w - 1) - 1
  let lo : Int := -(2 ^ (w - 1))
  let enc (i : Int) : Nat := (i % 2 ^ w).toNat
  match v with
  | .nan => { bits := 0, sat := true, flags := { invalid := true } }
  | .inf s => { bits := enc (if s then lo else hi), sat := true, flags := { overflow := true, inexact := true } }
  | .fin s m e =>
    let (i, ix) := roundInt rnd s m e
    if i > hi then { bits := enc hi, sat := true, flags := { overflow := true, inexact := true } }
    else if i < lo then { bits := enc lo, sat := true, flags := { overflow := true, inexact := true } }
    else { bits := enc i, flags := { inexact := ix, underflow := ix && decide (i = 0) } }

/-- Convert an exact value to a format code. `cvt` selects CVT's path rather than TDRAIN's (R153). -/
def convert (code : Nat) (cvt : Bool) (rnd : Rnd) (v : Val) : Conv :=
  match floatOf code with
  | some f => convFloat f (cvt && decide (code ≤ 2)) rnd v
  | none => match intWidth code with
    | some w => convInt w rnd v
    | none => { bits := 0 }

/-- FP32 code of a magnitude rounded toward +infinity, as the statistics gatherer takes it (R157). -/
def magUp (v : Val) : Nat :=
  match v with
  | .nan => 0
  | .inf _ => fp32.infCode false
  | .fin _ m e =>
    let (code, _) := fp32.roundMag .up false m e
    if code > fp32.maxCode then fp32.infCode false else code

/-! ## A40 cells and INT32 cells (R117 to R120) -/

/-- Round an exact value to an A40 cell, to nearest-even (R117). -/
def toA40 (v : Val) : Nat := (a40.round .nearest v).1

/-- Saturate an integer to INT32 (R117). -/
def satInt32 (i : Int) : Int :=
  if i > 2147483647 then 2147483647 else if i < -2147483648 then -2147483648 else i

/-- The 40-bit cell of an INT32 value: bits 39:32 copy bit 31 (R120). -/
def cellOfInt (i : Int) : BitVec 40 := BitVec.ofInt 40 i

/-! ## The special-function unit (R55) -/

/-- Fixed-point one with 96 fraction bits. -/
def one96 : Nat := 2 ^ 96

/-- Taylor terms of e^x for a fixed-point x below one, with a running term. -/
def expTaylor (x : Nat) : Nat → Nat → Nat → Nat → Nat
  | 0, _, _, acc => acc
  | fuel + 1, k, term, acc =>
    let t := term * x / one96 / k
    expTaylor x fuel (k + 1) t (acc + t)

/-- ln 2 with 96 fraction bits. -/
def ln2Fix : Nat := 54916777467707473351141471128

/-- 2^f for a fixed-point fraction f, with 96 fraction bits. -/
def exp2Frac (f : Nat) : Nat := expTaylor (f * ln2Fix / one96) 32 1 one96 one96

/-- 2^x of an exact finite value, as a magnitude and exponent; x must be moderate in size. -/
def exp2Ref (s : Bool) (m : Nat) (e : Int) : Nat × Int :=
  let x : Nat := (quotient m (e + 96) 0).1
  let ip := x / one96
  let fp := x % one96
  if s then
    if fp = 0 then (one96, -96 - (ip : Int))
    else (exp2Frac (one96 - fp), -97 - (ip : Int))
  else (exp2Frac fp, -96 + (ip : Int))

/-- Fraction bits of log2 of a fixed-point number in [1, 2), by repeated squaring. -/
def log2Bits : Nat → Nat → Nat → Nat
  | 0, _, acc => acc
  | fuel + 1, x, acc =>
    let y := x * x / one96
    if y ≥ 2 * one96 then log2Bits fuel (y / 2) (2 * acc + 1) else log2Bits fuel y (2 * acc)

/-- log2 of a positive finite value, as a value with 64 fraction bits. -/
def log2Ref (m : Nat) (e : Int) : Val :=
  let k := Nat.log2 m
  let x := (quotient m (96 - (k : Int)) 0).1
  let frac : Int := log2Bits 64 x 0
  let whole : Int := e + k
  let r := whole * 2 ^ 64 + frac
  .fin (r < 0) r.natAbs (-64)

/-- The logistic sigmoid of an exact value, as a value with 96 fraction bits: 1 / (1 + 2^(-A log2 e)). -/
def sigRef (s : Bool) (m : Nat) (e : Int) : Val :=
  -- log2 e with 96 fraction bits
  let log2e : Nat := 114302077158074026402637675936
  let t : Nat × Int := (m * log2e, e - 96)
  let big := (quotient t.1 t.2 0).1
  if big > 90 then (if s then .fin false 0 0 else .fin false 1 0)
  else
    let (em, ee) := exp2Ref (!s) t.1 t.2
    let ex := (quotient em (ee + 96) 0).1
    .fin false (one96 * one96 / (one96 + ex)) (-96)

/-- The spacing of FP32 values at a reference value, as a power of two: one unit in the last place. -/
def ulpExp (v : Val) : Int :=
  match v with
  | .fin _ m e => if m = 0 then -149 else max (e + Nat.log2 m - 23) (-149)
  | _ => 104

/-- Whether two finite values differ by at most n * 2^k. -/
def within (a b : Val) (n : Nat) (k : Int) : Bool :=
  match Val.add .nearest a b.neg with
  | .fin _ m e => decide (Val.cmp (.fin false m e) (.fin false n k) ≤ 0)
  | _ => false

/-- Whether a value is the exact result of an SFU function for a finite operand or an infinity. 2^A is exact for an integer,
log2 A for a power of two, and the sigmoid and the tangent for 0 and the infinities; 1 / A and 1 / sqrt A are checked by
multiplying back. -/
def sfuExact (func : Nat) (a v : Val) : Bool :=
  let is := fun (w : Val) => match v with | .fin .. => decide (Val.cmp v w = 0) | _ => false
  match func, a with
  | 0, .fin s m e => (quotient m e 0).2.1 = 0 && is (.fin false 1 (if s then -((quotient m e 0).1 : Int) else (quotient m e 0).1))
  | 1, .fin _ m e => m = 2 ^ Nat.log2 m && is (.ofInt (e + Nat.log2 m))
  | 2, .fin .. => (match v with | .fin .. => decide (Val.cmp (Val.mul v a) (.ofInt 1) = 0) | _ => false)
  | 3, .fin .. => (match v with | .fin .. => decide (Val.cmp (Val.mul (Val.mul v v) a) (.ofInt 1) = 0) | _ => false)
  | 4, .fin _ m _ => m = 0 && is (.fin false 1 (-1))
  | 4, .inf s => is (.ofInt (if s then 0 else 1))
  | 5, .fin _ m _ => m = 0 && is (.ofInt 0)
  | 5, .inf s => is (.ofInt (if s then -1 else 1))
  | _, _ => false

/-- Take the unit's offered result when it lies inside the bound of the reference value, else the reference rounded. The flags
are those of csr_fpctl for the result taken: OVERFLOW for an infinity, INEXACT when it differs from the exact value, UNDERFLOW
when it is then subnormal or zero (R54). -/
def offer (func : Nat) (a : W32) (ref : Val) (n : Nat) (k : Int) : W32 × Flags :=
  let o := Config.sfuOffer func a
  let nearest := (fp32.round .nearest ref).1
  let ok := match fp32.value o.toNat with
    | .fin .. => within (fp32.value o.toNat) ref n k
    | _ => false
  let r := if ok then o else BitVec.ofNat 32 nearest
  let v := fp32.value r.toNat
  let ix := !sfuExact func (fp32.value a.toNat) v
  (r, { overflow := match v with | .inf _ => true | _ => false
        inexact := ix, underflow := ix && decide (r.toNat % 2 ^ 31 < 2 ^ 23) })

/-- Integer square root by Newton's method with fuel. -/
def isqrtAux (n : Nat) : Nat → Nat → Nat
  | 0, x => x
  | fuel + 1, x => let y := (x + n / x) / 2; if y < x then isqrtAux n fuel y else x

/-- Integer square root. -/
def isqrt (n : Nat) : Nat := if n = 0 then 0 else isqrtAux n 256 (2 ^ (Nat.log2 n / 2 + 1))

/-- The reciprocal of a non-zero finite value, with 120 significant bits. -/
def rcpRef (s : Bool) (m : Nat) (e : Int) : Val :=
  let k := Nat.log2 m + 120
  .fin s (2 ^ k / m) (-(k : Int) - e)

/-- The reciprocal square root of a positive finite value. -/
def rsqRef (m : Nat) (e : Int) : Val :=
  -- make the exponent even, then 1/sqrt(m 2^e) = 2^(-e/2) sqrt(2^(2k) / m) / 2^k
  let (m, e) := if e % 2 = 0 then (m, e) else (2 * m, e - 1)
  let k := Nat.log2 m + 100
  .fin false (isqrt (2 ^ (2 * k) / m)) (-(k : Int) - e / 2)

/-- The SFU functions of R55 on FP32: 0 FEXP2, 1 FLOG2, 2 FRCP, 3 FRSQ, 4 FSIG, 5 FTANH. DESIGN CHOICE, log 138: FRCP and FRSQ of a
zero set DIVZERO, as divisions, and FLOG2 of a zero sets no flag; the spec does not say which SFU functions set it. -/
def sfu (func : Nat) (a : W32) : W32 × Flags :=
  let cNaN : W32 := BitVec.ofNat 32 fp32.nanCode
  let pInf : W32 := BitVec.ofNat 32 (fp32.infCode false)
  let nInf : W32 := BitVec.ofNat 32 (fp32.infCode true)
  let inv : Flags := { invalid := isSignaling a }
  match func, fp32.value a.toNat with
  | _, .nan => (cNaN, inv)
  | 0, .inf s => (if s then 0 else pInf, {})
  | 0, .fin s m e =>
    if !s && decide (Val.cmp (.fin false m e) (.fin false 128 0) > 0) then
      (pInf, { overflow := true, inexact := true })
    else if s && decide (Val.cmp (.fin false m e) (.fin false 150 0) > 0) then
      (0, { underflow := true, inexact := true })
    else
      let (rm, re) := exp2Ref s m e
      offer 0 a (.fin false rm re) 2 (ulpExp (.fin false rm re))
  | 1, .inf s => (if s then cNaN else pInf, { invalid := s })
  | 1, .fin s m e =>
    if m = 0 then (nInf, {})
    else if s then (cNaN, { invalid := true })
    else let r := log2Ref m e; offer 1 a r 2 (ulpExp r)
  | 2, .inf s => (if s then 0x80000000#32 else 0, {})
  | 2, .fin s m e =>
    if m = 0 then (if s then nInf else pInf, { divzero := true })
    else let r := rcpRef s m e; offer 2 a r 1 (ulpExp r)
  | 3, .inf s => (if s then cNaN else 0, { invalid := s })
  | 3, .fin s m e =>
    if m = 0 then (if s then nInf else pInf, { divzero := true })
    else if s then (cNaN, { invalid := true })
    else let r := rsqRef m e; offer 3 a r 2 (ulpExp r)
  | 4, .inf s => offer 4 a (.fin false (if s then 0 else 1) 0) 1 (-22)
  | 4, .fin s m e => offer 4 a (sigRef s m e) 1 (-22)
  | _, .inf s => offer 5 a (.fin s 1 0) 1 (-22)
  | _, .fin s m e =>
    let r := Val.add .nearest ((sigRef s m (e + 1)).scale 1) (.fin true 1 0)
    offer 5 a r 1 (-22)

/-! ## Packed pairs (R57) -/

/-- A packed two-operand or three-operand result on one 16-bit element; func 0 ADD2, 1 MUL2, 2 FMA2, 3 MIN2, 4 MAX2. -/
def pkElem (fp16Sel : Bool) (func : Nat) (a b d : Nat) : Nat :=
  let f := if fp16Sel then fp16 else bf16
  let r (v : Val) : Nat := (f.round .nearest v).1
  match func with
  | 0 => r (Val.add .nearest (f.value a) (f.value b))
  | 1 => r (Val.mul (f.value a) (f.value b))
  | 2 => r (Val.add .nearest (Val.mul (f.value a) (f.value b)) (f.value d))
  | 3 => f.minMax false a b
  | _ => f.minMax true a b

/-- Both elements of a packed operation (R57). -/
def pk (fp16Sel : Bool) (func : Nat) (a b d : W32) : W32 :=
  let lo := pkElem fp16Sel func (a.toNat % 65536) (b.toNat % 65536) (d.toNat % 65536)
  let hi := pkElem fp16Sel func (a.toNat / 65536) (b.toNat / 65536) (d.toNat / 65536)
  BitVec.ofNat 32 (lo + 65536 * hi)

end Sys2Proof.Fp
end

