-- ==== Sys2Proof/Machine/RegDesc.lean ====
section
/-! DEFINITION. How a control register is described: its window, its places, and its fields with their access types,
reset values and the values that occur (R11, R14). -/

namespace Sys2Proof.Machine

/-- The access types of R11. -/
inductive Acc where
  | rw | ro | wo | w1c | w1s | rwm | rsv
  deriving DecidableEq, Repr

/-- Which values of a field occur (R14). -/
inductive Occ where
  | any
  | range (lo hi : Nat)
  | oneOf (l : List Nat)
  | notIn (l : List Nat)
  deriving DecidableEq, Repr

/-- Whether a value occurs. -/
def Occ.ok : Occ → Nat → Bool
  | .any, _ => true
  | .range lo hi, v => decide (lo ≤ v) && decide (v ≤ hi)
  | .oneOf l, v => l.contains v
  | .notIn l, v => !l.contains v

/-- A field: high and low bit, access type, reset value, and the values that occur. -/
structure Field where
  hi : Nat
  lo : Nat
  acc : Acc
  reset : Nat := 0
  occ : Occ := .any
  deriving DecidableEq, Repr

/-- A register or a regular array of registers of one window. -/
structure RegDesc where
  name : String
  base : Nat
  stride : Nat := 4
  count : Nat := 1
  stride2 : Nat := 4
  count2 : Nat := 1
  /-- In the shadow set of R484. -/
  shadow : Bool := false
  fields : List Field
  deriving DecidableEq, Repr

/-- The width mask of a field, in place. -/
def Field.mask (f : Field) : Nat := (2 ^ (f.hi + 1 - f.lo) - 1) * 2 ^ f.lo

/-- The value of a field of a word. -/
def Field.get (f : Field) (w : Nat) : Nat := w / 2 ^ f.lo % 2 ^ (f.hi + 1 - f.lo)

/-- Whether a register array holds an offset. -/
def RegDesc.holds (r : RegDesc) (off : Nat) : Bool :=
  decide (r.base ≤ off) &&
    (let d := off - r.base
     (List.range r.count2).any fun j =>
       decide (j * r.stride2 ≤ d) &&
         (let e := d - j * r.stride2
          decide (e % r.stride = 0) && decide (e / r.stride < r.count)))

/-- The union of the masks of the fields of given access types. -/
def RegDesc.maskOf (r : RegDesc) (accs : List Acc) : Nat :=
  r.fields.foldl (fun m f => if accs.contains f.acc then m + f.mask else m) 0

/-- The reset word of a register. -/
def RegDesc.resetWord (r : RegDesc) : Nat :=
  r.fields.foldl (fun m f => m + f.reset * 2 ^ f.lo) 0

/-- The bits a read returns: every field but the write-only and reserved ones (R11). -/
def RegDesc.readMask (r : RegDesc) : Nat := r.maskOf [.rw, .ro, .w1c, .w1s, .rwm]

/-- Whether a written word places a value that occurs into every field it writes (R14). -/
def RegDesc.occurs (r : RegDesc) (w : Nat) : Bool :=
  r.fields.all fun f =>
    match f.acc with
    | .rw | .rwm | .wo | .w1s => f.occ.ok (f.get w)
    | _ => true

/-- The word in effect after a write of w over the word v, without the RWM fields (R11). -/
def RegDesc.written (r : RegDesc) (v w : Nat) : Nat :=
  r.fields.foldl (fun m f =>
    m + (match f.acc with
      | .rw => f.get w
      | .w1c => f.get v &&& (f.get w ^^^ (2 ^ (f.hi + 1 - f.lo) - 1))
      | .w1s => f.get v ||| f.get w
      | .ro | .rwm => f.get v
      | .wo | .rsv => 0) * 2 ^ f.lo) 0

/-- The mirror word after a write: the RWM fields as written (R13). -/
def RegDesc.mirrored (r : RegDesc) (w : Nat) : Nat :=
  r.fields.foldl (fun m f => m + (match f.acc with | .rwm => f.get w | _ => 0) * 2 ^ f.lo) 0

/-- The whole register as one field. -/
def word (acc : Acc) (reset : Nat := 0) (occ : Occ := .any) : List Field := [⟨31, 0, acc, reset, occ⟩]

/-- Read-write field. -/
def rw (hi lo : Nat) (reset : Nat := 0) (occ : Occ := .any) : Field := ⟨hi, lo, .rw, reset, occ⟩
/-- Read-only field. -/
def ro (hi lo : Nat) (reset : Nat := 0) : Field := ⟨hi, lo, .ro, reset, .any⟩
/-- Write-only field. -/
def wo (hi lo : Nat) (occ : Occ := .any) : Field := ⟨hi, lo, .wo, 0, occ⟩
/-- Mirrored field. -/
def rwm (hi lo : Nat) (reset : Nat := 0) (occ : Occ := .any) : Field := ⟨hi, lo, .rwm, reset, occ⟩
/-- Write-one-to-clear field. -/
def w1c (hi lo : Nat) (reset : Nat := 0) : Field := ⟨hi, lo, .w1c, reset, .any⟩
/-- Write-one-to-set field. -/
def w1s (hi lo : Nat) (reset : Nat := 0) : Field := ⟨hi, lo, .w1s, reset, .any⟩

end Sys2Proof.Machine
end

