-- ==== Sys2Proof/Machine/RegMap.lean ====
section
/-! DEFINITION. The register map: every control register of the device with its fields, by block window, from the field
maps of the spec's chapters. A register's key is its offset in the control register space, window * 2^20 + offset. -/

namespace Sys2Proof.Machine

/-- Window 0x00, TOP: R6, R26 to R35, R485, R500, R501. -/
def regsTop : List RegDesc := [
  { name := "TOP_ID_LO", base := 0x000, fields := [ro 31 16 0x0176, ro 7 0 0x21] },
  { name := "TOP_ID_HI", base := 0x004, fields := [ro 15 0 0x5A17] },
  { name := "TOP_SKU", base := 0x008, fields := [ro 15 8, ro 1 0] },
  { name := "TOP_FT_LO", base := 0x100, fields := word .ro },
  { name := "TOP_FT_HI", base := 0x104, fields := word .ro },
  { name := "TOP_FT_CTRL", base := 0x108, fields := [rw 3 3, rw 1 0 0 (.range 0 2)] },
  { name := "TOP_FT_STAT", base := 0x10C, shadow := true, fields := [ro 31 24, ro 1 0] },
  { name := "TOP_FT_OFS", base := 0x110, fields := word .ro },
  { name := "TOP_FT_RATE", base := 0x114, fields := word .ro },
  { name := "TOP_SNAP_CTRL", base := 0x200, fields := [w1s 31 31, w1s 30 30, ro 15 0] },
  { name := "TOP_SNAP_T_LO, _HI", base := 0x204, count := 2, fields := word .rw },
  { name := "TOP_SNAP_SEQ", base := 0x20C, fields := word .ro },
  { name := "TOP_GPIO_OUT, _OE", base := 0x300, count := 2, fields := word .rw },
  { name := "TOP_GPIO_IN", base := 0x308, fields := word .ro },
  { name := "TOP_GPIO_PD", base := 0x30C, fields := word .rw 0xFFFFFFFF },
  { name := "TOP_STRAP", base := 0x310, fields := [ro 1 1, ro 0 0] },
  { name := "TOP_UART1_DATA", base := 0x320, fields := word .rw },
  { name := "TOP_UART1_CFG", base := 0x324, fields := [rw 31 31, rw 11 0 0x81] },
  { name := "TOP_UART1_STAT", base := 0x328, fields := [ro 31 31, ro 22 16, ro 6 0] }]

/-- Window 0x0C, OBS: R484 to R493. -/
def regsObs : List RegDesc := [
  { name := "OBS_SH_IDX", base := 0x000, fields := [rw 27 2, rw 1 0 0 (.oneOf [0])] },
  { name := "OBS_SH_SEQ", base := 0x004, fields := word .ro },
  { name := "OBS_SH_APERTURE", base := 0x1000, count := 256, fields := word .ro },
  { name := "OBS_TRC_CTRL", base := 0x100, fields := [rw 31 31, rw 27 16, rw 3 0 8 (.range 4 15)] },
  { name := "OBS_TRC_SRC", base := 0x104, fields := [rw 6 0] },
  { name := "OBS_TRC_CMASK", base := 0x108, fields := [rw 19 0] },
  { name := "OBS_TRC_BASE_LO", base := 0x10C, fields := [rw 31 12, rw 11 0 0 (.oneOf [0])] },
  { name := "OBS_TRC_BASE_HI", base := 0x110, fields := word .rw },
  { name := "OBS_TRC_IDX", base := 0x114, fields := word .ro },
  { name := "OBS_TRC_ACK", base := 0x118, fields := word .wo },
  { name := "OBS_TRC_LOST", base := 0x11C, shadow := true, fields := word .ro },
  { name := "OBS_TRC_FILT0 to _FILT31", base := 0x140, count := 32, fields := word .rw },
  { name := "OBS_ERR_SUM", base := 0x200, fields := [w1c 15 0] },
  { name := "OBS_ERR_EN", base := 0x204, fields := [rw 15 0] },
  { name := "OBS_ERR_CFG", base := 0x208, fields := [rw 31 31, rw 2 0] },
  { name := "OBS_ERR_TALLY", base := 0x20C, fields := word .rw },
  { name := "OBS_ERR_FIRST", base := 0x210, fields := [ro 31 31, ro 4 0] },
  { name := "OBS_ERR_FTIME_LO, _HI", base := 0x214, count := 2, fields := word .ro }]

/-- The window of a physical core: R84 to R93, R142, R157, R265. -/
def regsCore : List RegDesc := [
  { name := "CORE_STAT", base := 0x000, fields := [ro 31 24 0xFF, ro 23 16, ro 15 8, ro 3 0 4] },
  { name := "CORE_PARK_CFG", base := 0x004,
    fields := [rwm 20 16 0 (.range 0 16), rwm 12 0 0x100 (.range 16 4096)] },
  { name := "CORE_FLT_CAUSE", base := 0x010, fields := [w1c 31 31, ro 14 8, ro 7 0] },
  { name := "CORE_FLT_TVAL_LO to CORE_FLT_TIME_HI", base := 0x014, count := 8, fields := word .ro },
  { name := "CORE_TQ_STAT", base := 0x040, fields := [ro 23 16, ro 9 9, ro 8 8, ro 4 0] },
  { name := "CORE_STL_*, CORE_FMV_*", base := 0x080, count := 10, shadow := true, fields := word .ro },
  { name := "CORE_CNT_ISSUE, _BCAST, _RETIRED, _DRAIN", base := 0x0C0, count := 6, shadow := true,
    fields := word .ro },
  { name := "CORE_QTMAX_n", base := 0x200, stride := 0x200, count := 4, fields := word .ro },
  { name := "CORE_QSAT_n", base := 0x204, stride := 0x200, count := 4, shadow := true, fields := word .ro },
  { name := "CORE_QCNT_n", base := 0x208, stride := 0x200, count := 4, shadow := true, fields := word .ro },
  { name := "CORE_QFLG_n", base := 0x20C, stride := 0x200, count := 4,
    fields := [ro 7 4, ro 3 3, ro 2 2, ro 1 1, ro 0 0] },
  { name := "CORE_QCOL_n_j", base := 0x300, stride := 4, count := 64, stride2 := 0x200, count2 := 4,
    fields := word .ro }]

/-- Window 0x05, SCHED: R272, R277, R280, R290, R297. -/
def regsSched : List RegDesc := [
  { name := "SCHED_DB", base := 0x000, fields := [wo 30 30, wo 29 16, wo 15 0] },
  { name := "SCHED_CAT_BASE_LO", base := 0x010, fields := [rw 31 21, rw 20 0 0 (.oneOf [0])] },
  { name := "SCHED_CAT_BASE_HI", base := 0x014, fields := [rw 31 16 0 (.oneOf [0]), rw 15 0] },
  { name := "SCHED_CARD_SYNC", base := 0x018, fields := [wo 13 0] },
  { name := "SCHED_INFLIGHT", base := 0x01C, fields := [ro 12 0] },
  { name := "SCHED_TALLY_ALLOC_LO", base := 0x020, fields := word .ro },
  { name := "SCHED_TALLY_ALLOC_HI", base := 0x024, fields := word .ro },
  { name := "SCHED_TALLY_FREE", base := 0x028, fields := word .wo },
  { name := "SCHED_TALLY_USED", base := 0x02C, fields := word .ro },
  { name := "SCHED_DB_ERR", base := 0x030, shadow := true, fields := word .ro },
  { name := "SCHED_TALLY_CTX", base := 0x038, fields := [rw 11 0] },
  { name := "SCHED_CTXn_CFG", base := 0x10000, stride := 0x10, count := 4096,
    fields := [rw 31 31, ro 30 29, rw 23 12 0xFFF, rw 11 0] },
  { name := "SCHED_CTXn_ROOT_LO", base := 0x10004, stride := 0x10, count := 4096,
    fields := [rw 31 12, rw 0 0] },
  { name := "SCHED_CTXn_ROOT_HI", base := 0x10008, stride := 0x10, count := 4096, fields := word .rw },
  { name := "SCHED_CTXn_STAT", base := 0x1000C, stride := 0x10, count := 4096, fields := [ro 12 0] },
  { name := "SCHED_RFX_CORE_n", base := 0xF0000, stride := 0x100, count := 16,
    fields := [rw 31 31, ro 25 24, rw 7 0 0 (.range 0 175)] },
  { name := "SCHED_RFX_n_Gk_CTRL", base := 0xF0020, stride := 0x20, count := 4, stride2 := 0x100, count2 := 16,
    fields := [w1s 31 31, ro 1 1, ro 0 0] },
  { name := "SCHED_RFX_n_Gk_RSTM", base := 0xF0024, stride := 0x20, count := 4, stride2 := 0x100, count2 := 16,
    fields := [w1s 31 0] },
  { name := "SCHED_RFX_n_Gk_STEPS_LO", base := 0xF0028, stride := 0x20, count := 4, stride2 := 0x100, count2 := 16,
    shadow := true, fields := word .ro },
  { name := "SCHED_RFX_n_Gk_STEPS_HI", base := 0xF002C, stride := 0x20, count := 4, stride2 := 0x100, count2 := 16,
    shadow := true, fields := word .ro },
  { name := "SCHED_RFX_n_Gk_OVERRUN", base := 0xF0030, stride := 0x20, count := 4, stride2 := 0x100, count2 := 16,
    shadow := true, fields := word .ro },
  { name := "SCHED_RFX_n_Gk_LATE", base := 0xF0034, stride := 0x20, count := 4, stride2 := 0x100, count2 := 16,
    shadow := true, fields := word .ro },
  { name := "SCHED_RFX_n_Gk_STALE", base := 0xF0038, stride := 0x20, count := 4, stride2 := 0x100, count2 := 16,
    shadow := true, fields := word .ro },
  { name := "SCHED_RFX_n_Gk_MISSED", base := 0xF003C, stride := 0x20, count := 4, stride2 := 0x100, count2 := 16,
    shadow := true, fields := word .ro },
  { name := "SCHED_HEARTBEAT", base := 0x034, fields := [wo 11 0] },
  { name := "SCHED_SESSn_CFG", base := 0x20000, stride := 0x10, count := 4096,
    fields := [ro 31 30, ro 29 28, ro 27 24 3, ro 15 0 0x1F4] },
  { name := "SCHED_SESSn_RENEW_LO", base := 0x20004, stride := 0x10, count := 4096, fields := word .ro },
  { name := "SCHED_SESSn_RENEW_HI", base := 0x20008, stride := 0x10, count := 4096, fields := word .ro }]

/-- Window 0x04, FWP: R296, R303. -/
def regsFwp : List RegDesc := [
  { name := "FWP_Pp_CTRL", base := 0x000, stride := 0x200, count := 5,
    fields := [w1s 31 31, rw 7 4 9 (.range 0 10), rw 1 0 2] },
  { name := "FWP_Pp_STAT", base := 0x004, stride := 0x200, count := 5, shadow := true,
    fields := [ro 31 30 3, ro 23 16, ro 15 0] },
  { name := "FWP_Pp_VER", base := 0x008, stride := 0x200, count := 5, fields := [ro 31 16, ro 15 0] },
  { name := "FWP_Pp_RSTTIME_LO", base := 0x00C, stride := 0x200, count := 5, fields := word .ro },
  { name := "FWP_Pp_RSTTIME_HI", base := 0x010, stride := 0x200, count := 5, fields := word .ro },
  { name := "FWP_Pp_KICK", base := 0x014, stride := 0x200, count := 5, fields := word .wo },
  { name := "FWP_Pp_MWINk_LO", base := 0x100, stride := 8, count := 8, stride2 := 0x200, count2 := 5,
    fields := [rw 31 12, rw 5 0 0x0C (.range 12 47)] },
  { name := "FWP_Pp_MWINk_HI", base := 0x104, stride := 8, count := 8, stride2 := 0x200, count2 := 5,
    fields := [rw 31 31, rw 26 24, rw 15 0] }]

/-- Window 0x06, PIDX: R205, R206, R210. -/
def regsPidx : List RegDesc := [
  { name := "PIDX_RQ_BASE_LO", base := 0x000, fields := [rw 31 5, rw 4 0 0 (.oneOf [0])] },
  { name := "PIDX_RQ_BASE_HI", base := 0x004, fields := [rw 31 16 0 (.oneOf [0]), rw 15 0] },
  { name := "PIDX_RQ_CFG", base := 0x008, fields := [rw 31 31, rw 3 0 4 (.range 4 12)] },
  { name := "PIDX_RQ_DB", base := 0x00C, fields := word .wo },
  { name := "PIDX_RQ_HEAD", base := 0x010, fields := [ro 11 0] },
  { name := "PIDX_SEQ_BASE_LO", base := 0x018, fields := word .ro },
  { name := "PIDX_SEQ_BASE_HI", base := 0x01C, fields := word .ro },
  { name := "PIDX_POOLq_BASE_LO", base := 0x040, stride := 0x10, count := 4,
    fields := [rw 31 12, rw 11 0 0 (.oneOf [0])] },
  { name := "PIDX_POOLq_BASE_HI", base := 0x044, stride := 0x10, count := 4,
    fields := [rw 31 16 0 (.oneOf [0]), rw 15 0] },
  { name := "PIDX_POOLq_CFG", base := 0x048, stride := 0x10, count := 4,
    fields := [rw 31 24, rw 15 0 0 (.range 0 32768)] },
  { name := "PIDX_POOLq_FIRST", base := 0x04C, stride := 0x10, count := 4, fields := [rw 14 0] },
  { name := "PIDX_POOLq_FREE", base := 0x080, count := 4, fields := [ro 15 0] },
  { name := "PIDX_ENT_LO", base := 0x10000, stride := 8, count := 32768, fields := word .ro },
  { name := "PIDX_ENT_HI", base := 0x10004, stride := 8, count := 32768, fields := word .ro }]

/-- Window 0x01, PWR: R427 to R448, R502. -/
def regsPwr : List RegDesc := [
  { name := "PWR_STATE_CTRL", base := 0x000, fields := [w1s 31 31, rw 2 0 0 (.range 0 4)] },
  { name := "PWR_STATE_STAT", base := 0x004, fields := [ro 31 29, ro 28 28, ro 27 27, ro 23 16, ro 15 0] },
  { name := "PWR_STATE_CFG", base := 0x008,
    fields := [rw 31 31 1, rw 23 16 0x0A (.range 1 255), rw 15 0 0x64 (.range 1 65535)] },
  { name := "PWR_WAKE_CFG", base := 0x00C, fields := [rw 31 31 1, rw 30 30, rw 1 0 1 (.range 0 1)] },
  { name := "PWR_WAKE_AT, PWR_HOST_RESUME", base := 0x010, count := 4, fields := word .rw },
  { name := "PWR_ENTRY_TIME, PWR_EXIT_TIME", base := 0x020, count := 4, fields := word .ro },
  { name := "PWR_CLc_DVFS", base := 0x100, stride := 0x10, count := 17,
    fields := [ro 31 31, ro 30 30, ro 29 29, rw 25 24 1, rw 21 20 1, ro 17 16 1, rw 13 12 1, ro 11 0] },
  { name := "PWR_CLc_REFUSED", base := 0x104, stride := 0x10, count := 17, shadow := true, fields := word .ro },
  { name := "PWR_CLc_DROOP", base := 0x108, stride := 0x10, count := 17, shadow := true, fields := word .ro },
  { name := "PWR_HOST_VFAIL", base := 0x20C, shadow := true, fields := word .ro },
  { name := "PWR_CAP", base := 0x300, fields := [rw 7 0 120 (.range 20 120)] },
  { name := "PWR_MODE", base := 0x304, fields := [rw 31 31, rw 1 0 1] },
  { name := "PWR_LDG_RATE", base := 0x308, fields := word .ro },
  { name := "PWR_LDG_LEVEL", base := 0x30C, fields := word .ro 120000 },
  { name := "PWR_LDG_STANDING", base := 0x310, fields := word .ro },
  { name := "PWR_LDG_CFG", base := 0x314, fields := [rw 15 0 10000 (.range 1 65535)] },
  { name := "PWR_LDG_GRANTS", base := 0x318, count := 2, shadow := true, fields := word .ro },
  { name := "PWR_LDG_WAIT_NS, _STALLS, _NOPERMIT", base := 0x320, count := 3, shadow := true, fields := word .ro },
  { name := "PWR_POWER_MW, PWR_THROTTLE", base := 0x330, count := 2, fields := word .ro },
  { name := "PWR_VTAB_n", base := 0x400, count := 68, fields := [ro 11 0] },
  { name := "PWR_DROOP_CFG", base := 0x580, fields := [rw 7 0 40 (.range 10 100)] },
  { name := "PWR_THERM_CFG", base := 0x600,
    fields := [rw 31 24 0x5F (.range 60 105), rw 23 16 0x66 (.range 61 110), rw 3 0 5 (.range 1 15)] },
  { name := "PWR_TEMP_n", base := 0x610, count := 18, fields := [ro 7 0] },
  { name := "PWR_TEMP_MAX", base := 0x660, fields := [ro 7 0] },
  { name := "PWR_PMB_CFG", base := 0x700,
    fields := [rw 31 31 1, rw 15 15, rw 14 14 1, rw 6 0 0x20 (.range 8 0x77)] },
  { name := "PWR_PMB_STAT", base := 0x704, fields := [ro 31 31, ro 11 0] }]

/-- Window 0x02, CLK: R434. -/
def regsClk : List RegDesc := [
  { name := "CLK_CLc_DIV", base := 0x100, count := 17, fields := [rw 1 0] }]

/-- Window 0x07, VLT: R250, R253, R257, R264, R269. -/
def regsVlt : List RegDesc := [
  { name := "VLT_ECC_CFG", base := 0x010, fields := [rw 15 8 0x18, rw 7 0 4 (.range 1 255)] },
  { name := "VLT_CMAP_LO", base := 0x020, fields := [rw 31 30, rw 29 0 0 (.oneOf [0])] },
  { name := "VLT_CMAP_HI", base := 0x024, fields := [rw 31 16 0 (.oneOf [0]), rw 15 0] },
  { name := "VLT_CMAP_TBL_LO, _HI", base := 0x028, count := 2, fields := word .ro },
  { name := "VLT_TLBINV_LO, _HI", base := 0x030, count := 2, fields := word .wo },
  { name := "VLT_TLBINV_STAT", base := 0x038, fields := [ro 31 31, ro 15 0] },
  { name := "VLT_Vv_STAT", base := 0x100, stride := 0x20, count := 16, fields := [ro 31 30, ro 16 16, ro 7 0] },
  { name := "VLT_Vv_CE", base := 0x104, stride := 0x20, count := 16, shadow := true, fields := word .ro },
  { name := "VLT_Vv_UE", base := 0x108, stride := 0x20, count := 16, shadow := true, fields := word .ro },
  { name := "VLT_Vv_SPARED", base := 0x10C, stride := 0x20, count := 16, shadow := true,
    fields := [ro 31 24, ro 23 16, ro 15 0] },
  { name := "VLT_Vv_ERR_LO", base := 0x110, stride := 0x20, count := 16, fields := word .ro },
  { name := "VLT_Vv_ERR_HI", base := 0x114, stride := 0x20, count := 16, fields := word .ro },
  { name := "VLT_Vv_TIMEOUT", base := 0x118, stride := 0x20, count := 16, shadow := true, fields := word .ro },
  { name := "VLT_Vv_STALL_NS", base := 0x11C, stride := 0x20, count := 16, shadow := true, fields := word .ro },
  { name := "VLT_WSn_DESC_LO", base := 0x800, stride := 0x20, count := 16,
    fields := [rw 31 6, rw 5 0 0 (.oneOf [0])] },
  { name := "VLT_WSn_DESC_HI", base := 0x804, stride := 0x20, count := 16,
    fields := [rw 31 16 0 (.oneOf [0]), rw 15 0] },
  { name := "VLT_WSn_CTRL", base := 0x808, stride := 0x20, count := 16, fields := [w1s 31 31, w1s 30 30, ro 0 0] },
  { name := "VLT_WSn_STAT", base := 0x80C, stride := 0x20, count := 16, fields := [ro 31 16, ro 2 0] },
  { name := "VLT_WSn_LANDED_LO, _HI", base := 0x810, count := 2, stride2 := 0x20, count2 := 16, shadow := true,
    fields := word .ro },
  { name := "VLT_WSn_STARVED, _FULL", base := 0x818, count := 2, stride2 := 0x20, count2 := 16, shadow := true,
    fields := word .ro },
  { name := "VLT_LBLK_n", base := 0x1000, count := 1024, fields := word .rw }]

/-- Window 0x08, ETH: R332, R334, R336, R337, R338, R342, R344, R346, and ETH_MHY of R317. -/
def regsEth : List RegDesc := [
  { name := "ETH_Pn_CFG", base := 0x000, stride := 0x100, count := 4,
    fields := [rw 31 31, rw 27 26 3, rw 25 25, rw 24 24, rw 23 22, rw 21 14 0xFF, rw 11 0 1 (.range 1 4094)] },
  { name := "ETH_Pn_STAT", base := 0x004, stride := 0x100, count := 4, fields := [ro 31 30, ro 29 28, ro 27 27] },
  { name := "ETH_Pn_MAC_LO", base := 0x008, stride := 0x100, count := 4, fields := word .ro },
  { name := "ETH_Pn_MAC_HI", base := 0x00C, stride := 0x100, count := 4, fields := [ro 15 0] },
  { name := "ETH_Pn_IP", base := 0x010, stride := 0x100, count := 4, fields := word .rw },
  { name := "ETH_Pn_RXFRM to _CBDUP", base := 0x020, count := 6, stride2 := 0x100, count2 := 4, shadow := true,
    fields := word .ro },
  { name := "ETH_Pn_QBV_BASE_LO, _HI", base := 0x040, count := 2, stride2 := 0x100, count2 := 4, fields := word .rw },
  { name := "ETH_Pn_QBV_CYCLE", base := 0x048, stride := 0x100, count := 4,
    fields := word .rw 0 (.range 1000 1000000000) },
  { name := "ETH_Pn_QBV_EXT", base := 0x04C, stride := 0x100, count := 4, fields := word .rw },
  { name := "ETH_Pn_QBV_LEN", base := 0x050, stride := 0x100, count := 4,
    fields := [w1s 31 31, rw 8 0 0 (.range 0 256)] },
  { name := "ETH_Pn_IP6_0 to _3", base := 0x060, count := 4, stride2 := 0x100, count2 := 4, fields := word .rw },
  { name := "ETH_SW_CFG", base := 0x800, fields := [rw 15 0 300 (.range 1 65535)] },
  { name := "ETH_TBL_CMD", base := 0x1000,
    fields := [w1s 31 31, rw 30 30, rw 29 24 0 (.oneOf [1, 2, 3, 4, 5, 6, 7]), rw 18 16 0 (.range 0 3), rw 15 0] },
  { name := "ETH_TBL_DATA0 to DATA7", base := 0x1004, count := 8, fields := word .rw },
  { name := "ETH_TBL_STAT", base := 0x1024, fields := [ro 15 0] },
  { name := "ETH_PTP_Dd_CFG", base := 0x2000, stride := 0x40, count := 2,
    fields := [rw 31 31, rw 28 24 0 (.range 0 15), rw 23 16 0xFF, rw 7 0 0 (.range 0 127)] },
  { name := "ETH_Pn_MKA", base := 0x3000, stride := 0x40, count := 4,
    fields := [ro 31 30, rw 29 29 1, rw 23 16 0xFF, rw 15 0] },
  { name := "ETH_MHY_CFG", base := 0x4000, fields := [rw 17 17, rw 16 16 1, rw 15 0 0xB8F8 (.range 1 65535)] },
  { name := "ETH_MHY_RXMSG, _BADCRC, _BADLEN, _DROP", base := 0x4010, count := 4, shadow := true, fields := word .ro },
  { name := "ETH_FLOW_DB", base := 0x5000, fields := [wo 30 30, wo 29 16, wo 15 0] }]

/-- Window 0x0B, AUD: R352, R357, R358, R361, R365, R366, R369, R371, and the ladder registers of R405. A misaligned
address in a _LO register is taken as a value that does not occur (R14; DESIGN CHOICE, log 136). -/
def regsAud : List RegDesc := [
  { name := "AUD_MICn_CFG", base := 0x000, stride := 0x40, count := 4,
    fields := [rwm 31 31, rwm 30 30, rwm 29 29, rwm 26 24, rwm 23 20 4, rwm 19 14 0x0A (.range 1 63)] },
  { name := "AUD_ARC_MAP0, _MAP1", base := 0x100, count := 2,
    fields := [rwm 31 31, rwm 28 24, rwm 23 23, rwm 20 16, rwm 15 15, rwm 12 8, rwm 7 7, rwm 4 0] },
  { name := "AUD_ARC_NEWEST_LO, _HI", base := 0x108, count := 2, fields := word .ro },
  { name := "AUD_ARC_STAT", base := 0x110, fields := [ro 7 0] },
  { name := "AUD_ACP_FIRST, _COUNT, _DST", base := 0x120, count := 5, fields := word .rw },
  { name := "AUD_ACP_CTRL", base := 0x134, fields := [w1s 31 31, rw 30 30, rw 27 16, rw 7 0] },
  { name := "AUD_ACP_STAT", base := 0x138, fields := [ro 31 31, ro 15 0] },
  { name := "AUD_ACP_TALLY", base := 0x13C, fields := word .rw },
  { name := "AUD_LOUPE_CFG", base := 0x200,
    fields := [rwm 31 26 0x0C, rwm 25 22 7, rwm 21 14 0x32 (.range 1 255), rwm 13 10 4 (.range 1 15)] },
  { name := "AUD_LENS_CFG", base := 0x204,
    fields := [rwm 31 24 0xC0, rwm 23 20 3 (.range 1 15), rwm 19 15 0x0A (.range 0 30)] },
  { name := "AUD_MUTE_STAT", base := 0x300, shadow := true, fields := [ro 31 31, ro 15 0] },
  { name := "AUD_MUTE_TIME_LO, _HI", base := 0x304, count := 2, fields := word .ro },
  { name := "AUD_AEC_CFG", base := 0x400,
    fields := [rwm 31 31, rwm 30 30, rwm 29 27, rwm 26 24 1, rwm 23 23, rwm 22 18 8 (.range 0 16),
      rwm 17 14 4 (.range 1 15), rwm 13 6] },
  { name := "AUD_RING_DB", base := 0x500, fields := [wo 30 30, wo 29 16, wo 15 0] },
  { name := "AUD_LAD_CFG", base := 0x600, fields := [rw 31 31, w1s 30 30, rw 27 16, rw 3 0 4 (.range 4 10)] },
  { name := "AUD_LAD_TBL_LO", base := 0x604, fields := [rw 31 6, rw 5 0 0 (.oneOf [0])] },
  { name := "AUD_LAD_TBL_HI", base := 0x608, fields := word .rw },
  { name := "AUD_LAD_RING_LO", base := 0x60C, fields := [rw 31 12, rw 11 0 0 (.oneOf [0])] },
  { name := "AUD_LAD_RING_HI", base := 0x610, fields := word .rw },
  { name := "AUD_LAD_TALLY", base := 0x614, fields := word .rw },
  { name := "AUD_LAD_IDX", base := 0x618, fields := word .ro },
  { name := "AUD_LAD_ACK", base := 0x61C, fields := [wo 15 0] },
  { name := "AUD_LAD_STAT", base := 0x620, fields := [ro 31 16, ro 4 0] },
  { name := "AUD_LAD_LOST", base := 0x624, fields := word .ro },
  { name := "AUD_LAD_RUNGA, _RUNGV0 to _RUNGV3", base := 0x628, count := 5, fields := word .ro 0xFFFFFFFF },
  { name := "Main beam CTL", base := 0x10000, stride := 32, count := 256, fields := [rwm 31 31, rwm 5 0] },
  { name := "Main beam TAPS", base := 0x10004, count := 4, stride2 := 32, count2 := 256, fields := word .rwm },
  { name := "Island beam CTL", base := 0x18000, stride := 16, count := 128, fields := [rwm 31 31, rwm 4 0 0 (.range 0 21)] },
  { name := "Island beam TAPS", base := 0x18004, count := 2, stride2 := 16, count2 := 128, fields := word .rwm }]

/-- Window 0x09, CSI: R379, R380, R383, R397 to R399. -/
def regsCsi : List RegDesc := [
  { name := "CSI_Pn_CFG", base := 0x000, stride := 0x100, count := 8,
    fields := [rw 31 31, rw 30 29 2 (.range 0 2), rw 28 28, rw 23 12 0x5DC (.range 80 2500)] },
  { name := "CSI_Pn_STAT", base := 0x004, stride := 0x100, count := 8, fields := [ro 31 30, ro 29 29] },
  { name := "CSI_Pn_ECC1 to _ORPHAN", base := 0x010, count := 6, stride2 := 0x100, count2 := 8, shadow := true,
    fields := word .ro },
  { name := "CSI_FSYNCk_CTRL", base := 0x2000, stride := 0x20, count := 8,
    fields := [rw 31 31, rw 30 30, rw 15 0 0x000A (.range 1 65535)] },
  { name := "CSI_FSYNCk_PERIOD", base := 0x2004, stride := 0x20, count := 8,
    fields := word .rw 0 (.range 1000 0xFFFFFFFF) },
  { name := "CSI_FSYNCk_PHASE_LO, _HI", base := 0x2008, count := 2, stride2 := 0x20, count2 := 8, fields := word .rw },
  { name := "CSI_I3Ck_CFG", base := 0x3000, stride := 0x100, count := 4, fields := [rw 31 31, rw 30 30] },
  { name := "CSI_I3Ck_XFER", base := 0x3004, stride := 0x100, count := 4,
    fields := [w1s 31 31, rw 30 30, rw 29 29, rw 23 16, rw 13 8 0 (.range 0 32), rw 6 0] },
  { name := "CSI_I3Ck_AT_LO, _HI", base := 0x3008, count := 2, stride2 := 0x100, count2 := 4, fields := word .rw },
  { name := "CSI_I3Ck_STAT", base := 0x3010, stride := 0x100, count := 4, fields := [ro 31 31, ro 2 0] },
  { name := "CSI_I3Ck_DATA0 to _DATA7", base := 0x3020, count := 8, stride2 := 0x100, count2 := 4, fields := word .rw },
  { name := "CSI_RING_DB", base := 0x4000, fields := [wo 30 30, wo 29 16, wo 15 0] }]

/-- An array of 16 ISP registers, one for each stream. -/
def ispRegs (name : String) (off : Nat) (fields : List Field) : RegDesc :=
  { name := name, base := 0x10000 + off, stride := 0x1000, count := 16, fields := fields }

/-- A word of two 16-bit mirrored coefficients. -/
def coefPair (lo hi : Nat) : List Field := [rwm 31 16 hi, rwm 15 0 lo]

/-- Five words of a 3 by 3 matrix in S3.12, reset to the identity. -/
def matrixRegs (name : String) (off : Nat) : List RegDesc := [
  ispRegs name off (coefPair 0x1000 0), ispRegs name (off + 4) (coefPair 0 0),
  ispRegs name (off + 8) (coefPair 0x1000 0), ispRegs name (off + 12) (coefPair 0 0),
  ispRegs name (off + 16) [rwm 15 0 0x1000]]

/-- Window 0x0A, ISP: the parameters of each stream (R393 to R395). A misaligned LSC_LO is taken as a value that does
not occur (R14; DESIGN CHOICE, log 136). -/
def regsIsp : List RegDesc :=
  [ispRegs "ISP_Ss_CTL" 0x000 [ro 31 16, rwm 9 8, rwm 2 2, rwm 1 1, rwm 0 0],
   ispRegs "ISP_Ss_ARM" 0x004 (word .wo), ispRegs "ISP_Ss_KSTAT" 0x008 [ro 31 16, ro 2 0]] ++
  ((List.range 4).map fun c => ispRegs "ISP_Ss_BLc" (0x010 + 4 * c) [rwm 31 16 0x1000, rwm 15 0]) ++
  [ispRegs "ISP_Ss_DPT" 0x020 [rwm 15 0 0x1000], ispRegs "ISP_Ss_LSC_LO" 0x024 [rwm 31 6, rwm 5 0 0 (.oneOf [0])],
   ispRegs "ISP_Ss_LSC_HI" 0x028 (word .rwm)] ++
  ((List.range 4).map fun c => ispRegs "ISP_Ss_WBc" (0x030 + 4 * c) [rwm 15 0 0x1000]) ++
  matrixRegs "ISP_Ss_CCM" 0x040 ++ [ispRegs "ISP_Ss_CCO0" 0x054 (coefPair 0 0), ispRegs "ISP_Ss_CCO1" 0x058 [rwm 15 0]] ++
  ((List.range 32).map fun w => ispRegs "ISP_Ss_TONE" (0x060 + 4 * w) (coefPair (2048 * w) (2048 * w + 1024))) ++
  [ispRegs "ISP_Ss_TONE32" 0x0E0 [rwm 15 0 65535], ispRegs "ISP_Ss_NR" 0x0F0 [rwm 20 16 8 (.range 0 16), rwm 15 0 0x400]] ++
  matrixRegs "ISP_Ss_CSC" 0x100 ++ [ispRegs "ISP_Ss_CSO0" 0x114 (coefPair 0 0), ispRegs "ISP_Ss_CSO1" 0x118 [rwm 15 0]]

/-- Window 0x0D, FIX: R458, R461, R462, R464. -/
def regsFix : List RegDesc := [
  { name := "FIX_STAT", base := 0x000, fields := [ro 31 31, ro 30 30, ro 23 16, ro 15 8, ro 7 0] },
  { name := "FIX_POLICY", base := 0x004, fields := [ro 2 2 1, ro 1 1 1, ro 0 0] },
  { name := "FIX_BIST_CFG", base := 0x008, fields := [rw 31 16 0x64 (.range 1 65535), rw 15 8 0x18, rw 7 0 7] },
  { name := "FIX_FENCE", base := 0x00C, fields := [wo 7 0 (.range 0 191)] },
  { name := "FIX_FENCES, _DROPPED", base := 0x010, count := 2, shadow := true, fields := word .ro },
  { name := "FIX_Pn_STAT", base := 0x100, count := 192, fields := [ro 31 29, ro 23 16 0xFF, ro 15 8] },
  { name := "FIX_Ll_MAP", base := 0x400, count := 176, fields := [ro 31 31, ro 30 30, ro 7 0 0xFF] }]

/-- Window 0x03, SEC: R481. -/
def regsSec : List RegDesc := [
  { name := "SEC_STAT", base := 0x000, fields := (List.range 8).map fun i => ro (24 + i) (24 + i) },
  { name := "SEC_CTR_LO, _HI, SEC_TENANT", base := 0x004, count := 3, fields := word .ro },
  { name := "SEC_MM_ADDR_LO, _HI, SEC_MM_LEN_LO, _HI", base := 0x010, count := 4, fields := word .rw },
  { name := "SEC_MM_CTRL", base := 0x020, fields := [w1s 31 31, rw 27 16, rw 15 0] },
  { name := "SEC_MM_STAT", base := 0x024, fields := [ro 31 31, ro 22 16, ro 15 0] }]

/-- The registers of a window (R37). -/
def regsOf (win : Nat) : List RegDesc :=
  match win with
  | 0x00 => regsTop
  | 0x01 => regsPwr
  | 0x02 => regsClk
  | 0x03 => regsSec
  | 0x04 => regsFwp
  | 0x05 => regsSched
  | 0x06 => regsPidx
  | 0x07 => regsVlt
  | 0x08 => regsEth
  | 0x09 => regsCsi
  | 0x0A => regsIsp
  | 0x0B => regsAud
  | 0x0C => regsObs
  | 0x0D => regsFix
  | _ => if 0x10 ≤ win ∧ win ≤ 0xCF then regsCore else []

/-- The description of the register at a key, if one lies there. -/
def regDesc (key : Nat) : Option RegDesc :=
  (regsOf (key / 2 ^ 20)).find? fun r => r.holds (key % 2 ^ 20)

/-- The reset value of the register at a key; 0 where no register lies. -/
def regReset (key : Nat) : W32 :=
  match regDesc key with
  | some r => BitVec.ofNat 32 r.resetWord
  | none => 0

/-- Key of a register of a window. -/
def regKey (win off : Nat) : Nat := win * 2 ^ 20 + off

end Sys2Proof.Machine
end

