-- ==== Sys2Proof/Machine/SMap.lean ====
section
/-! DEFINITION. Sparse maps: the one form in which memory, register files and tables are held. A map is a list of
key and value pairs with strictly rising keys and no pair whose value is what an unlisted key reads as, so equal
maps are equal lists. -/

namespace Sys2Proof

/-- A sparse map from numbers to values. -/
abbrev SMap (α : Type) := List (Nat × α)

namespace SMap

variable {α : Type}

/-- The value listed for a key, if any. -/
def find? : SMap α → Nat → Option α
  | [], _ => none
  | (k, v) :: rest, key => if k = key then some v else find? rest key

/-- What a key reads as: its listed value, or `d` when it is not listed. -/
def get (d : α) (m : SMap α) (key : Nat) : α := (find? m key).getD d

/-- Remove a key from a map with rising keys. -/
def erase : SMap α → Nat → SMap α
  | [], _ => []
  | (k, v) :: rest, key => if k = key then rest else (k, v) :: erase rest key

/-- List a key with a value, keeping the keys rising. -/
def insert : SMap α → Nat → α → SMap α
  | [], key, x => [(key, x)]
  | (k, v) :: rest, key, x =>
    if key < k then (key, x) :: (k, v) :: rest
    else if k = key then (key, x) :: rest
    else (k, v) :: insert rest key x

/-- Write a value that may be the one an unlisted key reads as: then the key is removed. -/
def set [DecidableEq α] (d : α) (m : SMap α) (key : Nat) (x : α) : SMap α :=
  if x = d then erase m key else insert m key x

/-- Keys strictly rise. -/
def rising : SMap α → Bool
  | [] => true
  | [_] => true
  | (k, _) :: (k', v') :: rest => decide (k < k') && rising ((k', v') :: rest)

/-- The canonical form: keys strictly rise, and no listed value is the default of its key. -/
def wf [DecidableEq α] (d : Nat → α) (m : SMap α) : Bool :=
  rising m && m.all (fun c => decide (c.2 ≠ d c.1))

end SMap
end Sys2Proof
end

