-- ==== Sys2Proof/Machine/Blocks.lean ====
section
/-! DEFINITION. The parts of the machine's state that are not control registers, one record per unit: harts, compute
cores, gangs, tallies, and each block of the device. Plain data throughout. -/

namespace Sys2Proof.Machine

/-! ## Harts: host cores and firmware processors (R40, R73 to R79) -/

/-- Modes of the host profile (R73). -/
inductive Mode where
  | user | sup | mon
  deriving DecidableEq, Repr

/-- The five registers of a trap set (R73). -/
structure TrapSet where
  base : W64 := 0
  ret : W64 := 0
  info : W64 := 0
  data : W64 := 0
  stash : W64 := 0
  deriving DecidableEq, Repr

/-- A hart of the host profile. -/
structure Hart where
  /-- Released from reset; a held or HALTED hart executes nothing. -/
  running : Bool := false
  /-- Stalled by SNOOZE until an interrupt is pending (R63). -/
  snoozing : Bool := false
  mode : Mode := .mon
  pc : W64 := 0
  g : SMap W64 := []
  f : SMap W32 := []
  fpctl : W64 := 0
  retired : W64 := 0
  fpen : Bool := false
  uacc : Bool := false
  ieM : Bool := false
  ieS : Bool := false
  trapS : TrapSet := {}
  trapM : TrapSet := {}
  irqen : W64 := 0
  /-- csr_irqpend bit 2, held by software (R74). -/
  softIrq : Bool := false
  /-- The external source in the HCX holds interrupt code 3 (R74). -/
  extIrq : Bool := false
  /-- The mailbox source in the HCX holds interrupt code 4 (R74, R292). -/
  mbxIrq : Bool := false
  troot : W64 := 0
  alarm : W64 := 0
  route : W64 := 0
  mpu : SMap W64 := []
  /-- Draws made from the hart's stochastic rounding generator, seeded with csr_coreid + 1 (R152); none before the first. -/
  rng : Option W32 := none
  deriving DecidableEq, Repr

/-! ## Tallies and waits (R107 to R114) -/

/-- A tally at its home. -/
structure Tally where
  allocated : Bool := false
  gen : BitVec 16 := 1
  value : W32 := 0
  /-- The context it was allocated for (R290). -/
  ctx : Nat := 0
  /-- The session and SEQ of the TALLY_ALLOC that took it (R322). -/
  by_ : Option (Nat × Nat) := none
  deriving DecidableEq, Repr

/-- Who waits on a tally: a hart, or one thread of a gang. -/
inductive Waiter where
  | hart (key : Nat)
  | thread (core gang lane : Nat)
  deriving DecidableEq, Repr

/-- A TWAIT pending at a tally's home, with the register that receives its status (R110). -/
structure TWait where
  who : Waiter
  tally : Nat
  threshold : W32
  deadline : W64
  dest : Nat
  deriving DecidableEq, Repr

/-! ## Compute cores (R80 to R93, R116 to R142) -/

/-- One thread slot (R80). -/
structure Thread where
  pc : BitVec 48 := 0
  g : SMap W32 := []
  p : BitVec 8 := 0
  /-- The latched high half of fabric time (R64). -/
  ftHi : W32 := 0
  exited : Bool := false
  atBar : Bool := false
  deriving DecidableEq, Repr

/-- The fault record of a gang (R78, R519). -/
structure FaultRecord where
  gang : Nat
  cause : Nat
  tval : W64
  pc : W64
  mask : W64
  time : W64
  core : Nat
  deriving DecidableEq, Repr

/-- A live or parked gang of a core (R80 to R88). -/
structure Gang where
  /-- The slot number of its parcel in the scheduler's list of parcels in flight. -/
  parcel : Nat
  gridIdx : Nat
  nreg : Nat
  ntd : Nat
  /-- The physical banks it holds, in the order a0, a1, ... -/
  banks : List Nat
  threads : List Thread
  td : SMap (BitVec 256) := []
  /-- The tensor status is BOUNDS (R71). -/
  bounds : Bool := false
  /-- Tensor instructions issued since the last TSYNC (R71). -/
  issued : Nat := 0
  /-- Some instruction since the last TSYNC did not complete EMPTY (R71). -/
  nonEmpty : Bool := false
  parked : Bool := false
  /-- Stopped by a fault of its own or of its parcel (R92). -/
  stopped : Bool := false
  /-- A cause found after issue has stopped the gang: no tensor instruction of it from this sequence number on starts (R519). -/
  late : Option Nat := none
  /-- The gangs that must issue once before a YIELDed gang is ready again (R90). -/
  yieldTo : List Nat := []
  /-- Fabric time at which it became blocked, while it is (R87). -/
  blockedAt : Option Nat := none
  /-- Fabric time at which it became ready while parked (R87). -/
  readyAt : Option Nat := none
  /-- Recirculation list: source physical bank, columns and feedback format (R137). -/
  recList : List (Nat × Nat × Nat) := []
  /-- A TMMA with REC has been issued since the last TREC (R137). -/
  recUsed : Bool := false
  /-- Rounding generators of R151. -/
  vecRng : W32 := 0
  tenRng : W32 := 0
  deriving DecidableEq, Repr

/-- The three bank formats (R119). -/
inductive BankFmt where
  | clear | int32 | a40
  deriving DecidableEq, Repr

/-- A physical accumulator bank: its format, its cells by 64 i + j, its zero point and its audit count. -/
structure Bank where
  fmt : BankFmt := .clear
  cells : SMap (BitVec 40) := []
  zpb : Int := 0
  audit : Nat := 0
  deriving DecidableEq, Repr

/-- The tensor instructions that enter the tensor queue (R127). -/
inductive TOp where
  | tmma | tdrain | accScale | tclr | trec | audit | rope | tmask | tsmax | fmove
  deriving DecidableEq, Repr

/-- A tensor instruction issued and not finished, with the operands it captured at issue. -/
structure TInstr where
  seq : Nat
  gang : Nat
  op : TOp
  tdA : BitVec 256 := 0
  tdB : BitVec 256 := 0
  tdC : BitVec 256 := 0
  /-- Descriptor numbers, for the tval of TENSOR_DESC. -/
  numA : Nat := 0
  numB : Nat := 0
  numC : Nat := 0
  /-- The physical bank it names; 4 for none. -/
  bank : Nat := 4
  /-- The bank number as the gang sees it, for the tval of BANK_FORMAT. -/
  bankName : Nat := 0
  gval : W32 := 0
  imm : W32 := 0
  /-- The recirculation list as it stood at issue. -/
  recList : List (Nat × Nat × Nat) := []
  mask : W64 := 0
  pc : W64 := 0
  /-- A TREC that found the list full: refused with BOUNDS when it starts (R137). -/
  recOver : Bool := false
  /-- From its start: the physical page numbers it reads and writes, in order, and those of the virtual pages it names
  (R128, R518). -/
  reads : List Nat := []
  writes : List Nat := []
  map : SMap Nat := []
  deriving DecidableEq, Repr

/-- Data held in the Prism store: a line or a weight set, its size, and the folios it came from (R174 to R176). -/
structure PrismItem where
  /-- Identity: kind and source (base folio, line, first position, positions, first channel, channels, format). -/
  key : List Nat
  bytes : Nat
  folios : List Nat
  deriving DecidableEq, Repr

/-- A physical compute core, but for its gangs and registers. -/
structure Core where
  banks : SMap Bank := []
  /-- Tensor queue, oldest first (R127). -/
  queue : List TInstr := []
  /-- Tensor instructions started and not finished. -/
  running : List TInstr := []
  nextSeq : Nat := 0
  prism : List PrismItem := []
  /-- The gang that issued last (R89). -/
  last : Nat := 127
  /-- Fabric time of its last issue, or since which a gang of it has been ready (the hang detector of R458). -/
  quiet : Nat := 0
  deriving DecidableEq, Repr

/-! ## Work submission (R272 to R293) -/

/-- Where a parcel came from, which decides where its completion goes. -/
inductive POrigin where
  /-- A queue's card and the entry's free-running index (R281). -/
  | queue (card idx : Nat)
  /-- The recompute parcel of a sequence (R219). -/
  | recompute (seq : Nat)
  deriving DecidableEq, Repr

/-- The stages of a parcel in flight. -/
inductive PStage where
  | waiting      -- its wait has not ended (R284)
  | running      -- dispatched: gangs are admitted, run and retire (R285)
  | ending       -- its work has ended; the completion record is not yet written (R287)
  deriving DecidableEq, Repr

/-- A parcel in flight (R286). -/
structure Parcel where
  ctx : Nat
  origin : POrigin
  /-- The sixteen words of its descriptor. -/
  desc : List W32
  taken : Nat
  stage : PStage := .waiting
  /-- Next grid index to dispatch, and indices to dispatch again after a fence (R285, R289). -/
  next : Nat := 0
  again : List Nat := []
  retired : Nat := 0
  /-- No further gang is dispatched (R92). -/
  stop : Bool := false
  status : Nat := 0
  fault : Option FaultRecord := none
  fcore : Nat := 0xFF
  ftime : Nat := 0
  redisp : Nat := 0
  /-- Fabric times at which its waited tallies first held their thresholds (R284). -/
  met0 : Option Nat := none
  met1 : Option Nat := none
  /-- From its kernel header (R81). -/
  nreg : Nat := 0
  ntd : Nat := 0
  nbanks : Nat := 0
  /-- It runs as a re-run (R161), and its first run exceeded the threshold. -/
  rerun : Bool := false
  /-- Its statistics block was lost to a fault (R521). -/
  statsLost : Bool := false
  /-- Physical cores whose permit for the next gang has been granted (R440), and requests not yet granted. -/
  permits : List Nat := []
  /-- Fabric time from which a core with no gang of it waits for a degraded number to be backed (R461). -/
  degradedAt : Option Nat := none
  deriving DecidableEq, Repr

/-- The device's copy of a Catalogue card (R273 to R276, R520). -/
structure Card where
  /-- Words 0 to 31, by word number. -/
  words : SMap W32 := []
  /-- CARD_SYNCs asked for and not yet served (R276). -/
  syncs : Nat := 0
  /-- The CARD_SYNC messages among them, by session and SEQ. -/
  askers : List (Nat × Nat) := []
  /-- It has been taken up since PORST_N or the last tenant switch (R520). -/
  taken : Bool := false
  /-- It is in the card cache (R275). -/
  cached : Bool := false
  /-- Fabric time of its last use, for eviction (R275). -/
  used : Nat := 0
  deriving DecidableEq, Repr

/-- The scheduler's state beyond its registers. -/
structure Sched where
  parcels : SMap Parcel := []
  cards : SMap Card := []
  /-- The queue served last and the entries it has taken in this visit (R298). -/
  last : Nat := 0
  lastN : Nat := 0
  /-- The microsecond of the last take, and the takes in it (R299). -/
  takeUs : Nat := 0
  takeN : Nat := 0
  /-- Doorbells of each mailbox whose slots are not all taken: the tail and its stamp, oldest first (R308). -/
  bells : SMap (List (Nat × Nat)) := []
  deriving DecidableEq, Repr

/-! ## Firmware processors beyond their harts and registers (R300 to R312) -/

/-- An update of the firmware image in progress (R305 to R307). -/
structure FwUpdate where
  /-- Address and length of the staged image, under a context, or physical in network recovery (R305, R469). -/
  image : Nat
  ctx : Option Nat := none
  len : Nat
  /-- The flash write has ended and the take-up restarts are under way. -/
  written : Bool := false
  /-- Processors still to restart, in order. -/
  order : List Nat := []
  /-- The request that asked for it: the session and the message's SEQ. -/
  session : Nat := 0
  seq : Nat := 0
  /-- SHAKE256 of the image as first read (R306). -/
  digest : List Byte := []
  deriving DecidableEq, Repr

/-- A restart asked for and not begun: the processor, CAUSE, whether a Mehryen message asked, and the stamp (R302, R303). -/
structure FwReq where
  p : Nat
  cause : Nat
  forced : Bool
  at_ : Nat
  deriving DecidableEq, Repr

/-- Firmware control state. -/
structure Fw where
  /-- Fabric times at which restarts of a processor began, newest first (R303). -/
  starts : SMap (List Nat) := []
  /-- Requests not yet begun, in the order of their stamps and then of p (R302, R303). -/
  queue : List FwReq := []
  /-- Fabric time of the last kick of a processor, or of its release (R304). -/
  kicks : SMap Nat := []
  /-- Next record number of a processor's log (R312). -/
  logSeq : SMap Nat := []
  /-- Number of the first record since a processor's log region was last cleared. -/
  logBase : SMap Nat := []
  update : Option FwUpdate := none
  /-- SHAKE256 of each running component, and the version of the running image (R305, R307). -/
  digests : SMap (List Byte) := []
  imgver : Nat := 0
  /-- An update's second digest differed, so the image in the boot flash is not valid (R306). -/
  flashBad : Bool := false
  /-- 64-bit words of private SRAM that stand with a parity error, by model address / 8; 1 for each (R304). -/
  parity : SMap Nat := []
  /-- FW_RESTART messages that wait for a restart to end: processor, session and SEQ (R325). -/
  askers : List (Nat × Nat × Nat) := []
  deriving DecidableEq, Repr

/-! ## Observability and pins (R483 to R493, R501) -/

/-- Shadows, trace acceptance, error stamps and the UART1 buffers. -/
structure Obs where
  /-- Shadow registers by key; an unlisted one holds 0 (R484). -/
  shadows : SMap W32 := []
  /-- Fabric time of the last event of each error source (R492). -/
  errLast : SMap Nat := []
  /-- The microsecond of the last trace record offered, and the records that arrived in it (R489). -/
  trcUs : Nat := 0
  trcN : Nat := 0
  /-- Admissions and retirements of each core, for SAMPLE (R490). -/
  trcSkip : SMap Nat := []
  /-- UART1 bytes awaiting transmission and bytes received, oldest first (R501). -/
  uartTx : List Byte := []
  uartRx : List Byte := []
  deriving DecidableEq, Repr

/-! ## Vaults and weight windows (R249 to R270) -/

/-- A weight-streaming window that is active (R261 to R264). -/
structure Window where
  /-- Rights with which its stream is read: those of the agent that set START. -/
  xen : Bool
  xroot : Nat
  xuser : Bool
  src : Nat
  /-- Sizes of the chunks of one pass, in folios. -/
  sizes : List Nat
  again : Bool
  cap : Nat
  wfirst : Nat
  ncons : Nat
  fill : Nat
  free : Nat
  /-- Next chunk to start, chunks in flight, and chunks landed ahead of an earlier one. -/
  next : Nat := 0
  inflight : List Nat := []
  early : List Nat := []
  /-- Chunks landed in order, as FILL shows them. -/
  filled : Nat := 0
  stopping : Bool := false
  deriving DecidableEq, Repr

/-- Vault state beyond registers. -/
structure Vault where
  /-- Uncorrectable 256-bit words, by physical address / 32; 1 for each. -/
  ue : SMap Nat := []
  /-- Uncorrectable 64-bit words of the Stacks, by physical address / 8; 1 for each (*Fault coverage*). -/
  stackUe : SMap Nat := []
  /-- Words of the Stacks whose parity error a reader has met since boot, by physical address / 8; 1 for each. -/
  stackSeen : SMap Nat := []
  /-- 256-bit words with a single-bit error that no read has met yet, by physical address / 32; 1 for each (R266). -/
  weak : SMap Nat := []
  /-- 256-bit words of which an access of a block had no answer for 20 µs, until their vault's retraining ends; 1 for each (R266). -/
  unanswered : SMap Nat := []
  /-- Corrected errors since boot of each row, by (vault, bank, row). -/
  rowCe : SMap Nat := []
  /-- Rows that have returned an uncorrectable word. -/
  rowUe : SMap Nat := []
  /-- Spare rows used in each bank. -/
  spares : SMap Nat := []
  /-- Failed retrainings in a row of each vault. -/
  fails : SMap Nat := []
  /-- The high half of VLT_TLBINV as written (R253). -/
  tlbHi : W32 := 0
  windows : SMap Window := []
  deriving DecidableEq, Repr

/-! ## The Power Ledger (R438 to R442) -/

/-- A permit request of a core for a gang of a parcel (R440). -/
structure PermitReq where
  parcel : Nat
  core : Nat
  eclass : Nat
  since : Nat
  deriving DecidableEq, Repr

/-- Ledger state beyond registers. -/
structure Ledger where
  /-- Requests waiting, oldest first. -/
  reqs : List PermitReq := []
  /-- The microsecond of fabric time last credited, and the fraction of a token carried, in millionths. -/
  us : Nat := 0
  frac : Nat := 0
  /-- The microsecond of the last grant, and the grants in it. -/
  grantUs : Nat := 0
  grants : Nat := 0
  /-- Time that granted requests of a cluster waited since the last rate update (R444). -/
  waited : SMap Nat := []
  deriving DecidableEq, Repr

/-! ## Power (R422 to R448) -/

/-- A requested power state that has not begun its entry (R427, R428). -/
structure PwrReq where
  target : Nat
  deadline : Nat
  /-- Who asked: none for the register, a session and SEQ for a message. -/
  asker : Option (Nat × Nat) := none
  deriving DecidableEq, Repr

/-- Power state beyond registers. -/
structure Power where
  /-- Clusters (16 for HOST) whose clock is stretched, with the fabric time the stretch began (R446). -/
  stretch : SMap Nat := []
  /-- A request written while the power processor restarts, which waits for its return (R301). -/
  asked : Option Nat := none
  /-- The request being drained, and the entry under way (R428). -/
  req : Option PwrReq := none
  entering : Option PwrReq := none
  /-- A wake arrived during the entry (R429). -/
  wakePending : Option Nat := none
  /-- Pins of a cluster, by owner (R437). -/
  pins : SMap (List Nat) := []
  /-- The cap in force in watts; PWR_CAP holds the one that the next update takes (R443). -/
  capNow : Nat := 120
  /-- A HOST voltage step waits for VSTEP_ACK: the fabric time it began, its point, and the point it leaves (R436). -/
  vstep : Option (Nat × Nat × Nat) := none
  /-- Fabric times at which regulators have settled (R434, R435). -/
  settle : SMap Nat := []
  /-- Fabric time of the last admission, retirement or RUN claim, for IDLE_AFTER (R427). -/
  idleSince : Nat := 0
  /-- A thermal trip stopped the clocks until PORST_N (R448). -/
  tripped : Bool := false
  /-- A supply below its range holds the device in reset (R509). -/
  held : Bool := false
  /-- The last accepted request (R427), and the claims that stand, by owner. -/
  last : Nat := 0
  claims : SMap Nat := []
  /-- A wake has started the return to a state (R430, R431). -/
  ret : Option Nat := none
  /-- Host cores that had been released before the entry (R431). -/
  released : List Nat := []
  /-- The millisecond of the last rate update, and the refill rate it set, in mW, before the cuts for heat; clusters lowered for
  heat since then (R438, R444, R447). -/
  rateMs : Nat := 0
  base : Nat := 120000
  cooled : Nat := 0
  /-- The millisecond of the last thermal response; sensors being cooled; the tenths by which the refill rate is cut (R447). -/
  tempMs : Nat := 0
  hot : List Nat := []
  cut : Nat := 0
  /-- Banks whose statistics sets were lost in SLEEP and not reset since, by 4 * core + bank (R425). -/
  statsLost : List Nat := []
  deriving DecidableEq, Repr

/-! ## The key-value store (R205 to R220) -/

/-- A request taken from the request ring and not yet complete (R210, R211). -/
structure KvReq where
  op : Nat
  seq : Nat
  count : Nat
  addr : Nat
  tally : Nat
  /-- Virtual address of its ring entry. -/
  va : Nat
  /-- It is refused with KV_BAD_REQUEST at its turn (R211, R214). -/
  bad : Bool := false
  deriving DecidableEq, Repr

/-- Key-value state beyond the registers, the Page Index and the sequence table. -/
structure Kv where
  /-- A doorbell has woken the memory processor, and it has not yet met an entry whose OP is 0 (R210). -/
  awake : Bool := false
  /-- Sequences whose recompute parcel waits to enter flight, while 4,096 parcels are in it, oldest first (R219, R286). -/
  owed : List Nat := []
  /-- Requests waiting for a recompute on their sequence, oldest first (R211). -/
  waiting : List KvReq := []
  deriving DecidableEq, Repr

/-! ## Mehryen messages and sessions (R308 to R330) -/

/-- What a session is bound to (R315). -/
inductive Bind where
  | eth (mac vlan : Nat)
  | udp (v6 : Bool) (addr port : Nat)
  | mailbox (card : Nat)
  deriving DecidableEq, Repr

/-- A partner as one message shows it: its binding, and the way back to it. -/
structure Peer where
  bind : Bind
  /-- Ingress port, source MAC address and VLAN of the frame that carried the message. -/
  via : Nat := 0
  mac : Nat := 0
  vlan : Nat := 0
  deriving DecidableEq, Repr

/-- A message accepted and waiting in its owner's queue (R318, R321). -/
structure Msg where
  peer : Peer
  session : Nat
  token : Nat
  seq : Nat
  opcode : Nat
  minor : Nat
  nocrc : Bool
  payload : List Byte
  /-- Ingress stamp (R308). -/
  stamp : Nat
  deriving DecidableEq, Repr

/-- A request executed, with the reply kept for its repeats; nothing is kept of a request that is executed again (R322). -/
structure Kept where
  seq : Nat
  opcode : Nat
  status : Nat
  payload : List Byte
  deriving DecidableEq, Repr

/-- A request accepted and still executing, with the repeats received meanwhile (R322). -/
structure MExec where
  session : Nat
  seq : Nat
  opcode : Nat
  peer : Peer
  nocrc : Bool
  repeats : Nat := 0
  deriving DecidableEq, Repr

/-- A message being reassembled from parts (R323). -/
structure Reasm where
  seq : Nat
  opcode : Nat
  next : Nat
  bytes : List Byte
  /-- Fabric time of the last part. -/
  at_ : Nat
  deriving DecidableEq, Repr

/-- A session beyond its registers (R324). -/
structure Sess where
  token : Nat
  peer : Peer
  feats : List Nat
  minor : Nat
  nocrc : Bool
  /-- Newest first, at most 64. -/
  kept : List Kept := []
  reasm : Option Reasm := none
  /-- SEQ of the next message the device originates. -/
  paceSeq : Nat := 0
  /-- Fabric time at which its lease expired, while it is HELD or DRAINING. -/
  expired : Option Nat := none
  /-- Its release has begun, with the BYE that waits for it, if any (R311). -/
  releasing : Bool := false
  bye : Option Nat := none
  deriving DecidableEq, Repr

/-- A watch held at a tally's home (R327). -/
structure Watch where
  session : Nat
  seq : Nat
  tally : Nat
  threshold : Nat
  deadline : Nat
  deriving DecidableEq, Repr

/-- A PACE sent and not yet answered (R329). -/
structure PaceOut where
  to_ : Nat
  epoch : Nat
  seq : Nat
  sent : Nat
  deriving DecidableEq, Repr

/-- A bound job (R329). -/
structure Job where
  job : Nat
  n : Nat
  self_ : Nat
  arrive : Nat
  peerTally : List Nat
  peerSess : List Nat
  /-- The value of ARRIVE last sent. -/
  epoch : Nat := 0
  out : List PaceOut := []
  deriving DecidableEq, Repr

/-- What a signal makes the device send, and the scheduler has not sent yet: a watch's reply, or the PACE messages of a
job's new epoch (R327, R329). -/
inductive Owed where
  | reply (session seq status : Nat)
  | pace (job epoch : Nat)
  deriving DecidableEq, Repr

/-- Mehryen state. -/
structure Mhy where
  sess : SMap Sess := []
  /-- Owner queues by processor; 5 for opcodes no processor owns. -/
  queues : SMap (List Msg) := []
  execs : List MExec := []
  watches : List Watch := []
  jobs : List Job := []
  owed : List Owed := []
  /-- Contexts released with their session while an AUTO group ran (R311). -/
  orphans : List Nat := []
  /-- Messages for mailboxes, oldest first: card and bytes (R292). -/
  outbox : List (Nat × List Byte) := []
  deriving DecidableEq, Repr

/-! ## Ethernet (R332 to R346) -/

/-- A frame inside the switch: its tag is carried apart, and the FCS is not kept. -/
structure Frame where
  dst : Nat
  src : Nat
  vid : Nat
  pcp : Nat
  etype : Nat
  body : List Byte
  /-- The stream filter that identified it. -/
  flt : Option Nat := none
  deriving DecidableEq, Repr

/-- A forwarding entry (R335, R337). -/
structure FdbEnt where
  mac : Nat
  vid : Nat
  static_ : Bool
  ports : Nat
  /-- Fabric time of its last frame. -/
  last : Nat
  deriving DecidableEq, Repr

/-- An oper gate list (R342): entries are interval, operation and gate states. -/
structure GateList where
  base : Nat
  cycle : Nat
  ext : Nat
  ents : List (Nat × Nat × Nat)
  deriving DecidableEq, Repr

/-- A frame in transmission, or the remainder of one that was preempted (R343). -/
structure Tx where
  frame : Frame
  cls : Nat
  ends : Nat
  /-- It is a fragment that a preemption is ending. -/
  cut : Bool := false
  deriving DecidableEq, Repr

/-- What the last announcement in force on a port said (R338, IEEE 802.1AS): the system identity of the grandmaster and the source
port identity as numbers, the steps between them, the path trace, and when it was heard. -/
structure GAnnounce where
  vec : Nat
  steps : Nat
  src : Nat
  path : List Byte
  at_ : Nat
  deriving DecidableEq, Repr

/-- A Sync that waits for its Follow_Up: source, sequence number, ingress stamp and correction. -/
structure GSync where
  src : Nat
  seq : Nat
  stamp : Nat
  corr : Int
  deriving DecidableEq, Repr

/-- A Sync that is relayed: its sequence number on the port, the grandmaster's time with the correction up to its ingress here, the
ingress stamp, and the information of its Follow_Up. -/
structure GRelay where
  seq : Nat
  origin : Nat
  corr : Int
  stamp : Nat
  info : List Byte
  deriving DecidableEq, Repr

/-- A gPTP instance on one port: peer delay, the announcement in force, and Syncs received and sent. -/
structure GptpPort where
  heard : Option GAnnounce := none
  /-- The sequence number of the last Pdelay_Req, its egress stamp, and of its response the time at the peer and the ingress stamp. -/
  reqSeq : Nat := 0
  t1 : Option Nat := none
  resp : Option (Nat × Nat) := none
  /-- The neighbour delay measured, in ns. -/
  delay : Option Nat := none
  sync : Option GSync := none
  syncSeq : Nat := 0
  relay : Option GRelay := none
  deriving DecidableEq, Repr

/-- An external port beyond its registers. -/
structure EthPort where
  /-- Queued frames by traffic class, oldest first. -/
  queues : SMap (List Frame) := []
  tx : Option Tx := none
  /-- A preempted frame; `ends` holds the time its remainder takes. -/
  rest : Option Tx := none
  oper : Option GateList := none
  pend : Option GateList := none
  /-- Current entry of the oper list and the fabric time at which it ends. -/
  ent : Nat := 0
  entEnds : Nat := 0
  gates : Nat := 255
  /-- The MAC merge layer holds preemptable traffic, from SetAndHoldMAC to SetAndReleaseMAC. -/
  hold : Bool := false
  /-- Credits of the shapers in millionths of a bit, and the times at which they were noted (R343). -/
  credit : SMap (Int × Nat) := []
  /-- MACsec: the SAK, the next packet number to send, the highest received, and the time of the last live peer. -/
  sak : Option W64 := none
  pn : Nat := 1
  rxPn : Nat := 0
  peerAt : Nat := 0
  /-- The port is its key server (IEEE 802.1X, KSPRIO). -/
  server : Bool := false
  /-- Fabric time at which the last frame received ended (R29, R30). -/
  rxAt : Nat := 0
  deriving DecidableEq, Repr

/-- Sequence recovery and generation of a CB stream (R341). -/
structure CbState where
  /-- The highest sequence number passed, and the numbers passed within the history. -/
  top : Option Nat := none
  seen : List Nat := []
  last : Nat := 0
  gen : Nat := 0
  deriving DecidableEq, Repr

/-- Ethernet state beyond registers. -/
structure Eth where
  ports : SMap EthPort := []
  /-- VLAN words by VID (TABLE 0x01, R337). At reset VLAN 1 holds every port untagged, the default VLAN of IEEE 802.1Q. -/
  vlans : SMap Nat := [(1, 0x801F1F00)]
  /-- The other TSN tables by index: filters, gates, CB streams, shapers, and gate-control entries by 256 port + index. -/
  fdb : SMap FdbEnt := []
  admin : SMap (Nat × Nat) := []
  filters : SMap (Nat × Nat × Nat) := []
  gates : SMap Nat := []
  cbs : SMap (Nat × Nat) := []
  cbState : SMap CbState := []
  shapers : SMap Nat := []
  /-- gPTP instances by 8 × instance + port, and the grandmaster that each selected last (R338, R339). -/
  gptp : SMap GptpPort := []
  gms : SMap Nat := []
  /-- Consecutive Sync measurements inside ±50 ns, and the fabric time of the last measurement (R32). -/
  good : Nat := 0
  lastSync : Nat := 0
  /-- The use of the fleet link key has been enabled by a two-party change (R344). -/
  linkKey : Bool := false
  deriving DecidableEq, Repr

/-! ## Reflex groups (R229 to R245) -/

/-- A record landed for a row: landing time, RESET flag and values. -/
structure RRec where
  row : Nat
  at_ : Nat
  reset : Bool
  vals : List Nat
  deriving DecidableEq, Repr

/-- A step latched: its latch time, reset mask, inputs by row and the stale rows (R234, R237). -/
structure RLatch where
  at_ : Nat
  mask : Nat
  inputs : List (List Nat)
  stale : List Bool
  deriving DecidableEq, Repr

/-- A step in progress. -/
structure RStep where
  latch : RLatch
  start : Nat
  ends : Nat
  deriving DecidableEq, Repr

/-- The outputs of a step, with the streams whose frames are still to be built (R233). -/
structure ROut where
  step : Nat
  time : Nat
  late : Bool
  restarted : Bool
  nan : Nat
  latch : RLatch
  outs : List (List Nat)
  streams : List Nat
  deriving DecidableEq, Repr

/-- A running reflex group. -/
structure RGroup where
  parcel : Nat
  desc : List W32
  /-- Words 0x10 to 0x1F of each channel's card: BIND, EGRESS, TMPL_LO and TMPL_HI. -/
  cards : List (List W32)
  cardNums : List Nat
  inbox : List RRec := []
  /-- Inputs of the last step by row. -/
  last : List (List Nat) := []
  /-- MARK masks with the times they were accepted. -/
  marks : List (Nat × Nat) := []
  /-- Index of the next tick under TIMED. -/
  tick : Nat := 0
  /-- Landing that waits to trigger a step under ARRIVE. -/
  trig : Option Nat := none
  lastL : Option Nat := none
  latch : Option RLatch := none
  step : Option RStep := none
  out : List ROut := []
  /-- Checkpoints written, and of each ring position of CBASE that holds a complete copy the number of the checkpoint (R245). -/
  ckpts : Nat := 0
  copied : SMap Nat := []
  /-- Status with which it ends at its next step boundary. -/
  stop : Option Nat := none
  /-- Fabric time at which it was held, and the wish to hold at the next boundary (R242). -/
  held : Option Nat := none
  hold : Bool := false
  /-- Fabric time of the fence it waits to resume from (R243). -/
  fenced : Option Nat := none
  restarted : Bool := false
  /-- Fabric times until which it occupies the accumulate port (R234), and its checkpoint the drain port (R245). -/
  busy : Nat := 0
  ckBusy : Nat := 0
  deriving DecidableEq, Repr

/-- Reflex state: groups by 4 * slot + first slice, and payloads on their way to a landing, with their streams. -/
structure Rfx where
  groups : SMap RGroup := []
  landing : List (Nat × List Byte) := []
  deriving DecidableEq, Repr

/-! ## The island and the AUD block (R350 to R377) -/

/-- A microphone port: when its power enable rose, and when its clock started or changed rate (R353). -/
structure AudPort where
  pwrAt : Option Nat := none
  clockAt : Option Nat := none
  deriving DecidableEq, Repr

/-- Loupe on one array (R371). The floor is in units of 1 / 3,603,600 dB. -/
structure Loupe where
  floor : Option Int := none
  next : Nat := 0
  run : Nat := 0
  active : Bool := false
  quiet : Nat := 0
  /-- Activities, newest first, by archive index: onset, and end once it has ended. -/
  acts : List (Nat × Option Nat) := []
  deriving DecidableEq, Repr

/-- Lens on one array: the next hop, and the consecutive hops at or above THRESH of each island beam (R372). -/
structure Lens where
  next : Nat := 0
  runs : List Nat := []
  /-- The keyword model's state on each island beam; 0 is the cleared one. -/
  state : List Nat := []
  deriving DecidableEq, Repr

/-- An archive copy under way (R362, R363). -/
structure ACopy where
  ctx : Nat
  whole : Bool
  first : Nat
  count : Nat
  dst : Nat
  mask : Nat
  tally : Nat
  /-- Rows moved so far. -/
  moved : Nat := 0
  deriving DecidableEq, Repr

/-- Audio state beyond the registers; the archive itself stands in memory. -/
structure Aud where
  ports : SMap AudPort := []
  /-- MUTE_LED is high. -/
  led : Bool := false
  /-- Microphone clocks run at their RUN and IDLE rates (R376). -/
  fast : Bool := true
  /-- Stamp of the first sample of the row in assembly, its ROWSEQ, and the power state then (R359). -/
  rowStart : Nat := 0
  rowSeq : Nat := 0
  rowState : Nat := 0
  /-- Stamp of the first sample of the row before it, and whether what it held has been discarded (R354). -/
  prev : Nat := 0
  cut : Bool := false
  /-- The archive index at which the echo canceller last started with weights 0, and that at which it stopped (R366). -/
  aec : Option (Nat × Option Nat) := none
  /-- What each speaker port plays since its last boundary: 32-bit slots, and the frames of the block, none for zeros. A port whose
  pins are held low is absent (R350, R368). -/
  spk : SMap (Bool × List Byte) := []
  /-- ADPCM coder of a channel: predictor and step index (R360). -/
  coder : SMap (Int × Nat) := []
  loupe : SMap Loupe := []
  lens : SMap Lens := []
  copy : Option ACopy := none
  /-- Of a microphone card: archive index of its next block, and blocks dropped just before it (R367). -/
  mic : SMap (Nat × Nat) := []
  /-- Of an output card: its last boundary, and whether that period played a block (R368). -/
  out : SMap (Nat × Bool) := []
  /-- Accepted tails of an output card with their stamps, newest first (R368). -/
  tails : SMap (List (Nat × Nat)) := []
  deriving DecidableEq, Repr

/-! ## Cameras (R378 to R402) -/

/-- A frame of a camera stream, open or closed and not yet delivered. Pixels are numbers: a RAW value of 16 bits; luma and
chroma bytes of YUV422, high and low; red, green and blue bytes of RGB888, high to low. -/
structure CamFrame where
  /-- The card as it stood at the Frame Start (R382), and the SEQ of the frame. -/
  cfg : List W32
  seq : Nat
  fnum : Nat
  fs : Nat
  fe : Option Nat := none
  /-- Image lines, each WIDTH pixels long (R384). -/
  lines : List (List Nat) := []
  shortN : Nat := 0
  longN : Nat := 0
  crcN : Nat := 0
  padN : Nat := 0
  cutN : Nat := 0
  late : Bool := false
  cut : Bool := false
  short : Bool := false
  emb : List Byte := []
  embCut : Bool := false
  /-- The keyed set has been chosen for it (R395). -/
  keyed : Bool := false
  embMissing : Bool := false
  unkeyed : Bool := false
  sfcnt : Nat := 0
  /-- ISP parameters in force for it, its shading grid and its generation. -/
  params : SMap W32 := []
  grid : List Byte := []
  pgen : Nat := 0
  /-- Completion times of its Aperture lines that hold a slot, one still arriving among them (R388). -/
  slots : List Nat := []
  /-- Dropped: its further lines are discarded until Frame End. -/
  dropped : Bool := false
  deriving DecidableEq, Repr

/-- A camera stream by its card: frames, oldest first, and drops since the last delivered frame. -/
structure CamStream where
  frames : List CamFrame := []
  seq : Nat := 0
  dropOvf : Nat := 0
  dropFull : Nat := 0
  dropUe : Nat := 0
  deriving DecidableEq, Repr

/-- An FSYNC train in force, a new one with the earliest time it may take effect, and the last edge (R397). -/
structure Fsync where
  period : Nat := 0
  phase : Nat := 0
  pend : Option (Nat × Nat × Nat) := none
  last : Option Nat := none
  deriving DecidableEq, Repr

/-- A transfer armed or running on an I3C controller (R398, R399). -/
structure I3c where
  xfer : Nat
  at_ : Nat
  started : Bool := false
  deriving DecidableEq, Repr

/-- Camera state beyond registers; keyed sets wait by ISP stream, oldest first. -/
structure Cam where
  streams : SMap CamStream := []
  pend : SMap (List (Nat × SMap W32)) := []
  pipeFree : SMap Nat := []
  fsync : SMap Fsync := []
  i3c : SMap I3c := []
  deriving DecidableEq, Repr

/-! ## The ladders (R403 to R421) -/

/-- A parcel that a ladder submitted and that has not completed: the rung it belongs to, its queue entry, its argument block,
when it was submitted, and the frame it reads (R406, R410, R416). -/
structure LSub where
  rung : Nat
  card : Nat
  idx : Nat
  args : Nat
  at_ : Nat
  fseq : Nat := 0
  fslot : Option Nat := none
  /-- Its evaluation has been settled (R406). -/
  settled : Bool := false
  service : Bool := false
  deriving DecidableEq, Repr

/-- One evaluation (R406): the ladder, the rung's entry, the stamp, and the verdict. -/
structure LEval where
  key : Nat
  entry : Nat
  stamp : Nat
  score : Nat
  aux : Nat := 0
  box0 : Nat := 0
  box1 : Nat := 0
  failed : Bool := false
  fseq : Nat := 0
  fslot : Nat := 0
  /-- The beam of a Lens decision, and the archive range of its phrase. -/
  beam : Nat := 0
  clamped : Bool := false
  deriving DecidableEq, Repr

/-- One ladder. -/
structure Ladder where
  rung : Nat
  /-- Consecutive evaluations at or above THRESH since it arrived, the arrival's stamp, and the last evaluation at or above
  the hold level (R407, R408). -/
  run : Nat := 0
  since : Nat := 0
  hold : Nat := 0
  subs : List LSub := []
  /-- The ticket of its arrival, whether its parcel still waits to be submitted, and the cluster and point asked for with a
  climb, until they are granted (R417). -/
  arrival : List W32 := []
  waiting : Bool := false
  asks : Option (Nat × Nat) := none
  /-- Next due time of a PERIODIC rung. -/
  due : Nat := 0
  /-- G of each zone of the stream's previous delivered frame, and its SEQ and slot (R406). -/
  zones : List Nat := []
  fseq : Nat := 0
  fslot : Option Nat := none
  /-- Woken from DEEP_SLEEP by a Loupe trigger (R418), and the phrase's range (R412). -/
  deep : Bool := false
  start : Nat := 0
  stop : Nat := 0
  deriving DecidableEq, Repr

/-- Ladder state beyond the registers: ladders by array n, or 16 + s for stream s. -/
structure Lad where
  /-- The 160 words of the table taken up. -/
  table : List W32 := []
  ladders : SMap Ladder := []
  /-- Parcels in flight of ladders that were left, by ladder: their rungs are not entered again until they complete (R410). -/
  gone : List (Nat × LSub) := []
  /-- The island queue, oldest first, and the tickets in the ring not yet acknowledged: ladder, and slot named. -/
  queue : List (List W32) := []
  ringed : List (Nat × Nat) := []
  tseq : Nat := 0
  lostBefore : Bool := false
  /-- Evaluations that wait for the sensor processor, oldest first. -/
  todo : List LEval := []
  /-- A take-up of the table waits for the sensor processor (R405). -/
  want : Bool := false
  /-- Archive index of the trigger that woke the device from DEEP_SLEEP (R377). -/
  wakeS : Nat := 0
  deriving DecidableEq, Repr

/-! ## Repair (R454 to R466) -/

/-- A core under its entry check for a logical number (R459). -/
structure FixCheck where
  core : Nat
  logical : Nat
  start : Nat
  deriving DecidableEq, Repr

/-- A full BIST under way: of a spare, of a core just swapped out, or of a fenced core, the second of two or not
(R462 to R464). -/
structure FixTest where
  core : Nat
  start : Nat
  rolled : Bool := false
  second : Bool := false
  deriving DecidableEq, Repr

/-- A rolling swap of a number from a core to a spare: when the entry check began, and when the number stopped taking gangs
(R463). -/
structure FixSwap where
  logical : Nat
  old : Nat
  new : Nat
  start : Nat
  drain : Option Nat := none
  deriving DecidableEq, Repr

/-- A record owed to the Fence Ledger (R460, *Ledger record kinds*). ARG1 of a FENCE is settled when it is appended. -/
structure LedgerRec where
  kind : Nat
  arg0 : Nat
  arg1 : Nat := 0
  time : Nat := 0
  boot : Nat := 0
  deriving DecidableEq, Repr

/-- Repair state beyond the FIX registers. -/
structure Fix where
  /-- Logical numbers with no core behind them, with the stamps of their fences (R461). -/
  unbacked : List (Nat × Nat) := []
  checks : List FixCheck := []
  tests : List FixTest := []
  /-- Fenced cores that passed once, with the time (R464). -/
  passed : SMap Nat := []
  /-- Fabric time of the last periodic test of a core (R462). -/
  tested : SMap Nat := []
  swap : Option FixSwap := none
  /-- Next number of the rolling round, and fabric time of the last swap slot. -/
  rollNext : Nat := 0
  rollAt : Nat := 0
  owed : List LedgerRec := []
  /-- The active half of the Fence Ledger, its next record number and generation, and boots since test (R465). -/
  half : Nat := 0
  seq : Nat := 0
  gen : Nat := 0
  boots : Nat := 0
  /-- ROW records in force (R466). -/
  rows : Nat := 0
  deriving DecidableEq, Repr

/-! ## Protection (R468 to R482) -/

/-- A proposal held (R474): its bytes up to the signature, and its hold stamp. -/
structure Proposal where
  kind : Nat
  party : Nat
  ctr : Nat
  head : List Byte
  body : List Byte
  at_ : Nat
  deriving DecidableEq, Repr

/-- A tenant switch under way (R478): A, the record to come, the debug state it ends with, whether the settle has ended, and
where the reply goes. -/
structure Switch where
  at_ : Nat
  next : List Byte
  unlock : Bool := false
  settled : Bool := false
  peer : Peer
  session : Nat
  seq : Nat
  minor : Nat
  nocrc : Bool
  deriving DecidableEq, Repr

/-- A model measurement under way (R481). -/
structure Measure where
  ctx : Nat
  tag : Nat
  addr : Nat
  len : Nat
  deriving DecidableEq, Repr

/-- The states of the TAP controller of IEEE 1149.1 (R482). -/
inductive Tap where
  | reset | idle | selDr | capDr | shDr | ex1Dr | pauseDr | ex2Dr | updDr
  | selIr | capIr | shIr | ex1Ir | pauseIr | ex2Ir | updIr
  deriving DecidableEq, Repr

/-- The TAP: its state, instruction, shift register with the least significant bit first, and what TDO shows, none for high
impedance. -/
structure Jtag where
  tap : Tap := .reset
  inst : Option Nat := none
  shift : List Bool := []
  tdo : Option Bool := none
  deriving DecidableEq, Repr

/-- Protection state: the protection store (R471), and what the security processor holds beside it. -/
structure Sec where
  enrolled : Bool := false
  ownerKey : List Byte := []
  operatorKey : List Byte := []
  ctr : Nat := 0
  gen : Nat := 0
  /-- The tenancy record in the store; empty for no tenant. -/
  stored : List Byte := []
  /-- The network baseline: ETH settings and tables. -/
  baseRegs : SMap W32 := []
  baseEth : Eth := {}
  policy : Nat := 6
  linkKey : Bool := false
  /-- The windows FWP_Pp_MWINk. -/
  mwins : SMap W32 := []
  debug : Bool := false
  svn : SMap Nat := []
  /-- Not in the store: the tenancy in force, the proposal held, the switch and the measurement under way. -/
  tenancy : List Byte := []
  held : Option Proposal := none
  switch : Option Switch := none
  settleTo : Bool := false
  hostBad : Bool := false
  meas : List (Nat × Nat × List Byte) := []
  mm : Option Measure := none
  hostDigest : List Byte := []
  tenantStart : Nat := 0
  issued : Nat := 0
  /-- The boot ROM serves network recovery (R469), or boot has stopped (R468). -/
  recovery : Bool := false
  stopped : Bool := false
  /-- FIX_POLICY from the next round on (R473, kind 7). -/
  policyNext : Option Nat := none
  jtag : Jtag := {}
  env : BootEnv := {}
  deriving DecidableEq, Repr

end Sys2Proof.Machine
end

