-- ==== Sys2Proof/Machine/State.lean ====
section
/-! DEFINITION. The machine's state, its value right after reset, and the reasons a step can stop. -/

namespace Sys2Proof.Machine

/-- Why the machine stops with a fault. -/
inductive Fault where
  /-- An access to an address outside the physical address map that no exception reports. No command raises it: every
  such access takes the exception or the status the spec names. Safe. -/
  | unmapped (addr : Nat)
  deriving DecidableEq, Repr

/-- Why the machine has no meaning for a command. -/
inductive Refusal where
  /-- A command the model does not give a meaning, by its mnemonic. Raised by the dispatch alone. Safe. -/
  | notModelled (mnemonic : String)
  deriving DecidableEq, Repr

/-- Whether SLEEP loses an address: the Stacks and the carrels (R425). -/
def sleepLoses (a : Nat) : Bool :=
  (decide (0x010000000000 ≤ a) && decide (a ≤ 0x010000FFFFFF)) || (decide (0x011000000000 ≤ a) && decide (a ≤ 0x011002FFFFFF))

/-- Whether an address lies in the xSPI flash window or the on-package flash (R36), whose erased bytes are 0xFF. -/
def inFlash (a : Nat) : Bool :=
  (decide (0x017100000000 ≤ a) && decide (a ≤ 0x01710FFFFFFF)) || (decide (0x017200000000 ≤ a) && decide (a ≤ 0x0172003FFFFF))

/-- What an unlisted address reads as: 0, erased flash, or a free value where SLEEP has lost the contents. -/
def memDefault (lost a : Nat) : Byte :=
  if lost ≠ 0 && sleepLoses a then Config.lostByte lost a else if inFlash a then 0xFF else 0

/-- The whole state of the block. -/
structure State where
  /-- Commands waiting, first in, first out. -/
  pending : List Instr := []
  /-- Fabric time in nanoseconds, the master keeper's count (R26). -/
  now : Nat := 0
  /-- Local copies of fabric time by block: how far a copy stands behind the master, in ns, and the value below which it does
  not read (R27, R29). -/
  copies : SMap (Nat × Nat) := []
  /-- The model's own counter of free values drawn; the spec has no such state. -/
  free : Nat := 0
  /-- Memory by physical address (R36); an unlisted byte reads `memDefault`. -/
  mem : SMap Byte := []
  /-- The model's own count of the entries into SLEEP that lost carrels and Stacks (R425). -/
  lost : Nat := 0
  /-- Control registers in effect, by offset in the control register space (R37); an unlisted one holds its reset value. -/
  regs : SMap W32 := []
  /-- Mirror bank of RWM registers (R13). -/
  mirror : SMap W32 := []
  /-- Latched _HI halves (R9), by the _HI register's offset. -/
  latch : SMap W32 := []
  harts : SMap Hart := []
  cores : SMap Core := []
  /-- Gangs by 128 * physical core + gang number (R80). -/
  gangs : SMap Gang := []
  tallies : SMap Tally := []
  waits : List TWait := []
  sched : Sched := {}
  fw : Fw := {}
  obs : Obs := {}
  vault : Vault := {}
  ledger : Ledger := {}
  power : Power := {}
  kv : Kv := {}
  mhy : Mhy := {}
  eth : Eth := {}
  rfx : Rfx := {}
  aud : Aud := {}
  cam : Cam := {}
  lad : Lad := {}
  fix : Fix := {}
  sec : Sec := {}
  deriving DecidableEq, Repr

/-- The machine right after reset. -/
def State.reset : State := {}

end Sys2Proof.Machine
end

