-- ==== Sys2Proof/Machine/Run.lean ====
section
/-! DEFINITION. A command's effect as a run of primitive updates. `Upd` lists every way a command may change the state;
`Reach s t` says that t comes from s by such updates; a `Run s` carries a state together with that evidence. Whatever
every primitive update keeps, every command keeps: one induction over `Reach` proves it for the whole opcode table. -/

namespace Sys2Proof.Machine

/-! ## Local copies of fabric time (R27 to R30) -/

/-- Blocks that keep a local copy: the scheduler, ETH, CSI, AUD, the host-core complex, the other firmware processors, the SOC
blocks, and a cluster with its cores and the tallies whose home it is. The island reads the master. -/
def tbSched : Nat := 0
def tbEth : Nat := 1
def tbCsi : Nat := 2
def tbAud : Nat := 3
def tbHcx : Nat := 4
def tbFw : Nat := 5
def tbSoc : Nat := 6
def tbCluster (c : Nat) : Nat := 16 + c

/-- The cluster whose router is the home of a tally (R107). -/
def tbHome (i : Nat) : Nat := tbCluster (i / 1024)

/-- The cluster of a physical core. -/
def tbCore (core : Nat) : Nat := tbCluster (core / 12)

/-- Every block with a local copy. -/
def timeBlocks : List Nat := List.range 7 ++ (List.range 16).map tbCluster

/-- Fabric time as a block reads it: its local copy, at most 4 ns behind the master, and never behind what the block has
read before (R27, R29). -/
def State.timeAt (s : State) (b : Nat) : Nat :=
  let c := SMap.get (0, 0) s.copies b
  max c.2 (s.now - c.1)

/-- The primitive updates of the state. None of them touches the queue of commands. -/
inductive Upd where
  | now (t : Nat)
  | realign (lags : List Nat)
  | draw
  | mem (addr : Nat) (b : Byte)
  | lose
  | wipe (lo hi : Nat)
  | fresh
  | reg (key : Nat) (v : W32)
  | mirror (key : Nat) (v : W32)
  | latch (key : Nat) (v : W32)
  | hart (key : Nat) (h : Hart)
  | core (n : Nat) (c : Core)
  | gang (key : Nat) (g : Option Gang)
  | tally (i : Nat) (t : Tally)
  | waits (w : List TWait)
  | sched (x : Sched)
  | fw (x : Fw)
  | sec (x : Sec)
  | fix (x : Fix)
  | lad (x : Lad)
  | cam (x : Cam)
  | aud (x : Aud)
  | rfx (x : Rfx)
  | eth (x : Eth)
  | mhy (x : Mhy)
  | kv (x : Kv)
  | power (x : Power)
  | ledger (x : Ledger)
  | vault (x : Vault)
  | obs (x : Obs)

/-- What a primitive update does. Fabric time never goes back, and a realigned copy stands at most 4 ns behind the master and does
not go back either (R27, R29). -/
def Upd.apply : Upd → State → State
  | .now t, s => { s with now := max s.now t }
  | .realign lags, s => { s with copies := timeBlocks.zipWith (fun b lag => (b, (lag % 5, s.timeAt b))) lags }
  | .draw, s => { s with free := s.free + 1 }
  | .mem a b, s => { s with mem := SMap.set (memDefault s.lost a) s.mem a b }
  | .lose, s => { s with mem := s.mem.filter fun c => !sleepLoses c.1, lost := s.lost + 1 }
  | .wipe lo hi, s => { s with mem := s.mem.filter fun c => !(decide (lo ≤ c.1) && decide (c.1 < hi)) }
  | .fresh, s => { s with mem := s.mem.filter fun c => !sleepLoses c.1, lost := 0 }
  | .reg k v, s => { s with regs := SMap.set (regReset k) s.regs k v }
  | .mirror k v, s => { s with mirror := SMap.set (regReset k) s.mirror k v }
  | .latch k v, s => { s with latch := SMap.set 0 s.latch k v }
  | .hart k h, s => { s with harts := SMap.set {} s.harts k h }
  | .core n c, s => { s with cores := SMap.set {} s.cores n c }
  | .gang k (some g), s => { s with gangs := SMap.insert s.gangs k g }
  | .gang k none, s => { s with gangs := SMap.erase s.gangs k }
  | .tally i t, s => { s with tallies := SMap.set {} s.tallies i t }
  | .waits w, s => { s with waits := w }
  | .sched x, s => { s with sched := x }
  | .fw x, s => { s with fw := x }
  | .sec x, s => { s with sec := x }
  | .fix x, s => { s with fix := x }
  | .lad x, s => { s with lad := x }
  | .cam x, s => { s with cam := x }
  | .aud x, s => { s with aud := x }
  | .rfx x, s => { s with rfx := x }
  | .eth x, s => { s with eth := x }
  | .mhy x, s => { s with mhy := x }
  | .kv x, s => { s with kv := x }
  | .power x, s => { s with power := x }
  | .ledger x, s => { s with ledger := x }
  | .vault x, s => { s with vault := x }
  | .obs x, s => { s with obs := x }

/-- t comes from s by primitive updates. -/
inductive Reach (s : State) : State → Prop where
  | refl : Reach s s
  | upd {t : State} (h : Reach s t) (u : Upd) : Reach s (u.apply t)

/-- A state reached from `z`, with the evidence. -/
structure Run (z : State) where
  s : State
  ok : Reach z s

namespace Run

variable {z : State}

/-- The run that has done nothing. -/
def start (z : State) : Run z := ⟨z, .refl⟩

/-- Do one primitive update. -/
def put (r : Run z) (u : Upd) : Run z := ⟨u.apply r.s, .upd r.ok u⟩

/-- Do an action for each element of a list, in order. -/
def each {α : Type} (r : Run z) (l : List α) (f : α → Run z → Run z) : Run z := l.foldl (fun r a => f a r) r

/-- Do an action only when a condition holds. -/
def when (r : Run z) (c : Bool) (f : Run z → Run z) : Run z := if c then f r else r

end Run

/-- The device runs nothing until PORST_N: a thermal trip stopped its clocks, a supply holds it in reset, or it is OFF
(R432, R448, R509). -/
def State.halted (s : State) : Bool :=
  s.power.tripped || s.power.held || (SMap.get 0 s.regs 0x100004).toNat / 2 ^ 29 % 8 = 4

/-- The outcome of a command whose effect is a run; a halted device ignores it. -/
def done {z : State} (r : Run z) : Host.Outcome State Fault Refusal := .next (if z.halted then z else r.s)

end Sys2Proof.Machine
end

