-- ==== Sys2Proof/Machine/Ops.lean ====
section
/-! DEFINITION. The named operations over memory, registers, harts, gangs and time that every meaning is built from. -/

namespace Sys2Proof.Machine

/-! ## Bits -/

/-- Bits hi:lo of a number. -/
def bits (n hi lo : Nat) : Nat := n / 2 ^ lo % 2 ^ (hi + 1 - lo)

/-- One bit of a number. -/
def bit (n i : Nat) : Bool := n / 2 ^ i % 2 = 1

/-- A number with bits hi:lo replaced. -/
def setBits (n hi lo v : Nat) : Nat := n - bits n hi lo * 2 ^ lo + v % 2 ^ (hi + 1 - lo) * 2 ^ lo

/-- 0 or 1. -/
def b2n (b : Bool) : Nat := if b then 1 else 0

/-- Little-endian bytes of a number. -/
def leBytes : Nat → Nat → List Byte
  | 0, _ => []
  | n + 1, v => BitVec.ofNat 8 v :: leBytes n (v / 256)

/-- The number little-endian bytes spell. -/
def ofLe : List Byte → Nat
  | [] => 0
  | b :: bs => b.toNat + 256 * ofLe bs

/-- Ceiling of a quotient. -/
def cdiv (a b : Nat) : Nat := (a + b - 1) / b

/-- Sign-extend the low w bits. -/
def sext (w n : Nat) : Int := if bit n (w - 1) then (n % 2 ^ w : Int) - 2 ^ w else n % 2 ^ w

/-- Saturate a count at 0xFFFF_FFFF. -/
def sat32 (n : Nat) : Nat := min n 0xFFFFFFFF

/-! ## Status codes (R15, R16) -/

def stOk : Nat := 0x0000
def stEmpty : Nat := 0x0001
def stBounds : Nat := 0x0010
def stBadLength : Nat := 0x0011
def stTruncated : Nat := 0x0012
def stFencedRetry : Nat := 0x0020
def stNotRestartable : Nat := 0x0021
def stTimeout : Nat := 0x0030
def stLeaseLost : Nat := 0x0031
def stNoPermit : Nat := 0x0040
def stSaturatedRerun : Nat := 0x0050
def stDenied : Nat := 0x0060
def stNeedCountersign : Nat := 0x0061
def stVersion : Nat := 0x0070
def stFeature : Nat := 0x0071
def stInternal : Nat := 0x00F0
def stLaneFault : Nat := 0x0100
def stBadKernel : Nat := 0x0101
def stTallyExhausted : Nat := 0x0102
def stTallyFreed : Nat := 0x0103
def stUncorrectable : Nat := 0x0500

/-- Whether a status code has the outcome class Success (R15), REFLEX_STOPPED (R247) and WIN_STOPPED (R264) among them. -/
def isSuccess (st : Nat) : Bool :=
  st = stOk || st = stEmpty || st = stTruncated || st = stSaturatedRerun || st = 0x0405 || st = 0x0504

namespace State

/-- One byte of memory. -/
def byte (s : State) (a : Nat) : Byte := SMap.get (memDefault s.lost a) s.mem a

/-- n bytes of memory from a. -/
def bytes (s : State) (a : Nat) : Nat → List Byte
  | 0 => []
  | n + 1 => s.byte a :: s.bytes (a + 1) n

/-- n bytes of memory from a, as a little-endian number. -/
def load (s : State) (a n : Nat) : Nat := ofLe (s.bytes a n)

/-- A control register in effect, by key. -/
def reg (s : State) (k : Nat) : W32 := SMap.get (regReset k) s.regs k

/-- The mirror word of a control register (R13). -/
def mir (s : State) (k : Nat) : W32 := SMap.get (regReset k) s.mirror k

/-- Bits hi:lo of a control register in effect. -/
def fld (s : State) (k hi lo : Nat) : Nat := bits (s.reg k).toNat hi lo

/-- A _LO and _HI register pair as one 64-bit number, _HI at the next register. -/
def reg64 (s : State) (k : Nat) : Nat := (s.reg k).toNat + 2 ^ 32 * (s.reg (k + 4)).toNat

/-- A hart by csr_coreid (R75). -/
def hart (s : State) (k : Nat) : Hart := SMap.get {} s.harts k

/-- A physical core. -/
def core (s : State) (n : Nat) : Core := SMap.get {} s.cores n

/-- A gang of a physical core, if it is resident (R80). -/
def gang? (s : State) (core g : Nat) : Option Gang := SMap.find? s.gangs (128 * core + g)

/-- A tally. -/
def tally (s : State) (i : Nat) : Tally := SMap.get {} s.tallies i

end State

/-- csr_coreid of firmware processor p, which is also its hart key (R294). -/
def fwKey (p : Nat) : Nat := 0x10 + p

/-- Hart key of host core n; 8 names no hart. -/
def hostKey (n : Nat) : Nat := if n < 8 then n else 8

/-- Whether a key names a hart: host cores 0 to 7 and firmware processors 0x10 to 0x14 (R294). -/
def hartExists (key : Nat) : Bool := decide (key < 8) || (decide (0x10 ≤ key) && decide (key < 0x15))

/-- Key of a FWP register of processor p. -/
def fwReg (p off : Nat) : Nat := regKey 4 (0x200 * p + off)

/-- FWP_Pp_STAT.STATE: 0 RUNNING, 1 RESTARTING, 2 HALTED, 3 not yet released. -/
def fwState (s : State) (p : Nat) : Nat := s.fld (fwReg p 4) 31 30

/-- The power state in force: 0 RUN, 1 IDLE, 2 SLEEP, 3 DEEP_SLEEP, 4 OFF (R427). -/
def powerState (s : State) : Nat := s.fld (regKey 1 4) 31 29

/-! ### Fabric time (R26 to R30) -/

/-- Fabric time after an idle step: 1 ns on, and in SLEEP and DEEP_SLEEP the master's next crystal step, 26 or 27 ns of a
38.4 MHz crystal (R28). In OFF fabric time is lost (R26). -/
def State.tick (s : State) : Nat :=
  match powerState s with
  | 2 => ((s.now + 1) * 24 + 624) / 625 * 625 / 24
  | 3 => ((s.now + 1) * 24 + 624) / 625 * 625 / 24
  | 4 => s.now
  | _ => s.now + 1

/-- The logic on VDD_SOC runs: the state is RUN or IDLE (R423, R425). -/
def awake (s : State) : Bool := powerState s ≤ 1

/-- A processor's firmware makes decisions only while it is RUNNING (R301), and awake. -/
def fwRuns (s : State) (p : Nat) : Bool := fwState s p = 0 && awake s

/-- No queue entry is taken and no dispatch starts: a request drains, an entry is under way, or the device sleeps (R428). -/
def workHeld (s : State) : Bool := s.fld (regKey 1 4) 28 27 ≠ 0 || !awake s

/-- Key of a VLT register. -/
def vltReg (off : Nat) : Nat := regKey 7 off

/-- Key of a register of a physical core's window. -/
def coreReg (core off : Nat) : Nat := regKey (0x10 + core) off

/-- Whether block b of vault DRAM is local (R255). -/
def localBlock (s : State) (b : Nat) : Bool := s.fld (vltReg (0x1000 + 4 * (b / 32))) (b % 32) (b % 32) = 1

/-- The vault that holds a vault DRAM address, and its offset there (R255). -/
def vaultOf (s : State) (pa : Nat) : Nat × Nat :=
  let b := pa / 2 ^ 20
  let i := bits pa 19 16
  let j := bits pa 15 12
  if localBlock s b then (i, (16 * b + j) * 4096 + pa % 4096) else (j, (16 * b + i) * 4096 + pa % 4096)

/-- STATE of a vault: 0 UP, 1 RETRAIN, 2 DOWN. -/
def vaultState (s : State) (v : Nat) : Nat := s.fld (vltReg (0x100 + 0x20 * v)) 31 30

/-- Key of a FIX register. -/
def fixReg (off : Nat) : Nat := regKey 0x0D off

/-- State code of a physical core: 0 LIVE, 1 SPARE, 2 TESTING, 3 CHECKING, 4 FENCED, 5 RETIRED. -/
def fixState (s : State) (core : Nat) : Nat := s.fld (fixReg (0x100 + 4 * core)) 31 29

/-- An address lies in the carrel of a FENCED core (R458). -/
def fencedCarrel (s : State) (pa : Nat) : Bool :=
  decide (0x011000000000 ≤ pa) && decide (pa ≤ 0x011002FFFFFF) && fixState s ((pa - 0x011000000000) / 0x40000) = 4

/-- An address lies in the Stacks. -/
def inStacks (pa : Nat) : Bool := decide (0x010000000000 ≤ pa) && decide (pa ≤ 0x010000FFFFFF)

/-- Whether an address reads as uncorrectable: its vault or Stacks word is, its vault is DOWN, or its core is fenced (R266,
R267, R458, *Fault coverage*). -/
def State.isUe (s : State) (pa : Nat) : Bool :=
  (inStacks pa && (SMap.find? s.vault.stackUe (pa / 8)).isSome) ||
  (decide (pa < 2 ^ 35) && ((SMap.find? s.vault.ue (pa / 32)).isSome || (SMap.find? s.vault.unanswered (pa / 32)).isSome ||
    vaultState s (vaultOf s pa).1 = 2)) ||
    fencedCarrel s pa

/-- Physical core that carries a logical number, if one does (R84, R457). -/
def coreOfLogical (s : State) (l : Nat) : Option Nat :=
  if l ≥ 176 then none else (List.range 192).find? fun c => s.fld (coreReg c 0) 31 24 = l

/-- Whether the sequencer's workspace takes the top 32 KiB of a core's carrel: the core is a reflex core that is READY or
RUNNING (R227, R228). -/
def rfxCore (s : State) (core : Nat) : Bool :=
  (List.range 16).any fun n =>
    let k := regKey 5 (0xF0000 + 0x100 * n)
    s.fld k 31 31 = 1 && decide (s.fld k 25 24 ≥ 2) && coreOfLogical s (s.fld k 7 0) = some core

/-- Whether a folio of a core's carrel lies in its parking region or reflex workspace (R86, R227, R252). -/
def carrelReserved (s : State) (core folio : Nat) : Bool :=
  decide (folio ≥ 64 - 2 * s.fld (coreReg core 4) 20 16) || (decide (folio ≥ 56) && rfxCore s core)

/-- ARITH frequency of a core's cluster in MHz: the point CUR of PWR_CLc_DVFS, halved while a droop stretches the clock
(R22, R433, R446). -/
def arithMhz (s : State) (core : Nat) : Nat :=
  let full := match s.fld (regKey 1 (0x100 + 0x10 * (core / 12))) 17 16 with
    | 0 => 1280 | 1 => 960 | 2 => 640 | _ => 320
  if (SMap.find? s.power.stretch (core / 12)).isSome then full / 2 else full

/-- Nanoseconds of a number of ARITH cycles of a core, rounded up. -/
def arithNs (s : State) (core cycles : Nat) : Nat := cdiv (cycles * 1000) (arithMhz s core)

/-- The Accession Record, in the on-package flash at 0x0172_0000_0000. -/
def accBase : Nat := 0x017200000000

/-- The table voltage in mV of a cluster, or HOST for c = 16, at a point (R433): VTAB of the Accession Record. -/
def vtabMv (s : State) (c p : Nat) : Nat := s.load (accBase + 0x40 + 2 * (4 * c + p)) 2 % 4096

namespace Core

/-- A physical bank of a core. -/
def bank (c : Core) (n : Nat) : Bank := SMap.get {} c.banks n

/-- A core with one bank replaced. -/
def setBank (c : Core) (n : Nat) (b : Bank) : Core := { c with banks := SMap.set {} c.banks n b }

end Core

namespace Bank

/-- The cell of row i and column j. -/
def cell (b : Bank) (i j : Nat) : BitVec 40 := SMap.get 0 b.cells (64 * i + j)

/-- A bank with one cell replaced. -/
def setCell (b : Bank) (i j : Nat) (v : BitVec 40) : Bank := { b with cells := SMap.set 0 b.cells (64 * i + j) v }

end Bank

namespace Run

variable {z : State}

/-- Advance fabric time to t, if t is later. -/
def setNow (r : Run z) (t : Nat) : Run z := r.put (.now t)

/-- Write one byte of memory. -/
def setByte (r : Run z) (a : Nat) (b : Byte) : Run z := r.put (.mem a b)

/-- Write bytes of memory from a. -/
def setBytes (r : Run z) (a : Nat) : List Byte → Run z
  | [] => r
  | b :: bs => (r.setByte a b).setBytes (a + 1) bs

/-- Write the n low bytes of a number at a, little-endian. -/
def store (r : Run z) (a n v : Nat) : Run z := r.setBytes a (leBytes n v)

/-- Set a control register in effect. -/
def setReg (r : Run z) (k : Nat) (v : W32) : Run z := r.put (.reg k v)

/-- Set a control register in effect to a number. -/
def setRegN (r : Run z) (k v : Nat) : Run z := r.setReg k (BitVec.ofNat 32 v)

/-- Set bits hi:lo of a control register in effect. -/
def setFld (r : Run z) (k hi lo v : Nat) : Run z := r.setRegN k (setBits (r.s.reg k).toNat hi lo v)

/-- Set a _LO and _HI register pair. -/
def setReg64 (r : Run z) (k v : Nat) : Run z := (r.setRegN k v).setRegN (k + 4) (v / 2 ^ 32)

/-- Add to a counting register that holds at 0xFFFF_FFFF. -/
def bump (r : Run z) (k : Nat) (n : Nat := 1) : Run z := r.setRegN k (sat32 ((r.s.reg k).toNat + n))

/-- Set the mirror word of a register (R13). -/
def setMirror (r : Run z) (k : Nat) (v : W32) : Run z := r.put (.mirror k v)

/-- Latch a _HI half (R9). -/
def setLatch (r : Run z) (k : Nat) (v : W32) : Run z := r.put (.latch k v)

/-- Replace a hart. -/
def setHart (r : Run z) (k : Nat) (h : Hart) : Run z := r.put (.hart k h)

/-- Replace a core. -/
def setCore (r : Run z) (n : Nat) (c : Core) : Run z := r.put (.core n c)

/-- Replace a resident gang. -/
def setGang (r : Run z) (core g : Nat) (x : Gang) : Run z := r.put (.gang (128 * core + g) (some x))

/-- Remove a gang. -/
def dropGang (r : Run z) (core g : Nat) : Run z := r.put (.gang (128 * core + g) none)

/-- Replace a tally. -/
def setTally (r : Run z) (i : Nat) (t : Tally) : Run z := r.put (.tally i t)

/-- Take a fresh free value: a word no rule determines. -/
def draw (r : Run z) : W64 × Run z := (Config.freeWord r.s.free, r.put .draw)

/-- Every local copy of fabric time is realigned to the master, `lag` ns behind it, and none goes back (R27, R29). -/
def realign (r : Run z) (lag : Nat → Nat) : Run z := (r.put .draw).put (.realign (timeBlocks.map lag))

/-- Bring the RWM fields of a register into effect at its block's boundary (R13). -/
def takeMirror (r : Run z) (k : Nat) : Run z :=
  match regDesc k with
  | some d =>
    let m := d.maskOf [.rwm]
    let cur := (r.s.reg k).toNat
    r.setRegN k ((cur - (cur &&& m)) + ((r.s.mir k).toNat &&& m))
  | none => r

/-- Bring every mirrored register whose key satisfies p into effect (R13). -/
def takeMirrors (r : Run z) (p : Nat → Bool) : Run z :=
  r.each ((r.s.mirror.map (·.1) ++ r.s.regs.map (·.1)).filter p) fun k r => r.takeMirror k

end Run

end Sys2Proof.Machine
end

