-- ==== Sys2Proof/Machine/TensorDesc.lean ====
section
/-! DEFINITION. Tensor descriptors (R67), folios in engine order (R123 to R126) and window descriptors (R164 to R170). -/

namespace Sys2Proof.Machine

/-! ## Tensor descriptors, KIND 0b00 -/

/-- The fields of a tensor descriptor (R67). -/
structure TDesc where
  fmt : Nat
  rank : Nat
  pad : Nat
  zp : Nat
  role : Nat
  stat : Bool
  rnd : Nat
  kind : Nat
  /-- Virtual page number of the first folio. -/
  base : Nat
  sofs : Nat
  const : Nat
  d0 : Nat
  d1 : Nat
  d2 : Nat
  d3 : Nat
  s1 : Nat
  s2 : Nat
  s3 : Nat
  /-- Whether a bit of the RSV field below KIND, below CONST, or at the bottom is set. -/
  rsvKind : Bool
  rsvConst : Bool
  rsvLow : Bool
  deriving DecidableEq, Repr

/-- Read the fields of a descriptor. -/
def TDesc.ofBits (raw : BitVec 256) : TDesc :=
  let n := raw.toNat
  { fmt := bits n 255 252, rank := bits n 251 250 + 1, pad := bits n 249 248, zp := bits n 247 240
    role := bits n 239 238, stat := bit n 237, rnd := bits n 236 235, kind := bits n 234 233
    base := bits n 223 188, sofs := bits n 187 172, const := bits n 171 156
    d3 := bits n 143 128, d2 := bits n 127 112, d1 := bits n 111 96, d0 := bits n 95 80
    s3 := bits n 79 64, s2 := bits n 63 48, s1 := bits n 47 32
    rsvKind := bits n 232 224 ≠ 0, rsvConst := bits n 155 144 ≠ 0, rsvLow := bits n 31 0 ≠ 0 }

/-- The high bit of the first field of a list of rules that is broken (R77). -/
def firstBroken (l : List (Nat × Bool)) : Option Nat := (l.find? fun p => p.2).map fun p => p.1

/-- Which instruction uses a descriptor, for the formats that few may name (R67). -/
inductive TUse where
  | fmove | audit | other
  deriving DecidableEq, Repr

namespace TDesc

/-- The rules of R67 and R126 that every use checks, in the order of the fields: the high bit of each field, and whether
its rule is broken. Sizes and strides above the rank are judged outermost first. -/
def rules (t : TDesc) (u : TUse) : List (Nat × Bool) :=
  [(255, !(decide (t.fmt ≤ 9) || (t.rank = 1 && (decide (u = .fmove) && decide (t.fmt ≥ 14) ||
      decide (u = .audit) && t.fmt = 14))) || (t.rank = 1 && t.fmt = 5)),
   (247, t.zp ≠ 0 && !(t.role = 0 && (t.fmt = 8 || t.fmt = 9))),
   (239, t.role = 3), (236, t.rnd = 3), (234, t.kind ≠ 0), (232, t.rsvKind),
   (187, t.sofs ≠ 0 && !Fp.isBlock t.fmt), (155, t.rsvConst),
   (143, decide (t.rank < 4) && t.d3 ≠ 1), (127, decide (t.rank < 3) && t.d2 ≠ 1), (111, decide (t.rank < 2) && t.d1 ≠ 1),
   (79, decide (t.rank < 4) && t.s3 ≠ 0), (63, decide (t.rank < 3) && t.s2 ≠ 0), (47, decide (t.rank < 2) && t.s1 ≠ 0),
   (31, t.rsvLow)]

/-- Values of D1 in a tile: 64 in the column geometry of weights, 32 in the row geometry (R123). -/
def group (t : TDesc) : Nat := if t.role = 1 then 64 else 32

/-- Row geometry (R123). -/
def isRow (t : TDesc) : Bool := t.role ≠ 1

/-- TK: values of D0 in a tile (R124). -/
def tk (t : TDesc) : Nat :=
  if t.fmt = 5 then 5120 / t.group else 32768 / (Fp.widthOf t.fmt * t.group)

/-- The zero point as a signed value of the activation's width (R133). For INT4 the low four bits of the field are it, and the high
four are not looked at (DESIGN CHOICE, log 120). -/
def zpInt (t : TDesc) : Int := if t.fmt = 9 then sext 4 t.zp else sext 8 t.zp

/-- Where value (r, k) of a folio lies: byte, lowest bit and width of each piece, low piece first (R124). -/
def inFolio (t : TDesc) (r k : Nat) : List (Nat × Nat × Nat) :=
  let g := t.group
  if t.fmt = 5 then
    [(g * (k / 2) + r, 4 * (k % 2), 4), (2560 + g * (k / 4) + r, 2 * (k % 4), 2)]
  else match Fp.widthOf t.fmt with
    | 4 => [(g * (k / 2) + r, 4 * (k % 2), 4)]
    | w => (List.range (w / 8)).map fun b => (w / 8 * (g * k + r) + b, 0, 8)

/-- Where element (d1, d0) of a descriptor of rank 1 or 2 lies: folio from BASE, byte, lowest bit and width of each
piece (R123 to R126). -/
def place (t : TDesc) (i k : Nat) : List (Nat × Nat × Nat × Nat) :=
  if t.rank = 1 then
    let w := Fp.widthOf t.fmt
    if w = 4 then [(k / 2 / 4096, k / 2 % 4096, 4 * (k % 2), 4)]
    else (List.range (w / 8)).map fun b =>
      let a := k * (w / 8) + b
      (a / 4096, a % 4096, 0, 8)
  else
    let f := k / t.tk + t.s1 * (i / t.group)
    (t.inFolio (i % t.group) (k % t.tk)).map fun p => (f, p.1, p.2.1, p.2.2)

/-- Where the E8M0 scale of element (d1, d0) lies: folio from BASE and byte (R125). -/
def scalePlace (t : TDesc) (i k : Nat) : Nat × Nat :=
  let nb := cdiv t.d0 32
  let a := k / 32 * t.group + i % t.group
  (t.sofs + i / t.group * cdiv (t.group * nb) 4096 + a / 4096, a % 4096)

/-- The folios from BASE that hold the elements (R123, R126, R258). -/
def folios (t : TDesc) : List Nat :=
  if t.rank = 1 then List.range (cdiv (t.d0 * Fp.widthOf t.fmt) 32768)
  else
    (List.range t.d3).flatMap fun t3 => (List.range t.d2).flatMap fun t2 =>
      (List.range (cdiv t.d1 t.group)).flatMap fun t1 =>
        (List.range (cdiv t.d0 t.tk)).map fun t0 => t0 + t.s1 * t1 + t.s2 * t2 + t.s3 * t3

/-- The folios from BASE that hold the block scales of a rank-2 descriptor (R125). -/
def scaleFolios (t : TDesc) : List Nat :=
  if !Fp.isBlock t.fmt then []
  else List.range (cdiv t.d1 t.group * cdiv (t.group * cdiv t.d0 32) 4096) |>.map (t.sofs + ·)

/-- Every virtual page a read of the whole descriptor touches, scales included. -/
def pages (t : TDesc) : List Nat := (t.folios ++ t.scaleFolios).map (t.base + ·)

end TDesc

/-- A byte of a virtual page through a map of pages. -/
def mapByte (s : State) (m : SMap Nat) (page off : Nat) : Nat := (s.byte (SMap.get 0 m page * 4096 + off)).toNat

namespace TDesc

/-- The bits of element (d1, d0). -/
def read (t : TDesc) (s : State) (m : SMap Nat) (i k : Nat) : Nat :=
  (t.place i k).foldr (fun p acc => acc * 2 ^ p.2.2.2 +
    mapByte s m (t.base + p.1) p.2.1 / 2 ^ p.2.2.1 % 2 ^ p.2.2.2) 0

/-- The exact value of element (d1, d0), block scale applied (R117, R146). -/
def value (t : TDesc) (s : State) (m : SMap Nat) (i k : Nat) : Fp.Val :=
  let scale := if Fp.isBlock t.fmt then
    (let p := t.scalePlace i k
     mapByte s m (t.base + p.1) p.2) else 127
  Fp.scaledValue t.fmt (t.read s m i k) scale

end TDesc

/-- Write the bits of element (d1, d0) of a descriptor. Nothing else of its tile is written: the bytes that R124 calls reserved are
taken to be those that no value of a whole tile uses, and no output format has any (DEDUCED, log 123). -/
def Run.writeElem {z : State} (r : Run z) (t : TDesc) (m : SMap Nat) (i k v : Nat) : Run z :=
  ((t.place i k).foldl (fun (acc : Run z × Nat) p =>
    let a := SMap.get 0 m (t.base + p.1) * 4096 + p.2.1
    let old := (acc.1.s.byte a).toNat
    let lo := p.2.2.1
    let w := p.2.2.2
    (acc.1.setByte a (BitVec.ofNat 8 (setBits old (lo + w - 1) lo acc.2)), acc.2 / 2 ^ w)) (r, v)).1

/-! ## Window descriptors, KIND 0b01 (R164 to R170) -/

/-- The fields of a window descriptor (R166). -/
structure WDesc where
  fmt : Nat
  pad : Nat
  zp : Nat
  npix : Nat
  base : Nat
  w : Nat
  h : Nat
  c : Nat
  cb : Nat
  gc : Nat
  oy : Nat
  ox : Nat
  kh : Nat
  kw : Nat
  sy : Nat
  sx : Nat
  dy : Nat
  dx : Nat
  pt : Nat
  pb : Nat
  pl : Nat
  pr : Nat
  const : Nat
  rankM1 : Nat
  role : Nat
  stat : Bool
  rnd : Nat
  kind : Nat
  /-- Whether a bit of the RSV field below NPIX, or below PR, is set. -/
  rsvNpix : Bool
  rsvPad : Bool
  deriving DecidableEq, Repr

/-- Read the fields of a window descriptor. -/
def WDesc.ofBits (raw : BitVec 256) : WDesc :=
  let n := raw.toNat
  { fmt := bits n 255 252, pad := bits n 249 248, zp := bits n 247 240, npix := bits n 232 227
    base := bits n 223 188, w := bits n 187 174 + 1, h := bits n 173 160 + 1, c := bits n 159 146 + 1
    cb := bits n 145 132, gc := bits n 131 118 + 1, oy := bits n 117 104, ox := bits n 103 90
    kh := bits n 89 82, kw := bits n 81 74, sy := bits n 73 68 + 1, sx := bits n 67 62 + 1
    dy := bits n 61 56 + 1, dx := bits n 55 50 + 1, pt := bits n 49 42, pb := bits n 41 34
    pl := bits n 33 26, pr := bits n 25 18, const := bits n 15 0
    rankM1 := bits n 251 250, role := bits n 239 238, stat := bit n 237, rnd := bits n 236 235, kind := bits n 234 233
    rsvNpix := bits n 226 224 ≠ 0, rsvPad := bits n 17 16 ≠ 0 }

namespace WDesc

/-- The restrictions of R164 and R166 and the channel rules of R168 step 2: KIND, which says that the other fields are
there, then the fields in their order. A group wider than the image breaks GCM1, and a group that only CB carries past the
image breaks CB. -/
def rules (d : WDesc) : List (Nat × Bool) :=
  [(234, d.kind ≠ 1),
   (255, ! [1, 2, 3, 4, 8].contains d.fmt), (251, d.rankM1 ≠ 0), (247, d.zp ≠ 0 && d.fmt ≠ 8), (239, d.role ≠ 0),
   (237, d.stat), (236, d.rnd ≠ 0), (232, decide (d.npix > 32)), (226, d.rsvNpix),
   (145, decide (d.gc ≤ d.c) && decide (d.cb + d.gc > d.c)), (131, decide (d.gc > d.c)),
   (89, d.kh = 0), (81, d.kw = 0), (17, d.rsvPad), (15, Fp.widthOf d.fmt = 8 && decide (d.const ≥ 256))]

/-- Output size in one dimension, 0 when it is not positive (R165). -/
def outSize (inSize before after dil k stride : Nat) : Nat :=
  if inSize + before + after < dil * (k - 1) + 1 then 0
  else (inSize + before + after - dil * (k - 1) - 1) / stride + 1

/-- Output height and width. -/
def outH (d : WDesc) : Nat := outSize d.h d.pt d.pb d.dy d.kh d.sy
def outW (d : WDesc) : Nat := outSize d.w d.pl d.pr d.dx d.kw d.sx

/-- The rank-3 tensor that the image is, as far as one folio needs it (R167). -/
def image (d : WDesc) : TDesc :=
  { fmt := d.fmt, rank := 2, pad := 0, zp := 0, role := 0, stat := false, rnd := 0, kind := 0, base := d.base
    sofs := 0, const := 0, d0 := d.c, d1 := d.w, d2 := 1, d3 := 1, s1 := 0, s2 := 0, s3 := 0, rsvKind := false
    rsvConst := false, rsvLow := false }

/-- NT and NG of R167. -/
def nt (d : WDesc) : Nat := cdiv d.c d.image.tk
def ng (d : WDesc) : Nat := cdiv d.w 32

/-- The virtual pages of the whole image. -/
def pages (d : WDesc) : List Nat := (List.range (d.h * d.ng * d.nt)).map (d.base + ·)

/-- The virtual page of channel c of pixel (y, x) (R167). -/
def folio (d : WDesc) (y x c : Nat) : Nat := d.base + (y * d.ng + x / 32) * d.nt + c / d.image.tk

/-- The stored bits of channel c of pixel (y, x) (R167). -/
def pixel (d : WDesc) (s : State) (m : SMap Nat) (y x c : Nat) : Nat :=
  ((d.image.inFolio (x % 32) (c % d.image.tk)).foldr (fun p acc => acc * 2 ^ p.2.2 +
    mapByte s m (d.folio y x c) p.1 / 2 ^ p.2.1 % 2 ^ p.2.2) 0)

/-- The in-image coordinate a padding mode maps a coordinate to; none where the mode gives a value of its own (R169). -/
def mapCoord (d : WDesc) (n : Nat) (t : Int) : Option Nat :=
  if 0 ≤ t ∧ t < n then some t.toNat
  else match d.pad with
    | 2 => some (if t < 0 then 0 else n - 1)
    | 3 =>
      if n = 1 then some 0
      else
        let p : Nat := 2 * (n - 1)
        let m := (t % p).toNat
        some (if m ≤ n - 1 then m else p - m)
    | _ => none

/-- Image coordinates of tap (ky, kx) of output pixel i of the row (R169). -/
def tapY (d : WDesc) (ky : Nat) : Int := (d.oy * d.sy + ky * d.dy : Nat) - (d.pt : Int)
def tapX (d : WDesc) (i kx : Nat) : Int := ((d.ox + i) * d.sx + kx * d.dx : Nat) - (d.pl : Int)

/-- The stored bits a tap takes for a channel (R169). -/
def tap (d : WDesc) (s : State) (m : SMap Nat) (i ky kx c : Nat) : Nat :=
  match d.mapCoord d.h (d.tapY ky), d.mapCoord d.w (d.tapX i kx) with
  | some y, some x => d.pixel s m y x c
  | _, _ => if d.pad = 1 then d.const else if d.fmt = 8 then d.zp else 0

/-- The distinct x coordinates of a TMMA's taps (R174). -/
def xs (d : WDesc) : List Int :=
  ((List.range d.npix).flatMap fun i => (List.range d.kw).map fun kx => d.tapX i kx).eraseDups

/-- The set U of those coordinates in rising order, each above its padding's reach: what a line is known by (R175). -/
def xSet (d : WDesc) : List Nat := (d.xs.foldl (fun m x => SMap.insert m (x + 256).toNat ()) []).map (·.1)

/-- The image lines of a Prism TMMA; those outside the image occupy nothing (R174). -/
def lines (d : WDesc) : List Nat :=
  (List.range d.kh).filterMap fun ky =>
    let y := d.tapY ky
    if 0 ≤ y ∧ y < d.h then some y.toNat else none

/-- The virtual pages of the image that the taps of a TMMA take, over n channels from CB (R170). -/
def touched (d : WDesc) (n : Nat) : List Nat :=
  let ys := ((List.range d.kh).filterMap fun ky => d.mapCoord d.h (d.tapY ky)).eraseDups
  let xs := (d.xs.filterMap (d.mapCoord d.w)).eraseDups
  (ys.flatMap fun y => xs.flatMap fun x => (List.range n).map fun c => d.folio y x (d.cb + c)).eraseDups

end WDesc

/-! ## Operand pairs (R121) -/

/-- Whether TMMA accepts a pair of row and column formats. -/
def pairAccepted (a b : Nat) : Bool :=
  ((a = 8 || a = 9) && (b = 8 || b = 9)) || (decide (1 ≤ a) && decide (a ≤ 6) && decide (1 ≤ b) && decide (b ≤ 6))

/-- K-steps per broadcast. -/
def pairSteps (a b : Nat) : Nat :=
  let narrow := fun f => f = 5 || f = 6 || f = 9
  let eight := fun f => f = 3 || f = 4 || f = 5 || f = 6 || f = 8 || f = 9
  if (narrow a || narrow b) && eight a && eight b then 2 else 1

/-- ARITH cycles per broadcast. -/
def pairCycles (b : Nat) : Nat := if b = 1 || b = 2 then 4 else 1

end Sys2Proof.Machine
end

