-- ==== Sys2Proof/Machine/Isa.lean ====
section
/-! DEFINITION. The Eopehal encodings of R44 to R49: the words of an instruction command, and the instruction the words
spell. The device's commands carry an instruction's fields; its words are what a trap reports (R77) and what
ILLEGAL_INSTR is given. -/

namespace Sys2Proof.Machine

/-- The words of an instruction and whether it is 64 bits long (R44). -/
structure Words where
  w0 : W32
  w1 : W32 := 0
  long : Bool := false
  deriving DecidableEq, Repr

/-- Format R32. -/
def encR (major : BitVec 6) (f : R3) (func : BitVec 6) : Words :=
  { w0 := 0#1 ++ major ++ f.d ++ f.a ++ f.b ++ f.guard ++ func }

/-- Formats I32 and S32. -/
def encI (major : BitVec 6) (f : I3) : Words :=
  { w0 := 0#1 ++ major ++ f.d ++ f.a ++ f.guard ++ f.imm }

/-- Format B32. -/
def encB (major : BitVec 6) (f : B3) : Words := { w0 := 0#1 ++ major ++ f.guard ++ f.off }

/-- Format X64. -/
def encX (major : BitVec 6) (f : X3) : Words :=
  { w0 := 1#1 ++ major ++ f.d ++ f.a ++ f.b ++ f.guard ++ f.func, w1 := f.imm, long := true }

/-- Format T64. -/
def encT (major : BitVec 6) (f : T3) (func : BitVec 6) : Words :=
  { w0 := 1#1 ++ major ++ f.tdA ++ f.tdB ++ f.tdC ++ f.bank ++ f.g ++ func, w1 := f.imm, long := true }

/-- A one-bit field. -/
def bv1 (b : Bool) : BitVec 1 := if b then 1 else 0

/-- The agent and the words of an instruction command; none for a command that is no instruction. -/
def instrWords (i : Instr) : Option (Agent × Words) :=
  match i with
  | .add ag w f => some (ag, encR 0x01 f (bv1 w ++ 0#5))
  | .sub ag w f => some (ag, encR 0x01 f (bv1 w ++ 1#5))
  | .mul ag w f => some (ag, encR 0x01 f (bv1 w ++ 2#5))
  | .mulh ag w f => some (ag, encR 0x01 f (bv1 w ++ 3#5))
  | .mulhu ag w f => some (ag, encR 0x01 f (bv1 w ++ 4#5))
  | .div ag w f => some (ag, encR 0x01 f (bv1 w ++ 5#5))
  | .divu ag w f => some (ag, encR 0x01 f (bv1 w ++ 6#5))
  | .rem ag w f => some (ag, encR 0x01 f (bv1 w ++ 7#5))
  | .remu ag w f => some (ag, encR 0x01 f (bv1 w ++ 8#5))
  | .and ag w f => some (ag, encR 0x01 f (bv1 w ++ 9#5))
  | .or ag w f => some (ag, encR 0x01 f (bv1 w ++ 10#5))
  | .xor ag w f => some (ag, encR 0x01 f (bv1 w ++ 11#5))
  | .shl ag w f => some (ag, encR 0x01 f (bv1 w ++ 12#5))
  | .shr ag w f => some (ag, encR 0x01 f (bv1 w ++ 13#5))
  | .sra ag w f => some (ag, encR 0x01 f (bv1 w ++ 14#5))
  | .min ag w f => some (ag, encR 0x01 f (bv1 w ++ 15#5))
  | .minu ag w f => some (ag, encR 0x01 f (bv1 w ++ 16#5))
  | .max ag w f => some (ag, encR 0x01 f (bv1 w ++ 17#5))
  | .maxu ag w f => some (ag, encR 0x01 f (bv1 w ++ 18#5))
  | .clz ag w f => some (ag, encR 0x01 f (bv1 w ++ 19#5))
  | .popc ag w f => some (ag, encR 0x01 f (bv1 w ++ 20#5))
  | .addp ag w f => some (ag, encR 0x01 f (bv1 w ++ 21#5))
  | .addi ag f => some (ag, encI 0x2 f)
  | .andi ag f => some (ag, encI 0x3 f)
  | .ori ag f => some (ag, encI 0x4 f)
  | .xori ag f => some (ag, encI 0x5 f)
  | .shi ag f => some (ag, encI 0x6 f)
  | .li ag f => some (ag, encX 0x30 f)
  | .addx ag f => some (ag, encX 0x31 f)
  | .cmp ag func f => some (ag, encR 0x09 f func)
  | .pand ag f => some (ag, encR 0x0F f 0)
  | .por ag f => some (ag, encR 0x0F f 1)
  | .pxor ag f => some (ag, encR 0x0F f 2)
  | .pandn ag f => some (ag, encR 0x0F f 3)
  | .pnot ag f => some (ag, encR 0x0F f 4)
  | .p2g ag f => some (ag, encR 0x0F f 5)
  | .g2p ag f => some (ag, encR 0x0F f 6)
  | .fadd ag f => some (ag, encR 0x0B f 0)
  | .fsub ag f => some (ag, encR 0x0B f 1)
  | .fmul ag f => some (ag, encR 0x0B f 2)
  | .ffma ag f => some (ag, encR 0x0B f 3)
  | .fmin ag f => some (ag, encR 0x0B f 4)
  | .fmax ag f => some (ag, encR 0x0B f 5)
  | .fabs ag f => some (ag, encR 0x0B f 6)
  | .fneg ag f => some (ag, encR 0x0B f 7)
  | .fmvGf ag f => some (ag, encR 0x0B f 8)
  | .fmvFg ag f => some (ag, encR 0x0B f 9)
  | .fexp2 ag f => some (ag, encR 0x0E f 0)
  | .flog2 ag f => some (ag, encR 0x0E f 1)
  | .frcp ag f => some (ag, encR 0x0E f 2)
  | .frsq ag f => some (ag, encR 0x0E f 3)
  | .fsig ag f => some (ag, encR 0x0E f 4)
  | .ftanh ag f => some (ag, encR 0x0E f 5)
  | .cvt ag func f => some (ag, encR 0x0D f func)
  | .add2 ag h f => some (ag, encR 0x2A f (0#5 ++ bv1 h))
  | .mul2 ag h f => some (ag, encR 0x2A f (1#5 ++ bv1 h))
  | .fma2 ag h f => some (ag, encR 0x2A f (2#5 ++ bv1 h))
  | .min2 ag h f => some (ag, encR 0x2A f (3#5 ++ bv1 h))
  | .max2 ag h f => some (ag, encR 0x2A f (4#5 ++ bv1 h))
  | .ldb ag f => some (ag, encI 0x10 f)
  | .ldbu ag f => some (ag, encI 0x11 f)
  | .ldh ag f => some (ag, encI 0x12 f)
  | .ldhu ag f => some (ag, encI 0x13 f)
  | .ldw ag f => some (ag, encI 0x14 f)
  | .ldwu ag f => some (ag, encI 0x15 f)
  | .ldd ag f => some (ag, encI 0x16 f)
  | .stb ag f => some (ag, encI 0x18 f)
  | .sth ag f => some (ag, encI 0x19 f)
  | .stw ag f => some (ag, encI 0x1a f)
  | .std ag f => some (ag, encI 0x1b f)
  | .ldwAcq ag sc f => some (ag, encR 0x1C f (0#3 ++ sc))
  | .lddAcq ag sc f => some (ag, encR 0x1C f (1#3 ++ sc))
  | .stwRel ag sc f => some (ag, encR 0x1C f (2#3 ++ sc))
  | .stdRel ag sc f => some (ag, encR 0x1C f (3#3 ++ sc))
  | .fenceAcq ag sc f => some (ag, encR 0x1C f (4#3 ++ sc))
  | .fenceRel ag sc f => some (ag, encR 0x1C f (5#3 ++ sc))
  | .fenceAr ag sc f => some (ag, encR 0x1C f (6#3 ++ sc))
  | .atomAdd ag dw sc f => some (ag, encR 0x1d f (sc ++ bv1 dw ++ 0#3))
  | .atomMin ag dw sc f => some (ag, encR 0x1d f (sc ++ bv1 dw ++ 1#3))
  | .atomMax ag dw sc f => some (ag, encR 0x1d f (sc ++ bv1 dw ++ 2#3))
  | .atomAnd ag dw sc f => some (ag, encR 0x1d f (sc ++ bv1 dw ++ 3#3))
  | .atomOr ag dw sc f => some (ag, encR 0x1d f (sc ++ bv1 dw ++ 4#3))
  | .atomXor ag dw sc f => some (ag, encR 0x1d f (sc ++ bv1 dw ++ 5#3))
  | .atomSwap ag dw sc f => some (ag, encR 0x1d f (sc ++ bv1 dw ++ 6#3))
  | .atomCas ag dw sc f => some (ag, encR 0x1d f (sc ++ bv1 dw ++ 7#3))
  | .atomArAdd ag dw sc f => some (ag, encR 0x1e f (sc ++ bv1 dw ++ 0#3))
  | .atomArMin ag dw sc f => some (ag, encR 0x1e f (sc ++ bv1 dw ++ 1#3))
  | .atomArMax ag dw sc f => some (ag, encR 0x1e f (sc ++ bv1 dw ++ 2#3))
  | .atomArAnd ag dw sc f => some (ag, encR 0x1e f (sc ++ bv1 dw ++ 3#3))
  | .atomArOr ag dw sc f => some (ag, encR 0x1e f (sc ++ bv1 dw ++ 4#3))
  | .atomArXor ag dw sc f => some (ag, encR 0x1e f (sc ++ bv1 dw ++ 5#3))
  | .atomArSwap ag dw sc f => some (ag, encR 0x1e f (sc ++ bv1 dw ++ 6#3))
  | .atomArCas ag dw sc f => some (ag, encR 0x1e f (sc ++ bv1 dw ++ 7#3))
  | .bra ag f => some (ag, encB 0x20 f)
  | .call ag f => some (ag, encB 0x21 f)
  | .jr ag f => some (ag, encR 0x22 f 0)
  | .nop ag f => some (ag, encR 0x23 f 0)
  | .exit ag f => some (ag, encR 0x23 f 1)
  | .bar ag f => some (ag, encR 0x23 f 2)
  | .yield ag f => some (ag, encR 0x23 f 3)
  | .upcall ag f => some (ag, encR 0x23 f 4)
  | .brk ag f => some (ag, encR 0x23 f 5)
  | .tret ag f => some (ag, encR 0x23 f 6)
  | .snooze ag f => some (ag, encR 0x23 f 7)
  | .iflush ag f => some (ag, encR 0x23 f 8)
  | .crd ag f => some (ag, encI 0x24 f)
  | .cwr ag f => some (ag, encI 0x25 f)
  | .rds ag f => some (ag, encI 0x27 f)
  | .tsig ag sc f => some (ag, encR 0x28 f (sc ++ 0#3))
  | .tadd ag sc f => some (ag, encR 0x28 f (sc ++ 1#3))
  | .twait ag sc f => some (ag, encR 0x28 f (sc ++ 2#3))
  | .tread ag sc f => some (ag, encR 0x28 f (sc ++ 3#3))
  | .shfl ag f => some (ag, encR 0x29 f 0)
  | .ballot ag f => some (ag, encR 0x29 f 1)
  | .any ag f => some (ag, encR 0x29 f 2)
  | .all ag f => some (ag, encR 0x29 f 3)
  | .radd ag f => some (ag, encR 0x29 f 4)
  | .rmin ag f => some (ag, encR 0x29 f 5)
  | .rmax ag f => some (ag, encR 0x29 f 6)
  | .fradd ag f => some (ag, encR 0x29 f 7)
  | .frmin ag f => some (ag, encR 0x29 f 8)
  | .frmax ag f => some (ag, encR 0x29 f 9)
  | .bral ag f => some (ag, encX 0x34 f)
  | .cmsk ag f => some (ag, encX 0x35 f)
  | .tdld ag f => some (ag, encT 0x38 f 0)
  | .tdw ag f => some (ag, encT 0x38 f 1)
  | .tdst ag f => some (ag, encT 0x38 f 2)
  | .fmove ag f => some (ag, encT 0x38 f 3)
  | .tmma ag f => some (ag, encT 0x39 f 0)
  | .tdrain ag f => some (ag, encT 0x3a f 0)
  | .accScale ag f => some (ag, encT 0x3b f 0)
  | .tclr ag f => some (ag, encT 0x3b f 1)
  | .trec ag f => some (ag, encT 0x3b f 2)
  | .stateAudit ag f => some (ag, encT 0x3b f 3)
  | .tsync ag f => some (ag, encT 0x3b f 4)
  | .rope ag f => some (ag, encT 0x3d f 0)
  | .tmask ag f => some (ag, encT 0x3d f 1)
  | .tsmaxStep ag f => some (ag, encT 0x3d f 2)
  | .tsmaxFinal ag f => some (ag, encT 0x3d f 2)
  | .tsmaxMerge ag f => some (ag, encT 0x3d f 2)
  | .tsmaxInit ag f => some (ag, encT 0x3d f 2)
  | .illegalInstr ag w0 w1 => some (ag, { w0 := w0, w1 := w1, long := w0.getLsbD 31 })
  | _ => none

/-- ALU group, major 0x01 (R50). -/
def decAlu (n : Nat) (ag : Agent) (w : Bool) (f : R3) : Option Instr :=
  match n with
  | 0 => some (.add ag w f)
  | 1 => some (.sub ag w f)
  | 2 => some (.mul ag w f)
  | 3 => some (.mulh ag w f)
  | 4 => some (.mulhu ag w f)
  | 5 => some (.div ag w f)
  | 6 => some (.divu ag w f)
  | 7 => some (.rem ag w f)
  | 8 => some (.remu ag w f)
  | 9 => some (.and ag w f)
  | 10 => some (.or ag w f)
  | 11 => some (.xor ag w f)
  | 12 => some (.shl ag w f)
  | 13 => some (.shr ag w f)
  | 14 => some (.sra ag w f)
  | 15 => some (.min ag w f)
  | 16 => some (.minu ag w f)
  | 17 => some (.max ag w f)
  | 18 => some (.maxu ag w f)
  | 19 => some (.clz ag w f)
  | 20 => some (.popc ag w f)
  | 21 => some (.addp ag w f)
  | _ => none

/-- PRED group, major 0x0F (R53). -/
def decPred (n : Nat) (ag : Agent) (f : R3) : Option Instr :=
  match n with
  | 0 => some (.pand ag f)
  | 1 => some (.por ag f)
  | 2 => some (.pxor ag f)
  | 3 => some (.pandn ag f)
  | 4 => some (.pnot ag f)
  | 5 => some (.p2g ag f)
  | 6 => some (.g2p ag f)
  | _ => none

/-- FPU group, major 0x0B (R55). -/
def decFpu (n : Nat) (ag : Agent) (f : R3) : Option Instr :=
  match n with
  | 0 => some (.fadd ag f)
  | 1 => some (.fsub ag f)
  | 2 => some (.fmul ag f)
  | 3 => some (.ffma ag f)
  | 4 => some (.fmin ag f)
  | 5 => some (.fmax ag f)
  | 6 => some (.fabs ag f)
  | 7 => some (.fneg ag f)
  | 8 => some (.fmvGf ag f)
  | 9 => some (.fmvFg ag f)
  | _ => none

/-- SFU group, major 0x0E (R55). -/
def decSfu (n : Nat) (ag : Agent) (f : R3) : Option Instr :=
  match n with
  | 0 => some (.fexp2 ag f)
  | 1 => some (.flog2 ag f)
  | 2 => some (.frcp ag f)
  | 3 => some (.frsq ag f)
  | 4 => some (.fsig ag f)
  | 5 => some (.ftanh ag f)
  | _ => none

/-- PK group, major 0x2A (R57). -/
def decPk (n : Nat) (ag : Agent) (h : Bool) (f : R3) : Option Instr :=
  match n with
  | 0 => some (.add2 ag h f)
  | 1 => some (.mul2 ag h f)
  | 2 => some (.fma2 ag h f)
  | 3 => some (.min2 ag h f)
  | 4 => some (.max2 ag h f)
  | _ => none

/-- ORD group, major 0x1C (R59). -/
def decOrd (n : Nat) (ag : Agent) (sc : BitVec 3) (f : R3) : Option Instr :=
  match n with
  | 0 => some (.ldwAcq ag sc f)
  | 1 => some (.lddAcq ag sc f)
  | 2 => some (.stwRel ag sc f)
  | 3 => some (.stdRel ag sc f)
  | 4 => some (.fenceAcq ag sc f)
  | 5 => some (.fenceRel ag sc f)
  | 6 => some (.fenceAr ag sc f)
  | _ => none

/-- ATOM and ATOM.AR (R60). -/
def decAtom (n : Nat) (ag : Agent) (dw : Bool) (sc : BitVec 2) (f : R3) : Option Instr :=
  match n with
  | 0 => some (.atomAdd ag dw sc f)
  | 1 => some (.atomMin ag dw sc f)
  | 2 => some (.atomMax ag dw sc f)
  | 3 => some (.atomAnd ag dw sc f)
  | 4 => some (.atomOr ag dw sc f)
  | 5 => some (.atomXor ag dw sc f)
  | 6 => some (.atomSwap ag dw sc f)
  | 7 => some (.atomCas ag dw sc f)
  | _ => none

/-- ATOM and ATOM.AR (R60). -/
def decAtomAr (n : Nat) (ag : Agent) (dw : Bool) (sc : BitVec 2) (f : R3) : Option Instr :=
  match n with
  | 0 => some (.atomArAdd ag dw sc f)
  | 1 => some (.atomArMin ag dw sc f)
  | 2 => some (.atomArMax ag dw sc f)
  | 3 => some (.atomArAnd ag dw sc f)
  | 4 => some (.atomArOr ag dw sc f)
  | 5 => some (.atomArXor ag dw sc f)
  | 6 => some (.atomArSwap ag dw sc f)
  | 7 => some (.atomArCas ag dw sc f)
  | _ => none

/-- SYS group, major 0x23 (R63). -/
def decSys (n : Nat) (ag : Agent) (f : R3) : Option Instr :=
  match n with
  | 0 => some (.nop ag f)
  | 1 => some (.exit ag f)
  | 2 => some (.bar ag f)
  | 3 => some (.yield ag f)
  | 4 => some (.upcall ag f)
  | 5 => some (.brk ag f)
  | 6 => some (.tret ag f)
  | 7 => some (.snooze ag f)
  | 8 => some (.iflush ag f)
  | _ => none

/-- TALLY group, major 0x28 (R109). -/
def decTally (n : Nat) (ag : Agent) (sc : BitVec 3) (f : R3) : Option Instr :=
  match n with
  | 0 => some (.tsig ag sc f)
  | 1 => some (.tadd ag sc f)
  | 2 => some (.twait ag sc f)
  | 3 => some (.tread ag sc f)
  | _ => none

/-- XLANE group, major 0x29 (R65). -/
def decXlane (n : Nat) (ag : Agent) (f : R3) : Option Instr :=
  match n with
  | 0 => some (.shfl ag f)
  | 1 => some (.ballot ag f)
  | 2 => some (.any ag f)
  | 3 => some (.all ag f)
  | 4 => some (.radd ag f)
  | 5 => some (.rmin ag f)
  | 6 => some (.rmax ag f)
  | 7 => some (.fradd ag f)
  | 8 => some (.frmin ag f)
  | 9 => some (.frmax ag f)
  | _ => none

/-- TDESC group, major 0x38 (R68). -/
def decTdesc (n : Nat) (ag : Agent) (f : T3) : Option Instr :=
  match n with
  | 0 => some (.tdld ag f)
  | 1 => some (.tdw ag f)
  | 2 => some (.tdst ag f)
  | 3 => some (.fmove ag f)
  | _ => none

/-- TACC group, major 0x3B (R68). -/
def decTacc (n : Nat) (ag : Agent) (f : T3) : Option Instr :=
  match n with
  | 0 => some (.accScale ag f)
  | 1 => some (.tclr ag f)
  | 2 => some (.trec ag f)
  | 3 => some (.stateAudit ag f)
  | 4 => some (.tsync ag f)
  | _ => none

/-- TSMAX by the MODE its G register holds (R196). -/
def decTsmax (n : Nat) (ag : Agent) (f : T3) : Option Instr :=
  match n with
  | 0 => some (.tsmaxStep ag f)
  | 1 => some (.tsmaxFinal ag f)
  | 2 => some (.tsmaxMerge ag f)
  | 3 => some (.tsmaxInit ag f)
  | _ => none

/-- Majors of the 32-bit formats (R45, R49). -/
def decode32 (ag : Agent) (w : W32) : Option Instr :=
  let major := (w.extractLsb' 25 6).toNat
  let func := w.extractLsb' 0 6
  let r : R3 := ⟨w.extractLsb' 20 5, w.extractLsb' 15 5, w.extractLsb' 10 5, w.extractLsb' 6 4⟩
  let i : I3 := ⟨w.extractLsb' 20 5, w.extractLsb' 15 5, w.extractLsb' 11 4, w.extractLsb' 0 11⟩
  let b : B3 := ⟨w.extractLsb' 21 4, w.extractLsb' 0 21⟩
  match major with
  | 0x01 => decAlu (w.extractLsb' 0 5).toNat ag (w.getLsbD 5) r
  | 0x02 => some (.addi ag i)
  | 0x03 => some (.andi ag i)
  | 0x04 => some (.ori ag i)
  | 0x05 => some (.xori ag i)
  | 0x06 => some (.shi ag i)
  | 0x09 => some (.cmp ag func r)
  | 0x0B => decFpu func.toNat ag r
  | 0x0D => some (.cvt ag func r)
  | 0x0E => decSfu func.toNat ag r
  | 0x0F => decPred func.toNat ag r
  | 0x10 => some (.ldb ag i)
  | 0x11 => some (.ldbu ag i)
  | 0x12 => some (.ldh ag i)
  | 0x13 => some (.ldhu ag i)
  | 0x14 => some (.ldw ag i)
  | 0x15 => some (.ldwu ag i)
  | 0x16 => some (.ldd ag i)
  | 0x18 => some (.stb ag i)
  | 0x19 => some (.sth ag i)
  | 0x1A => some (.stw ag i)
  | 0x1B => some (.std ag i)
  | 0x1C => decOrd (w.extractLsb' 3 3).toNat ag (w.extractLsb' 0 3) r
  | 0x1D => decAtom (w.extractLsb' 0 3).toNat ag (w.getLsbD 3) (w.extractLsb' 4 2) r
  | 0x1E => decAtomAr (w.extractLsb' 0 3).toNat ag (w.getLsbD 3) (w.extractLsb' 4 2) r
  | 0x20 => some (.bra ag b)
  | 0x21 => some (.call ag b)
  | 0x22 => if func = 0 then some (.jr ag r) else none
  | 0x23 => decSys func.toNat ag r
  | 0x24 => some (.crd ag i)
  | 0x25 => some (.cwr ag i)
  | 0x27 => some (.rds ag i)
  | 0x28 => decTally (w.extractLsb' 0 3).toNat ag (w.extractLsb' 3 3) r
  | 0x29 => decXlane func.toNat ag r
  | 0x2A => decPk (w.extractLsb' 1 5).toNat ag (w.getLsbD 0) r
  | _ => none

/-- Majors of the 64-bit formats (R45, R49). TSMAX's four rows share one word and differ in the MODE of G (R196). -/
def decode64 (ag : Agent) (mode : Nat) (w w1 : W32) : Option Instr :=
  let major := (w.extractLsb' 25 6).toNat
  let func := w.extractLsb' 0 6
  let x : X3 := ⟨w.extractLsb' 20 5, w.extractLsb' 15 5, w.extractLsb' 10 5, w.extractLsb' 6 4, func, w1⟩
  let t : T3 := ⟨w.extractLsb' 21 4, w.extractLsb' 17 4, w.extractLsb' 13 4, w.extractLsb' 11 2,
    w.extractLsb' 6 5, w1⟩
  match major with
  | 0x30 => some (.li ag x)
  | 0x31 => some (.addx ag x)
  | 0x34 => some (.bral ag x)
  | 0x35 => some (.cmsk ag x)
  | 0x38 => decTdesc func.toNat ag t
  | 0x39 => if func = 0 then some (.tmma ag t) else none
  | 0x3A => if func = 0 then some (.tdrain ag t) else none
  | 0x3B => decTacc func.toNat ag t
  | 0x3D => match func.toNat with
    | 0 => some (.rope ag t)
    | 1 => some (.tmask ag t)
    | 2 => decTsmax mode ag t
    | _ => none
  | _ => none

/-- The instruction that words spell, or none for a reserved major or func or a length bit that disagrees with the
major (R45). -/
def isaDecode (ag : Agent) (mode : Nat) (w0 w1 : W32) : Option Instr :=
  if w0.getLsbD 31 then decode64 ag mode w0 w1 else decode32 ag w0

end Sys2Proof.Machine
end

