-- ==== Sys2Proof/Machine/Translate.lean ====
section
/-! DEFINITION. Addresses: the physical address map of R36, the 4-level page walk of R94 to R97, and the USED and DIRTY
updates of R98. -/

namespace Sys2Proof.Machine

/-- The regions of the physical address map (R36). -/
inductive Region where
  | vault | stacks | carrel | bootRom | xspi | flash | regs
  /-- What the model keeps above the 48-bit map: private SRAM of firmware processors and the sequence table. -/
  | priv
  | none
  deriving DecidableEq, Repr

/-- The region an address lies in (R36); register windows 0x0F and 0xD0 and above are unassigned (R37). -/
def region (pa : Nat) : Region :=
  if pa ≤ 0x0007FFFFFFFF then .vault
  else if 0x010000000000 ≤ pa ∧ pa ≤ 0x010000FFFFFF then .stacks
  else if 0x011000000000 ≤ pa ∧ pa ≤ 0x011002FFFFFF then .carrel
  else if 0x017000000000 ≤ pa ∧ pa ≤ 0x01700003FFFF then .bootRom
  else if 0x017100000000 ≤ pa ∧ pa ≤ 0x01710FFFFFFF then .xspi
  else if 0x017200000000 ≤ pa ∧ pa ≤ 0x0172003FFFFF then .flash
  else if 0x018000000000 ≤ pa ∧ pa ≤ 0x01800CFFFFFF then
    (if (pa - 0x018000000000) / 2 ^ 20 = 0x0F then .none else .regs)
  else if 2 ^ 48 ≤ pa then .priv
  else .none

/-- First address of the control register space. -/
def regBase : Nat := 0x018000000000

/-- First address of the carrel window of a physical core. -/
def carrelBase (core : Nat) : Nat := 0x011000000000 + core * 0x40000

/-- Whether a region is memory that a load may read as bytes. -/
def Region.isMem : Region → Bool
  | .regs => false
  | .none => false
  | _ => true

/-- Kinds of access (R97). -/
inductive Access where
  | load | store | fetch | atomic
  deriving DecidableEq, Repr

/-- Why a translation fails: a page fault or an access fault of the access's kind (R38, R95). -/
inductive XFault where
  | page | access
  deriving DecidableEq, Repr

/-- The rights an access is made with (R97). -/
structure XCtx where
  /-- Translation is on (csr_troot.EN, or a context's root, which always translates). -/
  en : Bool
  /-- Physical address of the level-3 table. -/
  root : Nat
  mode : Mode
  uacc : Bool := false
  deriving DecidableEq, Repr

/-- A leaf found by a walk: the entry, its address, and the physical address it gives. -/
structure Leaf where
  entry : Nat
  entryAddr : Nat
  pa : Nat
  /-- Size of what the leaf maps. -/
  size : Nat := 4096
  deriving DecidableEq, Repr

namespace Pte

/-- KIND of an entry (R94). -/
def kind (e : Nat) : Nat := bits e 1 0
/-- ACC of an entry. -/
def acc (e : Nat) : Nat := bits e 5 3
/-- APP of an entry. -/
def app (e : Nat) : Bool := bit e 6
/-- USED of an entry. -/
def used (e : Nat) : Bool := bit e 7
/-- DIRTY of an entry. -/
def dirty (e : Nat) : Bool := bit e 8
/-- MT of an entry. -/
def mt (e : Nat) : Nat := bits e 62 61
/-- LOCAL of an entry. -/
def loc (e : Nat) : Bool := bit e 63
/-- FRAME as an address. -/
def frame (e : Nat) : Nat := bits e 47 12 * 2 ^ 12
/-- Some RSV bit is set. -/
def rsv (e : Nat) : Bool := bits e 60 48 != 0 || bits e 11 9 != 0 || bit e 2
/-- A table entry that R95 accepts. -/
def tableOk (e : Nat) : Bool := !rsv e && mt e != 3 && bits e 8 3 = 0
/-- A leaf entry whose fields occur (R95). -/
def leafOk (e : Nat) : Bool := !rsv e && mt e != 3 && acc e ≤ 4
/-- Grants a load (R97). -/
def grantsR (e : Nat) : Bool := acc e ≤ 3
/-- Grants a store. -/
def grantsW (e : Nat) : Bool := acc e = 1 || acc e = 3
/-- Grants a fetch. -/
def grantsX (e : Nat) : Bool := acc e = 2 || acc e = 3 || acc e = 4

end Pte

/-- Read one table entry; a table outside memory is refused as an access (R38), and so is an uncorrectable one (R267). -/
def readEntry (s : State) (a : Nat) : Except XFault Nat :=
  if (region a).isMem && !s.isUe a then .ok (s.load a 8) else .error .access

/-- The level-0 part of the walk: the group head is read first (R96). -/
def walkLevel0 (s : State) (table va : Nat) : Except XFault Leaf := do
  let headAddr := table + 8 * (16 * bits va 20 16)
  let head ← readEntry s headAddr
  if Pte.kind head = 3 then
    if Pte.leafOk head && bits head 15 12 = 0 then
      .ok ⟨head, headAddr, Pte.frame head + va % 0x10000, 0x10000⟩
    else .error .page
  else
    let ea := table + 8 * bits va 20 12
    let e ← readEntry s ea
    if Pte.kind e = 2 && Pte.leafOk e then .ok ⟨e, ea, Pte.frame e + va % 0x1000, 0x1000⟩
    else .error .page

/-- The walk of R94 to R96 from a level-3 table. -/
def walk (s : State) (root va : Nat) : Except XFault Leaf := do
  let e3 ← readEntry s (root + 8 * bits va 47 39)
  if !(Pte.kind e3 = 1 && Pte.tableOk e3) then .error .page
  let e2 ← readEntry s (Pte.frame e3 + 8 * bits va 38 30)
  if !(Pte.kind e2 = 1 && Pte.tableOk e2) then .error .page
  let a1 := Pte.frame e2 + 8 * bits va 29 21
  let e1 ← readEntry s a1
  if Pte.kind e1 = 2 then
    if Pte.leafOk e1 && bits e1 20 12 = 0 then .ok ⟨e1, a1, Pte.frame e1 + va % 0x200000, 0x200000⟩
    else .error .page
  else if !(Pte.kind e1 = 1 && Pte.tableOk e1) then .error .page
  else walkLevel0 s (Pte.frame e1) va

/-- The rights check of R97. -/
def rightsOk (c : XCtx) (k : Access) (e : Nat) : Bool :=
  (match k with
    | .load => Pte.grantsR e
    | .store => Pte.grantsW e
    | .fetch => Pte.grantsX e
    | .atomic => Pte.grantsR e && Pte.grantsW e) &&
  (match c.mode with
    | .user => Pte.app e
    | .sup => !Pte.app e || (c.uacc && k ≠ .fetch)
    | .mon => true)

/-- Whether a leaf's LOCAL bit agrees with every block of vault DRAM that it maps (R256). -/
def placementOk (s : State) (l : Leaf) : Bool :=
  let first := l.pa - l.pa % l.size
  decide (first ≥ 2 ^ 35) ||
    ([first / 2 ^ 20, (first + l.size - 1) / 2 ^ 20].all fun b => localBlock s b == Pte.loc l.entry)

/-- Where the model keeps the sequence table, whose physical place the spec leaves to the memory processor (R209). -/
def seqTableBase : Nat := 2 ^ 48 + 0x400000

/-- The page of the sequence table at a virtual address, once PIDX_SEQ_BASE names one: read-only, in every translated
address space (R209). -/
def seqLeaf (s : State) (k : Access) (va : Nat) : Option (Except XFault Leaf) :=
  let base := s.reg64 (regKey 6 0x018)
  if base = 0 || va < base || va ≥ base + 0x40000 then none
  else if k == .load then some (.ok ⟨0x1C2, 0, seqTableBase + (va - base), 4096⟩) else some (.error .page)

/-- Translate an address for an access without changing anything. The tables are walked at each access: no translation is held
that a change of the tables, before a write of csr_tinval, could leave stale (R76; DESIGN CHOICE, log 121). -/
def lookup (s : State) (c : XCtx) (k : Access) (va : Nat) : Except XFault Leaf :=
  if va ≥ 2 ^ 48 then .error .access
  else if !c.en then .ok ⟨0, 0, va, 4096⟩
  else match seqLeaf s k va with
    | some x => x
    | none =>
      match walk s c.root va with
      | .error f => .error f
      | .ok l => if rightsOk c k l.entry && placementOk s l then .ok l else .error .page

/-- The boot ROM and the flashes, of which a store changes nothing: the flash controllers alone write flash (R454). -/
def readOnly (pa : Nat) : Bool := inFlash pa || (decide (0x017000000000 ≤ pa) && decide (pa ≤ 0x01700003FFFF))

/-- Whether an access kind writes, and so sets DIRTY (R98). -/
def Access.writes : Access → Bool
  | .store => true
  | .atomic => true
  | _ => false

namespace Run

variable {z : State}

/-- Set USED, and DIRTY for a store, in the entry a walk found (R98); an entry in read-only memory stays as it is. -/
def markUsed (r : Run z) (c : XCtx) (k : Access) (l : Leaf) : Run z :=
  if !c.en || readOnly l.entryAddr || (Pte.used l.entry && (Pte.dirty l.entry || !k.writes)) then r
  else
    let e := l.entry ||| 0x80 ||| (if k.writes then 0x100 else 0)
    r.store l.entryAddr 8 e

/-- Translate an address for an access: the physical address, with USED and DIRTY set (R94 to R98). -/
def translate (r : Run z) (c : XCtx) (k : Access) (va : Nat) : Except XFault (Nat × Run z) :=
  match lookup r.s c k va with
  | .error f => .error f
  | .ok l => .ok (l.pa, r.markUsed c k l)

end Run

/-! ## Block accesses through a context, page by page (completion records, descriptors, rings) -/

/-- The rights a context's work is done with: its root, as User mode (R94, R277). -/
def ctxX (s : State) (ctx : Nat) : XCtx :=
  let lo := (s.reg (regKey 5 (0x10004 + 0x10 * ctx))).toNat
  let hi := (s.reg (regKey 5 (0x10008 + 0x10 * ctx))).toNat
  { en := true, root := bits (lo + 2 ^ 32 * hi) 47 12 * 2 ^ 12, mode := .user }

/-- Whether an address is one of a carrel that no access through a mapping may use: its parking region or reflex workspace (R86,
R227, R252). -/
def laneBarred (s : State) (pa : Nat) : Bool :=
  region pa = .carrel && carrelReserved s ((pa - carrelBase 0) / 0x40000) ((pa - carrelBase 0) % 0x40000 / 4096)

/-- Physical addresses of n bytes from va under a context, or the first fault. -/
def lookupBytes (s : State) (c : XCtx) (k : Access) (va : Nat) : Nat → Except XFault (List Nat)
  | 0 => .ok []
  | n + 1 =>
    match lookup s c k va with
    | .error f => .error f
    | .ok l =>
      if !(region l.pa).isMem || (c.en && laneBarred s l.pa) || (k == .load && s.isUe l.pa) then .error .access
      else match lookupBytes s c k (va + 1) n with
        | .error f => .error f
        | .ok as => .ok (l.pa :: as)

/-- Whether every 4 KiB page of a range is mapped with the rights of an access. -/
def mapped (s : State) (c : XCtx) (k : Access) (va n : Nat) : Bool :=
  n = 0 || (List.range ((va + n - 1) / 4096 - va / 4096 + 1)).all fun i =>
    match lookup s c k (if i = 0 then va else (va / 4096 + i) * 4096) with
    | .ok l => (region l.pa).isMem && !(c.en && laneBarred s l.pa)
    | .error _ => false

/-- Read n bytes at a virtual address under a context, as a number. -/
def readVirt (s : State) (c : XCtx) (va n : Nat) : Except XFault Nat :=
  match lookupBytes s c .load va n with
  | .error f => .error f
  | .ok as => .ok (ofLe (as.map s.byte))

namespace Run

variable {z : State}

/-- Set USED or DIRTY on each page of a range, as the walker does for a block's accesses (R98). -/
def markRange (r : Run z) (c : XCtx) (k : Access) (va n : Nat) : Run z :=
  if n = 0 then r
  else r.each (List.range ((va + n - 1) / 4096 - va / 4096 + 1)) fun i r =>
    match lookup r.s c k (if i = 0 then va else (va / 4096 + i) * 4096) with
    | .ok l => r.markUsed c k l
    | .error _ => r

end Run

end Sys2Proof.Machine
end

