-- ==== Sys2Proof/Machine/Trap.lean ====
section
/-! DEFINITION. Exceptions: the causes of R77, taking a trap on a hart and returning from it (R73), interrupts (R74), and
the fault record of a gang with the stop of its parcel (R78, R92, R93, R519). -/

namespace Sys2Proof.Machine

/-- The exception causes of R77. -/
inductive Cause where
  | fetchMisaligned | fetchPage | fetchAccess | illegal | privileged | fpDisabled
  | upcallU | upcallS | upcallM | breakpoint
  | tensorDivergent | bankNotHeld | bankFormat | tensorDesc
  | loadMisaligned | storeMisaligned | loadPage | storePage | loadAccess | storeAccess
  deriving DecidableEq, Repr

/-- Code of a cause (R77). -/
def Cause.code : Cause → Nat
  | .fetchMisaligned => 0x03 | .fetchPage => 0x05 | .fetchAccess => 0x04 | .illegal => 0x01
  | .privileged => 0x02 | .fpDisabled => 0x10 | .upcallU => 0x0C | .upcallS => 0x0D | .upcallM => 0x0E
  | .breakpoint => 0x0F | .tensorDivergent => 0x12 | .bankNotHeld => 0x13 | .bankFormat => 0x14
  | .tensorDesc => 0x11 | .loadMisaligned => 0x06 | .storeMisaligned => 0x09 | .loadPage => 0x08
  | .storePage => 0x0B | .loadAccess => 0x07 | .storeAccess => 0x0A

/-- Trap class of a cause (R77). -/
def Cause.cls : Cause → Nat
  | .fetchMisaligned | .fetchPage | .fetchAccess => 0
  | .illegal | .privileged | .fpDisabled => 1
  | .upcallU | .upcallS | .upcallM => 2
  | .breakpoint => 3
  | .tensorDivergent | .bankNotHeld | .bankFormat | .tensorDesc => 7
  | .loadMisaligned | .storeMisaligned => 4
  | .loadPage | .storePage => 5
  | .loadAccess | .storeAccess => 6

/-- Encoding of a mode in csr_status and csr_trapinfo (R75). -/
def Mode.code : Mode → Nat
  | .user => 0 | .sup => 1 | .mon => 3

/-- Order of modes, User lowest (R73). -/
def Mode.rank : Mode → Nat
  | .user => 0 | .sup => 1 | .mon => 2

/-- The mode a two-bit code names; 0b10 does not occur. -/
def Mode.ofCode (n : Nat) : Mode := match n with | 0 => .user | 1 => .sup | _ => .mon

/-- The mode that serves an exception (R73, *Exception routing*). -/
def excTarget (h : Hart) (cls : Nat) : Mode :=
  let route := bits h.route.toNat (2 * cls + 1) (2 * cls)
  match h.mode with
  | .mon => .mon
  | .user => if route = 0 then .mon else .sup
  | .sup => if route = 1 then .sup else .mon

/-- The mode that serves an interrupt (R74). -/
def irqTarget (h : Hart) (n : Nat) : Mode :=
  if bits h.route.toNat (2 * n + 17) (2 * n + 16) = 0 then .mon else .sup

namespace Hart

/-- The interrupt enable of a mode (R73). -/
def ie (h : Hart) : Mode → Bool
  | .mon => h.ieM
  | _ => h.ieS

/-- Set the interrupt enable of a mode. -/
def setIe (h : Hart) (m : Mode) (b : Bool) : Hart :=
  match m with
  | .mon => { h with ieM := b }
  | _ => { h with ieS := b }

/-- The trap set of a mode (R73). -/
def trapSet (h : Hart) : Mode → TrapSet
  | .mon => h.trapM
  | _ => h.trapS

/-- Replace the trap set of a mode. -/
def setTrapSet (h : Hart) (m : Mode) (t : TrapSet) : Hart :=
  match m with
  | .mon => { h with trapM := t }
  | _ => { h with trapS := t }

/-- A general register; g0 reads 0 (R41). -/
def rg (h : Hart) (n : BitVec 5) : W64 := if n = 0 then 0 else SMap.get 0 h.g n.toNat

/-- Write a general register; a write to g0 is discarded (R41). -/
def wg (h : Hart) (n : BitVec 5) (v : W64) : Hart :=
  if n = 0 then h else { h with g := SMap.set 0 h.g n.toNat v }

/-- A floating register. -/
def rf (h : Hart) (n : BitVec 5) : W32 := SMap.get 0 h.f n.toNat

/-- Write a floating register. -/
def wf (h : Hart) (n : BitVec 5) (v : W32) : Hart := { h with f := SMap.set 0 h.f n.toNat v }

/-- Accumulate sticky flags in csr_fpctl (R54). -/
def addFlags (h : Hart) (fl : Fp.Flags) : Hart :=
  let m := (if fl.inexact then 0x80 else 0) + (if fl.underflow then 0x40 else 0) +
    (if fl.overflow then 0x20 else 0) + (if fl.divzero then 0x10 else 0) + (if fl.invalid then 0x08 else 0)
  { h with fpctl := h.fpctl ||| BitVec.ofNat 64 m }

/-- The rounding mode csr_fpctl.RND selects (R149). -/
def rnd (h : Hart) : Fp.Rnd :=
  match bits h.fpctl.toNat 1 0 with
  | 0 => .nearest | 1 => .up | 2 => .down | _ => .zero

/-- The trap of R73 into mode t: trap set written, IE_T cleared, mode entered, pc at the trap table's entry. -/
def trapTo (h : Hart) (t : Mode) (int : Bool) (code cls : Nat) (ret tval : W64) (long : Bool) : Hart :=
  let set := h.trapSet t
  let info := (if int then 2 ^ 63 else 0) + h.mode.code * 2 ^ 22 + (if h.ie t then 2 ^ 21 else 0) +
    (if long then 2 ^ 20 else 0) + cls * 2 ^ 8 + code
  let h1 := h.setTrapSet t { set with ret := ret, info := BitVec.ofNat 64 info, data := tval }
  { (h1.setIe t false) with
    mode := t
    pc := set.base + BitVec.ofNat 64 (64 * (if int then 8 + code else cls)) }

/-- Take an exception at the trapping instruction (R73, R77). -/
def takeException (h : Hart) (c : Cause) (tval : W64) (long : Bool) : Hart :=
  h.trapTo (excTarget h c.cls) false c.code c.cls h.pc tval long

/-- TRET in mode T (R73): none when FROM names a mode above T. -/
def trapReturn (h : Hart) : Option Hart :=
  let t := h.mode
  let set := h.trapSet t
  let from_ := Mode.ofCode (bits set.info.toNat 23 22)
  if from_.rank > t.rank then none
  else some { (h.setIe t (bit set.info.toNat 21)) with mode := from_, pc := set.ret }

/-- The rights of a host core's accesses (R94, R97). -/
def xctx (h : Hart) : XCtx :=
  { en := bit h.troot.toNat 0, root := bits h.troot.toNat 47 12 * 2 ^ 12, mode := h.mode, uacc := h.uacc }

end Hart

/-- The timer interrupt is pending while fabric time, as the host-core complex reads it, is at or after csr_alarm (R30, R74). -/
def timerPending (s : State) (h : Hart) : Bool := decide (s.timeAt tbHcx ≥ h.alarm.toNat)

/-- Interrupt code n is pending (R74). -/
def irqPending (s : State) (h : Hart) (n : Nat) : Bool :=
  match n with
  | 1 => timerPending s h
  | 2 => h.softIrq
  | 3 => h.extIrq
  | 4 => h.mbxIrq
  | _ => false

/-- Interrupt code n can be taken now (R74). -/
def irqTakeable (s : State) (h : Hart) (n : Nat) : Bool :=
  irqPending s h n && bit h.irqen.toNat n &&
    (let t := irqTarget h n
     decide (t.rank > h.mode.rank) || (t == h.mode && h.ie t))

/-- The interrupt taken when several can be: the higher target mode, then the lower code (R74). -/
def irqChoice (s : State) (h : Hart) : Option Nat :=
  let can := [1, 2, 3, 4].filter (irqTakeable s h)
  match can.filter (fun n => irqTarget h n == .mon) with
  | n :: _ => some n
  | [] => can.head?

/-! ## Gangs -/

namespace Thread

/-- A general register of a thread; g0 reads 0 (R41). -/
def rg (t : Thread) (n : Nat) : W32 := if n = 0 then 0 else SMap.get 0 t.g n

/-- Write a general register; a write to g0 is discarded (R41). -/
def wg (t : Thread) (n : Nat) (v : W32) : Thread :=
  if n = 0 then t else { t with g := SMap.set 0 t.g n v }

/-- A predicate; p0 reads 1 (R41). -/
def rp (t : Thread) (n : Nat) : Bool := n = 0 || t.p.getLsbD n

/-- Write a predicate; a write to p0 is discarded (R41). -/
def wp (t : Thread) (n : Nat) (b : Bool) : Thread :=
  if n = 0 ∨ n ≥ 8 then t
  else { t with p := BitVec.ofNat 8 (setBits t.p.toNat n n (b2n b)) }

/-- A register pair as a 64-bit value, low half in the even register (R42). -/
def rgPair (t : Thread) (n : Nat) : Nat := (t.rg n).toNat + 2 ^ 32 * (t.rg (n + 1)).toNat

/-- Write a register pair (R42). -/
def wgPair (t : Thread) (n : Nat) (v : Nat) : Thread :=
  (t.wg n (BitVec.ofNat 32 v)).wg (n + 1) (BitVec.ofNat 32 (v / 2 ^ 32))

/-- Whether the guard lets the instruction take effect in the thread: pP XOR N (R47). -/
def guardOk (t : Thread) (guard : BitVec 4) : Bool := t.rp (guard.toNat / 2) != guard.getLsbD 0

end Thread

namespace Gang

/-- Lanes 0 to 63 with their threads. -/
def lanes (g : Gang) : List (Nat × Thread) := (List.range 64).zip g.threads

/-- The lanes that could run: not exited and not waiting at BAR (R61). -/
def runnable (g : Gang) : List (Nat × Thread) := g.lanes.filter fun p => !p.2.exited && !p.2.atBar

/-- The smallest program counter of the runnable lanes (R61). -/
def minPc (g : Gang) : Option Nat :=
  (g.runnable.map fun p => p.2.pc.toNat).foldl (fun m x => some (match m with | none => x | some y => min x y)) none

/-- The active lanes: those that hold the smallest program counter (R61). -/
def active (g : Gang) : List Nat :=
  match g.minPc with
  | none => []
  | some pc => (g.runnable.filter fun p => p.2.pc.toNat = pc).map (·.1)

/-- A lane's thread. -/
def thread (g : Gang) (lane : Nat) : Thread := g.threads.getD lane {}

/-- Replace a lane's thread. -/
def setThread (g : Gang) (lane : Nat) (t : Thread) : Gang := { g with threads := g.threads.set lane t }

/-- Change some lanes' threads. -/
def mapLanes (g : Gang) (ls : List Nat) (f : Nat → Thread → Thread) : Gang :=
  { g with threads := g.lanes.map fun p => if ls.contains p.1 then f p.1 p.2 else p.2 }

/-- Every thread has exited. -/
def allExited (g : Gang) : Bool := g.threads.all (·.exited)

/-- The lanes that have not exited. -/
def liveLanes (g : Gang) : List Nat := (g.lanes.filter fun p => !p.2.exited).map (·.1)

end Gang

/-- A 64-bit mask of lanes. -/
def laneMask (ls : List Nat) : Nat := ls.foldl (fun m l => m + 2 ^ l) 0

/-- A gang waits on a tally (R113). -/
def gangWaits (s : State) (core g : Nat) : Bool :=
  s.waits.any fun w => match w.who with
    | .thread c g' _ => c = core && g' = g
    | _ => false

/-- A hart waits on a tally (R113). -/
def hartWaits (s : State) (key : Nat) : Bool :=
  s.waits.any fun w => match w.who with
    | .hart k => k = key
    | _ => false

/-- A gang is ready to issue, apart from its source registers (R89). -/
def gangReady (s : State) (core g : Nat) : Bool :=
  match s.gang? core g with
  | none => false
  | some x => !x.parked && !x.stopped && x.late.isNone && x.yieldTo.isEmpty && !gangWaits s core g && !x.active.isEmpty

/-- It is a gang's turn to issue (R89): of the gangs after the one that issued last, in gang-number order and wrapping from 127
to 0, each one before it is not ready. Whether a gang's source registers are available is a free value, but for the gang that
issues: the model has no latencies (DESIGN CHOICE, log 11). -/
def issueTurn (s : State) (core g : Nat) : Bool :=
  let last := (s.core core).last
  let n := s.reg64 (regKey (0x10 + core) 0x0C0)
  (List.range ((g + 127 - last) % 128)).all fun i =>
    let o := (last + 1 + i) % 128
    !gangReady s core o || Config.sourceHeld s.now n (128 * core + o)

/-- The gangs a YIELDed gang still waits for; with none left it is ready, from now on if it is parked (R87, R90). -/
def Gang.yields (x : Gang) (l : List Nat) (now : Nat) : Gang :=
  if l.isEmpty then { x with yieldTo := [], blockedAt := none, readyAt := if x.parked then some now else x.readyAt }
  else { x with yieldTo := l }

/-- The lesser of two numbers, either of which may be absent. -/
def earliest (a b : Option Nat) : Option Nat :=
  match a, b with
  | some m, some n => some (min m n)
  | some m, none => some m
  | none, n => n

/-- Parcels in flight, by slot. -/
def State.parcel? (s : State) (i : Nat) : Option Parcel := SMap.find? s.sched.parcels i

/-- The context a gang's parcel runs under. -/
def gangCtx (s : State) (g : Gang) : Nat := ((s.parcel? g.parcel).map (·.ctx)).getD 0

/-- The rights of a gang's accesses (R94). -/
def gangX (s : State) (g : Gang) : XCtx := ctxX s (gangCtx s g)

/-- Logical number of a physical core, from CORE_STAT.LOGICAL; 255 for none (R84). -/
def logicalOf (s : State) (core : Nat) : Nat := s.fld (regKey (0x10 + core) 0) 31 24

namespace Run

variable {z : State}

/-- Replace or add a parcel in flight. -/
def setParcel (r : Run z) (i : Nat) (p : Parcel) : Run z :=
  r.put (.sched { r.s.sched with parcels := SMap.insert r.s.sched.parcels i p })

/-- Remove a parcel. -/
def dropParcel (r : Run z) (i : Nat) : Run z :=
  r.put (.sched { r.s.sched with parcels := SMap.erase r.s.sched.parcels i })

/-- A gang of a core becomes ready: the hang detector counts from now unless another was ready already (R458). -/
def noteReady (r : Run z) (core : Nat) : Run z :=
  if r.s.gangs.any fun kg => kg.1 / 128 = core && gangReady r.s core (kg.1 % 128) then r
  else r.setCore core { r.s.core core with quiet := r.s.now }

/-- Remove every pending wait of a gang. -/
def dropGangWaits (r : Run z) (core g : Nat) : Run z :=
  r.put (.waits (r.s.waits.filter fun w => match w.who with
    | .thread c g' _ => !(c = core && g' = g)
    | _ => true))

/-- Stop every gang of a parcel at its boundary and dispatch no further gang of it: steps 1 to 3 of R92. -/
def stopParcel (r : Run z) (i : Nat) (status : Nat) : Run z :=
  match r.s.parcel? i with
  | none => r
  | some p =>
    let r := r.setParcel i { p with stop := true, again := [], status := if p.stop then p.status else status }
    r.each (r.s.gangs.filter fun kg => kg.2.parcel = i) fun kg r =>
      let r := r.setGang (kg.1 / 128) (kg.1 % 128) { kg.2 with stopped := true }
      r.dropGangWaits (kg.1 / 128) (kg.1 % 128)

/-- Write a fault record into the core's registers unless VALID already holds one (R93). -/
def recordFault (r : Run z) (f : FaultRecord) : Run z :=
  let k := regKey (0x10 + f.core) 0x010
  if r.s.fld k 31 31 = 1 then r
  else
    let r := r.setRegN k (2 ^ 31 + f.gang * 2 ^ 8 + f.cause)
    let r := r.setReg64 (k + 0x04) f.tval.toNat
    let r := r.setReg64 (k + 0x0C) f.pc.toNat
    let r := r.setReg64 (k + 0x14) f.mask.toNat
    r.setReg64 (k + 0x1C) f.time.toNat

/-- A gang stops on a lane-profile exception: fault record, and the stop of its parcel with LANE_FAULT (R78, R92), or with
MEM_UNCORRECTABLE (R267). `late` is, for a cause found after issue, the first tensor instruction that does not start for it
(R519). The first gang to stop by fabric time is carried;
between stops within 4 ns, the lower logical core. -/
def laneFault (r : Run z) (core g : Nat) (c : Cause) (tval pc mask : Nat) (status : Nat := stLaneFault)
    (late : Option Nat := none) : Run z :=
  let f : FaultRecord := {
    gang := g, cause := c.code, tval := BitVec.ofNat 64 tval, pc := BitVec.ofNat 64 pc
    mask := BitVec.ofNat 64 mask, time := BitVec.ofNat 64 (r.s.timeAt (tbCore core)), core := core }
  let r := r.recordFault f
  match r.s.gang? core g with
  | none => r
  | some x =>
    let r := r.setGang core g { x with stopped := true, late := earliest x.late late }
    match r.s.parcel? x.parcel with
    | none => r
    | some p =>
      let newer := match p.fault with
        | none => true
        | some old => decide (f.time.toNat ≤ old.time.toNat + 4) &&
            decide (logicalOf r.s core < p.fcore)
      let r := r.setParcel x.parcel (if newer then
          { p with fault := some f, fcore := logicalOf r.s core, ftime := f.time.toNat } else p)
      r.stopParcel x.parcel status

end Run

end Sys2Proof.Machine
end

