-- ==== Sys2Proof/Machine/Signal.lean ====
section
/-! DEFINITION. Tallies at their homes: handles (R108), signals and waits (R109 to R115), allocation and freeing (R107,
R112, R290). -/

namespace Sys2Proof.Machine

/-- The handle of a tally (R108). -/
def tallyHandle (s : State) (i : Nat) : Nat := (s.tally i).gen.toNat * 2 ^ 16 + i

/-- The tally a handle names at its home now, or none when the handle is stale or malformed (R108). -/
def tallyOf (s : State) (h : Nat) : Option Nat :=
  let i := bits h 13 0
  if bits h 15 14 = 0 && (s.tally i).allocated && bits h 31 16 = (s.tally i).gen.toNat then some i else none

/-! ## The ladder table (R404): words of entry e, and verdicts -/

/-- Entry of a rung code: 0 to 4 for A0 to A4, 5 to 8 for V0 to V3. -/
def ladEntry (rung : Nat) : Nat := if rung < 16 then rung else rung - 11

/-- Word i of entry e of the table taken up. -/
def ladW (s : State) (e i : Nat) : Nat := (s.lad.table.getD (16 + 16 * e + i) 0).toNat

/-- MODE of an entry: 0 ONCE, 1 PERIODIC, 2 SERVICE. -/
def ladMode (s : State) (e : Nat) : Nat := bits (ladW s e 0) 11 10

/-- The rights of the context of the ladders. -/
def ladX (s : State) : XCtx := ctxX s (s.fld (regKey 0x0B 0x600) 27 16)

/-- The evaluation that a parcel's argument block holds: SCORE, AUX and the box (R406); 0 where it cannot be read. -/
def readVerdict (s : State) (key e : Nat) (b : LSub) (stamp : Nat) : LEval :=
  let w := fun i => match readVirt s (ladX s) (b.args + 0x80 + 4 * i) 4 with
    | .ok v => v
    | .error _ => 0
  { key := key, entry := e, stamp := stamp, score := w 0 % 256, aux := w 1, box0 := w 2, box1 := w 3
    fseq := b.fseq, fslot := b.fslot.getD 0 }

namespace Run

variable {z : State}

/-- End one pending wait with a status: the status goes to its register, and the hart or thread resumes (R110, R114). -/
def endWait (r : Run z) (w : TWait) (status : Nat) : Run z :=
  let r := r.put (.waits (r.s.waits.filter fun x => !(x.who = w.who)))
  match w.who with
  | .hart k =>
    let h := r.s.hart k
    r.setHart k { (h.wg (BitVec.ofNat 5 w.dest) (BitVec.ofNat 64 status)) with
      pc := h.pc + 4, retired := h.retired + 1 }
  | .thread c g lane =>
    match r.s.gang? c g with
    | none => r
    | some x =>
      let x := x.setThread lane ((x.thread lane).wg w.dest (BitVec.ofNat 32 status))
      let x := if gangWaits r.s c g then x
        else { x with blockedAt := none, readyAt := if x.parked then some r.s.now else none }
      (r.noteReady c).setGang c g x

/-- End with OK the waits on a tally that its value meets at a time at or before their deadlines (R110, R114). -/
def wakeTally (r : Run z) (i : Nat) : Run z :=
  r.each (r.s.waits.filter fun w => w.tally = i && decide (w.threshold.toNat ≤ (r.s.tally i).value.toNat) &&
      decide (r.s.timeAt (tbHome i) ≤ w.deadline.toNat)) fun w r => r.endWait w stOk

/-- A weight window ends with a status (R264). -/
def endWindow (r : Run z) (n status : Nat) : Run z :=
  let r := r.put (.vault { r.s.vault with windows := SMap.erase r.s.vault.windows n })
  let k := vltReg (0x808 + 0x20 * n)
  ((r.setRegN k 0).setRegN (k + 4) (status * 2 ^ 16))

/-- A window without REPEAT ends OK when FREE reaches NCONS × NCHUNK (R262). -/
def windowsFreed (r : Run z) (i : Nat) : Run z :=
  r.each (r.s.vault.windows.filter fun w =>
      tallyOf r.s w.2.free = some i && !w.2.again && !w.2.stopping &&
      decide ((r.s.tally i).value.toNat ≥ w.2.ncons * w.2.sizes.length)) fun w r => r.endWindow w.1 stOk

/-- Parcels that wait on a tally note when it first holds their thresholds (R284). -/
def parcelsMet (r : Run z) (i : Nat) : Run z :=
  let h := tallyHandle r.s i
  let v := (r.s.tally i).value.toNat
  r.each (r.s.sched.parcels.filter fun ip => ip.2.stage = .waiting) fun ip r =>
    let p := ip.2
    let meets := fun w => (p.desc.getD w 0).toNat = h && decide ((p.desc.getD (w + 1) 0).toNat ≤ v)
    let p' := { p with
      met0 := if p.met0.isNone && meets 10 then some (r.s.timeAt (tbHome i)) else p.met0
      met1 := if p.met1.isNone && meets 12 then some (r.s.timeAt (tbHome i)) else p.met1 }
    if p' = p then r else r.setParcel ip.1 p'

/-- Watches that the value meets by their deadlines end OK, and the jobs whose ARRIVE rises owe a PACE (R327, R329). -/
def watchesMet (r : Run z) (i : Nat) (old v : W32) : Run z :=
  let m := r.s.mhy
  let met := m.watches.filter fun w => w.tally = i && decide (w.threshold ≤ v.toNat) && decide (r.s.timeAt (tbHome i) ≤ w.deadline)
  let jobs := m.jobs.filter fun j => tallyOf r.s j.arrive = some i && decide (old.toNat < v.toNat)
  if met.isEmpty && jobs.isEmpty then r
  else r.put (.mhy { m with
    watches := m.watches.filter fun w => !met.contains w
    owed := m.owed ++ (met.map fun w => Owed.reply w.session w.seq stOk) ++ jobs.map fun j => Owed.pace j.job v.toNat })

/-- A signal on a SERVICE rung's VTALLY is an evaluation of every ladder that stands on the rung and whose parcel of that rung
runs, with the verdict its argument block then holds (R406). -/
def verdictSignal (r : Run z) (i : Nat) : Run z :=
  r.each r.s.lad.ladders fun kl r =>
    let e := ladEntry kl.2.rung
    match kl.2.subs.find? fun b => b.service && !b.settled && b.rung = kl.2.rung with
    | none => r
    | some b =>
      if ladMode r.s e ≠ 2 || tallyOf r.s (ladW r.s e 9) ≠ some i then r
      else
        let r := r.markRange (ladX r.s) .load (b.args + 0x80) 16
        r.put (.lad { r.s.lad with todo := r.s.lad.todo ++ [readVerdict r.s kl.1 e b (r.s.timeAt (tbHome i))] })

/-- A signal accepted at a tally's home: the new value, and what it meets (R109, R110, R262, R284, R327, R406). -/
def signalTo (r : Run z) (i : Nat) (v : W32) : Run z :=
  let old := (r.s.tally i).value
  let r := (((r.setTally i { r.s.tally i with value := v }).wakeTally i).windowsFreed i).parcelsMet i
  (r.watchesMet i old v).verdictSignal i

/-- TSIG at a home: the value becomes the larger of the two (R109). -/
def tsigAt (r : Run z) (i : Nat) (v : W32) : Run z := r.signalTo i (W32.max (r.s.tally i).value v)

/-- TADD at a home, saturating (R109). -/
def taddAt (r : Run z) (i : Nat) (v : W32) : Run z := r.signalTo i (W32.satAdd (r.s.tally i).value v)

/-- A signal the device makes on a handle named in a card, descriptor or register: dropped when stale (R108). -/
def deviceAdd (r : Run z) (h : Nat) : Run z :=
  if h = 0 then r
  else match tallyOf r.s h with
    | some i => r.taddAt i 1
    | none => r

end Run

/-- The first unallocated tally from a place on, cyclically, within a number of tries. -/
def nextFreeTally (s : State) : Nat → Nat → Option Nat
  | 0, _ => none
  | fuel + 1, i => if (s.tally (i % 16384)).allocated then nextFreeTally s fuel (i + 1) else some (i % 16384)

/-- The waits of a parcel have ended OK: each met at or before its deadline (R284). -/
def waitsMet (p : Parcel) : Bool :=
  let dl := p.taken + (p.desc.getD 9 0).toNat * 1000
  [p.met0, p.met1].all fun m => match m with
    | some t => decide (t ≤ dl)
    | none => false

namespace Run

variable {z : State}

/-- Allocate a tally for a context at value 0; which free number it takes is a free value (R107, R290). -/
def allocTally (r : Run z) (ctx : Nat) : Option Nat × Run z :=
  let (w, r) := r.draw
  match nextFreeTally r.s 16384 (w.toNat % 16384) with
  | none => (none, r)
  | some i =>
    let r := r.setTally i { r.s.tally i with allocated := true, value := 0, ctx := ctx }
    (some i, r.bump (regKey 5 0x02C))

end Run

end Sys2Proof.Machine
end

