-- ==== Sys2Proof/Machine/Obs.lean ====
section
/-! DEFINITION. Observability: the error summary (R492, R493), the trace stream (R489, R490) and snapshots (R484 to
R487), and the UART1 and GPIO pins (R500, R501). -/

namespace Sys2Proof.Machine

/-- Key of an OBS register. -/
def obsReg (off : Nat) : Nat := regKey 0x0C off

/-- Key of a TOP register. -/
def topReg (off : Nat) : Nat := regKey 0 off

/-- Whether a register is in the shadow set (R484). -/
def inShadowSet (k : Nat) : Bool :=
  match regDesc k with
  | some d => d.shadow
  | none => false

namespace Run

variable {z : State}

/-- A hart stalled by SNOOZE goes on once some interrupt is pending (R63). -/
def wake (r : Run z) (key : Nat) : Run z :=
  let h := r.s.hart key
  if h.snoozing && [1, 2, 3, 4].any (irqPending r.s h) then r.setHart key { h with snoozing := false } else r

/-- The external source in the HCX holds interrupt code 3 on a host core (R74, R492). -/
def raiseExt (r : Run z) (n : Nat) : Run z :=
  (r.setHart n { r.s.hart n with extIrq := true }).wake n

/-- The mailbox source in the HCX holds interrupt code 4 on a host core (R74, R292). -/
def raiseMbx (r : Run z) (n : Nat) : Run z :=
  (r.setHart n { r.s.hart n with mbxIrq := true }).wake n

/-- FIRST and FTIME: the earliest error since SUM was last all 0; within 4 ns the lower bit (R493). -/
def errFirst (r : Run z) (b : Nat) : Run z :=
  let first := obsReg 0x210
  let take := r.s.fld first 31 31 = 0 ||
    (decide (r.s.now ≤ r.s.reg64 (obsReg 0x214) + 4) && decide (b < r.s.fld first 4 0))
  r.when take fun r => (r.setRegN first (2 ^ 31 + b)).setReg64 (obsReg 0x214) r.s.now

/-- A source of *Error sources* counts an event: its SUM bit sets, and an enabled bit that sets interrupts and signals
(R492, R493). -/
def errEvent (r : Run z) (b : Nat) : Run z :=
  let sum := obsReg 0x200
  let was := r.s.fld sum b b
  let r := r.errFirst b
  let r := r.setFld sum b b 1
  let r := r.put (.obs { r.s.obs with errLast := SMap.set 0 r.s.obs.errLast b r.s.now })
  if was = 1 || r.s.fld (obsReg 0x204) b b = 0 then r
  else
    let cfg := obsReg 0x208
    let r := r.when (r.s.fld cfg 31 31 = 1) fun r => r.raiseExt (r.s.fld cfg 2 0)
    r.deviceAdd (r.s.reg (obsReg 0x20C)).toNat

/-- Count an event in a saturating counter and set its summary bit. -/
def countErr (r : Run z) (k b : Nat) (n : Nat := 1) : Run z := (r.bump k n).errEvent b

end Run

/-! ## Writes to memory by any agent -/

/-- The addresses of the table entries that a walk reads, in its order (R94, R96). -/
def walkAddrs (s : State) (root va : Nat) : List Nat :=
  let a3 := root + 8 * bits va 47 39
  let a2 := Pte.frame (s.load a3 8) + 8 * bits va 38 30
  let a1 := Pte.frame (s.load a2 8) + 8 * bits va 29 21
  let t0 := Pte.frame (s.load a1 8)
  [a3, a2, a1, t0 + 8 * (16 * bits va 20 16), t0 + 8 * bits va 20 12]

/-- The address of the table entry in an uncorrectable word that a walk meets (R267). -/
def walkUe (s : State) (root va : Nat) : Option Nat := (walkAddrs s root va).find? fun a => (region a).isMem && s.isUe a

/-- The uncorrectable word that an access meets: at its address, or in its page walk (R267). -/
def uePa (s : State) (c : XCtx) (k : Access) (va : Nat) : Option Nat :=
  match lookup s c k va with
  | .ok l => if s.isUe l.pa then some l.pa else none
  | .error .access => if c.en && decide (va < 2 ^ 48) then walkUe s c.root va else none
  | .error .page => none

/-- Key of a row: vault, row and bank of a physical address (R255). -/
def rowOf (s : State) (pa : Nat) : Nat := (vaultOf s pa).1 * 2 ^ 19 + (vaultOf s pa).2 / 2 ^ 12

namespace Run

variable {z : State}

/-- A read meets a word with a single-bit error: the data are corrected, the corrected word is written back, and CE counts
(R266). The row's corrected errors since boot count for R268. -/
def correct (r : Run z) (pa : Nat) : Run z :=
  let row := rowOf r.s pa
  let r := r.put (.vault { r.s.vault with
    weak := SMap.erase r.s.vault.weak (pa / 32), rowCe := SMap.set 0 r.s.vault.rowCe row (SMap.get 0 r.s.vault.rowCe row + 1) })
  r.countErr (vltReg (0x104 + 0x20 * (vaultOf r.s pa).1)) 0

/-- A read of n bytes corrects the single-bit errors it meets (R266). -/
def scrub (r : Run z) (pa n : Nat) : Run z :=
  r.each (r.s.vault.weak.filter fun w => decide (pa / 32 ≤ w.1) && decide (w.1 * 32 < pa + n)) fun w r => r.correct (w.1 * 32)

/-- An access that reads corrects what it meets; a store merges through `storePhys`. -/
def scrubRead (r : Run z) (k : Access) (pa n : Nat) : Run z := if k = .store then r else r.scrub pa n

/-- A page walk corrects the single-bit errors of the entries it reads (R266). -/
def scrubWalk (r : Run z) (c : XCtx) (va : Nat) : Run z :=
  if r.s.vault.weak.isEmpty || !c.en then r else r.each (walkAddrs r.s c.root va) fun a r => r.scrub a 8

/-- A reader meets a word of the Stacks with a parity error: the second error in one column since boot records a COLUMN repair
(*Fault coverage*, R460). -/
def stackError (r : Run z) (pa : Nat) : Run z :=
  let w := pa / 8
  let v := r.s.vault
  if (SMap.find? v.stackUe w).isNone || (SMap.find? v.stackSeen w).isSome then r
  else
    let col := Config.stacksColumn w
    let before := (v.stackSeen.filter fun x => Config.stacksColumn x.1 = col).length
    let r := r.put (.vault { v with stackSeen := SMap.insert v.stackSeen w 1 })
    r.when (before = 1) fun r => r.put (.fix { r.s.fix with
      owed := r.s.fix.owed ++ [{ kind := 5, arg0 := col.toNat, time := r.s.now, boot := r.s.fix.boots }] })

/-- Count an uncorrectable read of a vault word (R267); a word of the Stacks is noted for its column. -/
def countUe (r : Run z) (pa : Nat) : Run z :=
  if inStacks pa then r.stackError pa else if pa ≥ 2 ^ 35 then r else
  let k := vltReg (0x100 + 0x20 * (vaultOf r.s pa).1)
  ((r.setReg64 (k + 0x10) (pa / 32 * 32)).put (.vault { r.s.vault with
    rowUe := SMap.insert r.s.vault.rowUe (rowOf r.s pa) 1 })).countErr (k + 8) 1

/-- A store that is merged into an uncorrectable word is discarded: UE and UE_WRITE count, and ERR names the word (R267). -/
def countUeWrite (r : Run z) (pa : Nat) : Run z :=
  let k := vltReg (0x100 + 0x20 * (vaultOf r.s pa).1 + 0x0C)
  (r.countUe pa).setFld k 31 24 (min 255 (r.s.fld k 31 24 + 1))

/-- A write into a carrel folio from which the Prism store holds data empties the store (R176). -/
def prismTouch (r : Run z) (page : Nat) : Run z :=
  let base := 0x011000000000 / 4096
  if page < base || page ≥ base + 192 * 64 then r
  else
    let core := (page - base) / 64
    let c := r.s.core core
    r.when (c.prism.any fun i => i.folios.contains page) fun r => r.setCore core { c with prism := [] }

/-- Bytes in a word with a check of its own: 8 in the Stacks, 32 in vault DRAM (R266, *Fault coverage*). -/
def ueWord (pa : Nat) : Nat := if inStacks pa then 8 else 32

/-- The error of a word is cleared. -/
def clearUe (r : Run z) (pa : Nat) : Run z :=
  r.put (.vault (if inStacks pa then { r.s.vault with stackUe := SMap.erase r.s.vault.stackUe (pa / 8) }
    else { r.s.vault with ue := SMap.erase r.s.vault.ue (pa / 32) }))

/-- The single-bit errors of the words that a store touches: a part of a word is merged into the corrected word, a whole word
writes check bits of its own (R266). -/
def mergeWeak (r : Run z) (cells : List (Nat × Byte)) : Run z :=
  r.each (r.s.vault.weak.filter fun w => cells.any fun c => c.1 / 32 = w.1) fun w r =>
    if (List.range 32).all fun i => cells.any fun c => c.1 = w.1 * 32 + i then
      r.put (.vault { r.s.vault with weak := SMap.erase r.s.vault.weak w.1 })
    else r.correct (w.1 * 32)

/-- A store of a whole 64-bit word of private SRAM writes parity of its own (R304). -/
def clearParity (r : Run z) (cells : List (Nat × Byte)) : Run z :=
  if r.s.fw.parity.isEmpty then r
  else r.put (.fw { r.s.fw with parity := r.s.fw.parity.filter fun w =>
    !((List.range 8).all fun i => cells.any fun c => c.1 = w.1 * 8 + i) })

/-- Write bytes at physical addresses, one access, but for the boot ROM and the flashes: a whole word clears its error, a part
of an uncorrectable one is discarded, and counted for a vault (R267, *Fault coverage*). A store to the carrel of a fenced core
is discarded and counted (R458). -/
def storePhys (r : Run z) (cells : List (Nat × Byte)) : Run z :=
  let r := ((r.mergeWeak cells).clearParity cells).when (cells.any fun c => fencedCarrel r.s c.1) fun r => r.bump (fixReg 0x014)
  cells.foldl (fun r c =>
    let r := r.prismTouch (c.1 / 4096)
    if fencedCarrel r.s c.1 || readOnly c.1 then r
    else if !r.s.isUe c.1 then r.setByte c.1 c.2
    else
      let w := ueWord c.1
      let base := c.1 / w * w
      let whole := (List.range w).all fun i => cells.any fun d => d.1 = base + i
      if whole && (inStacks c.1 || vaultState r.s (vaultOf r.s c.1).1 ≠ 2) then (r.clearUe c.1).setByte c.1 c.2
      else if inStacks c.1 then r
      else if cells.any fun d => d.1 / 32 = c.1 / 32 && decide (d.1 < c.1) then r
      else r.countUeWrite c.1) r

/-- Write the n low bytes of a number at a physical address, as one access. -/
def storeMem (r : Run z) (pa n v : Nat) : Run z :=
  r.storePhys (((List.range n).map fun i => pa + i).zip (leBytes n v))

/-- Count the uncorrectable words that a block meets in a range it reads under a context (R267). -/
def noteUe (r : Run z) (c : XCtx) (va n : Nat) : Run z :=
  r.each (List.range n) fun i r =>
    match lookup r.s c .load (va + i) with
    | .ok l => r.when (r.s.isUe l.pa && (i = 0 || l.pa % 32 = 0)) fun r => r.countUe l.pa
    | .error _ => r

/-- Read n bytes at a virtual address under a context as a block does, with USED set (R98) and single-bit errors corrected
(R266). -/
def readIn (r : Run z) (c : XCtx) (va n : Nat) : Except XFault Nat × Run z :=
  let r := (r.scrubWalk c va).markRange c .load va n
  let r := if r.s.vault.weak.isEmpty then r
    else match lookupBytes r.s c .load va n with
      | .ok as => r.each as fun a r => r.scrub a 1
      | .error _ => r
  (readVirt r.s c va n, r)

/-- Read n bytes as `readIn` does, and count the uncorrectable words that the read meets (R267). -/
def readBlock (r : Run z) (c : XCtx) (va n : Nat) : Except XFault Nat × Run z := (r.noteUe c va n).readIn c va n

/-- Write the n low bytes of a number at a virtual address under a context; nothing is written when a byte faults. -/
def writeVirt (r : Run z) (c : XCtx) (va n v : Nat) : Except XFault (Run z) :=
  match lookupBytes r.s c .store va n with
  | .error f => .error f
  | .ok as => .ok (((r.scrubWalk c va).markRange c .store va n).storePhys (as.zip (leBytes n v)))

/-- Write under a context, dropping the write when it faults. -/
def tryWrite (r : Run z) (c : XCtx) (va n v : Nat) : Run z :=
  match r.writeVirt c va n v with
  | .ok r => r
  | .error _ => r

/-- Write a list of bytes at a virtual address under a context, all or none. -/
def writeVirtBytes (r : Run z) (c : XCtx) (va : Nat) (bs : List Byte) : Except XFault (Run z) :=
  match lookupBytes r.s c .store va bs.length with
  | .error f => .error f
  | .ok as => .ok (((r.scrubWalk c va).markRange c .store va bs.length).storePhys (as.zip bs))

end Run

/-- The bit of OBS_TRC_SRC that enables a source (R489, R490). -/
def trcEnable (src : Nat) : Nat :=
  if src < 0x20 then 0 else if src < 0x26 then src - 0x1F else 6

namespace Run

variable {z : State}

/-- A record is dropped and counted (R489). -/
def trcDrop (r : Run z) : Run z := r.countErr (obsReg 0x11C) 15

/-- The block whose copy of fabric time stamps the records of a source (R30, R490). -/
def traceBlock (src : Nat) : Nat :=
  if src < 0x20 then tbFw
  else if src = 0x20 then tbEth
  else if src = 0x21 then tbCsi
  else if src = 0x22 then tbAud
  else if src < 0x30 then tbSoc
  else tbCore (src - 0x30)

/-- Offer a trace record: it enters the ring, or is dropped when the ring is full, when more than 64 arrive in one
microsecond, or when its slot cannot be written (R489). -/
def traceOffer (r : Run z) (src point arg : Nat) : Run z :=
  let us := r.s.now / 1000
  let n := if r.s.obs.trcUs = us then r.s.obs.trcN + 1 else 1
  let r := r.put (.obs { r.s.obs with trcUs := us, trcN := n })
  let ctrl := obsReg 0x100
  let size := 2 ^ r.s.fld ctrl 3 0
  let idx := obsReg 0x114
  let produced := r.s.fld idx 15 0
  let consumed := r.s.fld idx 31 16
  if n > 64 || (produced + 65536 - consumed) % 65536 ≥ size then r.trcDrop
  else
    let rec_ := r.s.timeAt (traceBlock src) % 2 ^ 64 + 2 ^ 64 * (src * 2 ^ 24 + point) + 2 ^ 96 * arg
    match r.writeVirt (ctxX r.s (r.s.fld ctrl 27 16)) (r.s.reg64 (obsReg 0x10C) + 16 * (produced % size)) 16 rec_ with
    | .ok r => r.setFld idx 15 0 (produced + 1)
    | .error _ => r.trcDrop

/-- A trace point of a source: offered while the stream runs and its source is enabled (R314, R489). -/
def trace (r : Run z) (src point arg : Nat) : Run z :=
  if r.s.fld (obsReg 0x100) 31 31 = 1 && r.s.fld (obsReg 0x104) (trcEnable src) (trcEnable src) = 1 then
    r.traceOffer src point arg
  else r

/-- A trace point of a physical core: only with its cluster's CMASK bit, and every 2^SAMPLE-th admission and retirement, each
counted by itself (R490). -/
def traceCore (r : Run z) (core point arg : Nat) : Run z :=
  if r.s.fld (obsReg 0x100) 31 31 = 1 && r.s.fld (obsReg 0x104) 6 6 = 1 &&
      r.s.fld (obsReg 0x108) (core / 12) (core / 12) = 1 then
    let k := 2 * core + point % 2
    let n := SMap.get 0 r.s.obs.trcSkip k + 1
    let r := r.put (.obs { r.s.obs with trcSkip := SMap.set 0 r.s.obs.trcSkip k n })
    r.when (n % 2 ^ r.s.fld (obsReg 0x108) 19 16 = 0) fun r => r.traceOffer (0x30 + core) point arg
  else r

/-! ### Freeing a tally (R108, R112, R284) -/

/-- End with TALLY_FREED the parcels that wait on a freed handle; a wait that its signals have ended stays ended OK (R284). -/
def endParcelWaits (r : Run z) (h : Nat) : Run z :=
  r.each (r.s.sched.parcels.filter fun ip => ip.2.stage = .waiting && !waitsMet ip.2 &&
      ((ip.2.desc.getD 10 0).toNat = h || (ip.2.desc.getD 12 0).toNat = h)) fun ip r =>
    let slot := match ip.2.origin with | .queue _ x => x | _ => 0
    (r.setParcel ip.1 { ip.2 with stage := .ending, status := stTallyFreed }).trace 0x10 0x0011 (stTallyFreed * 2 ^ 16 + slot)

/-- Free a tally: its generation advances, after 65,535 to 1, and the waits pending on it end with TALLY_FREED
(R108, R112). -/
def freeTally (r : Run z) (i : Nat) : Run z :=
  let t := r.s.tally i
  let h := tallyHandle r.s i
  let gen : BitVec 16 := if t.gen = 0xFFFF#16 then 1 else t.gen + 1
  let r := r.setTally i { allocated := false, gen := gen, value := 0, ctx := 0 }
  let r := r.setRegN (regKey 5 0x02C) ((r.s.reg (regKey 5 0x02C)).toNat - 1)
  let r := r.each (r.s.waits.filter fun w => w.tally = i) fun w r => r.endWait w stTallyFreed
  let gone := r.s.mhy.watches.filter fun w => w.tally = i
  let r := if gone.isEmpty then r
    else r.put (.mhy { r.s.mhy with
      watches := r.s.mhy.watches.filter fun w => w.tally ≠ i
      owed := r.s.mhy.owed ++ gone.map fun w => Owed.reply w.session w.seq stTallyFreed })
  r.endParcelWaits h

/-! ### Snapshots (R485 to R487) -/

/-- STATUS of TOP_SNAP_CTRL. -/
def snapStatus (r : Run z) (st : Nat) : Run z := r.setFld (topReg 0x200) 15 0 st

/-- Arm a snapshot at T, accepted at `stamp`: its status, and its number when it is armed (R485). -/
def snapArm (r : Run z) (t stamp : Nat) : Nat × Nat × Run z :=
  if t < stamp + 2000 || r.s.fld (topReg 0x200) 31 31 = 1 then (stBounds, 0, r.snapStatus stBounds)
  else
    let r := (r.setReg64 (topReg 0x204) t).setFld (topReg 0x200) 31 31 1
    (stOk, ((r.s.reg (topReg 0x20C)).toNat + 1) % 2 ^ 32, r.snapStatus stOk)

/-- Disarm the snapshot; the shadows and SEQ stay (R485). -/
def snapCancel (r : Run z) : Run z := (r.setFld (topReg 0x200) 31 31 0).snapStatus stEmpty

/-- The start of a low-power entry or a tenant switch disarms a snapshot whose T has not come (R487). -/
def snapDisarm (r : Run z) : Run z :=
  r.when (r.s.fld (topReg 0x200) 31 31 = 1) fun r => (r.setFld (topReg 0x200) 31 31 0).snapStatus stTimeout

/-- Every unit copies its counters into their shadows, and SEQ advances (R486). -/
def snapTake (r : Run z) : Run z :=
  let r := r.put (.obs { r.s.obs with shadows := r.s.regs.filter fun p => inShadowSet p.1 })
  let seq := ((r.s.reg (topReg 0x20C)).toNat + 1) % 2 ^ 32
  let r := (r.setRegN (topReg 0x20C) seq).setRegN (obsReg 0x004) seq
  (r.setFld (topReg 0x200) 31 31 0).snapStatus stOk

/-! ### Error summary clear, trace index, UART1 -/

/-- W1C of OBS_ERR_SUM: a bit clears only when no event of its source is stamped at or after the write; VALID clears when
SUM becomes all 0, and the external source then no longer holds (R492, R493). -/
def errClear (r : Run z) (v : Nat) : Run z :=
  let keep := (List.range 16).foldl (fun m b =>
    if bit v b && decide (SMap.get 0 r.s.obs.errLast b < r.s.now) then m else m + r.s.fld (obsReg 0x200) b b * 2 ^ b) 0
  let r := r.setRegN (obsReg 0x200) keep
  let r := r.when (keep = 0) fun r => r.setFld (obsReg 0x210) 31 31 0
  let host := r.s.fld (obsReg 0x208) 2 0
  r.when (keep &&& (r.s.reg (obsReg 0x204)).toNat = 0) fun r =>
    r.setHart host { r.s.hart host with extIrq := false }

/-- A new consumed index of the trace ring: taken when it lies from the old one to the produced index (R414, R490). -/
def trcAck (r : Run z) (v : Nat) : Run z :=
  let idx := obsReg 0x114
  let c := r.s.fld idx 31 16
  let p := r.s.fld idx 15 0
  r.when (decide ((v % 65536 + 65536 - c) % 65536 ≤ (p + 65536 - c) % 65536)) fun r => r.setFld idx 31 16 v

/-- Bytes awaiting and received, as TOP_UART1_STAT shows them (R501). -/
def uartStat (r : Run z) : Run z :=
  (r.setFld (topReg 0x328) 22 16 r.s.obs.uartTx.length).setFld (topReg 0x328) 6 0 r.s.obs.uartRx.length

/-- A write of TOP_UART1_DATA queues a byte; a full buffer takes none (R501). -/
def uartSend (r : Run z) (b : Byte) : Run z :=
  if r.s.obs.uartTx.length ≥ 64 then r
  else (r.put (.obs { r.s.obs with uartTx := r.s.obs.uartTx ++ [b] })).uartStat

/-- A read of TOP_UART1_DATA: the oldest received byte, or bit 31 when none was held (R501). -/
def uartRead (r : Run z) : Nat × Run z :=
  match r.s.obs.uartRx with
  | [] => (2 ^ 31, r)
  | b :: rest => (b.toNat, (r.put (.obs { r.s.obs with uartRx := rest })).uartStat)

/-- A byte arrives: buffered, or lost to a full buffer (R501). -/
def uartRx (r : Run z) (b : Byte) : Run z :=
  if r.s.fld (topReg 0x324) 31 31 = 0 then r
  else if r.s.obs.uartRx.length ≥ 64 then r.setFld (topReg 0x328) 31 31 1
  else (r.put (.obs { r.s.obs with uartRx := r.s.obs.uartRx ++ [b] })).uartStat

/-- A queued byte has been shifted out (R501). -/
def uartSent (r : Run z) : Run z :=
  match r.s.obs.uartTx with
  | [] => r
  | _ :: rest =>
    if r.s.fld (topReg 0x324) 31 31 = 0 then r
    else (r.put (.obs { r.s.obs with uartTx := rest })).uartStat

end Run

/-- The level read at each GPIO ball: what an output drives, and a free value for an input (R501). -/
def gpioIn {z : State} (r : Run z) : Nat × Run z :=
  let oe := (r.s.reg (topReg 0x304)).toNat
  let (w, r) := r.draw
  ((r.s.reg (topReg 0x300)).toNat &&& oe ||| (w.toNat % 2 ^ 32 &&& (2 ^ 32 - 1 - oe)), r)

/-- SNAPSHOT_TAKE: T has come (R486). -/
def execSnapshotTake (s : State) : Host.Outcome State Fault Refusal :=
  let r := Run.start s
  if s.fld (topReg 0x200) 31 31 = 1 && decide (s.reg64 (topReg 0x204) ≤ s.now) then done r.snapTake else done r

/-- UART1_BYTE_RX (R501). -/
def execUart1ByteRx (b : Byte) (s : State) : Host.Outcome State Fault Refusal := done ((Run.start s).uartRx b)

/-- UART1_BYTE_SENT (R501). -/
def execUart1ByteSent (s : State) : Host.Outcome State Fault Refusal := done (Run.start s).uartSent

end Sys2Proof.Machine
end

