-- ==== Sys2Proof/Machine/FwCtl.lean ====
section
/-! DEFINITION. Restarting one firmware processor: the shared part of every cause of a restart (R300 to R304). -/

namespace Sys2Proof.Machine

/-- Whether a hart key names a firmware processor. -/
def isFw (key : Nat) : Bool := key ≥ 0x10

/-- What a csr_mpu register holds at reset: SZLOG2 0x0C (R296). -/
def mpuReset : W64 := 0x0C

/-- BASE of a window has no bit set below SZLOG2 (R296). -/
def windowAligned (w : Nat) : Bool := (bits w 47 12 * 2 ^ 12) % 2 ^ bits w 5 0 = 0

/-- A request takes its place: by its stamp, which is the latest, and among equal stamps by p (R302). -/
def fwEnqueue (q : FwReq) : List FwReq → List FwReq
  | [] => [q]
  | x :: xs => if x.at_ = q.at_ && decide (q.p < x.p) then q :: x :: xs else x :: fwEnqueue q xs

/-- A restart can begin: no other runs, and the security processor, which makes it, runs, or the boot ROM restarts the security
processor itself (R302, R303). -/
def fwFree (s : State) (p : Nat) : Bool := !((List.range 5).any fun q => fwState s q = 1) && (p = 4 || fwState s 4 = 0)

namespace Run

variable {z : State}

/-- Begin a restart of processor p: it is held in reset, or left HALTED when three restarts began within the last 60 s
(R300, R303). A Mehryen request is always honoured. A cause other than a request is an error event (R492). A processor left HALTED has
not restarted, so CAUSE stays, and RESTART reads 1 once it has been written. -/
def fwBegin (r : Run z) (p cause : Nat) (forced : Bool) : Run z :=
  let recent := ((SMap.get [] r.s.fw.starts p).filter fun t => decide (r.s.now < t + 60000000000)).length
  let h := r.s.hart (fwKey p)
  let r := r.setHart (fwKey p) { h with running := false }
  let r := r.put (.waits (r.s.waits.filter fun w => match w.who with
    | .hart k => k ≠ fwKey p
    | _ => true))
  if recent ≥ 3 && !forced then
    ((r.setFld (fwReg p 4) 31 30 2).when (cause = 1) fun r => r.setFld (fwReg p 0) 31 31 1).errEvent 7
  else
    let r := r.setFld (fwReg p 4) 23 16 cause
    let r := r.put (.fw { r.s.fw with starts := SMap.set [] r.s.fw.starts p (r.s.now :: SMap.get [] r.s.fw.starts p) })
    let r := r.setFld (fwReg p 0) 31 31 1
    let r := r.setFld (fwReg p 4) 31 30 1
    let r := r.setFld (fwReg p 4) 15 0 (min 0xFFFF (r.s.fld (fwReg p 4) 15 0 + 1))
    r.when (cause ≠ 1) fun r => r.errEvent 6

/-- The requests that wait begin in their order, up to the first that restarts its processor (R302). -/
def fwNext (r : Run z) : Nat → Run z
  | 0 => r
  | fuel + 1 =>
    match r.s.fw.queue.find? fun q => fwFree r.s q.p with
    | none => r
    | some q => ((r.put (.fw { r.s.fw with queue := r.s.fw.queue.erase q })).fwBegin q.p q.cause q.forced).fwNext fuel

/-- Ask for a restart of processor p. One restart serves every request made while it runs; the security processor
restarts one processor at a time, in order of request (R302); a HALTED one waits for a Mehryen request (R303). -/
def fwRestart (r : Run z) (p cause : Nat) (forced : Bool := false) : Run z :=
  if p > 4 then r
  else if fwState r.s p = 1 then r
  else if r.s.fw.queue.any (fun q => q.p = p) then
    r.put (.fw { r.s.fw with queue := r.s.fw.queue.map fun q => if q.p = p then { q with forced := q.forced || forced } else q })
  else if fwState r.s p = 3 then r
  else if fwState r.s p = 2 && !forced then r
  else if !fwFree r.s p then
    (r.setFld (fwReg p 0) 31 31 1).put (.fw { r.s.fw with queue := fwEnqueue ⟨p, cause, forced, r.s.now⟩ r.s.fw.queue })
  else r.fwBegin p cause forced

end Run

end Sys2Proof.Machine
end

