-- ==== Sys2Proof/Machine/HartAccess.lean ====
section
/-! DEFINITION. Accesses by harts: the windows of firmware processors (R295, R296), translation, and the exception that
also restarts a firmware processor (R304). -/

namespace Sys2Proof.Machine

/-! ## Windows of a firmware processor (R295, R296) -/

/-- Where the model keeps the private SRAM of firmware processor p: above the 48-bit map, which does not hold it. -/
def sramBase (p : Nat) : Nat := 2 ^ 48 + p * 0x40000

/-- An MPU or Monitor window in the layout of R296: in use, permission of the access, and containment. -/
def windowHolds (w : Nat) (a n : Nat) : Bool :=
  let sz := 2 ^ (bits w 5 0)
  let base := bits w 47 12 * 2 ^ 12
  bit w 63 && decide (base ≤ a) && decide (a + n ≤ base + sz)

/-- The permission bit of an access in a window. -/
def windowAllows (w : Nat) (k : Access) : Bool :=
  match k with
  | .load => bit w 56
  | .store => bit w 57
  | .fetch => bit w 58
  | .atomic => bit w 56 && bit w 57

/-- The Monitor-mode check of R296: private SRAM, the processor's own FWP registers, or a window of FWP_Pp_MWIN. The scheduler also
reaches the per-core windows of its row in R294, which its eight registers have no room for (DESIGN CHOICE, log 134). -/
def fwMonOk (s : State) (p : Nat) (k : Access) (a n : Nat) : Bool :=
  let own := regBase + regKey 4 (0x200 * p)
  (decide (0x017500000000 ≤ a) && decide (a + n ≤ 0x017500040000)) ||
  ([0x004, 0x008, 0x014].any fun o => decide (own + o ≤ a) && decide (a + n ≤ own + o + 4)) ||
  (p = 0 && k ≠ .fetch && decide (regBase + 0x1000000 ≤ a) && decide (a + n ≤ regBase + 0xD000000)) ||
  ((List.range 8).any fun i =>
    let w := s.reg64 (regKey 4 (0x200 * p + 0x100 + 8 * i))
    windowHolds w a n && windowAllows w k)

/-- The User-mode check of R296: the lowest-numbered csr_mpu window that contains the access decides. -/
def fwUserOk (h : Hart) (k : Access) (a n : Nat) : Bool :=
  match ((List.range 16).map fun i => (SMap.get mpuReset h.mpu i).toNat).find? fun w => windowHolds w a n with
  | some w => windowAllows w k
  | none => false

/-- Translate an access of firmware processor p: addresses are physical, private SRAM is its own (R79, R295, R296). -/
def fwLookup (s : State) (p : Nat) (h : Hart) (k : Access) (a n : Nat) : Except XFault Nat :=
  if decide (a + n > 2 ^ 48) || !fwMonOk s p k a n then .error .access
  else if h.mode ≠ .mon && !fwUserOk h k a n then .error .access
  else if 0x017500000000 ≤ a ∧ a < 0x017500040000 then .ok (sramBase p + (a - 0x017500000000))
  else .ok a

/-- A read of private SRAM by firmware processor p meets a word with a parity error (R304). -/
def sramParity (s : State) (p a n : Nat) : Bool :=
  (decide (0x017500000000 ≤ a) && decide (a < 0x017500040000)) &&
    s.fw.parity.any fun w => decide ((sramBase p + (a - 0x017500000000)) / 8 ≤ w.1) &&
      decide (w.1 * 8 < sramBase p + (a - 0x017500000000) + n)

/-- The uncorrectable word behind an exception of a hart: a load, a fetch or an atomic that meets one, or a page walk (R267). A
plain store to one is discarded and raises nothing. -/
def hartUe (s : State) (key : Nat) (h : Hart) (c : Cause) (a : Nat) : Option Nat :=
  let met := fun (k : Access) =>
    if isFw key then (match fwLookup s (key - 0x10) h k a 1 with
      | .ok pa => if s.isUe pa then some pa else none
      | .error _ => none)
    else uePa s h.xctx k a
  match c with
  | .loadAccess => met .load
  | .fetchAccess => met .fetch
  | .storeAccess => met .store
  | _ => none

namespace Run

variable {z : State}

/-- Translate an access of n bytes by a hart: the physical address, with USED and DIRTY set. A load or a store through a mapping
does not reach the parking region or the reflex workspace of a carrel (R252). What is read is corrected (R266). -/
def hartAddr (r : Run z) (key : Nat) (h : Hart) (k : Access) (a n : Nat) : Except XFault (Nat × Run z) :=
  if isFw key then
    match fwLookup r.s (key - 0x10) h k a n with
    | .error f => .error f
    | .ok pa => if k ≠ .store && sramParity r.s (key - 0x10) a n then .error .access else .ok (pa, r.scrubRead k pa n)
  else match (r.scrubWalk h.xctx a).translate h.xctx k a with
    | .error f => .error f
    | .ok (pa, r) => if h.xctx.en && k ≠ .fetch && laneBarred r.s pa then .error .access else .ok (pa, r.scrubRead k pa n)

/-- A hart takes an exception, and an uncorrectable word behind it is counted (R267); a firmware processor's Monitor-mode access fault
or ILLEGAL_INSTR also asks for its restart with CAUSE 0x03, and a parity error of its private SRAM with CAUSE 0x05 (R304). -/
def hartTrap (r : Run z) (key : Nat) (h : Hart) (c : Cause) (tval : Nat) (long : Bool) : Run z :=
  let r := match hartUe r.s key h c tval with
    | some pa => r.countUe pa
    | none => r
  let r := r.setHart key (h.takeException c (BitVec.ofNat 64 tval) long)
  let restart := isFw key && h.mode == .mon &&
    (match c with
      | .illegal | .fetchAccess | .loadAccess | .storeAccess => true
      | _ => false)
  let parity := isFw key && (match c with
    | .fetchAccess | .loadAccess | .storeAccess => sramParity r.s (key - 0x10) tval 8
    | _ => false)
  if parity then r.fwRestart (key - 0x10) 5 else r.when restart fun r => r.fwRestart (key - 0x10) 3

end Run

end Sys2Proof.Machine
end

