-- ==== Sys2Proof/Machine/Flags.lean ====
section
/-! DEFINITION. Conditions and flags: the conditions of CMP (R52), and the sticky flags of csr_fpctl (R54, R155), which
`Hart.addFlags` accumulates. The integer instructions set no flag (R51). -/

namespace Sys2Proof.Machine

/-- The integer conditions of CMP on w-bit operands: EQ 0, NE 1, LT 2, GE 3, LTU 4, GEU 5 (R52). -/
def intCond {w : Nat} (cond : Nat) (a b : BitVec w) : Bool :=
  match cond with
  | 0 => a == b
  | 1 => a != b
  | 2 => a.slt b
  | 3 => !a.slt b
  | 4 => a.ult b
  | _ => !a.ult b

/-- An FP32 condition of CMP (R52). -/
def condIsFp (cond : Nat) : Bool := 8 ≤ cond && cond ≤ 11

/-- The conditions CMP has (R52). -/
def condOk (func : BitVec 6) : Bool := func.toNat ≤ 5 || condIsFp func.toNat

/-- CVT's saturating host conversions and every FP result accumulate their flags in the hart (R54, R155). -/
def Hart.withFp (h : Hart) (d : BitVec 5) (res : W32 × Fp.Flags) : Hart := (h.wf d res.1).addFlags res.2

end Sys2Proof.Machine
end

