-- ==== Sys2Proof/Machine/Operands.lean ====
section
/-! DEFINITION. Issuing an instruction: the fetch check, the encoding checks of R45 to R48, the profile of the agent
(R40), the guard (R47) and the operand forms, once for the host profile and once for the lane profile. Each meaning
gives only what its instruction does. -/

namespace Sys2Proof.Machine

/-- Put a lane's entry into a list that is in the order of a draw. -/
def insertLane {α : Type} (n : Nat) (e : Nat × α) : List (Nat × α) → List (Nat × α)
  | [] => [e]
  | f :: rest => if Config.laneOrder n e.1 ≤ Config.laneOrder n f.1 then e :: f :: rest else f :: insertLane n e rest

/-- The entries of several lanes in the order in which the homes perform them, a free one for each draw (R103). -/
def inLaneOrder {α : Type} (n : Nat) (l : List (Nat × α)) : List (Nat × α) := l.foldr (insertLane n) []

/-- What an instruction of a hart ends in: the hart after it, a stall with nothing changed, or an exception. -/
inductive HEnd where
  | next (h : Hart)
  | stall
  | trap (c : Cause) (tval : Nat)

/-- Where a lane instruction issues: the core and gang, its program counter, the active lanes (R61) and those of them
whose guard holds (R47). -/
structure LCtx where
  core : Nat
  gang : Nat
  pc : Nat
  active : List Nat
  enabled : List Nat

/-- What an instruction of a gang ends in: the gang after it, the gang as the run already holds it, a stall, or the causes its
lanes raise. -/
inductive LEnd where
  | next (g : Gang)
  | set
  | stall
  | fault (fs : List (Nat × Cause × Nat))

/-- Length of an instruction in bytes (R44). -/
def Words.len (w : Words) : Nat := if w.long then 8 else 4

/-- The exception a failed fetch raises, with its address (R38, R77, R95). -/
def fetchCause : XFault → Cause
  | .page => .fetchPage
  | .access => .fetchAccess

/-- The exception a failed load raises. -/
def loadCause : XFault → Cause
  | .page => .loadPage
  | .access => .loadAccess

/-- The exception a failed store raises. -/
def storeCause : XFault → Cause
  | .page => .storePage
  | .access => .storeAccess

/-- The addresses of the words an instruction is fetched from. -/
def Words.at (w : Words) (pc : Nat) : List Nat := if w.long then [pc, pc + 4] else [pc]

/-- Check the fetch of an instruction by a hart (R77): the first word that fails decides. -/
def hartFetch {z : State} (r : Run z) (key : Nat) (h : Hart) : List Nat → Except (Cause × Nat) (Run z)
  | [] => .ok r
  | a :: as =>
    if a % 4 ≠ 0 then .error (.fetchMisaligned, a)
    else match r.hartAddr key h .fetch a 4 with
      | .error f => .error (fetchCause f, a)
      | .ok (pa, r) =>
        if (pa < 2 ^ 48 && !(region pa).isMem) || r.s.isUe pa then .error (.fetchAccess, a) else hartFetch r key h as

/-- Issue an instruction on a hart. `legal` says that the encoding is one the hart's profile has; a guard other than
0b0000 is among what makes it illegal (R47). -/
def hartIssue {z : State} (r : Run z) (key : Nat) (w : Words) (legal : Bool)
    (body : Hart → Run z → Run z × HEnd) : Run z :=
  let h := r.s.hart key
  if !hartExists key || !awake r.s || !h.running || h.snoozing || hartWaits r.s key then r
  else match hartFetch r key h (w.at h.pc.toNat) with
    | .error (c, a) => r.hartTrap key h c a w.long
    | .ok r' =>
      if !legal then r'.hartTrap key h .illegal w.w0.toNat w.long
      else
        match body { h with pc := h.pc + BitVec.ofNat 64 w.len, retired := h.retired + 1 } r' with
        | (r'', .next h') => r''.setHart key h'
        | (_, .stall) => r
        | (_, .trap c tval) => r'.hartTrap key h c tval w.long

/-- Check the fetch of an instruction by a gang under its context (R94, R99). -/
def laneFetch {z : State} (r : Run z) (c : XCtx) : List Nat → Except (Cause × Nat) (Run z)
  | [] => .ok r
  | a :: as =>
    match (r.scrubWalk c a).translate c .fetch a with
    | .error f => .error (fetchCause f, a)
    | .ok (pa, r) => if (region pa).isMem && !r.s.isUe pa then laneFetch (r.scrub pa 4) c as else .error (.fetchAccess, a)

/-- The causes of a gang's lanes as one stop: the lowest-numbered faulting lane decides (R78). Where it met an uncorrectable word,
the parcel ends with MEM_UNCORRECTABLE (R267). -/
def faultLanes {z : State} (r : Run z) (core g pc : Nat) (fs : List (Nat × Cause × Nat)) : Run z :=
  match fs with
  | [] => r
  | f0 :: rest =>
    let low := rest.foldl (fun m f => if f.1 < m.1 then f else m) f0
    let x := match r.s.gang? core g with
      | some x => gangX r.s x
      | none => { en := true, root := 0, mode := .user }
    let ue := match low.2.1 with
      | .loadAccess => uePa r.s x .load low.2.2
      | .fetchAccess => uePa r.s x .fetch low.2.2
      | .storeAccess => uePa r.s x .store low.2.2
      | _ => none
    match ue.filter fun pa => !laneBarred r.s pa with
    | some pa => (r.countUe pa).laneFault core g low.2.1 low.2.2 pc (laneMask (fs.map (·.1))) stUncorrectable
    | none => r.laneFault core g low.2.1 low.2.2 pc (laneMask (fs.map (·.1)))

/-- A gang has issued: CORE_CNT_ISSUE counts it (R483), it is the last to have issued (R89), and it no longer holds back the
gangs that YIELDed to it (R90). -/
def noteIssue {z : State} (r : Run z) (core g : Nat) : Run z :=
  let r := r.setReg64 (coreReg core 0x0C0) (r.s.reg64 (coreReg core 0x0C0) + 1)
  let r := r.setCore core { r.s.core core with quiet := r.s.now, last := g }
  r.each (r.s.gangs.filter fun kg => kg.1 / 128 = core && kg.2.yieldTo.contains g) fun kg r =>
    r.setGang core (kg.1 % 128) (kg.2.yields (kg.2.yieldTo.filter (· ≠ g)) r.s.now)

/-- Issue an instruction for a gang. `regs` are the g registers it names, checked against NREG (R82); `tds` the tensor
descriptors, checked against NTD. An exception leaves every thread as it was (R78). -/
def laneIssue {z : State} (r : Run z) (core g : Nat) (w : Words) (legal : Bool) (guard : BitVec 4)
    (regs tds : List Nat) (body : LCtx → Gang → Run z → Run z × LEnd) : Run z :=
  match r.s.gang? core g with
  | none => r
  | some x =>
    if !gangReady r.s core g || !issueTurn r.s core g then r
    else
      let active := x.active
      let pc := (x.minPc).getD 0
      match laneFetch r (gangX r.s x) (w.at pc) with
      | .error (c, a) => faultLanes r core g pc (active.map fun l => (l, c, a))
      | .ok r' =>
        if !legal || regs.any (· ≥ x.nreg) || tds.any (· ≥ x.ntd) then
          faultLanes r core g pc (active.map fun l => (l, .illegal, w.w0.toNat))
        else
          let enabled := active.filter fun l => (x.thread l).guardOk guard
          let x' := x.mapLanes active fun _ t => { t with pc := BitVec.ofNat 48 (pc + w.len) }
          match body ⟨core, g, pc, active, enabled⟩ x' r' with
          | (r'', .next y) => noteIssue (r''.setGang core g y) core g
          | (r'', .set) => noteIssue r'' core g
          | (_, .stall) => r
          | (_, .fault fs) => faultLanes r core g pc fs

/-- Which profiles have an instruction (R49). -/
inductive Prof where
  | both | host | lane
  deriving DecidableEq, Repr

/-- The words of an instruction command; the words of a command that is no instruction are not asked for. -/
def wordsOf (i : Instr) : Words := ((instrWords i).map (·.2)).getD { w0 := 0 }

/-- Issue an instruction that only computes: on a hart as a change of the hart or an exception, in a gang as a change
of each enabled thread. `legal` concerns the encoding in both profiles; `regs` the lane registers named. -/
def compute {z : State} (r : Run z) (i : Instr) (ag : Agent) (prof : Prof) (legal : Bool) (guard : BitVec 4)
    (regs : List Nat) (onHart : Bool → Hart → HEnd) (onLane : Nat → Thread → Thread) : Run z :=
  let w := wordsOf i
  match ag with
  | .host n => hartIssue r (hostKey n) w (legal && prof ≠ .lane && guard = 0) fun h r => (r, onHart false h)
  | .fw p => hartIssue r (fwKey p) w (legal && prof ≠ .lane && guard = 0) fun h r => (r, onHart true h)
  | .lane c g =>
    laneIssue r c g w (legal && prof ≠ .host) guard regs [] fun cx x r =>
      (r, .next (x.mapLanes cx.enabled onLane))

/-- Whether a lane register pair may be named: an even number (R42). -/
def pairOk (n : BitVec 5) : Bool := n.toNat % 2 = 0

/-- The two registers of a pair. -/
def pairRegs (n : BitVec 5) : List Nat := [n.toNat, n.toNat + 1]

end Sys2Proof.Machine
end

