-- ==== Sys2Proof/Machine/Tally.lean ====
section
/-! DEFINITION. The tally instructions (R109 to R113) and the end of a wait by its deadline (R110). -/

namespace Sys2Proof.Machine

/-! ## The TALLY group, major 0x28 (R109) -/

/-- The tally instruction of a lane or hart: handle, then its operation at the home. The old value or status comes
back, or none for a TWAIT that is left pending. -/
inductive TallyAct where
  | sig (v : W32)
  | add (v : W32)
  | read
  | wait (who : Waiter) (threshold : W32) (deadline : W64) (dest : Nat)

/-- Perform a tally operation at the home of tally i (R109 to R111). -/
def tallyAct {z : State} (r : Run z) (i : Nat) : TallyAct → Option Nat × Run z
  | .sig v => (some (r.s.tally i).value.toNat, r.tsigAt i v)
  | .add v => (some (r.s.tally i).value.toNat, r.taddAt i v)
  | .read => (some (r.s.tally i).value.toNat, r)
  | .wait who th dl dest =>
    if th.toNat ≤ (r.s.tally i).value.toNat then (some stOk, r)
    else if r.s.timeAt (tbHome i) > dl.toNat then (some stTimeout, r)
    else (none, r.put (.waits (r.s.waits ++ [⟨who, i, th, dl, dest⟩])))

/-- The four tally instructions on a hart. A TWAIT left pending stalls the hart at the instruction (R113). A value, increment or
threshold is the low 32 bits of the hart's register, as the handle is (DESIGN CHOICE, log 40). -/
def tallyHart {z : State} (r : Run z) (key : Nat) (w : Words) (legal : Bool) (f : R3) (cause : Cause)
    (act : Hart → TallyAct) : Run z :=
  let h := r.s.hart key
  let hd := (h.rg f.a).toNat % 2 ^ 32
  hartIssue r key w legal fun h' r' =>
    match tallyOf r'.s hd with
    | none => (r', .trap cause hd)
    | some i =>
      match tallyAct r' i (act h) with
      | (some v, r2) => (r2, .next (h'.wg f.d (BitVec.ofNat 64 v)))
      | (none, r2) => (r2, .next h)

/-- One enabled thread of a gang performs its tally operation; a thread whose handle is stale acts on nothing and is noted. -/
def tallyLane {z : State} (c g : Nat) (f : R3) (act : Nat → Thread → TallyAct) (p : Run z × List (Nat × Nat)) (lane : Nat) :
    Run z × List (Nat × Nat) :=
  match p.1.s.gang? c g with
  | none => p
  | some y =>
    let t := y.thread lane
    let hd := (t.rg f.a.toNat).toNat
    match tallyOf p.1.s hd with
    | none => (p.1, p.2 ++ [(lane, hd)])
    | some i =>
      match tallyAct p.1 i (act lane t) with
      | (some v, r2) =>
        match r2.s.gang? c g with
        | none => (r2, p.2)
        | some y2 =>
          (r2.setGang c g (y2.setThread lane ((y2.thread lane).wg f.d.toNat (BitVec.ofNat 32 v))), p.2)
      | (none, r2) =>
        match r2.s.gang? c g with
        | none => (r2, p.2)
        | some y2 => (r2.setGang c g { y2 with blockedAt := some r2.s.now }, p.2)

/-- The noted lanes of a gang, lowest first. -/
def lanesRising (lanes : List Nat) (noted : List (Nat × Nat)) : List (Nat × Nat) :=
  lanes.filterMap fun l => noted.find? fun e => e.1 = l

/-- The four tally instructions in a gang: one thread after the other, in an order that no rule gives (R103). Threads whose handle
is stale act on nothing; the gang then stops under R519 with their mask. -/
def tallyLanes {z : State} (r : Run z) (c g : Nat) (w : Words) (legal : Bool) (f : R3) (regs : List Nat)
    (cause : Cause) (act : Nat → Thread → TallyAct) : Run z :=
  match r.s.gang? c g with
  | none => r
  | some _ =>
    laneIssue r c g w legal f.guard regs [] fun cx x r =>
      let order := (inLaneOrder r.s.free (cx.enabled.map fun l => (l, ()))).map (·.1)
      let p := order.foldl (tallyLane c g f act) ((r.put .draw).setGang c g x, [])
      match lanesRising cx.enabled p.2 with
      | [] => (p.1, .next ((p.1.s.gang? c g).getD x))
      | (lane, hd) :: rest =>
        let r := p.1.laneFault c g cause hd cx.pc (laneMask (lane :: rest.map (·.1))) stLaneFault
          (some (p.1.s.core c).nextSeq)
        (r, .next ((r.s.gang? c g).getD x))

/-- A scope code that exists: 0 to 5 (R59). -/
def scopeOk (sc : BitVec 3) : Bool := sc.toNat ≤ 5

/-- TWAIT: threshold in gD, deadline in gB or the pair gB:gB+1 (R109 to R113). -/
def execTwait (ag : Agent) (scope : BitVec 3) (f : R3) (s : State) : Host.Outcome State Fault Refusal :=
  let w := wordsOf (.twait ag scope f)
  let r := Run.start s
  match ag with
  | .host n => done <| tallyHart r (hostKey n) w (scopeOk scope && f.guard = 0) f .loadAccess
      fun h => .wait (.hart n) ((h.rg f.d).truncate 32) (h.rg f.b) f.d.toNat
  | .fw p => done <| tallyHart r (fwKey p) w (scopeOk scope && f.guard = 0) f .loadAccess
      fun h => .wait (.hart (fwKey p)) ((h.rg f.d).truncate 32) (h.rg f.b) f.d.toNat
  | .lane c g => done <| tallyLanes r c g w (scopeOk scope && pairOk f.b) f
      ([f.d.toNat, f.a.toNat] ++ pairRegs f.b) .loadAccess
      fun lane t => .wait (.thread c g lane) (t.rg f.d.toNat) (BitVec.ofNat 64 (t.rgPair f.b.toNat)) f.d.toNat

/-- TREAD; B is unused and must be 0 (R109, R46). -/
def execTread (ag : Agent) (scope : BitVec 3) (f : R3) (s : State) : Host.Outcome State Fault Refusal :=
  let w := wordsOf (.tread ag scope f)
  let r := Run.start s
  match ag with
  | .host n => done <| tallyHart r (hostKey n) w (scopeOk scope && f.b = 0 && f.guard = 0) f .loadAccess
      fun _ => .read
  | .fw p => done <| tallyHart r (fwKey p) w (scopeOk scope && f.b = 0 && f.guard = 0) f .loadAccess fun _ => .read
  | .lane c g => done <| tallyLanes r c g w (scopeOk scope && f.b = 0) f [f.d.toNat, f.a.toNat] .loadAccess
      fun _ _ => .read

/-- TWAIT_TIMEOUT: the home's fabric time has passed a wait's deadline, and the wait ends TIMEOUT (R110). -/
def execTwaitTimeout (ag : Agent) (lane : Nat) (s : State) : Host.Outcome State Fault Refusal :=
  let r := Run.start s
  let who : Waiter := match ag with
    | .host n => .hart n
    | .fw p => .hart (fwKey p)
    | .lane c g => .thread c g lane
  done <| r.each (s.waits.filter fun w => w.who = who && decide (w.deadline.toNat < s.timeAt (tbHome w.tally))) fun w r =>
    r.endWait w stTimeout

end Sys2Proof.Machine
end

