-- ==== Sys2Proof/Machine/Control.lean ====
section
/-! DEFINITION. Control and gang execution: branches (R61, R62), the SYS group (R63, R73), YIELD (R90), RDS (R64), the
control-register instructions (R75, R76) and interrupts (R74). -/

namespace Sys2Proof.Machine

/-- Branch each enabled lane of a gang to a target of its own; a target outside the 4 GiB region of the program counter
raises FETCH_ACCESS (R62). -/
def laneBranch {z : State} (r : Run z) (cx : LCtx) (x : Gang) (target : Nat → Thread → Int)
    (link : Thread → Thread) : Run z × LEnd :=
  let out := cx.enabled.filter fun l =>
    let t := target l (x.thread l)
    decide (t < 0) || t.toNat / 2 ^ 32 ≠ cx.pc / 2 ^ 32
  if out.isEmpty then
    (r, .next (x.mapLanes cx.enabled fun l t => { link t with pc := BitVec.ofInt 48 (target l t) }))
  else (r, .fault (out.map fun l => (l, .fetchAccess, (target l (x.thread l) % 2 ^ 48).toNat)))

/-- The byte offset of a B32 branch (R62). -/
def branchOffset (off : BitVec 21) : Int := off.toInt * 4

/-- BRA and CALL on a hart; CALL first writes the return address to g31 (R62). -/
def branchHart {z : State} (r : Run z) (key : Nat) (w : Words) (legal : Bool) (off : Int) (link : Bool) : Run z :=
  let pc := (r.s.hart key).pc
  hartIssue r key w legal fun h r =>
    let h := if link then h.wg 31 (pc + 4) else h
    (r, .next { h with pc := pc + BitVec.ofInt 64 off })

/-- BRA and CALL in a gang. -/
def branchLanes {z : State} (r : Run z) (c g : Nat) (w : Words) (legal : Bool) (guard : BitVec 4) (off : Int)
    (link : Bool) : Run z :=
  laneIssue r c g w legal guard (if link then [31] else []) [] fun cx x r =>
    laneBranch r cx x (fun _ _ => (cx.pc : Int) + off)
      (fun t => if link then t.wg 31 (BitVec.ofNat 32 (cx.pc + 4)) else t)

/-- BRA (R62). -/
def execBra (ag : Agent) (f : B3) (s : State) : Host.Outcome State Fault Refusal :=
  let w := wordsOf (.bra ag f)
  let r := Run.start s
  match ag with
  | .host n => done <| branchHart r (hostKey n) w (f.guard = 0) (branchOffset f.off) false
  | .fw p => done <| branchHart r (fwKey p) w (decide (f.guard = 0)) (branchOffset f.off) false
  | .lane c g => done <| branchLanes r c g w true f.guard (branchOffset f.off) false

/-- CALL (R62); a kernel with NREG below 32 cannot name g31 (R82). -/
def execCall (ag : Agent) (f : B3) (s : State) : Host.Outcome State Fault Refusal :=
  let w := wordsOf (.call ag f)
  let r := Run.start s
  match ag with
  | .host n => done <| branchHart r (hostKey n) w (f.guard = 0) (branchOffset f.off) true
  | .fw p => done <| branchHart r (fwKey p) w (decide (f.guard = 0)) (branchOffset f.off) true
  | .lane c g => done <| branchLanes r c g w true f.guard (branchOffset f.off) true

/-- BRAL: an imm32 that is no multiple of 4 is illegal (R62). -/
def execBral (ag : Agent) (f : X3) (s : State) : Host.Outcome State Fault Refusal :=
  let w := wordsOf (.bral ag f)
  let legal := f.d = 0 && f.a = 0 && f.b = 0 && f.func = 0 && f.imm.toNat % 4 = 0
  let r := Run.start s
  match ag with
  | .host n => done <| branchHart r (hostKey n) w (legal && f.guard = 0) f.imm.toInt false
  | .fw p => done <| branchHart r (fwKey p) w (legal && f.guard = 0) f.imm.toInt false
  | .lane c g => done <| branchLanes r c g w legal f.guard f.imm.toInt false

/-- JR on a hart: to gA as read at issue, bits 1:0 ignored, linking in gD (R62). -/
def jrHart {z : State} (r : Run z) (key : Nat) (w : Words) (legal : Bool) (f : R3) : Run z :=
  let pc := (r.s.hart key).pc
  hartIssue r key w legal fun h r =>
    let target := h.rg f.a &&& ~~~3#64
    (r, .next { h.wg f.d (pc + 4) with pc := target })

/-- JR (R62): a lane takes bits 47:32 of the target from its program counter. -/
def execJr (ag : Agent) (f : R3) (s : State) : Host.Outcome State Fault Refusal :=
  let w := wordsOf (.jr ag f)
  let r := Run.start s
  match ag with
  | .host n => done <| jrHart r (hostKey n) w (f.b = 0 && f.guard = 0) f
  | .fw p => done <| jrHart r (fwKey p) w (f.b = 0 && f.guard = 0) f
  | .lane c g => done <| laneIssue r c g w (decide (f.b = 0)) f.guard [f.d.toNat, f.a.toNat] [] fun cx x r =>
      (r, .next (x.mapLanes cx.enabled fun _ t =>
        let target := cx.pc / 2 ^ 32 * 2 ^ 32 + (t.rg f.a.toNat).toNat / 4 * 4
        { t.wg f.d.toNat (BitVec.ofNat 32 (cx.pc + 4)) with pc := BitVec.ofNat 48 target }))

/-! ## The SYS group (R63) -/

/-- The unused fields of a SYS instruction are 0 (R46). -/
def sysOk (f : R3) : Bool := f.d = 0 && f.a = 0 && f.b = 0

/-- NOP (R63). -/
def execNop (ag : Agent) (f : R3) (s : State) : Host.Outcome State Fault Refusal :=
  done <| compute (Run.start s) (.nop ag f) ag .both (sysOk f) f.guard [] (fun _ h => .next h) (fun _ t => t)

/-- Release a BAR that every thread that has not exited has reached (R63). -/
def barRelease (x : Gang) : Gang :=
  let waiting := x.lanes.filter fun p => !p.2.exited
  match waiting with
  | [] => x
  | p :: _ =>
    if waiting.all fun q => q.2.atBar && q.2.pc = p.2.pc then
      { x.mapLanes (waiting.map (·.1)) (fun _ t => { t with atBar := false, pc := t.pc + 4 }) with blockedAt := none }
    else x

/-- EXIT: the thread ends (R63). A gang whose threads have all exited stays until GANG_RETIRE (R84). -/
def execExit (ag : Agent) (f : R3) (s : State) : Host.Outcome State Fault Refusal :=
  let w := wordsOf (.exit ag f)
  let r := Run.start s
  match ag with
  | .host n => done <| hartIssue r (hostKey n) w false fun h r => (r, .next h)
  | .fw p => done <| hartIssue r (fwKey p) w false fun h r => (r, .next h)
  | .lane c g => done <| laneIssue r c g w (sysOk f) f.guard [] [] fun cx x r =>
      (r, .next (barRelease (x.mapLanes cx.enabled fun _ t => { t with exited := true })))

/-- BAR: the thread waits until every thread of its gang that has not exited is at this BAR (R63). -/
def execBar (ag : Agent) (f : R3) (s : State) : Host.Outcome State Fault Refusal :=
  let w := wordsOf (.bar ag f)
  let r := Run.start s
  match ag with
  | .host n => done <| hartIssue r (hostKey n) w false fun h r => (r, .next h)
  | .fw p => done <| hartIssue r (fwKey p) w false fun h r => (r, .next h)
  | .lane c g => done <| laneIssue r c g w (sysOk f) f.guard [] [] fun cx x r =>
      let x := x.mapLanes cx.enabled fun _ t => { t with atBar := true, pc := BitVec.ofNat 48 cx.pc }
      let x := if x.runnable.isEmpty then { x with blockedAt := some r.s.now } else x
      (r, .next (barRelease x))

/-- YIELD: the gang is not ready until every other gang that was ready has issued once; with no other ready gang it has
no effect on issue (R90). -/
def execYield (ag : Agent) (f : R3) (s : State) : Host.Outcome State Fault Refusal :=
  let w := wordsOf (.yield ag f)
  let r := Run.start s
  match ag with
  | .host n => done <| hartIssue r (hostKey n) w false fun h r => (r, .next h)
  | .fw p => done <| hartIssue r (fwKey p) w false fun h r => (r, .next h)
  | .lane c g => done <| laneIssue r c g w (sysOk f) f.guard [] [] fun cx x r =>
      let others := (List.range 128).filter fun o => o ≠ g && gangReady s c o
      if cx.enabled.isEmpty || others.isEmpty then (r, .next x)
      else (r, .next { x with yieldTo := others, blockedAt := some r.s.now })

/-- YIELD_EXPIRY: a gang set aside by YIELD is ready again once 64 ARITH cycles have passed (R90). -/
def execYieldExpiry (core gang : Nat) (s : State) : Host.Outcome State Fault Refusal :=
  let r := Run.start s
  match s.gang? core gang with
  | none => done r
  | some x =>
    match x.blockedAt with
    | some t =>
      if !x.yieldTo.isEmpty && decide (s.now ≥ t + arithNs s core 64) then
        done (r.setGang core gang (x.yields [] s.now))
      else done r
    | none => done r

/-- UPCALL raises the cause of the mode it executes in (R63). -/
def execUpcall (ag : Agent) (f : R3) (s : State) : Host.Outcome State Fault Refusal :=
  done <| compute (Run.start s) (.upcall ag f) ag .host (sysOk f) f.guard []
    (fun _ h => .trap (match h.mode with | .user => .upcallU | .sup => .upcallS | .mon => .upcallM) 0)
    (fun _ t => t)

/-- BREAK raises BREAKPOINT with the address of the instruction (R63, R77). -/
def execBrk (ag : Agent) (f : R3) (s : State) : Host.Outcome State Fault Refusal :=
  let w := wordsOf (.brk ag f)
  let r := Run.start s
  match ag with
  | .host n => done <| hartIssue r (hostKey n) w (sysOk f && f.guard = 0) fun _ r =>
      (r, .trap .breakpoint (s.hart n).pc.toNat)
  | .fw p => done <| hartIssue r (fwKey p) w (sysOk f && f.guard = 0) fun _ r =>
      (r, .trap .breakpoint (s.hart (fwKey p)).pc.toNat)
  | .lane c g => done <| laneIssue r c g w (sysOk f) f.guard [] [] fun cx x r =>
      if cx.enabled.isEmpty then (r, .next x)
      else (r, .fault (cx.enabled.map fun l => (l, .breakpoint, cx.pc)))

/-- TRET: return to the mode in FROM with IE from PRIOR_IE; PRIVILEGED in User mode, and when FROM names a mode above
(R63, R73). -/
def execTret (ag : Agent) (f : R3) (s : State) : Host.Outcome State Fault Refusal :=
  done <| compute (Run.start s) (.tret ag f) ag .host (sysOk f) f.guard []
    (fun _ h =>
      let w0 := (wordsOf (.tret ag f)).w0.toNat
      if h.mode = .user then .trap .privileged w0
      else match h.trapReturn with
        | some h' => .next h'
        | none => .trap .privileged w0)
    (fun _ t => t)

/-- SNOOZE: the hart stalls until an interrupt is pending, enabled or not; PRIVILEGED in User mode (R63). -/
def execSnooze (ag : Agent) (f : R3) (s : State) : Host.Outcome State Fault Refusal :=
  done <| compute (Run.start s) (.snooze ag f) ag .host (sysOk f) f.guard []
    (fun _ h =>
      if h.mode = .user then .trap .privileged (wordsOf (.snooze ag f)).w0.toNat
      else .next { h with snoozing := !([1, 2, 3, 4].any (irqPending s h)) })
    (fun _ t => t)

/-- IFLUSH orders this core's fetches after its stores; in one order of accesses that holds already (R63, R79). -/
def execIflush (ag : Agent) (f : R3) (s : State) : Host.Outcome State Fault Refusal :=
  done <| compute (Run.start s) (.iflush ag f) ag .host (sysOk f) f.guard [] (fun _ h => .next h) (fun _ t => t)

/-! ## Specials and control registers (R64, R75, R76) -/

/-- The special that RDS reads in a lane, and the thread with its latched high time (R64). -/
def rdsValue (s : State) (core gang lane sel : Nat) (t : Thread) : Nat × Thread :=
  match sel with
  | 0 => (64 * gang + lane, t)
  | 1 => (gang, t)
  | 2 => (lane, t)
  | 3 => (logicalOf s core, t)
  | 4 => (core / 12, t)
  | 5 => (s.timeAt (tbCore core), { t with ftHi := BitVec.ofNat 32 (s.timeAt (tbCore core) / 2 ^ 32) })
  | _ => (t.ftHi.toNat, t)

/-- RDS, lane profile only; selectors above 6 are illegal (R64). -/
def execRds (ag : Agent) (f : I3) (s : State) : Host.Outcome State Fault Refusal :=
  let w := wordsOf (.rds ag f)
  let r := Run.start s
  match ag with
  | .host n => done <| hartIssue r (hostKey n) w false fun h r => (r, .next h)
  | .fw p => done <| hartIssue r (fwKey p) w false fun h r => (r, .next h)
  | .lane c g => done <| laneIssue r c g w (f.a = 0 && f.imm.toNat ≤ 6) f.guard [f.d.toNat] [] fun cx x r =>
      (r, .next (x.mapLanes cx.enabled fun l t =>
        let (v, t) := rdsValue s c g l f.imm.toNat t
        t.wg f.d.toNat (BitVec.ofNat 32 v)))

/-- A host control register as R75 lists it: the lowest mode that reaches it, whether it is read-only, and whether only
firmware processors or only harts with a Supervisor mode have it. -/
structure Csr where
  mode : Mode
  ro : Bool := false
  fwOnly : Bool := false

/-- The host-profile control registers (R75). -/
def csrOf (n : Nat) : Option Csr :=
  if n = 0x040 then some ⟨.user, false, false⟩
  else if 0x048 ≤ n ∧ n ≤ 0x04B then some ⟨.user, true, false⟩
  else if n = 0x100 ∨ (0x108 ≤ n ∧ n ≤ 0x10C) ∨ n = 0x110 ∨ n = 0x111 ∨ n = 0x118 ∨ n = 0x119 ∨ n = 0x120 then
    some ⟨.sup, false, false⟩
  else if n = 0x300 ∨ (0x308 ≤ n ∧ n ≤ 0x30C) then some ⟨.mon, false, false⟩
  else if 0x320 ≤ n ∧ n ≤ 0x32F then some ⟨.mon, false, true⟩
  else none

/-- csr_status as it reads (R75). -/
def statusWord (h : Hart) : Nat :=
  h.mode.code * 2 ^ 14 + b2n h.fpen * 2 ^ 9 + b2n h.uacc * 2 ^ 8 + b2n h.ieM * 2 + b2n h.ieS

/-- csr_irqpend as it reads (R74, R75). -/
def irqpendWord (s : State) (h : Hart) : Nat :=
  [1, 2, 3, 4].foldl (fun m n => m + b2n (irqPending s h n) * 2 ^ n) 0

/-- The value a control register reads as; a write-only one reads 0 (R75). `h` counts the reading instruction. -/
def csrRead (s : State) (key : Nat) (h : Hart) (n : Nat) : W64 :=
  match n with
  | 0x040 => h.fpctl
  | 0x048 => Config.hostCycles s.free
  | 0x049 => h.retired - 1
  | 0x04A => BitVec.ofNat 64 (s.timeAt (if key < 8 then tbHcx else tbFw))
  | 0x04B => BitVec.ofNat 64 key
  | 0x100 => BitVec.ofNat 64 (statusWord h)
  | 0x108 => h.trapS.base
  | 0x109 => h.trapS.ret
  | 0x10A => h.trapS.info
  | 0x10B => h.trapS.data
  | 0x10C => h.trapS.stash
  | 0x110 => h.irqen
  | 0x111 => BitVec.ofNat 64 (irqpendWord s h)
  | 0x118 => h.troot
  | 0x120 => h.alarm
  | 0x300 => h.route
  | 0x308 => h.trapM.base
  | 0x309 => h.trapM.ret
  | 0x30A => h.trapM.info
  | 0x30B => h.trapM.data
  | 0x30C => h.trapM.stash
  | _ => if 0x320 ≤ n ∧ n ≤ 0x32F then SMap.get mpuReset h.mpu (n - 0x320) else 0

/-- A csr_trapinfo value without its reserved bits, or none when FROM does not occur (R75). On a firmware processor FROM cannot
be Supervisor either, a mode it does not have (R79; DEDUCED, log 118). -/
def trapinfoWrite (fw mon : Bool) (v : W64) : Option W64 :=
  let from_ := bits v.toNat 23 22
  if from_ = 2 || (!mon && from_ = 3) || (fw && from_ = 1) then none
  else some (v &&& 0x8000000000F007FF#64)

/-- A csr_route value without its reserved bits, or none when a route does not occur (R75, R79). -/
def routeWrite (fw : Bool) (v : W64) : Option W64 :=
  let v := v &&& 0x3FCFFFF#64
  let routes := (List.range 13).map fun k => bits v.toNat (2 * k + 1) (2 * k)
  if routes.any (· = 3) || bits v.toNat 15 14 ≠ 0 || (fw && routes.any (· ≠ 0)) then none else some v

/-- A csr_mpu value, or none when SZLOG2 does not occur or BASE is misaligned to it (R296). -/
def mpuWrite (v : W64) : Option W64 :=
  let sz := bits v.toNat 5 0
  if sz < 12 || sz > 47 || !windowAligned v.toNat then none else some (v &&& 0x8700FFFFFFFFF03F#64)

/-- The hart after a write of a control register; a value that does not occur makes the whole write ignored (R75). -/
def csrWrite (key : Nat) (h : Hart) (n : Nat) (v : W64) : Hart :=
  let sup := h.mode = .sup
  let n64 := v.toNat
  match n with
  | 0x040 => { h with fpctl := v &&& 0xFB#64 }
  | 0x100 =>
    { h with
      fpen := bit n64 9 && !isFw key
      uacc := bit n64 8
      ieM := if sup then h.ieM else bit n64 1
      ieS := bit n64 0 }
  | 0x108 => { h with trapS := { h.trapS with base := v &&& ~~~0x3FF#64 } }
  | 0x109 => { h with trapS := { h.trapS with ret := v } }
  | 0x10A => match trapinfoWrite (isFw key) false v with
    | some x => { h with trapS := { h.trapS with info := x } }
    | none => h
  | 0x10B => { h with trapS := { h.trapS with data := v } }
  | 0x10C => { h with trapS := { h.trapS with stash := v } }
  | 0x110 =>
    let mask := [1, 2, 3, 4].foldl (fun m i => if sup && irqTarget h i == .mon then m else m + 2 ^ i) 0
    let m64 := BitVec.ofNat 64 mask
    { h with irqen := (h.irqen &&& ~~~m64) ||| (v &&& m64) }
  | 0x111 => { h with softIrq := bit n64 2 }
  | 0x118 => { h with troot := v &&& 0xFFFFFFFFFFFFF001#64 }
  | 0x120 => { h with alarm := v }
  | 0x300 => match routeWrite (isFw key) v with
    | some x => { h with route := x }
    | none => h
  | 0x308 => { h with trapM := { h.trapM with base := v &&& ~~~0x3FF#64 } }
  | 0x309 => { h with trapM := { h.trapM with ret := v } }
  | 0x30A => match trapinfoWrite (isFw key) true v with
    | some x => { h with trapM := { h.trapM with info := x } }
    | none => h
  | 0x30B => { h with trapM := { h.trapM with data := v } }
  | 0x30C => { h with trapM := { h.trapM with stash := v } }
  | _ =>
    if 0x320 ≤ n ∧ n ≤ 0x32F then
      match mpuWrite v with
      | some x => { h with mpu := SMap.set mpuReset h.mpu (n - 0x320) x }
      | none => h
    else h

/-- The exception an access to a control register raises, if any: ILLEGAL_INSTR for a register the hart lacks or a write
of a read-only one, PRIVILEGED from too low a mode (R75, R79). -/
def csrCheck (key : Nat) (h : Hart) (n : Nat) (write : Bool) : Option Cause :=
  match csrOf n with
  | none => some .illegal
  | some c =>
    if (c.ro && write) || (c.fwOnly && !isFw key) || (isFw key && c.mode = .sup) then some .illegal
    else if h.mode.rank < c.mode.rank then some .privileged
    else none

/-- A control-register instruction: read the register, write what `next` makes of its previous value, if anything, and
place the previous value in gD (R75). -/
def csrInstr {z : State} (r : Run z) (key : Nat) (w : Words) (legal : Bool) (n : Nat) (d : BitVec 5)
    (next : Hart → W64 → Option W64) (write : Bool) : Run z :=
  hartIssue r key w legal fun h r =>
    match csrCheck key h n write with
    | some c => (r, .trap c w.w0.toNat)
    | none =>
      let old := csrRead r.s key h n
      let h' := match next h old with
        | some v => csrWrite key h n v
        | none => h
      let r := if n = 0x048 then r.put .draw else r
      (r, .next (h'.wg d old))

/-- The hart key of an agent of the host profile; none for a gang. -/
def hartOf : Agent → Option Nat
  | .host n => if n < 8 then some n else none
  | .fw p => if p < 5 then some (fwKey p) else none
  | .lane .. => none

/-- An instruction of the host profile alone: a hart runs it, a gang takes ILLEGAL_INSTR (R40). -/
def hostOnly {z : State} (r : Run z) (ag : Agent) (w : Words) (onHart : Nat → Run z → Run z) : Run z :=
  match ag with
  | .lane c g => laneIssue r c g w false 0 [] [] fun _ x r => (r, .next x)
  | _ => match hartOf ag with
    | some k => onHart k r
    | none => r

/-- CRD; A must be 0 (R75). -/
def execCrd (ag : Agent) (f : I3) (s : State) : Host.Outcome State Fault Refusal :=
  let w := wordsOf (.crd ag f)
  done <| hostOnly (Run.start s) ag w fun k r =>
    csrInstr r k w (f.a = 0 && f.guard = 0) f.imm.toNat f.d (fun _ _ => none) false

/-- CWR (R75). -/
def execCwr (ag : Agent) (f : I3) (s : State) : Host.Outcome State Fault Refusal :=
  let w := wordsOf (.cwr ag f)
  done <| hostOnly (Run.start s) ag w fun k r =>
    csrInstr r k w (decide (f.guard = 0)) f.imm.toNat f.d (fun h _ => some (h.rg f.a)) true

/-- CMSK: only the bits set in gB change (R75). -/
def execCmsk (ag : Agent) (f : X3) (s : State) : Host.Outcome State Fault Refusal :=
  let w := wordsOf (.cmsk ag f)
  done <| hostOnly (Run.start s) ag w fun k r =>
    csrInstr r k w (bits f.imm.toNat 31 11 = 0 && f.guard = 0 && f.func = 0) (bits f.imm.toNat 10 0) f.d
      (fun h old => some ((old &&& ~~~h.rg f.b) ||| (h.rg f.a &&& h.rg f.b))) true

/-! ## Interrupts (R74) -/

/-- TIMER_INTERRUPT_PENDING: fabric time has reached csr_alarm, and a hart stalled by SNOOZE goes on (R63, R74). -/
def execTimerInterruptPending (ag : Agent) (s : State) : Host.Outcome State Fault Refusal :=
  let r := Run.start s
  match hartOf ag with
  | some k => if timerPending s (s.hart k) then done (r.wake k) else done r
  | none => done r

/-- INTERRUPT_TAKE: the interrupt R74 chooses is taken at an instruction boundary, or during a TWAIT, which then executes
again after TRET (R73, R74, R113). -/
def execInterruptTake (ag : Agent) (s : State) : Host.Outcome State Fault Refusal :=
  let r := Run.start s
  match hartOf ag with
  | none => done r
  | some k =>
    let h := s.hart k
    if !h.running then done r
    else match irqChoice s h with
      | none => done r
      | some n =>
        let r := r.put (.waits (s.waits.filter fun w => !(w.who = .hart k)))
        done (r.setHart k { h.trapTo (irqTarget h n) true n 0 h.pc 0 false with snoozing := false })

/-- ILLEGAL_INSTR: the agent fetches words that spell no instruction (R45). Words that do spell one are the business of
that instruction's own command. -/
def execIllegalInstr (ag : Agent) (w0 w1 : W32) (s : State) : Host.Outcome State Fault Refusal :=
  let w : Words := { w0 := w0, w1 := w1, long := w0.getLsbD 31 }
  let r := Run.start s
  if (isaDecode ag 0 w0 w1).isSome then done r
  else match ag with
    | .lane c g => done <| laneIssue r c g w false 0 [] [] fun _ x r => (r, .next x)
    | _ => match hartOf ag with
      | some k => done <| hartIssue r k w false fun h r => (r, .next h)
      | none => done r

end Sys2Proof.Machine
end

