-- ==== Sys2Proof/Machine/Xlane.lean ====
section
/-! DEFINITION. Cross-lane operations (R65, R66): they act on the active threads of one gang whose guard holds, and write
their result to each of those threads. -/

namespace Sys2Proof.Machine

/-- An XLANE instruction: `write` gives each acting thread its result from the gang as it stood. -/
def xlaneGroup (i : Instr) (ag : Agent) (legal : Bool) (guard : BitVec 4) (regs : List Nat)
    (write : LCtx → Gang → Nat → Thread → Thread) (s : State) : Host.Outcome State Fault Refusal :=
  let w := wordsOf i
  let r := Run.start s
  match ag with
  | .lane c g => done <| laneIssue r c g w legal guard regs [] fun cx x r =>
      (r, .next (x.mapLanes cx.enabled (write cx x)))
  | _ => match hartOf ag with
    | some k => done <| hartIssue r k w false fun h r => (r, .next h)
    | none => done r

/-- gA of each acting lane. -/
def laneVals (cx : LCtx) (x : Gang) (a : BitVec 5) : List W32 := cx.enabled.map fun l => (x.thread l).rg a.toNat

/-- Fold the values of the acting lanes with an operation, from the first of them. -/
def foldVals (op : W32 → W32 → W32) : List W32 → W32
  | [] => 0
  | v :: vs => vs.foldl op v

/-- Add neighbouring pairs of a list, each sum rounded to nearest-even (R66). -/
def pairSums : List W32 → List W32
  | a :: b :: rest => (Fp.fadd .nearest a b).1 :: pairSums rest
  | l => l

/-- The fixed six-level tree of R66 over 64 values. -/
def treeSum (vs : List W32) : W32 :=
  (pairSums (pairSums (pairSums (pairSums (pairSums (pairSums vs)))))).headD 0

/-- SHFL: gA of lane gB mod 64, whatever that lane's state (R65). -/
def execShfl (ag : Agent) (f : R3) (s : State) : Host.Outcome State Fault Refusal :=
  xlaneGroup (.shfl ag f) ag true f.guard [f.d.toNat, f.a.toNat, f.b.toNat]
    (fun _ x _ t => t.wg f.d.toNat ((x.thread ((t.rg f.b.toNat).toNat % 64)).rg f.a.toNat)) s

/-- BALLOT: bit n set when lane n acts and its pA is 1; D even (R65). -/
def execBallot (ag : Agent) (f : R3) (s : State) : Host.Outcome State Fault Refusal :=
  xlaneGroup (.ballot ag f) ag (pairOk f.d && f.a.toNat < 8 && f.b = 0) f.guard (pairRegs f.d)
    (fun cx x _ t => t.wgPair f.d.toNat (laneMask (cx.enabled.filter fun l => (x.thread l).rp f.a.toNat))) s

/-- ANY: OR of pA (R65). -/
def execAny (ag : Agent) (f : R3) (s : State) : Host.Outcome State Fault Refusal :=
  xlaneGroup (.any ag f) ag (f.d.toNat < 8 && f.a.toNat < 8 && f.b = 0) f.guard []
    (fun cx x _ t => t.wp f.d.toNat (cx.enabled.any fun l => (x.thread l).rp f.a.toNat)) s

/-- ALL: AND of pA (R65). -/
def execAll (ag : Agent) (f : R3) (s : State) : Host.Outcome State Fault Refusal :=
  xlaneGroup (.all ag f) ag (f.d.toNat < 8 && f.a.toNat < 8 && f.b = 0) f.guard []
    (fun cx x _ t => t.wp f.d.toNat (cx.enabled.all fun l => (x.thread l).rp f.a.toNat)) s

/-- A reduction of gA over the acting lanes into gD; B is unused (R65). -/
def reduceGroup (i : Instr) (ag : Agent) (f : R3) (op : W32 → W32 → W32) (s : State) :
    Host.Outcome State Fault Refusal :=
  xlaneGroup i ag (decide (f.b = 0)) f.guard [f.d.toNat, f.a.toNat]
    (fun cx x _ t => t.wg f.d.toNat (foldVals op (laneVals cx x f.a))) s

/-- RADD: sum modulo 2^32 (R65). -/
def execRadd (ag : Agent) (f : R3) (s : State) : Host.Outcome State Fault Refusal :=
  reduceGroup (.radd ag f) ag f (· + ·) s

/-- RMIN: signed minimum (R65). -/
def execRmin (ag : Agent) (f : R3) (s : State) : Host.Outcome State Fault Refusal :=
  reduceGroup (.rmin ag f) ag f (fun a b => if a.slt b then a else b) s

/-- RMAX: signed maximum (R65). -/
def execRmax (ag : Agent) (f : R3) (s : State) : Host.Outcome State Fault Refusal :=
  reduceGroup (.rmax ag f) ag f (fun a b => if a.slt b then b else a) s

/-- FRADD: FP32 sum in the fixed tree, a lane that does not act contributing +0.0 (R66). -/
def execFradd (ag : Agent) (f : R3) (s : State) : Host.Outcome State Fault Refusal :=
  xlaneGroup (.fradd ag f) ag (decide (f.b = 0)) f.guard [f.d.toNat, f.a.toNat]
    (fun cx x _ t => t.wg f.d.toNat (treeSum ((List.range 64).map fun l =>
      if cx.enabled.contains l then (x.thread l).rg f.a.toNat else 0))) s

/-- minimumNumber or maximumNumber over values; a NaN result is the canonical NaN (R54, R65). -/
def foldFp (wantMax : Bool) (vs : List W32) : W32 :=
  let m := foldVals (fun a b => (Fp.fminmax wantMax a b).1) vs
  (Fp.fminmax wantMax m m).1

/-- FRMIN: FP32 minimumNumber (R65). -/
def execFrmin (ag : Agent) (f : R3) (s : State) : Host.Outcome State Fault Refusal :=
  xlaneGroup (.frmin ag f) ag (decide (f.b = 0)) f.guard [f.d.toNat, f.a.toNat]
    (fun cx x _ t => t.wg f.d.toNat (foldFp false (laneVals cx x f.a))) s

/-- FRMAX: FP32 maximumNumber (R65). -/
def execFrmax (ag : Agent) (f : R3) (s : State) : Host.Outcome State Fault Refusal :=
  xlaneGroup (.frmax ag f) ag (decide (f.b = 0)) f.guard [f.d.toNat, f.a.toNat]
    (fun cx x _ t => t.wg f.d.toNat (foldFp true (laneVals cx x f.a))) s

end Sys2Proof.Machine
end

