-- ==== Sys2Proof/Machine/Tensor.lean ====
section
/-! DEFINITION. Tensor instructions up to their start: issue into the tensor queue (R48, R68, R72, R127), the checks made at
start with their outcome under R71, and the start rules of R128. -/

namespace Sys2Proof.Machine

/-! ## Issue -/

/-- imm32 with no bit set but those of a mask (R68). -/
def immOk (f : T3) (mask : Nat) : Bool := f.imm.toNat &&& (2 ^ 32 - 1 - mask) = 0

/-- Issue a T64 instruction: while the tensor queue holds 16 entries the core issues none (R127); every thread that has not
exited must be active (R48), the encoding must be legal, and the bank it names must be held (R72, R82). -/
def tensorIssue {z : State} (r : Run z) (ag : Agent) (i : Instr) (legal : Bool) (regs tds : List Nat)
    (bank : Option Nat) (body : LCtx → Gang → Run z → Run z × LEnd) : Run z :=
  let w := wordsOf i
  match ag with
  | .host n => hartIssue r (hostKey n) w false fun h r => (r, .next h)
  | .fw p => hartIssue r (fwKey p) w false fun h r => (r, .next h)
  | .lane c g =>
    if (r.s.core c).queue.length ≥ 16 then r
    else laneIssue r c g w legal 0 regs tds fun cx x r =>
      if x.liveLanes ≠ cx.active then
        (r, .fault (cx.active.map fun l => (l, .tensorDivergent, laneMask cx.active)))
      else match bank with
        | some b =>
          if b ≥ x.banks.length then (r, .fault (cx.active.map fun l => (l, .bankNotHeld, b)))
          else body cx x r
        | none => body cx x r

/-- The value of register G, read from lane 0 (R48). -/
def gLane0 (x : Gang) (f : T3) : W32 := (x.thread 0).rg f.g.toNat

/-- A tensor descriptor register of a gang. -/
def tdOf (x : Gang) (n : BitVec 4) : BitVec 256 := SMap.get 0 x.td n.toNat

/-- Enter the tensor queue (R127). `upd` keeps the recirculation list. Only what enters the queue counts as issued for the EMPTY
answer of TSYNC (R71): TDLD, TDW and TDST never complete EMPTY and do not count (DESIGN CHOICE, log 119). -/
def enqueue {z : State} (r : Run z) (cx : LCtx) (x : Gang) (f : T3) (op : TOp) (bank : Option Nat)
    (upd : Gang → TInstr → Gang × TInstr) : Run z × LEnd :=
  let c := r.s.core cx.core
  let t : TInstr := {
    seq := c.nextSeq, gang := cx.gang, op := op
    tdA := tdOf x f.tdA, tdB := tdOf x f.tdB, tdC := tdOf x f.tdC
    numA := f.tdA.toNat, numB := f.tdB.toNat, numC := f.tdC.toNat
    bank := match bank with
      | some b => x.banks.getD b 4
      | none => 4
    bankName := bank.getD 0
    gval := gLane0 x f, imm := f.imm, recList := x.recList
    mask := BitVec.ofNat 64 (laneMask x.liveLanes), pc := BitVec.ofNat 64 cx.pc }
  let (x, t) := upd x t
  (r.setCore cx.core { c with queue := c.queue ++ [t], nextSeq := c.nextSeq + 1 },
    .next { x with issued := x.issued + 1 })

/-- No change beyond the queue. -/
def keepList (x : Gang) (t : TInstr) : Gang × TInstr := (x, t)

/-- A TMMA with REC marks the list used (R137). -/
def useList (x : Gang) (t : TInstr) : Gang × TInstr :=
  (if bit t.imm.toNat 3 then { x with recUsed := true } else x, t)

/-- A TREC's entry in the recirculation list (R137). A list that a TMMA with REC has used is emptied even by a TREC that is
then refused (DESIGN CHOICE, log 125). -/
def addList (x : Gang) (t : TInstr) : Gang × TInstr :=
  let d := TDesc.ofBits t.tdA
  let l := if x.recUsed then [] else x.recList
  let l' := l ++ [(t.bank, d.d0, d.fmt)]
  if l'.length > 2 || (l'.foldl (fun n e => n + e.2.1) 0) > 128 then
    ({ x with recList := l, recUsed := false }, { t with recOver := true, recList := l })
  else ({ x with recList := l', recUsed := false }, { t with recList := l' })

/-- FMOVE (R68, R258). -/
def execFmove (ag : Agent) (f : T3) (s : State) : Host.Outcome State Fault Refusal :=
  done <| tensorIssue (Run.start s) ag (.fmove ag f) (immOk f 1 && f.tdB = 0 && f.bank = 0 && f.g = 0) []
    [f.tdC.toNat, f.tdA.toNat] none fun cx x r => enqueue r cx x f .fmove none keepList

/-- TMMA; PRISM with WIN, or either with REC, is illegal (R68, R168). -/
def execTmma (ag : Agent) (f : T3) (s : State) : Host.Outcome State Fault Refusal :=
  let n := b2n (f.imm.getLsbD 1) + b2n (f.imm.getLsbD 2) + b2n (f.imm.getLsbD 3)
  done <| tensorIssue (Run.start s) ag (.tmma ag f) (immOk f 15 && f.tdC = 0 && f.g = 0 && decide (n ≤ 1)) []
    [f.tdA.toNat, f.tdB.toNat] (some f.bank.toNat) fun cx x r => enqueue r cx x f .tmma (some f.bank.toNat) useList

/-- TDRAIN; with ZPC clear the field of tdB must be 0 (R68, R134). -/
def execTdrain (ag : Agent) (f : T3) (s : State) : Host.Outcome State Fault Refusal :=
  let zpc := f.imm.getLsbD 1
  done <| tensorIssue (Run.start s) ag (.tdrain ag f) (immOk f 3 && f.tdA = 0 && f.g = 0 && (zpc || f.tdB = 0)) []
    ([f.tdC.toNat] ++ (if zpc then [f.tdB.toNat] else [])) (some f.bank.toNat)
    fun cx x r => enqueue r cx x f .tdrain (some f.bank.toNat) keepList

/-- ACC.SCALE (R68, R136). -/
def execAccScale (ag : Agent) (f : T3) (s : State) : Host.Outcome State Fault Refusal :=
  done <| tensorIssue (Run.start s) ag (.accScale ag f) (immOk f 0 && f.tdB = 0 && f.tdC = 0 && f.g = 0) []
    [f.tdA.toNat] (some f.bank.toNat) fun cx x r => enqueue r cx x f .accScale (some f.bank.toNat) keepList

/-- TCLR (R68). -/
def execTclr (ag : Agent) (f : T3) (s : State) : Host.Outcome State Fault Refusal :=
  done <| tensorIssue (Run.start s) ag (.tclr ag f)
    (immOk f 0 && f.tdA = 0 && f.tdB = 0 && f.tdC = 0 && f.g = 0) []
    [] (some f.bank.toNat) fun cx x r => enqueue r cx x f .tclr (some f.bank.toNat) keepList

/-- TREC (R68, R137). -/
def execTrec (ag : Agent) (f : T3) (s : State) : Host.Outcome State Fault Refusal :=
  done <| tensorIssue (Run.start s) ag (.trec ag f) (immOk f 0 && f.tdB = 0 && f.tdC = 0) [f.g.toNat]
    [f.tdA.toNat] (some f.bank.toNat) fun cx x r => enqueue r cx x f .trec (some f.bank.toNat) addList

/-- STATE.AUDIT (R68, R141). -/
def execStateAudit (ag : Agent) (f : T3) (s : State) : Host.Outcome State Fault Refusal :=
  done <| tensorIssue (Run.start s) ag (.stateAudit ag f) (immOk f 0 && f.tdA = 0 && f.tdB = 0) [f.g.toNat]
    [f.tdC.toNat] (some f.bank.toNat) fun cx x r => enqueue r cx x f .audit (some f.bank.toNat) keepList

/-- ROPE (R190, R191). -/
def execRope (ag : Agent) (f : T3) (s : State) : Host.Outcome State Fault Refusal :=
  done <| tensorIssue (Run.start s) ag (.rope ag f) (immOk f 0x1F01 && f.bank = 0) [f.g.toNat]
    [f.tdA.toNat, f.tdB.toNat, f.tdC.toNat] none fun cx x r => enqueue r cx x f .rope none keepList

/-- TMASK (R190, R194). -/
def execTmask (ag : Agent) (f : T3) (s : State) : Host.Outcome State Fault Refusal :=
  done <| tensorIssue (Run.start s) ag (.tmask ag f) (immOk f 0x1F07FF && f.tdB = 0 && f.tdC = 0) [f.g.toNat]
    [f.tdA.toNat] (some f.bank.toNat) fun cx x r => enqueue r cx x f .tmask (some f.bank.toNat) keepList

/-- Whether imm32 of a STEP is a positive finite FP32 value (R196). -/
def stepImmOk (imm : W32) : Bool := decide (1 ≤ imm.toNat) && decide (imm.toNat < 0x7F800000)

/-- The TSMAX modes, one command each; MODE is in G, so a command of another mode than G holds is not the instruction
that issues (R196). -/
def tsmaxIssue (i : Instr) (mode : Nat) (ag : Agent) (f : T3) (s : State) : Host.Outcome State Fault Refusal :=
  let r := Run.start s
  let held := match ag with
    | .lane c g => match s.gang? c g with
      | some x => bits (gLane0 x f).toNat 17 16
      | none => mode
    | _ => mode
  if held ≠ mode then done r
  else
    let legal := match mode with
      | 0 => stepImmOk f.imm
      | 1 => f.imm = 0 && f.bank = 0 && f.tdB = 0
      | 2 => f.imm = 0 && f.bank = 0
      | _ => f.imm = 0 && f.bank = 0 && f.tdB = 0 && f.tdC = 0
    let tds := match mode with
      | 1 => [f.tdA.toNat, f.tdC.toNat]
      | 3 => [f.tdA.toNat]
      | _ => [f.tdA.toNat, f.tdB.toNat, f.tdC.toNat]
    let bank := if mode = 0 then some f.bank.toNat else none
    done <| tensorIssue r ag i legal [f.g.toNat] tds bank fun cx x r => enqueue r cx x f .tsmax bank keepList

/-- TSMAX STEP (R196, R198). -/
def execTsmaxStep (ag : Agent) (f : T3) (s : State) : Host.Outcome State Fault Refusal :=
  tsmaxIssue (.tsmaxStep ag f) 0 ag f s

/-- TSMAX FINAL (R196, R200). -/
def execTsmaxFinal (ag : Agent) (f : T3) (s : State) : Host.Outcome State Fault Refusal :=
  tsmaxIssue (.tsmaxFinal ag f) 1 ag f s

/-- TSMAX MERGE (R196, R203). -/
def execTsmaxMerge (ag : Agent) (f : T3) (s : State) : Host.Outcome State Fault Refusal :=
  tsmaxIssue (.tsmaxMerge ag f) 2 ag f s

/-- TSMAX INIT (R196, R197). -/
def execTsmaxInit (ag : Agent) (f : T3) (s : State) : Host.Outcome State Fault Refusal :=
  tsmaxIssue (.tsmaxInit ag f) 3 ag f s

/-- TDW: one 32-bit word of a tensor descriptor (R68). -/
def execTdw (ag : Agent) (f : T3) (s : State) : Host.Outcome State Fault Refusal :=
  done <| tensorIssue (Run.start s) ag (.tdw ag f) (immOk f 7 && f.tdA = 0 && f.tdB = 0 && f.bank = 0) [f.g.toNat]
    [f.tdC.toNat] none fun _ x r =>
      let w := f.imm.toNat
      let v := setBits (tdOf x f.tdC).toNat (32 * w + 31) (32 * w) (gLane0 x f).toNat
      (r, .next { x with td := SMap.set 0 x.td f.tdC.toNat (BitVec.ofNat 256 v) })

/-- The effective address of TDLD and TDST: the 48 low bits of the pair G:G+1 of lane 0 plus imm32, of 48 bits (R58, R68). -/
def tdAddr (x : Gang) (f : T3) : Nat := (((x.thread 0).rgPair f.g.toNat + f.imm.toInt) % (2 ^ 48 : Int)).toNat

/-- A fault of TDLD or TDST, which acts as an access of lane 0. -/
def lane0Fault (c : Cause) (a : Nat) : LEnd := .fault [(0, c, a)]

/-- TDLD: a load of 32 bytes made by lane 0; the register space takes no such access (R68, R517). -/
def execTdld (ag : Agent) (f : T3) (s : State) : Host.Outcome State Fault Refusal :=
  done <| tensorIssue (Run.start s) ag (.tdld ag f) (f.tdA = 0 && f.tdB = 0 && f.bank = 0 && pairOk f.g)
    (pairRegs f.g) [f.tdC.toNat] none fun _ x r =>
      let a := tdAddr x f
      if a % 32 ≠ 0 then (r, lane0Fault .loadMisaligned a)
      else match (r.scrubWalk (gangX r.s x) a).translate (gangX r.s x) .load a with
        | .error e => (r, lane0Fault (loadCause e) a)
        | .ok (pa, r) =>
          if decide ((x.thread 0).rgPair f.g.toNat ≥ 2 ^ 48) || !(region pa).isMem || laneBarred r.s pa || r.s.isUe pa then
            (r, lane0Fault .loadAccess a)
          else
            let r := r.scrub pa 32
            (r, .next { x with td := SMap.set 0 x.td f.tdC.toNat (BitVec.ofNat 256 (r.s.load pa 32)) })

/-- TDST: a store of 32 bytes made by lane 0 (R68, R517). -/
def execTdst (ag : Agent) (f : T3) (s : State) : Host.Outcome State Fault Refusal :=
  done <| tensorIssue (Run.start s) ag (.tdst ag f) (f.tdA = 0 && f.tdB = 0 && f.bank = 0 && pairOk f.g)
    (pairRegs f.g) [f.tdC.toNat] none fun _ x r =>
      let a := tdAddr x f
      if a % 32 ≠ 0 then (r, lane0Fault .storeMisaligned a)
      else match (r.scrubWalk (gangX r.s x) a).translate (gangX r.s x) .store a with
        | .error e => (r, lane0Fault (storeCause e) a)
        | .ok (pa, r) =>
          if decide ((x.thread 0).rgPair f.g.toNat ≥ 2 ^ 48) || !(region pa).isMem || laneBarred r.s pa then (r, lane0Fault .storeAccess a)
          else (r.storeMem pa 32 (tdOf x f.tdC).toNat, .next x)

/-- TSYNC: waits for every earlier tensor instruction of the gang, then the status goes to G in every active thread and
becomes OK (R68, R71). -/
def execTsync (ag : Agent) (f : T3) (s : State) : Host.Outcome State Fault Refusal :=
  done <| tensorIssue (Run.start s) ag (.tsync ag f)
    (immOk f 0 && f.tdA = 0 && f.tdB = 0 && f.tdC = 0 && f.bank = 0) [f.g.toNat] [] none fun cx x r =>
      let c := r.s.core cx.core
      if (c.queue ++ c.running).any fun t => t.gang = cx.gang then (r, .stall)
      else
        let st := if x.bounds then stBounds else if x.issued ≠ 0 && !x.nonEmpty then stEmpty else stOk
        let x := x.mapLanes cx.active fun _ t => t.wg f.g.toNat (BitVec.ofNat 32 st)
        (r, .next { x with bounds := false, issued := 0, nonEmpty := false })

/-! ## Checks at start -/

/-- What the checks of a tensor instruction find: a refusal with BOUNDS, EMPTY, a cause with its tval, or the virtual pages
it reads and writes (R71, R129, R518). -/
inductive Plan where
  | refuse
  | empty
  | fault (c : Cause) (tval : Nat)
  | go (rd wr : List Nat)
  deriving DecidableEq, Repr

/-- Columns of a recirculation list, and its feedback format. -/
def recCols (l : List (Nat × Nat × Nat)) : Nat := l.foldl (fun n e => n + e.2.1) 0
def recFmt (l : List (Nat × Nat × Nat)) (dflt : Nat) : Nat := (l.head?.map fun e => e.2.2).getD dflt

/-- The row format that a pair is judged with: FP32 feedback as BF16 feedback (R139, R140). -/
def rowFmt (f : Nat) : Nat := if f = 0 then 1 else f

/-- The bank must be CLEAR or hold the pair's accumulator format, unless ZERO is set (R119). -/
def accOk (fmt : BankFmt) (int zero : Bool) : Bool :=
  zero || fmt = .clear || fmt = (if int then .int32 else .a40)

/-- The outcome when a field of the descriptor in register n breaks a rule: TENSOR_DESC, with n in bits 3:0 of the tval
and the high bit of the first such field in bits 15:8 (R77). -/
def descFault (n hi : Nat) : Plan := .fault .tensorDesc (n + 256 * hi)

/-- Judge a descriptor: the rules of its layout first, then those of the instruction. -/
def descCheck (n : Nat) (rules : List (Nat × Bool)) : Option Plan := (firstBroken rules).map (descFault n)

/-- BANK_FORMAT when a condition holds (R77 lists it before TENSOR_DESC). -/
def bankCheck (t : TInstr) (bad : Bool) : Option Plan := if bad then some (.fault .bankFormat t.bankName) else none

/-- The first check that finds something, else the rest. -/
def planChecks (l : List (Option Plan)) (rest : Plan) : Plan := (l.findSome? id).getD rest

/-- Rules of TMMA for the column operand (R69, R123). -/
def colRules (b : TDesc) : List (Nat × Bool) :=
  (b.rules .other).append [(251, b.rank ≠ 2), (239, b.isRow), (111, decide (b.d1 > 64))]

/-- Checks of a plain TMMA or one with REC (R69, R121, R123, R137, R139, R142). -/
def planMma (k : Bank) (t : TInstr) : Plan :=
  let a := TDesc.ofBits t.tdA
  let b := TDesc.ofBits t.tdB
  let zero := bit t.imm.toNat 0
  let rec_ := bit t.imm.toNat 3
  let ra := if rec_ then rowFmt (recFmt t.recList a.fmt) else a.fmt
  planChecks [
    bankCheck t (pairAccepted ra b.fmt && !accOk k.fmt (Fp.isInt b.fmt) zero),
    bankCheck t (rec_ && t.recList.any fun e => e.1 = t.bank),
    descCheck t.numA ((a.rules .other).append [(251, a.rank ≠ 2), (239, !a.isRow), (111, decide (a.d1 > 32))]),
    descCheck t.numB ((colRules b).append [(95, !rec_ && a.d0 ≠ b.d0)]),
    descCheck t.numA [(255, !pairAccepted ra b.fmt)]] <|
  if b.d0 = 0 || a.d1 = 0 || b.d1 = 0 then .empty
  else if rec_ && b.d0 > recCols t.recList then .refuse
  else .go ((if rec_ then [] else a.pages) ++ b.pages) []

/-- Physical page of a folio that a tensor instruction may use: in the issuing core's own carrel and outside its reserved
regions (R518); for FMOVE in vault DRAM, the Stacks or any carrel (R259). -/
def folioPage (s : State) (c : XCtx) (core : Nat) (move : Bool) (k : Access) (vpage : Nat) : Option Nat :=
  match lookup s c k (vpage * 4096) with
  | .error _ => none
  | .ok l =>
    let pg := l.pa / 4096
    match region l.pa with
    | .carrel =>
      let home := (l.pa - carrelBase 0) / 0x40000
      if carrelReserved s home ((l.pa - carrelBase 0) % 0x40000 / 4096) || (!move && home ≠ core) then none else some pg
    | .vault => if move then some pg else none
    | .stacks => if move then some pg else none
    | _ => none

/-- Translate a list of virtual pages; none when any is refused. -/
def folioPages (s : State) (c : XCtx) (core : Nat) (move : Bool) (k : Access) (ps : List Nat) : Option (List Nat) :=
  ps.foldr (fun p acc =>
    match acc, folioPage s c core move k p with
    | some l, some q => some (q :: l)
    | _, _ => none) (some [])

/-- Checks of a TMMA with WIN or PRISM, in the order of R168, then R174. An empty one raises nothing for its bank (R165). The
whole image must lie in the carrel; only what its taps take is read (R170). -/
def planWin (s : State) (core : Nat) (x : Gang) (k : Bank) (t : TInstr) : Plan :=
  let d := WDesc.ofBits t.tdA
  let b := TDesc.ofBits t.tdB
  let prism := bit t.imm.toNat 1
  let ks := if prism then d.kh * d.kw else d.kh * d.kw * d.gc
  let empty := d.npix = 0 || b.d1 = 0 || d.outH = 0 || d.outW = 0
  planChecks [
    bankCheck t (!empty && pairAccepted d.fmt b.fmt && !accOk k.fmt (Fp.isInt b.fmt) (bit t.imm.toNat 0)),
    descCheck t.numA d.rules,
    descCheck t.numB (colRules b),
    descCheck t.numA [(255, !pairAccepted d.fmt b.fmt), (131, prism && d.gc ≠ 1)],
    descCheck t.numB [(95, b.d0 ≠ ks || decide (ks > 65535))],
    descCheck t.numA [(145, prism && decide (d.cb + b.d1 > d.c))]] <|
  if empty then .empty
  else if d.oy ≥ d.outH || d.ox + d.npix > d.outW || (folioPages s (gangX s x) core false .load d.pages).isNone then .refuse
  else if prism && decide (d.lines.length * d.xs.length * b.d1 * (Fp.widthOf d.fmt / 8) +
      cdiv (ks * b.d1 * Fp.widthOf b.fmt) 8 > 16384) then .refuse
  else .go (d.touched (if prism then b.d1 else d.gc) ++ b.pages) []

/-- The re-run of a gang's parcel alters STAT drains to narrow formats (R162): the statistics block's words, when it
applies. -/
def rerunBlock (s : State) (x : Gang) : Option (Nat × Nat × Nat) :=
  match s.parcel? x.parcel with
  | some p =>
    if !p.rerun then none
    else
      let va := (p.desc.getD 6 0).toNat + 2 ^ 32 * (p.desc.getD 7 0).toNat
      match readVirt s (ctxX s p.ctx) va 0x1C with
      | .ok n => some (n / 2 ^ 64 % 2 ^ 64, n / 2 ^ 128 % 2 ^ 64, n / 2 ^ 192 % 2 ^ 32)
      | .error _ => none
  | none => none

/-- tdC of a TDRAIN as the re-run alters it, or none when the alteration is refused (R162). -/
def rerunDesc (s : State) (x : Gang) (d : TDesc) : Option TDesc :=
  match rerunBlock s x with
  | none => some d
  | some (obase, rbase, rsize) =>
    if !d.stat || ! [2, 3, 4, 7, 8].contains d.fmt then some d
    else
      let m := if Fp.widthOf d.fmt = 8 then 2 else 1
      let ob := obase / 4096
      let rb := rbase / 4096
      if d.base < ob then none
      else
        let d' := { d with fmt := 1, rnd := 0, base := rb + (d.base - ob) * m
                           s1 := d.s1 * m, s2 := d.s2 * m, s3 := d.s3 * m }
        if d'.folios.any fun f => d'.base + f ≥ rb + rsize then none else some d'

/-- Rules of an FP32 operand of rank 1. -/
def fp32Rules (d : TDesc) : List (Nat × Bool) := (d.rules .other).append [(255, d.fmt ≠ 0), (251, d.rank ≠ 1)]

/-- Checks of TDRAIN (R131, R134, R135, R162). The columns' sums lie in one folio. -/
def planDrain (s : State) (x : Gang) (k : Bank) (t : TInstr) : Plan :=
  let c := TDesc.ofBits t.tdC
  let b := TDesc.ofBits t.tdB
  let zpc := bit t.imm.toNat 1
  let fmt := k.fmt
  planChecks [
    bankCheck t (zpc && fmt = .a40),
    descCheck t.numC ((c.rules .other).append [(255, ! [0, 1, 2, 3, 4, 7, 8].contains c.fmt), (251, c.rank ≠ 2), (239, !c.isRow),
      (111, decide (c.d1 > 32)), (95, decide (c.d0 > 64))]),
    if zpc then descCheck t.numB (fp32Rules b) else none] <|
  if c.d1 = 0 || c.d0 = 0 then .empty
  else if zpc && fmt ≠ .clear && b.d0 < c.d0 then .refuse
  else match rerunDesc s x c with
    | none => .refuse
    | some c => .go (if zpc && fmt ≠ .clear then [b.base] else []) c.pages

/-- Checks of ACC.SCALE (R70, R136). -/
def planScale (k : Bank) (t : TInstr) : Plan :=
  let a := TDesc.ofBits t.tdA
  planChecks [
    bankCheck t (k.fmt = .int32),
    descCheck t.numA ((fp32Rules a).append [(95, decide (a.d0 > 32))])] <|
  if a.d0 = 0 then .empty
  else .go a.pages []

/-- Checks of TREC (R70, R137, R138). A column count that is 0 or above 64 raises TENSOR_DESC: R137 names no outcome (DESIGN
CHOICE, log 124). It reads the marked rows of the first 32, columns 0 to D0 - 1. -/
def planRec (k : Bank) (t : TInstr) : Plan :=
  let a := TDesc.ofBits t.tdA
  planChecks [
    bankCheck t (k.fmt = .int32),
    descCheck t.numA ((a.rules .other).append [
      (255, decide (a.fmt > 2) || (!t.recOver && t.recList.any fun e => e.2.2 ≠ a.fmt)),
      (95, a.d0 = 0 || decide (a.d0 > 64))])] <|
  if t.recOver || t.gval.toNat ≥ 2 ^ min a.d1 32 then .refuse
  else .go (if t.gval = 0 then [] else (List.range (if a.rank = 1 then 1 else cdiv a.d0 a.tk)).map (a.base + ·)) []

/-- STATE.AUDIT writes its bank out: its count has come to G[15:0] (R70). -/
def auditDue (k : Bank) (t : TInstr) : Bool := decide (t.gval.toNat % 65536 ≤ k.audit + 1)

/-- Checks of STATE.AUDIT (R70, R141): the folios are checked before the count advances, and written when it is due. -/
def planAudit (s : State) (core : Nat) (x : Gang) (k : Bank) (t : TInstr) : Plan :=
  let c := TDesc.ofBits t.tdC
  let ps := (List.range 4).map (c.base + ·)
  planChecks [descCheck t.numC ((c.rules .audit).append [(255, c.fmt ≠ 14)])] <|
  if t.gval.toNat % 65536 = 0 then .empty
  else if c.d0 < 2048 || (folioPages s (gangX s x) core false .store ps).isNone then .refuse
  else .go [] (if auditDue k t then ps else [])

/-- Checks of ROPE (R191). -/
def planRope (t : TInstr) : Plan :=
  let a := TDesc.ofBits t.tdA
  let b := TDesc.ofBits t.tdB
  let c := TDesc.ofBits t.tdC
  planChecks [
    descCheck t.numA ((a.rules .other).append [(255, decide (a.fmt > 2)), (251, a.rank ≠ 2), (239, !a.isRow),
      (111, decide (a.d1 > 32)), (95, a.d0 % 2 = 1 || decide (a.d0 < 2) || decide (a.d0 > 256))]),
    descCheck t.numB ((fp32Rules b).append [(95, decide (b.d0 < a.d0 / 2))]),
    descCheck t.numC ((c.rules .other).append [(255, decide (c.fmt > 4)), (251, c.rank ≠ 2), (239, !c.isRow), (236, c.rnd ≠ 0),
      (111, c.d1 ≠ a.d1), (95, c.d0 ≠ a.d0)])] <|
  if a.d1 = 0 then .empty
  else .go (a.pages ++ [b.base]) c.pages

/-- Checks of TMASK (R194, R195). -/
def planMask (k : Bank) (t : TInstr) : Plan :=
  let a := TDesc.ofBits t.tdA
  let rs := 8 * (bits t.imm.toNat 10 0 + 1)
  let nr := bits t.imm.toNat 20 16 + 1
  let g := t.gval.toNat
  planChecks [
    bankCheck t (k.fmt = .int32),
    descCheck t.numA ((a.rules .other).append [(255, a.fmt ≠ 8), (251, a.rank ≠ 1)])] <|
  if g % 8 ≠ 0 || g > 8 * rs - 8 || a.d0 < nr * rs then .refuse
  else .go (((List.range nr).flatMap fun i => ((List.range 8).filter fun n => decide (g + 8 * n < 8 * rs)).map fun n =>
    a.base + (i * rs + g / 8 + n) / 4096).eraseDups) []

/-- Rules of an FP32 operand of rank 1 with at least n elements. -/
def vecRules (d : TDesc) (n : Nat) : List (Nat × Bool) := (fp32Rules d).append [(95, decide (d.d0 < n))]

/-- Checks of TSMAX (R196). The parts of its vectors that it uses lie in their first folios. -/
def planSmax (k : Bank) (t : TInstr) : Plan :=
  let a := TDesc.ofBits t.tdA
  let b := TDesc.ofBits t.tdB
  let c := TDesc.ofBits t.tdC
  let g := t.gval.toNat
  let nk := bits g 6 0
  let nr := bits g 13 8
  let mode := bits g 17 16
  if nk > 64 || nr > 32 || bit g 7 || bits g 15 14 ≠ 0 || g / 2 ^ 18 ≠ 0 || (mode = 3 && (nk ≠ 0 || nr ≠ 0)) then
    .refuse
  else match mode with
    | 0 => planChecks [
        bankCheck t (k.fmt = .int32),
        descCheck t.numA (vecRules a 68),
        descCheck t.numB ((b.rules .other).append [(255, ! [1, 2, 3].contains b.fmt), (251, b.rank ≠ 2), (239, !b.isRow),
          (111, decide (b.d1 < nr) || decide (b.d1 > 32)), (95, decide (b.d0 < nk) || decide (b.d0 > 64))]),
        descCheck t.numC (vecRules c 32)] <|
      if nr = 0 then .empty
      else .go [a.base] ([a.base] ++ b.pages ++ [c.base])
    | 1 => planChecks [descCheck t.numA (vecRules a 68), descCheck t.numC (vecRules c 32)] <|
      if nr = 0 then .empty else .go [a.base] [a.base, c.base]
    | 2 => planChecks [descCheck t.numA (vecRules a 68), descCheck t.numB (vecRules b 68),
        descCheck t.numC (vecRules c 64)] <|
      if nr = 0 then .empty else .go [a.base, b.base] [a.base, c.base]
    | _ => planChecks [descCheck t.numA (vecRules a 68)] (.go [] [a.base])

/-- Checks of FMOVE (R258, R259); its folios are translated by their own rule. -/
def planMove (t : TInstr) : Plan :=
  let a := TDesc.ofBits t.tdA
  let c := TDesc.ofBits t.tdC
  planChecks [
    descCheck t.numA (a.rules .fmove),
    descCheck t.numC ((c.rules .fmove).append [(255, c.fmt ≠ a.fmt), (251, c.rank ≠ a.rank), (239, c.group ≠ a.group),
      (143, c.d3 ≠ a.d3), (127, c.d2 ≠ a.d2), (111, c.d1 ≠ a.d1), (95, c.d0 ≠ a.d0)])] <|
  if a.folios.isEmpty then .empty
  else .go (a.folios.map (a.base + ·)) (c.folios.map (c.base + ·))

/-- The checks of a tensor instruction on a bank as it finds it; its gang's status may refuse it outright (R71). -/
def planOf (s : State) (core : Nat) (x : Gang) (k : Bank) (t : TInstr) : Plan :=
  if x.bounds then .refuse
  else match t.op with
    | .tmma => if bit t.imm.toNat 1 || bit t.imm.toNat 2 then planWin s core x k t else planMma k t
    | .tdrain => planDrain s x k t
    | .accScale => planScale k t
    | .tclr => .go [] []
    | .trec => planRec k t
    | .audit => planAudit s core x k t
    | .rope => planRope t
    | .tmask => planMask k t
    | .tsmax => planSmax k t
    | .fmove => planMove t

/-! ## What a queue will do (R128) -/

/-- The format and the audit count of a bank after an instruction that names it has run. -/
def TInstr.bankAfter (t : TInstr) (k : Bank) : Bank :=
  match t.op with
  | .tmma => { k with fmt := if Fp.isInt (TDesc.ofBits t.tdB).fmt then .int32 else .a40 }
  | .tclr => { k with fmt := .clear }
  | .tdrain =>
    let c := TDesc.ofBits t.tdC
    if bit t.imm.toNat 0 && c.d1 = 32 && c.d0 = 64 then { k with fmt := .clear } else k
  | .trec => if t.gval = 0 then k else { k with fmt := .a40 }
  | .tmask => { k with fmt := .a40 }
  | .audit => { k with audit := if auditDue k t then 0 else k.audit + 1 }
  | _ => k

/-- What the instructions of a core that have not started will do, one after the other: the core's banks after them, the gangs
of which one is refused with BOUNDS or raises a cause, and for each the pages it reads and writes as pairs of virtual and
physical page. -/
structure Forecast where
  core : Core
  refused : List Nat := []
  faulted : List Nat := []
  ents : List (TInstr × List (Nat × Nat) × List (Nat × Nat)) := []

/-- A gang as a forecast leaves it for its next instruction: refused once one of its instructions is (R71). -/
def Forecast.gang (f : Forecast) (g : Nat) (x : Gang) : Gang := { x with bounds := x.bounds || f.refused.contains g }

/-- One more instruction is forecast. -/
def Forecast.add (s : State) (core : Nat) (f : Forecast) (t : TInstr) : Forecast :=
  let none_ := { f with ents := f.ents ++ [(t, [], [])] }
  match s.gang? core t.gang with
  | none => none_
  | some x =>
    if f.faulted.contains t.gang || x.late.any (· ≤ t.seq) then none_
    else match planOf s core (f.gang t.gang x) (f.core.bank t.bank) t with
      | .refuse => { none_ with refused := f.refused ++ [t.gang] }
      | .empty => none_
      | .fault _ _ => { none_ with faulted := f.faulted ++ [t.gang] }
      | .go rd wr =>
        let c := gangX s x
        match folioPages s c core (t.op = .fmove) .load rd, folioPages s c core (t.op = .fmove) .store wr with
        | some rp, some wp => { f with
            core := f.core.setBank t.bank (t.bankAfter (f.core.bank t.bank))
            ents := f.ents ++ [(t, rd.zip rp, wr.zip wp)] }
        | _, _ => { none_ with refused := f.refused ++ [t.gang] }

/-- The forecast of some instructions of a core's queue, oldest first, behind what it runs. -/
def forecast (s : State) (core : Nat) (q : List TInstr) : Forecast :=
  let c := s.core core
  q.foldl (Forecast.add s core)
    { core := c.running.foldl (fun c t => c.setBank t.bank (t.bankAfter (c.bank t.bank))) c }

/-- The instructions that a core has issued before one of its queue and that have not started. -/
def earlierQueued (s : State) (core : Nat) (t : TInstr) : List TInstr := (s.core core).queue.filter fun e => e.seq < t.seq

/-! ## Start (R128) -/

/-- Port of an instruction: accumulate 0, drain 1, folio engine 2. -/
def TOp.port : TOp → Nat
  | .tmma => 0
  | .fmove => 2
  | _ => 1

/-- Banks an instruction names, recirculation sources included (R128). -/
def TInstr.bankSet (t : TInstr) : List Nat :=
  (if t.bank < 4 then [t.bank] else []) ++
    (if t.op = .tmma && bit t.imm.toNat 3 then t.recList.map (·.1) else [])

/-- Only carrel folios order tensor instructions (R128, R260). -/
def carrelPages (l : List Nat) : List Nat := l.filter fun p => region (p * 4096) = .carrel

/-- Whether an earlier unfinished instruction holds back a later one by bank or carrel overlap (R128). -/
def holdsBack (e l : TInstr) (er ew lr lw : List Nat) : Bool :=
  e.bankSet.any (fun b => l.bankSet.contains b) ||
  (carrelPages ew).any (fun p => lr.contains p || lw.contains p) || (carrelPages er).any (fun p => lw.contains p)

/-- What the checks of an instruction at its start find. An earlier instruction of its gang that has not started and will be
refused with BOUNDS makes it refused too: the results are those of issue order (R71, R128). -/
def startPlan (s : State) (core : Nat) (x : Gang) (t : TInstr) : Plan :=
  planOf s core ((forecast s core (earlierQueued s core t)).gang t.gang x) ((s.core core).bank t.bank) t

/-- The start conditions of R128 and R260 hold for an instruction of the queue, and no earlier one of its gang will raise a
cause when it starts, after which no later one does (R519). -/
def mayStart (s : State) (core : Nat) (t : TInstr) : Bool :=
  let c := s.core core
  let earlier := earlierQueued s core t
  let f := forecast s core earlier
  let me := (f.add s core t).ents.getLastD (t, [], [])
  let lr := me.2.1.map (·.2)
  let lw := me.2.2.map (·.2)
  !f.faulted.contains t.gang &&
  !earlier.any (fun e => e.op.port = t.op.port) &&
  !f.ents.any (fun e => holdsBack e.1 t (e.2.1.map (·.2)) (e.2.2.map (·.2)) lr lw) &&
  !c.running.any (fun e => e.seq < t.seq && holdsBack e t e.reads e.writes lr lw) &&
  (t.op ≠ .fmove || (decide ((c.running.filter fun e => e.op = .fmove).length < 4) &&
    !(earlier ++ c.running).any fun e => e.op = .fmove && e.gang = t.gang && bit e.imm.toNat 0))

namespace Run

variable {z : State}

/-- An entry leaves the tensor queue. -/
def unqueue (r : Run z) (core : Nat) (t : TInstr) : Run z :=
  let c := r.s.core core
  r.setCore core { c with queue := c.queue.filter fun e => e.seq ≠ t.seq }

/-- A drain of a re-run reads the statistics block's OUT and RERUN words, through the tables (R98, R162). -/
def markStats (r : Run z) (x : Gang) : Run z :=
  match r.s.parcel? x.parcel with
  | some p =>
    if !p.rerun then r
    else r.markRange (ctxX r.s p.ctx) .load ((p.desc.getD 6 0).toNat + 2 ^ 32 * (p.desc.getD 7 0).toNat) 0x1C
  | none => r

/-- A page walk of a move or of an operand that meets an uncorrectable word is counted (R267). -/
def countWalk (r : Run z) (c : XCtx) (k : Access) (ps : List Nat) : Run z :=
  match ps.findSome? fun p => match lookup r.s c k (p * 4096) with
    | .error .access => walkUe r.s c.root (p * 4096)
    | _ => none with
  | some a => r.countUe a
  | none => r

/-- A refusal with BOUNDS; a refused TREC leaves no entry in the list (R71, R137). -/
def tensorRefuse (r : Run z) (core : Nat) (x : Gang) (t : TInstr) : Run z :=
  let d := TDesc.ofBits t.tdA
  r.setGang core t.gang { x with
    bounds := true, nonEmpty := true
    recList := if t.op = .trec && !t.recOver then x.recList.erase (t.bank, d.d0, d.fmt) else x.recList }

end Run

/-- TENSOR_INSTR_START: an entry whose start conditions hold leaves the queue, and its checks decide what follows
(R71, R128, R129, R518, R519). -/
def execTensorInstrStart (core seq : Nat) (s : State) : Host.Outcome State Fault Refusal :=
  let r := Run.start s
  match (s.core core).queue.find? fun e => e.seq = seq with
  | none => done r
  | some t =>
    match s.gang? core t.gang with
    | none => done (r.unqueue core t)
    | some x =>
      if x.late.any (· ≤ t.seq) then done (r.unqueue core t)
      else if !mayStart s core t then done r
      else
        let r := r.unqueue core t
        match startPlan s core x t with
        | .refuse => done (r.tensorRefuse core x t)
        | .empty => done r
        | .fault c tval =>
          done (r.laneFault core t.gang c tval t.pc.toNat t.mask.toNat stLaneFault (some (t.seq + 1)))
        | .go rd wr =>
          let c := gangX s x
          let mv : Bool := t.op = .fmove
          match folioPages s c core mv .load rd, folioPages s c core mv .store wr with
          | some rp, some wp =>
            let r := r.each (rd.map (fun p => (p, Access.load)) ++ wr.map (fun p => (p, Access.store))) fun p r =>
              match lookup r.s c p.2 (p.1 * 4096) with
              | .ok l => (r.scrubWalk c (p.1 * 4096)).markUsed c p.2 l
              | .error _ => r
            let r := if t.op = .tdrain then r.markStats x else r
            let m := ((rd ++ wr).zip (rp ++ wp)).foldl (fun m p => SMap.insert m p.1 p.2) []
            let k := r.s.core core
            let r := r.setCore core { k with running := k.running ++ [{ t with reads := rp, writes := wp, map := m }] }
            done (r.setGang core t.gang { x with nonEmpty := true })
          | _, _ => done (((r.countWalk c .load rd).countWalk c .store wr).tensorRefuse core x t)

end Sys2Proof.Machine
end

