-- ==== Sys2Proof/Machine/Vaults.lean ====
section
/-! DEFINITION. The memory tiers: the carrel mapping (R250, R251), translation invalidation (R253), block placement
(R257), weight windows (R261 to R264) and vault integrity (R266 to R269). -/

namespace Sys2Proof.Machine

def stWinBadDesc : Nat := 0x0501
def stWinOverlap : Nat := 0x0502
def stWinTallyLimit : Nat := 0x0503
def stWinStopped : Nat := 0x0504

/-! ## The carrel mapping -/

/-- Physical address of the level-1 table of the carrel mapping, in vault DRAM with room for its level-0 tables. -/
def cmapTable : Nat := (Config.cmapPage % (2 ^ 23 - 32)) * 4096

/-- The leaf of folio f of a physical core in the carrel mapping (R250). -/
def cmapLeaf (core f : Nat) : Nat := (carrelBase core + f * 4096) + 2 ^ 61 + 0x1C8 + 2

namespace Run

variable {z : State}

/-- Write the 64 leaves of a logical number; with no core that carries it they have no leaf (R250, R251). -/
def mapLogical (r : Run z) (l : Nat) : Run z :=
  let core := coreOfLogical r.s l
  r.each (List.range 64) fun f r =>
    let page := l * 64 + f
    r.store (cmapTable + 4096 * (1 + page / 512) + 8 * (page % 512)) 8
      (match core with | some c => cmapLeaf c f | none => 0)

/-- Provide the level-1 table and its level-0 tables, and show their address (R250). The entries beyond those of the 176 numbers
are 0, so nothing lies there. -/
def buildCmap (r : Run z) : Run z :=
  let r := r.put (.wipe cmapTable (cmapTable + 4096))
  let r := r.each (List.range 22) fun i r => r.store (cmapTable + 8 * i) 8 (cmapTable + 4096 * (1 + i) + 1)
  (r.each (List.range 176) fun l r => r.mapLogical l).setReg64 (vltReg 0x028) cmapTable

/-- A write of half of VLT_TLBINV: ignored and counted while BUSY; the low half starts the invalidation (R253). -/
def tlbInv (r : Run z) (hi : Bool) (v : W32) : Run z :=
  let st := vltReg 0x038
  if r.s.fld st 31 31 = 1 then r.setFld st 15 0 (min 0xFFFF (r.s.fld st 15 0 + 1))
  else if hi then r.put (.vault { r.s.vault with tlbHi := v })
  else r.setFld st 31 31 1

/-! ## Block placement -/

/-- Where the bytes of a block that changes placement appear: folio (i, j) shows what folio (j, i) held (R255, R257). -/
def transposeAddr (a : Nat) : Nat :=
  a / 2 ^ 20 * 2 ^ 20 + bits a 15 12 * 2 ^ 16 + bits a 19 16 * 2 ^ 12 + a % 4096

/-- Change the placement of block b. -/
def permuteBlock (r : Run z) (b : Nat) : Run z :=
  let cells := r.s.mem.filter fun c => c.1 / 2 ^ 20 = b
  let r := r.each cells fun c r => r.setByte c.1 0
  let r := r.each cells fun c r => r.setByte (transposeAddr c.1) c.2
  let ue := r.s.vault.ue
  let moved := ue.filter fun w => w.1 / 2 ^ 15 = b
  let rest := ue.filter fun w => w.1 / 2 ^ 15 ≠ b
  r.put (.vault { r.s.vault with
    ue := moved.foldl (fun m w => SMap.insert m (transposeAddr (w.1 * 32) / 32) 1) rest })

/-- A write of VLT_LBLK_n: every block whose bit changes is permuted (R257). -/
def writeLblk (r : Run z) (n : Nat) (v : W32) : Run z :=
  let old := r.s.reg (vltReg (0x1000 + 4 * n))
  let r := r.each ((List.range 32).filter fun k => old.getLsbD k != v.getLsbD k) fun k r => r.permuteBlock (32 * n + k)
  r.setReg (vltReg (0x1000 + 4 * n)) v

/-! ## Weight windows -/

/-- STATUS of a window whose START is refused (R261). -/
def windowRefuse (r : Run z) (n status : Nat) : Run z := r.setRegN (vltReg (0x80C + 0x20 * n)) (status * 2 ^ 16)

/-- The word of a window descriptor. -/
def wdWord (d : Nat) (i : Nat) : Nat := d / 2 ^ (32 * i) % 2 ^ 32

/-- The chunk sizes of a pass, none when a table entry cannot be read or has an RSV bit set (R261). -/
def chunkSizes (s : State) (c : XCtx) (ctab : Nat) (n : Nat) : Option (List Nat) :=
  (List.range n).foldr (fun i acc =>
    match acc, readVirt s c (ctab + 4 * i) 4 with
    | some l, .ok w => if w / 2 ^ 16 = 0 then some (w :: l) else none
    | _, _ => none) (some [])

/-- Read and check a window descriptor: the window, or the status it is refused with (R261). -/
def windowOf (s : State) (c : XCtx) (n : Nat) : Except Nat Window :=
  match readVirt s c (s.reg64 (vltReg (0x800 + 0x20 * n))) 64 with
  | .error _ => .error stWinBadDesc
  | .ok d =>
    let count := wdWord d 4
    let ring := wdWord d 5
    let cap := bits ring 27 16 + 1
    let wfirst := bits ring 11 0
    let ncons := bits (wdWord d 6) 7 0
    let fill := wdWord d 7
    let free := wdWord d 8
    let src := d % 2 ^ 64
    let ctab := d / 2 ^ 64 % 2 ^ 64
    let rsv := bits count 30 16 != 0 || bits ring 31 28 != 0 || bits ring 15 12 != 0 || wdWord d 6 / 2 ^ 8 != 0 ||
      d / 2 ^ 288 != 0 || src % 4096 != 0 || ctab % 4 != 0
    match chunkSizes s c ctab (bits count 15 0) with
    | none => .error stWinBadDesc
    | some sizes =>
      if rsv || ncons = 0 || bits count 15 0 = 0 || cap > 4096 - wfirst ||
          sizes.any (fun x => x = 0 || x > cap) || (tallyOf s fill).isNone || (tallyOf s free).isNone then
        .error stWinBadDesc
      else if s.vault.windows.any fun w => decide (w.2.wfirst < wfirst + cap) && decide (wfirst < w.2.wfirst + w.2.cap)
      then .error stWinOverlap
      else .ok { xen := c.en, xroot := c.root, xuser := c.mode == .user, src := src, sizes := sizes
                 again := bit count 31, cap := cap, wfirst := wfirst, ncons := ncons, fill := fill, free := free }

/-- START of a window; ignored while it is active (R261). -/
def windowStart (r : Run z) (c : XCtx) (n : Nat) : Run z :=
  if (SMap.find? r.s.vault.windows n).isSome then r
  else
    let desc := r.s.reg64 (vltReg (0x800 + 0x20 * n))
    let (d, r) := r.readBlock c desc 64
    match windowOf r.s c n with
    | .error st => r.windowRefuse n st
    | .ok w =>
      let r := (r.readIn c (match d with | .ok d => d / 2 ^ 64 % 2 ^ 64 | .error _ => desc) (4 * w.sizes.length)).2
      let k := vltReg (0x808 + 0x20 * n)
      let r := (r.setRegN k 1).setRegN (k + 4) 0
      let r := ((r.setReg64 (k + 8) 0).setRegN (k + 0x10) 0).setRegN (k + 0x14) 0
      r.put (.vault { r.s.vault with windows := SMap.insert r.s.vault.windows n w })

/-- Replace an active window, with INFLIGHT as it shows. -/
def setWindow (r : Run z) (n : Nat) (w : Window) : Run z :=
  let r := r.put (.vault { r.s.vault with windows := SMap.insert r.s.vault.windows n w })
  r.setFld (vltReg (0x80C + 0x20 * n)) 2 0 w.inflight.length

/-- STOP of a window: it ends once its chunks in flight have landed (R264). -/
def windowStop (r : Run z) (n : Nat) : Run z :=
  match SMap.find? r.s.vault.windows n with
  | none => r
  | some w =>
    if w.inflight.isEmpty then r.endWindow n stWinStopped
    else (r.setFld (vltReg (0x808 + 0x20 * n)) 30 30 1).setWindow n { w with stopping := true }

end Run

namespace Window

/-- Sum of the sizes of the first n chunks of a pass. -/
def upto (w : Window) (n : Nat) : Nat := ((w.sizes.take n).foldl (· + ·) 0)

/-- F(g): folios of chunks 0 to g - 1 over the passes. -/
def before (w : Window) (g : Nat) : Nat :=
  g / w.sizes.length * w.upto w.sizes.length + w.upto (g % w.sizes.length)

/-- Size of chunk g. -/
def size (w : Window) (g : Nat) : Nat := w.sizes.getD (g % w.sizes.length) 0

/-- Chunks that the consumers have all released: floor(FREE / NCONS) (R262). -/
def released (w : Window) (s : State) : Nat :=
  match tallyOf s w.free with
  | some i => (s.tally i).value.toNat / w.ncons
  | none => 0

/-- Rights with which the stream is read. -/
def x (w : Window) : XCtx := { en := w.xen, root := w.xroot, mode := if w.xuser then .user else .mon }

end Window

/-- CHUNK_START: the filler starts the next chunk of a window (R262, R264). -/
def execChunkStart (n : Nat) (s : State) : Host.Outcome State Fault Refusal :=
  let r := Run.start s
  match SMap.find? s.vault.windows n with
  | none => done r
  | some w =>
    let g := w.next
    if !fwRuns s 1 || w.stopping || w.inflight.length ≥ 4 || (!w.again && g ≥ w.sizes.length) then done r
    else if g + 1 > 0xFFFFFFFF || w.ncons * (g + 1) > 0xFFFFFFFF then done (r.endWindow n stWinTallyLimit)
    else if w.before (g + 1) - w.before (w.released s) > w.cap then done r
    else done (r.setWindow n { w with next := g + 1, inflight := w.inflight ++ [g] })

/-- The first chunk in order that has not landed, given those that landed early. -/
def advanceFilled (early : List Nat) : Nat → Nat → Nat
  | 0, g => g
  | fuel + 1, g => if early.contains g then advanceFilled early fuel (g + 1) else g

/-- Copy a chunk's folios into the ring; none when a stream folio cannot be read or holds an uncorrectable word. -/
def chunkCopy {z : State} (r : Run z) (w : Window) (g : Nat) : Except (Nat × Run z) (Run z) :=
  let base := w.src + 4096 * w.upto (g % w.sizes.length)
  (List.range (w.size g)).foldl (fun acc k =>
    match acc with
    | .error e => .error e
    | .ok r =>
      match lookup r.s w.x .load (base + 4096 * k) with
      | .error _ => .error (stWinBadDesc, r)
      | .ok l =>
        match (List.range 512).find? fun i => r.s.isUe (l.pa + 8 * i) with
        | some i => .error (stUncorrectable, r.countUe (l.pa + 8 * i))
        | none =>
          let dst := 0x010000000000 + 4096 * (w.wfirst + (w.before g + k) % w.cap)
          let r := ((r.scrubWalk w.x (base + 4096 * k)).markUsed w.x .load l).scrub l.pa 4096
          .ok (r.storePhys (((List.range 4096).map (dst + ·)).zip (r.s.bytes l.pa 4096)))) (.ok r)

/-- CHUNK_LANDED: a chunk in flight lands, and FILL is signalled up to the last one landed in order (R262, R264). -/
def execChunkLanded (n g : Nat) (s : State) : Host.Outcome State Fault Refusal :=
  let r := Run.start s
  match SMap.find? s.vault.windows n with
  | none => done r
  | some w =>
    if !fwRuns s 1 || !w.inflight.contains g then done r
    else match chunkCopy r w g with
      | .error (st, r) => done (r.endWindow n st)
      | .ok r =>
        let early := g :: w.early
        let filled := advanceFilled early (early.length + 1) w.filled
        let w := { w with inflight := w.inflight.filter (· ≠ g), early := early.filter (· ≥ filled), filled := filled }
        let r := r.setWindow n w
        let landed := vltReg (0x810 + 0x20 * n)
        let r := r.setReg64 landed (r.s.reg64 landed + 1)
        let r := match tallyOf r.s w.fill with
          | some i => r.tsigAt i (BitVec.ofNat 32 filled)
          | none => r
        if w.stopping && w.inflight.isEmpty then done (r.endWindow n stWinStopped) else done r

/-- TLBINV_DONE: every translation cache has dropped the entry, and BUSY clears (R253). -/
def execTlbinvDone (s : State) : Host.Outcome State Fault Refusal := done ((Run.start s).setFld (vltReg 0x038) 31 31 0)

/-! ## Vault integrity -/

/-- PATROL_READ: the memory processor's patrol reads a word (R269, R294); err 1 is a corrected error, 2 an uncorrectable one, and a
single-bit error that stands is corrected (R266). -/
def execPatrolRead (pa err : Nat) (s : State) : Host.Outcome State Fault Refusal :=
  let r := Run.start s
  let v := (vaultOf s pa).1
  if pa ≥ 2 ^ 35 || !fwRuns s 1 || s.fld (vltReg 0x010) 15 8 = 0 || vaultState s v ≠ 0 then done r
  else if s.isUe pa then done (r.countUe pa)
  else if err = 1 || (SMap.find? s.vault.weak (pa / 32)).isSome && err ≠ 2 then done (r.correct pa)
  else if err = 2 then
    let r := r.put (.vault { s.vault with ue := SMap.insert s.vault.ue (pa / 32) 1 })
    done (r.countUe pa)
  else done r

/-- VAULT_REFRESH: a bank was unavailable, and accesses waited some of its 120 ns (R269). -/
def execVaultRefresh (v waited : Nat) (s : State) : Host.Outcome State Fault Refusal :=
  let r := Run.start s
  if v < 16 then done (r.bump (vltReg (0x11C + 0x20 * v)) (min waited 120)) else done r

/-- VAULT_RETRAIN_END: a retraining ends; three failures in a row put the vault DOWN (R266). -/
def execVaultRetrainEnd (v : Nat) (ok : Bool) (s : State) : Host.Outcome State Fault Refusal :=
  let r := Run.start s
  let k := vltReg (0x100 + 0x20 * v)
  let rest := s.vault.unanswered.filter fun w => (vaultOf s (w.1 * 32)).1 ≠ v
  if v ≥ 16 || vaultState s v ≠ 1 then done r
  else if ok then
    done ((r.put (.vault { s.vault with unanswered := rest, fails := SMap.erase s.vault.fails v })).setFld k 31 30 0)
  else
    let n := SMap.get 0 s.vault.fails v + 1
    let r := r.put (.vault { s.vault with unanswered := rest, fails := SMap.set 0 s.vault.fails v n })
    let r := r.when (n ≥ 3) fun r => ((r.setFld k 31 30 2).errEvent 2).put (.fix { r.s.fix with
      owed := r.s.fix.owed ++ [{ kind := 7, arg0 := v, time := s.now, boot := s.fix.boots }] })
    done r

end Sys2Proof.Machine
end

