-- ==== Sys2Proof/Machine/Clock.lean ====
section
/-! DEFINITION. What passing time counts: an idle step advances fabric time, and with it the counters that the spec states in
nanoseconds of a weight window (R264) and in ARITH cycles of a core (R265). -/

namespace Sys2Proof.Machine

/-- ARITH cycles of a core from the present to a fabric time (R22). -/
def arithCycles (s : State) (core t : Nat) : Nat := t * arithMhz s core / 1000 - s.now * arithMhz s core / 1000

/-- A TMMA waits under R128 while the accumulate port is idle (R265). -/
def stallDep (s : State) (core : Nat) : Bool :=
  let c := s.core core
  !(c.running.any fun t => t.op.port = 0) &&
    (match c.queue.find? fun t => t.op = .tmma with
      | some t => !mayStart s core t
      | none => false)

/-- The accumulate port is idle, the tensor queue is empty and a gang is live (R265). -/
def stallQueue (s : State) (core : Nat) : Bool :=
  let c := s.core core
  !(c.running.any fun t => t.op.port = 0) && c.queue.isEmpty && s.gangs.any fun kg => kg.1 / 128 = core && !kg.2.parked

/-- Every live gang, and there is one, is blocked in TWAIT, and no tensor instruction is in progress (R265; that there is one is
the model's reading, log 132). -/
def stallTwait (s : State) (core : Nat) : Bool :=
  let live := s.gangs.filter fun kg => kg.1 / 128 = core && !kg.2.parked
  !live.isEmpty && (s.core core).running.isEmpty && live.all fun kg => gangWaits s core (kg.1 % 128)

/-- Every landed chunk of a window has been released (R264). Before the first chunk has landed nothing starves: in the worked
example STARVED grows only while a chunk was late (log 132). -/
def Window.starved (w : Window) (s : State) : Bool := decide (0 < w.filled) && decide (w.filled ≤ w.released s)

/-- Fewer than 4 chunks are in flight and the next chunk waits on FREE (R262, R264). -/
def Window.full (w : Window) (s : State) : Bool :=
  !w.stopping && decide (w.inflight.length < 4) && (w.again || decide (w.next < w.sizes.length)) &&
    decide (w.before (w.next + 1) - w.before (w.released s) > w.cap)

namespace Run

variable {z : State}

/-- A core's stall counters count the cycles to a fabric time (R265). Which cause holds in a cycle of a carrel bank, or of a move's
data, is timing that the model leaves out (log 7). -/
def countStalls (r : Run z) (core t : Nat) : Run z :=
  let s := r.s
  let n := arithCycles s core t
  let r := r.when (stallDep s core) fun r => r.bump (coreReg core 0x08C) n
  let r := r.when (stallQueue s core) fun r => r.bump (coreReg core 0x090) n
  r.when (stallTwait s core) fun r => r.bump (coreReg core 0x094) n

/-- A window's counters count the nanoseconds to a fabric time (R264). -/
def countWindow (r : Run z) (n : Nat) (w : Window) (t : Nat) : Run z :=
  let s := r.s
  let r := r.when (w.starved s) fun r => r.bump (vltReg (0x818 + 0x20 * n)) (t - s.now)
  r.when (w.full s) fun r => r.bump (vltReg (0x81C + 0x20 * n)) (t - s.now)

/-- Time passes to the next idle step (R26, R28, R29); while the memory processor restarts, a window's registers keep their values
(R264), and a device that is halted or asleep counts nothing. -/
def idle (r : Run z) : Run z :=
  let t := r.s.tick
  let cores := (List.range 192).filter fun c => (SMap.find? r.s.cores c).isSome || r.s.gangs.any fun kg => kg.1 / 128 = c
  let r := if r.s.halted || !awake r.s then r
    else
      let r := r.each cores fun core r => r.countStalls core t
      r.when (fwRuns r.s 1) fun r => r.each r.s.vault.windows fun w r => r.countWindow w.1 w.2 t
  r.setNow t

end Run

end Sys2Proof.Machine
end

