-- ==== Sys2Proof/Machine/Alu.lean ====
section
/-! DEFINITION. Integer, immediate, compare and predicate instructions: the ALU group (R50, R51), ADDI to SHI, LI and
ADDX (R51), CMP (R52) and the PRED group (R53). -/

namespace Sys2Proof.Machine

/-- High half of the signed product (R50). -/
def mulHigh {w : Nat} (a b : BitVec w) : BitVec w := BitVec.ofInt w (a.toInt * b.toInt / 2 ^ w)

/-- High half of the unsigned product (R50). -/
def mulHighU {w : Nat} (a b : BitVec w) : BitVec w := BitVec.ofNat w (a.toNat * b.toNat / 2 ^ w)

/-- Signed quotient with the fixed results of R51. -/
def divS {w : Nat} (a b : BitVec w) : BitVec w := if b = 0 then BitVec.allOnes w else a.sdiv b

/-- Unsigned quotient with the fixed result of R51. -/
def divU {w : Nat} (a b : BitVec w) : BitVec w := if b = 0 then BitVec.allOnes w else a / b

/-- Signed remainder, with the sign of the dividend (R50, R51). -/
def remS {w : Nat} (a b : BitVec w) : BitVec w := if b = 0 then a else a.srem b

/-- Unsigned remainder (R51). -/
def remU {w : Nat} (a b : BitVec w) : BitVec w := if b = 0 then a else a % b

/-- Count of leading zeros, from 0 to w (R50). -/
def leadingZeros {w : Nat} (a : BitVec w) : BitVec w :=
  BitVec.ofNat w (if a = 0 then w else w - 1 - Nat.log2 a.toNat)

/-- Count of set bits (R50). -/
def setBitsOf {w : Nat} (a : BitVec w) : BitVec w :=
  BitVec.ofNat w ((List.range w).filter fun i => a.getLsbD i).length

/-- The ALU group on one agent: 64-bit or sign-extended 32-bit operands on a hart, 32-bit in a lane (R50). -/
def aluGroup (i : Instr) (ag : Agent) (w32 : Bool) (f : R3) (bZero : Bool)
    (op : (w : Nat) → BitVec w → BitVec w → BitVec w) (s : State) : Host.Outcome State Fault Refusal :=
  let isLane := match ag with | .lane .. => true | _ => false
  done <| compute (Run.start s) i ag .both ((!bZero || f.b = 0) && !(isLane && w32)) f.guard
    [f.d.toNat, f.a.toNat, f.b.toNat]
    (fun _ h =>
      let a := h.rg f.a
      let b := h.rg f.b
      .next (h.wg f.d
        (if w32 then (op 32 (a.truncate 32) (b.truncate 32)).signExtend 64 else op 64 a b)))
    (fun _ t => t.wg f.d.toNat (op 32 (t.rg f.a.toNat) (t.rg f.b.toNat)))

/-- ADD (R50, R51). -/
def execAdd (ag : Agent) (w32 : Bool) (f : R3) (s : State) : Host.Outcome State Fault Refusal :=
  aluGroup (.add ag w32 f) ag w32 f false (fun _ a b => a + b) s

/-- SUB (R50, R51). -/
def execSub (ag : Agent) (w32 : Bool) (f : R3) (s : State) : Host.Outcome State Fault Refusal :=
  aluGroup (.sub ag w32 f) ag w32 f false (fun _ a b => a - b) s

/-- MUL (R50, R51). -/
def execMul (ag : Agent) (w32 : Bool) (f : R3) (s : State) : Host.Outcome State Fault Refusal :=
  aluGroup (.mul ag w32 f) ag w32 f false (fun _ a b => a * b) s

/-- MULH (R50, R51). -/
def execMulh (ag : Agent) (w32 : Bool) (f : R3) (s : State) : Host.Outcome State Fault Refusal :=
  aluGroup (.mulh ag w32 f) ag w32 f false (fun _ a b => mulHigh a b) s

/-- MULHU (R50, R51). -/
def execMulhu (ag : Agent) (w32 : Bool) (f : R3) (s : State) : Host.Outcome State Fault Refusal :=
  aluGroup (.mulhu ag w32 f) ag w32 f false (fun _ a b => mulHighU a b) s

/-- DIV (R50, R51). -/
def execDiv (ag : Agent) (w32 : Bool) (f : R3) (s : State) : Host.Outcome State Fault Refusal :=
  aluGroup (.div ag w32 f) ag w32 f false (fun _ a b => divS a b) s

/-- DIVU (R50, R51). -/
def execDivu (ag : Agent) (w32 : Bool) (f : R3) (s : State) : Host.Outcome State Fault Refusal :=
  aluGroup (.divu ag w32 f) ag w32 f false (fun _ a b => divU a b) s

/-- REM (R50, R51). -/
def execRem (ag : Agent) (w32 : Bool) (f : R3) (s : State) : Host.Outcome State Fault Refusal :=
  aluGroup (.rem ag w32 f) ag w32 f false (fun _ a b => remS a b) s

/-- REMU (R50, R51). -/
def execRemu (ag : Agent) (w32 : Bool) (f : R3) (s : State) : Host.Outcome State Fault Refusal :=
  aluGroup (.remu ag w32 f) ag w32 f false (fun _ a b => remU a b) s

/-- AND (R50, R51). -/
def execAnd (ag : Agent) (w32 : Bool) (f : R3) (s : State) : Host.Outcome State Fault Refusal :=
  aluGroup (.and ag w32 f) ag w32 f false (fun _ a b => a &&& b) s

/-- OR (R50, R51). -/
def execOr (ag : Agent) (w32 : Bool) (f : R3) (s : State) : Host.Outcome State Fault Refusal :=
  aluGroup (.or ag w32 f) ag w32 f false (fun _ a b => a ||| b) s

/-- XOR (R50, R51). -/
def execXor (ag : Agent) (w32 : Bool) (f : R3) (s : State) : Host.Outcome State Fault Refusal :=
  aluGroup (.xor ag w32 f) ag w32 f false (fun _ a b => a ^^^ b) s

/-- SHL (R50, R51). -/
def execShl (ag : Agent) (w32 : Bool) (f : R3) (s : State) : Host.Outcome State Fault Refusal :=
  aluGroup (.shl ag w32 f) ag w32 f false (fun w a b => a <<< (b.toNat % w)) s

/-- SHR (R50, R51). -/
def execShr (ag : Agent) (w32 : Bool) (f : R3) (s : State) : Host.Outcome State Fault Refusal :=
  aluGroup (.shr ag w32 f) ag w32 f false (fun w a b => a >>> (b.toNat % w)) s

/-- SRA (R50, R51). -/
def execSra (ag : Agent) (w32 : Bool) (f : R3) (s : State) : Host.Outcome State Fault Refusal :=
  aluGroup (.sra ag w32 f) ag w32 f false (fun w a b => a.sshiftRight (b.toNat % w)) s

/-- MIN (R50, R51). -/
def execMin (ag : Agent) (w32 : Bool) (f : R3) (s : State) : Host.Outcome State Fault Refusal :=
  aluGroup (.min ag w32 f) ag w32 f false (fun _ a b => if a.slt b then a else b) s

/-- MINU (R50, R51). -/
def execMinu (ag : Agent) (w32 : Bool) (f : R3) (s : State) : Host.Outcome State Fault Refusal :=
  aluGroup (.minu ag w32 f) ag w32 f false (fun _ a b => if a.ult b then a else b) s

/-- MAX (R50, R51). -/
def execMax (ag : Agent) (w32 : Bool) (f : R3) (s : State) : Host.Outcome State Fault Refusal :=
  aluGroup (.max ag w32 f) ag w32 f false (fun _ a b => if a.slt b then b else a) s

/-- MAXU (R50, R51). -/
def execMaxu (ag : Agent) (w32 : Bool) (f : R3) (s : State) : Host.Outcome State Fault Refusal :=
  aluGroup (.maxu ag w32 f) ag w32 f false (fun _ a b => if a.ult b then b else a) s

/-- CLZ (R50, R51). -/
def execClz (ag : Agent) (w32 : Bool) (f : R3) (s : State) : Host.Outcome State Fault Refusal :=
  aluGroup (.clz ag w32 f) ag w32 f true (fun _ a _ => leadingZeros a) s

/-- POPC (R50, R51). -/
def execPopc (ag : Agent) (w32 : Bool) (f : R3) (s : State) : Host.Outcome State Fault Refusal :=
  aluGroup (.popc ag w32 f) ag w32 f true (fun _ a _ => setBitsOf a) s

/-- ADDP: a 64-bit pair plus a sign-extended gB, lane profile only (R50). -/
def execAddp (ag : Agent) (w32 : Bool) (f : R3) (s : State) : Host.Outcome State Fault Refusal :=
  done <| compute (Run.start s) (.addp ag w32 f) ag .lane (!w32 && pairOk f.d && pairOk f.a) f.guard
    (pairRegs f.d ++ pairRegs f.a ++ [f.b.toNat])
    (fun _ _ => .stall)
    (fun _ t => t.wgPair f.d.toNat
      (BitVec.ofNat 64 (t.rgPair f.a.toNat) + (t.rg f.b.toNat).signExtend 64).toNat)

/-- The immediate forms: op of gA and an immediate of each profile's width (R51). -/
def immGroup (i : Instr) (ag : Agent) (legal : Bool) (guard : BitVec 4) (d a : BitVec 5)
    (op : (w : Nat) → BitVec w → BitVec w) (s : State) : Host.Outcome State Fault Refusal :=
  done <| compute (Run.start s) i ag .both legal guard [d.toNat, a.toNat]
    (fun _ h => .next (h.wg d (op 64 (h.rg a))))
    (fun _ t => t.wg d.toNat (op 32 (t.rg a.toNat)))

/-- ADDI: gA plus the sign-extended immediate (R51). -/
def execAddi (ag : Agent) (f : I3) (s : State) : Host.Outcome State Fault Refusal :=
  immGroup (.addi ag f) ag true f.guard f.d f.a (fun w a => a + f.imm.signExtend w) s

/-- ANDI (R51). -/
def execAndi (ag : Agent) (f : I3) (s : State) : Host.Outcome State Fault Refusal :=
  immGroup (.andi ag f) ag true f.guard f.d f.a (fun w a => a &&& f.imm.signExtend w) s

/-- ORI (R51). -/
def execOri (ag : Agent) (f : I3) (s : State) : Host.Outcome State Fault Refusal :=
  immGroup (.ori ag f) ag true f.guard f.d f.a (fun w a => a ||| f.imm.signExtend w) s

/-- XORI (R51). -/
def execXori (ag : Agent) (f : I3) (s : State) : Host.Outcome State Fault Refusal :=
  immGroup (.xori ag f) ag true f.guard f.d f.a (fun w a => a ^^^ f.imm.signExtend w) s

/-- The shift of SHI: left, right logically or right arithmetically by imm11[5:0] mod w (R51). -/
def shiftImm (imm : BitVec 11) (w : Nat) (a : BitVec w) : BitVec w :=
  let n := bits imm.toNat 5 0 % w
  match bits imm.toNat 7 6 with
  | 0 => a <<< n
  | 1 => a >>> n
  | _ => a.sshiftRight n

/-- SHI; 0b11 in imm11[7:6] and any bit of imm11[10:8] are illegal (R51). -/
def execShi (ag : Agent) (f : I3) (s : State) : Host.Outcome State Fault Refusal :=
  immGroup (.shi ag f) ag (bits f.imm.toNat 7 6 ≠ 3 && bits f.imm.toNat 10 8 = 0) f.guard f.d f.a
    (shiftImm f.imm) s

/-- LI: gD takes imm32, sign-extended in the host profile (R51). -/
def execLi (ag : Agent) (f : X3) (s : State) : Host.Outcome State Fault Refusal :=
  immGroup (.li ag f) ag (f.a = 0 && f.b = 0 && f.func = 0) f.guard f.d 0 (fun w _ => f.imm.signExtend w) s

/-- ADDX: gA plus the sign-extended imm32 (R51). -/
def execAddx (ag : Agent) (f : X3) (s : State) : Host.Outcome State Fault Refusal :=
  immGroup (.addx ag f) ag (f.b = 0 && f.func = 0) f.guard f.d f.a (fun w a => a + f.imm.signExtend w) s

/-- CMP: an integer or FP32 condition into gD on a hart, into pD in a lane (R52). -/
def execCmp (ag : Agent) (func : BitVec 6) (f : R3) (s : State) : Host.Outcome State Fault Refusal :=
  let isLane := match ag with | .lane .. => true | _ => false
  let c := func.toNat
  done <| compute (Run.start s) (.cmp ag func f) ag .both (condOk func && !(isLane && f.d.toNat ≥ 8)) f.guard
    [f.a.toNat, f.b.toNat]
    (fun fw h =>
      if condIsFp c then
        if fw || !h.fpen then .trap .fpDisabled (wordsOf (.cmp ag func f)).w0.toNat
        else
          let (v, fl) := Fp.fcmp c (h.rf f.a) (h.rf f.b)
          .next ((h.wg f.d (BitVec.ofNat 64 (b2n v))).addFlags fl)
      else .next (h.wg f.d (BitVec.ofNat 64 (b2n (intCond c (h.rg f.a) (h.rg f.b))))))
    (fun _ t =>
      let a := t.rg f.a.toNat
      let b := t.rg f.b.toNat
      t.wp f.d.toNat (if condIsFp c then (Fp.fcmp c a b).1 else intCond c a b))

/-- A PRED instruction, in the lane profile only; predicate fields use their low three bits (R53). -/
def predGroup (i : Instr) (ag : Agent) (legal : Bool) (guard : BitVec 4) (regs : List Nat)
    (op : Thread → Thread) (s : State) : Host.Outcome State Fault Refusal :=
  done <| compute (Run.start s) i ag .lane legal guard regs (fun _ _ => .stall) (fun _ t => op t)

/-- All three predicate fields name p0 to p7 (R53). -/
def pred3 (f : R3) : Bool := f.d.toNat < 8 && f.a.toNat < 8 && f.b.toNat < 8

/-- PAND (R53). -/
def execPand (ag : Agent) (f : R3) (s : State) : Host.Outcome State Fault Refusal :=
  predGroup (.pand ag f) ag (pred3 f) f.guard [] (fun t => t.wp f.d.toNat (t.rp f.a.toNat && t.rp f.b.toNat)) s

/-- POR (R53). -/
def execPor (ag : Agent) (f : R3) (s : State) : Host.Outcome State Fault Refusal :=
  predGroup (.por ag f) ag (pred3 f) f.guard [] (fun t => t.wp f.d.toNat (t.rp f.a.toNat || t.rp f.b.toNat)) s

/-- PXOR (R53). -/
def execPxor (ag : Agent) (f : R3) (s : State) : Host.Outcome State Fault Refusal :=
  predGroup (.pxor ag f) ag (pred3 f) f.guard [] (fun t => t.wp f.d.toNat (t.rp f.a.toNat != t.rp f.b.toNat)) s

/-- PANDN (R53). -/
def execPandn (ag : Agent) (f : R3) (s : State) : Host.Outcome State Fault Refusal :=
  predGroup (.pandn ag f) ag (pred3 f) f.guard [] (fun t => t.wp f.d.toNat (t.rp f.a.toNat && !t.rp f.b.toNat)) s

/-- PNOT; B must be 0 (R53). -/
def execPnot (ag : Agent) (f : R3) (s : State) : Host.Outcome State Fault Refusal :=
  predGroup (.pnot ag f) ag (pred3 f && f.b = 0) f.guard [] (fun t => t.wp f.d.toNat (!t.rp f.a.toNat)) s

/-- P2G (R53). -/
def execP2g (ag : Agent) (f : R3) (s : State) : Host.Outcome State Fault Refusal :=
  predGroup (.p2g ag f) ag (f.a.toNat < 8 && f.b = 0) f.guard [f.d.toNat]
    (fun t => t.wg f.d.toNat (BitVec.ofNat 32 (b2n (t.rp f.a.toNat)))) s

/-- G2P (R53). -/
def execG2p (ag : Agent) (f : R3) (s : State) : Host.Outcome State Fault Refusal :=
  predGroup (.g2p ag f) ag (f.d.toNat < 8 && f.b = 0) f.guard [f.a.toNat]
    (fun t => t.wp f.d.toNat (t.rg f.a.toNat != 0)) s

end Sys2Proof.Machine
end

