-- ==== Sys2Proof/Machine/TensorRun.lean ====
section
/-! DEFINITION. What tensor instructions do when they finish: the matrix product (R116 to R122, R171, R173), draining
(R132, R153, R157), rescaling (R136), recirculation (R138 to R140), checkpoints (R141), rotary position, masks and online
softmax (R191 to R203), folio moves (R258 to R260) and the Prism feed (R174 to R176). -/

namespace Sys2Proof.Machine

/-! ## Cells -/

/-- The exact value of a cell as an A40 bank holds it; a CLEAR bank reads 0 (R120). -/
def cellVal (b : Bank) (i j : Nat) : Fp.Val :=
  match b.fmt with
  | .a40 => Fp.a40.value (b.cell i j).toNat
  | .int32 => Fp.Val.ofInt (b.cell i j).toInt
  | .clear => .fin false 0 0

/-- The INT32 value of a cell (R120). -/
def cellInt (b : Bank) (i j : Nat) : Int :=
  match b.fmt with
  | .int32 => sext 32 (b.cell i j).toNat
  | _ => 0

/-- Change every cell of some rows and columns. -/
def Bank.mapCells (b : Bank) (rows cols : List Nat) (f : Nat → Nat → BitVec 40) : Bank :=
  rows.foldl (fun b i => cols.foldl (fun b j => b.setCell i j (f i j)) b) b

/-- Every cell 0 and the format CLEAR (R119). -/
def Bank.clear (b : Bank) : Bank := { b with fmt := .clear, cells := [] }

/-! ## The product -/

/-- One broadcast into an A40 cell: the exact products of its K-steps are added exactly, then to the cell with one rounding
(R117). -/
def macA40 (cell : Fp.Val) (products : List Fp.Val) : Fp.Val :=
  match products with
  | [] => cell
  | p :: ps =>
    let sum := ps.foldl (Fp.Val.add .nearest) p
    Fp.a40.value (Fp.toA40 (Fp.Val.add .nearest cell sum))

/-- The K-steps of broadcast n; an odd last one carries a zero product in place of the second (R122): +0 (DESIGN CHOICE, log 122). -/
def stepsOf (k s n : Nat) (f : Nat → Fp.Val) : List Fp.Val :=
  (List.range s).map fun i => if n * s + i < k then f (n * s + i) else .fin false 0 0

/-- The A40 result of a cell over all broadcasts. -/
def accA40 (start : Fp.Val) (k s : Nat) (prod : Nat → Fp.Val) : BitVec 40 :=
  BitVec.ofNat 40 (Fp.toA40 ((List.range (cdiv k s)).foldl (fun c n => macA40 c (stepsOf k s n prod)) start))

/-- The INT32 result of a cell over all broadcasts, saturating after each (R117). -/
def accInt (start : Int) (k s : Nat) (prod : Nat → Int) : BitVec 40 :=
  Fp.cellOfInt ((List.range (cdiv k s)).foldl (fun c n =>
    Fp.satInt32 (c + ((List.range s).foldl (fun t i => if n * s + i < k then t + prod (n * s + i) else t) 0))) start)

/-- Row input k of row i on the recirculation path, converted to the feedback format to nearest-even (R137, R139, R156). -/
def recValue (c : Core) (l : List (Nat × Nat × Nat)) (i k : Nat) : Fp.Val :=
  match l with
  | [] => .fin false 0 0
  | (b, cols, fmt) :: rest =>
    if k < cols then
      match cellVal (c.bank b) i k with
      | .inf n => .inf n
      | v => Fp.valueOf fmt (Fp.convert fmt false .nearest v).bits
    else recValue c rest i (k - cols)

/-- The row operand of a TMMA: value of row i at K-step k, for column j where PRISM gives each column its own. -/
def rowValue (s : State) (core : Nat) (t : TInstr) (i k j : Nat) : Fp.Val :=
  if bit t.imm.toNat 3 then recValue (s.core core) t.recList i k
  else if bit t.imm.toNat 1 then
    let d := WDesc.ofBits t.tdA
    Fp.valueOf d.fmt (d.tap s t.map i (k / d.kw) (k % d.kw) (d.cb + j))
  else if bit t.imm.toNat 2 then
    let d := WDesc.ofBits t.tdA
    let tap := k / d.gc
    Fp.valueOf d.fmt (d.tap s t.map i (tap / d.kw) (tap % d.kw) (d.cb + k % d.gc))
  else (TDesc.ofBits t.tdA).value s t.map i k

/-- The product of a row value and a column value. A value fed back as FP32 is split into the top 12 bits of its significand
and the other 12, each multiplied in its own pass and the two products added exactly (R140). An infinite value is all in its high
part, with a low part of +0 (DESIGN CHOICE, log 126). -/
def passProduct (dual : Bool) (a b : Fp.Val) : Fp.Val :=
  if !dual then Fp.Val.mul a b
  else match a with
    | .fin n m e => Fp.Val.add .nearest (Fp.Val.mul (.fin n (m / 4096) (e + 12)) b) (Fp.Val.mul (.fin n (m % 4096) e) b)
    | v => Fp.Val.add .nearest (Fp.Val.mul v b) (Fp.Val.mul (.fin false 0 0) b)

/-- An exact integer value. -/
def intOfVal (v : Fp.Val) : Int :=
  match v with
  | .fin n m e => let x : Int := ((Fp.quotient m e 0).1 : Nat); if n then -x else x
  | _ => 0

/-- Rows, K-steps per broadcast and cycles per broadcast of a TMMA (R122, R140, R172, R173). -/
def mmaShape (t : TInstr) : Nat × Nat × Nat :=
  let b := TDesc.ofBits t.tdB
  if bit t.imm.toNat 1 then
    let d := WDesc.ofBits t.tdA
    (d.npix, 1, pairCycles b.fmt)
  else if bit t.imm.toNat 2 then
    let d := WDesc.ofBits t.tdA
    (d.npix, pairSteps d.fmt b.fmt, pairCycles b.fmt)
  else
    let a := TDesc.ofBits t.tdA
    if bit t.imm.toNat 3 then
      let f := recFmt t.recList a.fmt
      (a.d1, pairSteps (rowFmt f) b.fmt, pairCycles b.fmt * (if f = 0 then 4 else 1))
    else (a.d1, pairSteps a.fmt b.fmt, pairCycles b.fmt)

/-- The bank after a TMMA (R69, R117, R119, R133). -/
def mmaBank (s : State) (core : Nat) (t : TInstr) : Bank :=
  let b := TDesc.ofBits t.tdB
  let old := (s.core core).bank t.bank
  let old := if bit t.imm.toNat 0 then old.clear else old
  let (rows, steps, _) := mmaShape t
  let int := Fp.isInt b.fmt
  let dual := bit t.imm.toNat 3 && recFmt t.recList (TDesc.ofBits t.tdA).fmt = 0
  let cells := old.mapCells (List.range rows) (List.range b.d1) fun i j =>
    if int then
      accInt (cellInt old i j) b.d0 steps fun k =>
        intOfVal (rowValue s core t i k j) * intOfVal (b.value s t.map j k)
    else
      accA40 (cellVal old i j) b.d0 steps fun k =>
        passProduct dual (rowValue s core t i k j) (b.value s t.map j k)
  let zp := if bit t.imm.toNat 1 || bit t.imm.toNat 2 then sext 8 (WDesc.ofBits t.tdA).zp
    else (TDesc.ofBits t.tdA).zpInt
  { cells with fmt := if int then .int32 else .a40, zpb := if int then zp else cells.zpb }

/-! ## Draining -/

/-- Statistics of one drained value: magnitude as FP32 rounded up, and whether it is NaN or infinite (R157). -/
def statOf (v : Fp.Val) : Nat × Bool × Bool := (Fp.magUp v, v.isNan, v.isInf)

/-- Key of a bank's statistics set (R157). -/
def qReg (core bank off : Nat) : Nat := coreReg core (0x200 + 0x200 * bank + off)

namespace Run

variable {z : State}

/-- The gatherer receives a drained value of column j (R157). -/
def gatherStat (r : Run z) (core bank j fmt : Nat) (v : Fp.Val) (sat : Bool) : Run z :=
  let (mag, nan, inf) := statOf v
  let raise := fun (r : Run z) k => if (r.s.reg k).toNat < mag then r.setRegN k mag else r
  let r := if nan then r else raise (raise r (qReg core bank 0)) (qReg core bank (0x100 + 4 * j))
  let r := (r.bump (qReg core bank 8)).when sat fun r => r.bump (qReg core bank 4)
  let k := qReg core bank 0x0C
  let r := r.when nan fun r => r.setFld k 0 0 1
  let r := r.when inf fun r => r.setFld k 1 1 1
  if r.s.fld k 3 3 = 0 then (r.setFld k 3 3 1).setFld k 7 4 fmt
  else r.when (r.s.fld k 7 4 ≠ fmt) fun r => r.setFld k 2 2 1

/-- One draw of a gang's tensor generator (R151, R152). -/
def drawTen (r : Run z) (core g : Nat) : Nat × Run z :=
  match r.s.gang? core g with
  | none => (0, r)
  | some x =>
    let a := x.tenRng ^^^ (x.tenRng <<< 13)
    let b := a ^^^ (a >>> 17)
    let c := b ^^^ (b <<< 5)
    (c.toNat / 65536, r.setGang core g { x with tenRng := c })

/-- Drain one cell (R132). `out` is tdC as it is written, `c` as the instruction names it. -/
def drainCell (r : Run z) (core : Nat) (t : TInstr) (c out : TDesc) (i j : Nat) : Run z :=
  let bank := (r.s.core core).bank t.bank
  let b := TDesc.ofBits t.tdB
  let corr : Int :=
    if bit t.imm.toNat 1 && bank.fmt = .int32 then
      bank.zpb * Fp.toSigned 32 (Fp.convInt 32 .zero (b.value r.s t.map 0 j)).bits
    else 0
  let v := match bank.fmt with
    | .a40 => cellVal bank i j
    | _ => Fp.Val.ofInt (Fp.satInt32 (cellInt bank i j - corr))
  let (draw, r) := if out.rnd = 2 then r.drawTen core t.gang else (0, r)
  let rnd : Fp.Rnd := match out.rnd with
    | 0 => .nearest | 1 => .zero | _ => .stochastic draw
  let cv := Fp.convert out.fmt false rnd v
  let sat := cv.sat || (v.isNan && Fp.isInt out.fmt)
  let r := if c.stat then r.gatherStat core t.bank j c.fmt v sat else r
  let r := r.writeElem out t.map i j cv.bits
  if bit t.imm.toNat 0 then
    let k := r.s.core core
    r.setCore core (k.setBank t.bank ((k.bank t.bank).setCell i j 0))
  else r

/-- TDRAIN: cells in row order, then a full CLR makes the bank CLEAR (R119, R132). -/
def drainAll (r : Run z) (core : Nat) (x : Gang) (t : TInstr) : Run z :=
  let c := TDesc.ofBits t.tdC
  let out := (rerunDesc r.s x c).getD c
  let r := r.each (List.range c.d1) fun i r => r.each (List.range c.d0) fun j r => r.drainCell core t c out i j
  if bit t.imm.toNat 0 && c.d1 = 32 && c.d0 = 64 then
    let k := r.s.core core
    r.setCore core (k.setBank t.bank (k.bank t.bank).clear)
  else r

/-! ## Rescaling, recirculation, checkpoints -/

/-- Replace a bank of a core. -/
def setBank (r : Run z) (core bank : Nat) (b : Bank) : Run z := r.setCore core ((r.s.core core).setBank bank b)

/-- ACC.SCALE (R136). -/
def scaleRows (r : Run z) (core : Nat) (t : TInstr) : Run z :=
  let a := TDesc.ofBits t.tdA
  let b := (r.s.core core).bank t.bank
  if b.fmt = .clear then r
  else r.setBank core t.bank (b.mapCells (List.range a.d0) (List.range 64) fun i j =>
    BitVec.ofNat 40 (Fp.toA40 (Fp.Val.mul (cellVal b i j) (a.value r.s t.map 0 i))))

/-- TREC: marked rows take their initial state (R138); the bank then holds A40 cells. -/
def recMarks (r : Run z) (core : Nat) (t : TInstr) : Run z :=
  if t.gval = 0 then r
  else
    let a := TDesc.ofBits t.tdA
    let b := (r.s.core core).bank t.bank
    let rows := (List.range 32).filter fun i => t.gval.getLsbD i
    let b := b.mapCells rows (List.range a.d0) fun i j => BitVec.ofNat 40 (Fp.toA40 (a.value r.s t.map i j))
    r.setBank core t.bank { b with fmt := .a40 }

/-- STATE.AUDIT: count, and at the count write the bank in 8-byte containers (R70, R141). -/
def auditBank (r : Run z) (core : Nat) (t : TInstr) : Run z :=
  let b := (r.s.core core).bank t.bank
  if !auditDue b t then r.setBank core t.bank { b with audit := b.audit + 1 }
  else
    let base := (TDesc.ofBits t.tdC).base
    let r := r.setBank core t.bank { b with audit := 0 }
    r.each (List.range 2048) fun n r =>
      let a := SMap.get 0 t.map (base + n / 512) * 4096 + 8 * (n % 512)
      r.store a 8 (SMap.get 0 b.cells n).toNat

end Run

/-! ## Rotary position (R192) -/

/-- 2 pi in 128 bits, three before the point. -/
def twoPi128 : Nat := 267257146016241686964920093290467695825

/-- Sine and cosine of an angle below 2 pi, in units of 2^-125, by their series; results in units of 2^-96. -/
def trigFix (x : Nat) : Int × Int :=
  let y : Int := (x / 2 ^ 29 : Nat)
  let one : Int := (2 : Int) ^ 96
  let step := fun (acc : Int × Int × Int) (n : Nat) =>
    let term := acc.1 * y / one / (n + 1)
    if n % 2 = 0 then (term, (if n / 2 % 2 = 0 then acc.2.1 + term else acc.2.1 - term), acc.2.2)
    else (term, acc.2.1, (if n / 2 % 2 = 0 then acc.2.2 - term else acc.2.2 + term))
  let (_, sn, cs) := (List.range 60).foldl step (one, 0, one)
  (sn, cs)

/-- An integer in units of 2^-96 as an exact value. -/
def fix96 (i : Int) : Fp.Val := .fin (i < 0) i.natAbs (-96)

/-- Take an offered FP32 value when it lies within n * 2^k of a reference, else the reference rounded. -/
def offered (o : W32) (ref : Fp.Val) (n : Nat) (k : Int) : W32 :=
  match Fp.fp32.value o.toNat with
  | .fin a m e => if Fp.within (.fin a m e) ref n k then o else BitVec.ofNat 32 (Fp.fp32.round .nearest ref).1
  | _ => BitVec.ofNat 32 (Fp.fp32.round .nearest ref).1

/-- An offered FP32 value when it lies from -1 to 1, else 1. -/
def offeredUnit (o : W32) : W32 :=
  match Fp.fp32.value o.toNat with
  | .fin a m e => if Fp.Val.cmp (.fin false m e) (.fin false 1 0) ≤ 0 then (let _ := a; o) else 0x3F800000
  | _ => 0x3F800000

/-- cos (false) or sin (true) of n times a frequency, as FP32 (R192 step 3). -/
def ropeTrig (sine : Bool) (n : W32) (w : W32) : W32 :=
  let o := Config.ropeOffer sine n w
  match Fp.Val.mul (Fp.Val.ofInt n.toNat) (Fp.fp32.value w.toNat) with
  | .fin neg m e =>
    if Fp.fp32.value w.toNat |>.isNan then 0x7FC00000
    else if Fp.Val.cmp (.fin false m e) (.fin false 1 64) ≥ 0 then offeredUnit o
    else
      let x := (Fp.quotient m (e + 125) 0).1 % twoPi128
      let (sn, cs) := trigFix x
      offered o (fix96 (if sine then (if neg then -sn else sn) else cs)) 1 (-22)
  | _ => 0x7FC00000

/-- An infinite or NaN frequency gives NaN for both (R192). -/
def ropePair (n w : W32) : W32 × W32 :=
  match Fp.fp32.value w.toNat with
  | .fin .. => (ropeTrig false n w, ropeTrig true n w)
  | _ => (0x7FC00000, 0x7FC00000)

/-- Round an exact value to FP32 to nearest-even. -/
def to32 (v : Fp.Val) : W32 := BitVec.ofNat 32 (Fp.fp32.round .nearest v).1

namespace Run

variable {z : State}

/-- ROPE, row by row; each row is read before it is written (R192, R193). -/
def ropeRows (r : Run z) (t : TInstr) : Run z :=
  let a := TDesc.ofBits t.tdA
  let b := TDesc.ofBits t.tdB
  let c := TDesc.ofBits t.tdC
  let np := bits t.imm.toNat 12 8 + 1
  let half := bit t.imm.toNat 0
  r.each (List.range a.d1) fun i r =>
    let row := (List.range a.d0).map fun k => a.value r.s t.map i k
    let n := t.gval + BitVec.ofNat 32 (i % np)
    let trig := (List.range (a.d0 / 2)).map fun p => ropePair n (BitVec.ofNat 32 (b.read r.s t.map 0 p))
    r.each (List.range (a.d0 / 2)) fun p r =>
      let ia := if half then p else 2 * p
      let ib := if half then p + a.d0 / 2 else 2 * p + 1
      let (cw, sw) := trig.getD p (0, 0)
      let cv := Fp.fp32.value cw.toNat
      let sv := Fp.fp32.value sw.toNat
      let xa := row.getD ia .nan
      let xb := row.getD ib .nan
      let ya := to32 (Fp.Val.add .nearest (Fp.Val.mul xa cv) (Fp.Val.mul xb sv).neg)
      let yb := to32 (Fp.Val.add .nearest (Fp.Val.mul xa sv) (Fp.Val.mul xb cv))
      let put := fun (r : Run z) k (y : W32) =>
        r.writeElem c t.map i k (Fp.convert c.fmt false .nearest (Fp.fp32.value y.toNat)).bits
      put (put r ia ya) ib yb

/-! ## Masks (R194, R195) -/

/-- TMASK: the masked cells become -infinity, and the bank A40. -/
def maskCells (r : Run z) (core : Nat) (t : TInstr) : Run z :=
  let a := TDesc.ofBits t.tdA
  let rs := 8 * (bits t.imm.toNat 10 0 + 1)
  let nr := bits t.imm.toNat 20 16 + 1
  let g := t.gval.toNat
  let b := (r.s.core core).bank t.bank
  let b := b.mapCells (List.range nr) (List.range 64) fun i j =>
    let keep := decide (g + j < 8 * rs) && bit (a.read r.s t.map 0 (i * rs + (g + j) / 8)) ((g + j) % 8)
    if keep then b.cell i j else 0xFF80000000
  r.setBank core t.bank { b with fmt := .a40 }

end Run

/-! ## Online softmax (R196 to R203) -/

/-- The exp2 unit of TSMAX on an exact argument at or below 0 (R198). -/
def smExp2 (v : Fp.Val) : W32 :=
  match v with
  | .nan => 0x7FC00000
  | .inf true => 0
  | .inf false => 0x7F800000
  | .fin neg m e =>
    let k := (Fp.quotient m e 0).1
    let exact := (Fp.quotient m e 0).2.1 = 0
    if exact && decide (k ≤ 126) then BitVec.ofNat 32 ((127 - k) * 2 ^ 23)
    else if Fp.Val.cmp (.fin false m e) (.fin false 150 0) > 0 then 0
    else
      let (em, ee) := Fp.exp2Ref neg m e
      let ref := Fp.Val.fin false em ee
      offered (Config.exp2Offer m e) ref 2 (Fp.ulpExp ref)

/-- The larger of two FP32 values, NaN when either is. -/
def maxNan (a b : W32) : W32 :=
  let va := Fp.fp32.value a.toNat
  let vb := Fp.fp32.value b.toNat
  if va.isNan || vb.isNan then 0x7FC00000
  else if Fp.Val.cmp va vb < 0 then b else a

/-- exp2 of the exact difference of two FP32 values. -/
def expDiff (a b : W32) : W32 :=
  smExp2 (Fp.Val.add .nearest (Fp.fp32.value a.toNat) (Fp.fp32.value b.toNat).neg)

/-- -infinity in FP32. -/
def negInf : W32 := 0xFF800000

/-- round(round(l * a) + t) and the like: an exact fused product and sum rounded once. -/
def mulAdd32 (a b c : W32) : W32 :=
  to32 (Fp.Val.add .nearest (Fp.Val.mul (Fp.fp32.value a.toNat) (Fp.fp32.value b.toNat)) (Fp.fp32.value c.toNat))

/-- Product rounded to FP32. -/
def mul32 (a b : W32) : W32 := to32 (Fp.Val.mul (Fp.fp32.value a.toNat) (Fp.fp32.value b.toNat))

namespace Run

variable {z : State}

/-- A word of a rank-1 FP32 vector. -/
def vecGet (r : Run z) (t : TInstr) (d : TDesc) (i : Nat) : W32 := BitVec.ofNat 32 (d.read r.s t.map 0 i)

/-- Write a word of a rank-1 FP32 vector. -/
def vecSet (r : Run z) (t : TInstr) (d : TDesc) (i : Nat) (v : W32) : Run z := r.writeElem d t.map 0 i v.toNat

/-- INIT (R197). -/
def smInit (r : Run z) (t : TInstr) : Run z :=
  let a := TDesc.ofBits t.tdA
  let r := r.each (List.range 32) fun i r => (r.vecSet t a i negInf).vecSet t a (32 + i) 0
  r.each (List.range 4) fun i r => r.vecSet t a (64 + i) 0

/-- Set or clear a bit of a state-block word. -/
def vecBit (r : Run z) (t : TInstr) (d : TDesc) (w i : Nat) (b : Bool) : Run z :=
  r.vecSet t d w (BitVec.ofNat 32 (setBits (r.vecGet t d w).toNat i i (b2n b)))

/-- One row of STEP (R198). -/
def smRow (r : Run z) (core : Nat) (t : TInstr) (nk i : Nat) : Run z :=
  let a := TDesc.ofBits t.tdA
  let b := TDesc.ofBits t.tdB
  let c := TDesc.ofBits t.tdC
  let bank := (r.s.core core).bank t.bank
  let mulC := Fp.fp32.value t.imm.toNat
  let xs := (List.range 64).map fun j =>
    if j < nk then to32 (Fp.Val.mul (cellVal bank i j) mulC) else negInf
  let m := r.vecGet t a i
  let l := r.vecGet t a (32 + i)
  let m' := xs.foldl maxNan m
  let flat := m' = negInf
  let alpha := if flat then 0x3F800000 else expDiff m m'
  let ps := xs.map fun x =>
    if flat then 0 else (Fp.convert b.fmt false .nearest (Fp.fp32.value (expDiff x m').toNat)).bits
  let t64 := treeSum ((List.range 64).map fun j =>
    if j < nk then to32 (Fp.valueOf b.fmt (ps.getD j 0)) else 0)
  let l' := (Fp.fadd .nearest (mul32 l alpha) t64).1
  let r := r.each (List.range b.d0) fun j r => r.writeElem b t.map i j (if j < nk then ps.getD j 0 else 0)
  let r := ((r.vecSet t c i alpha).vecSet t a i m').vecSet t a (32 + i) l'
  r.when (Fp.fp32.value m'.toNat).isNan fun r => r.vecBit t a 65 i true

/-- STEP (R198, R199). -/
def smStep (r : Run z) (core : Nat) (t : TInstr) : Run z :=
  let a := TDesc.ofBits t.tdA
  let b := TDesc.ofBits t.tdB
  let c := TDesc.ofBits t.tdC
  let nk := bits t.gval.toNat 6 0
  let nr := bits t.gval.toNat 13 8
  let r := r.each (List.range nr) fun i r => r.smRow core t nk i
  let r := r.each ((List.range 32).filter (· ≥ nr)) fun i r =>
    let r := r.vecSet t c i 0x3F800000
    if i < b.d1 then r.each (List.range b.d0) fun j r => r.writeElem b t.map i j 0 else r
  r.vecSet t a 66 (W32.satAdd (r.vecGet t a 66) 1)

/-- FINAL (R200). -/
def smFinal (r : Run z) (t : TInstr) : Run z :=
  let a := TDesc.ofBits t.tdA
  let c := TDesc.ofBits t.tdC
  let nr := bits t.gval.toNat 13 8
  r.each (List.range 32) fun i r =>
    if i ≥ nr then r.vecSet t c i 0x3F800000
    else
      let l := r.vecGet t a (32 + i)
      match Fp.fp32.value l.toNat with
      | .nan => (r.vecSet t c i 0x7FC00000).vecBit t a 64 i false
      | .fin n m e =>
        if m = 0 then (r.vecSet t c i 0).vecBit t a 64 i true
        else (r.vecSet t c i (to32 (Fp.rcpRef n m e))).vecBit t a 64 i false
      | .inf n => (r.vecSet t c i (if n then 0x80000000 else 0)).vecBit t a 64 i false

/-- MERGE (R203). -/
def smMerge (r : Run z) (t : TInstr) : Run z :=
  let a := TDesc.ofBits t.tdA
  let b := TDesc.ofBits t.tdB
  let c := TDesc.ofBits t.tdC
  let nr := bits t.gval.toNat 13 8
  let r := r.each (List.range 32) fun i r =>
    if i ≥ nr then (r.vecSet t c i 0x3F800000).vecSet t c (32 + i) 0
    else
      let m := r.vecGet t a i
      let mc := r.vecGet t b i
      let m' := maxNan m mc
      let flat := m' = negInf
      let alpha := if flat then 0x3F800000 else expDiff m m'
      let beta := if flat then 0 else expDiff mc m'
      let l := mulAdd32 (r.vecGet t a (32 + i)) alpha (mul32 (r.vecGet t b (32 + i)) beta)
      (((r.vecSet t c i alpha).vecSet t c (32 + i) beta).vecSet t a (32 + i) l).vecSet t a i m'
  let r := r.vecSet t a 65 (r.vecGet t a 65 ||| r.vecGet t b 65)
  r.vecSet t a 66 (W32.satAdd (r.vecGet t a 66) (r.vecGet t b 66))

/-- TSMAX by its mode. -/
def smax (r : Run z) (core : Nat) (t : TInstr) : Run z :=
  match bits t.gval.toNat 17 16 with
  | 0 => r.smStep core t
  | 1 => r.smFinal t
  | 2 => r.smMerge t
  | _ => r.smInit t

/-! ## Finish -/

/-- A tensor instruction leaves the running list. -/
def finished (r : Run z) (core : Nat) (t : TInstr) : Run z :=
  let c := r.s.core core
  r.setCore core { c with running := c.running.filter fun e => e.seq ≠ t.seq }

/-- Add to a 64-bit counter pair. -/
def bump64 (r : Run z) (k n : Nat) : Run z := r.setReg64 k (r.s.reg64 k + n)

/-- The effect of a tensor instruction other than FMOVE. -/
def tensorEffect (r : Run z) (core : Nat) (x : Gang) (t : TInstr) : Run z :=
  match t.op with
  | .tmma =>
    let (_, steps, cyc) := mmaShape t
    (r.setBank core t.bank (mmaBank r.s core t)).bump64 (coreReg core 0xC8) (cdiv (TDesc.ofBits t.tdB).d0 steps * cyc)
  | .tdrain => r.drainAll core x t
  | .accScale => r.scaleRows core t
  | .tclr => r.setBank core t.bank ((r.s.core core).bank t.bank).clear
  | .trec => r.recMarks core t
  | .audit => r.auditBank core t
  | .rope => r.ropeRows t
  | .tmask => r.maskCells core t
  | .tsmax => r.smax core t
  | .fmove => r

end Run

/-- ARITH cycles from start to finish of an instruction on the drain port (R135, R136, R138, R141, R193, R195, R196). -/
def drainCycles (s : State) (core : Nat) (x : Gang) (t : TInstr) : Nat :=
  let a := TDesc.ofBits t.tdA
  let c := (rerunDesc s x (TDesc.ofBits t.tdC)).getD (TDesc.ofBits t.tdC)
  let nr := bits t.gval.toNat 13 8
  match t.op with
  | .tdrain => 6 + c.d1 * max 1 (cdiv (c.d0 * Fp.widthOf c.fmt) 1024)
  | .accScale => 4 + a.d0
  | .tclr => 2
  | .trec => 3 + ((List.range 32).filter fun i => t.gval.getLsbD i).length
  | .audit => if auditDue ((s.core core).bank t.bank) t then 134 else 1
  | .rope => 4 + a.d1 * cdiv a.d0 64
  | .tmask => 3 + bits t.imm.toNat 20 16 + 1
  | .tsmax => match bits t.gval.toNat 17 16 with
    | 0 => 8 + 2 * nr
    | 3 => 4
    | _ => 4 + nr
  | _ => 0

/-! ## The Prism feed (R174 to R176) -/

/-- The data a Prism TMMA needs held: one item for each image line and one for its weights (R174). -/
def prismNeeds (t : TInstr) (m : SMap Nat) : List PrismItem :=
  let d := WDesc.ofBits t.tdA
  let b := TDesc.ofBits t.tdB
  let cols := (d.xs.filter fun x => decide ((0 : Int) ≤ x ∧ x < (d.w : Int))).map Int.toNat
  let line := fun y =>
    let pages := (cols.flatMap fun x => (List.range b.d1).map fun j => d.folio y x (d.cb + j)).eraseDups
    { key := [0, d.base, y, d.cb, b.d1, d.fmt] ++ d.xSet
      bytes := d.xs.length * b.d1 * (Fp.widthOf d.fmt / 8)
      folios := pages.map fun p => SMap.get 0 m p : PrismItem }
  d.lines.map line ++ [{ key := [1, t.tdB.toNat], bytes := cdiv (d.kh * d.kw * b.d1 * Fp.widthOf b.fmt) 8
                         folios := b.pages.map fun p => SMap.get 0 m p }]

/-- Whether an instruction is a Prism TMMA. -/
def isPrism (t : TInstr) : Bool := t.op = .tmma && bit t.imm.toNat 1

/-- Items the started and queued Prism TMMAs need, in tensor-queue order. -/
def prismWanted (s : State) (core : Nat) : List PrismItem :=
  let c := s.core core
  let queued := (forecast s core c.queue).ents.filterMap fun e =>
    if isPrism e.1 && !e.2.1.isEmpty then some (prismNeeds e.1 (e.2.1.foldl (fun m p => SMap.insert m p.1 p.2) [])) else none
  (c.running.filter isPrism).flatMap (fun t => prismNeeds t t.map) ++ queued.flatten

/-- Free the oldest unneeded items until some bytes fit. -/
def prismRoom (need : Nat) (wanted : List PrismItem) : List PrismItem → List PrismItem
  | [] => []
  | i :: rest =>
    if ((i :: rest).foldl (fun n x => n + x.bytes) 0) + need ≤ 16384 then i :: rest
    else if wanted.any fun w => w.key = i.key then i :: prismRoom (need + i.bytes) wanted rest
    else prismRoom need wanted rest

/-- PRISM_FEED_FETCH: the feed fetches the first missing item for which the store has or finds room (R175). -/
def execPrismFeedFetch (core : Nat) (s : State) : Host.Outcome State Fault Refusal :=
  let r := Run.start s
  let c := s.core core
  let wanted := prismWanted s core
  match wanted.find? fun w => !c.prism.any fun i => i.key = w.key with
  | none => done r
  | some w =>
    let kept := prismRoom w.bytes wanted c.prism
    if (kept.foldl (fun n x => n + x.bytes) 0) + w.bytes ≤ 16384 then
      done (r.setCore core { c with prism := kept ++ [w] })
    else done r

/-- TENSOR_INSTR_FINISH: an instruction that has started finishes, and its effect stands. A Prism TMMA needs its lines and
weights held; a write into a folio the Prism store holds empties the store first (R129, R175, R176). -/
def execTensorInstrFinish (core seq : Nat) (s : State) : Host.Outcome State Fault Refusal :=
  let r := Run.start s
  match (s.core core).running.find? fun e => e.seq = seq && e.op ≠ .fmove with
  | none => done r
  | some t =>
    match s.gang? core t.gang with
    | none => done (r.finished core t)
    | some x =>
      let held := !isPrism t ||
        (prismNeeds t t.map).all fun n => (s.core core).prism.any fun i => i.key = n.key
      if !held then done r
      else
        let r := r.each t.writes fun p r => r.prismTouch p
        let r := r.tensorEffect core x t
        let r := r.bump (coreReg core 0xD4) (drainCycles s core x t)
        done (r.finished core t)

/-! ## Folio moves (R258 to R260, R267) -/

/-- Whether source and destination folios overlap other than identically. -/
def moveOverlaps (t : TInstr) : Bool :=
  (t.reads.zip t.writes).any fun p => p.1 ≠ p.2 && t.reads.contains p.2

namespace Run

variable {z : State}

/-- Copy one folio. -/
def copyFolio (r : Run z) (src dst : Nat) : Run z :=
  let bs := r.s.bytes (src * 4096) 4096
  let r := r.prismTouch dst
  r.storePhys (((List.range 4096).map fun i => dst * 4096 + i).zip bs)

/-- Leave a folio's contents free values. -/
def freeFolio (r : Run z) (dst : Nat) : Run z :=
  let r := r.prismTouch dst
  r.each (List.range 128) fun i r =>
    let (w, r) := r.draw
    let (x, r) := r.draw
    let (y, r) := r.draw
    let (v, r) := r.draw
    r.storeMem (dst * 4096 + 32 * i) 32 (w ++ x ++ y ++ v).toNat

/-- Move the folios of a pair list in order, up to the first that holds an uncorrectable word, which is answered. -/
def moveFolios (r : Run z) (free : Bool) : List (Nat × Nat) → Run z × Option Nat
  | [] => (r, none)
  | (src, dst) :: rest =>
    match (List.range 512).find? fun i => r.s.isUe (src * 4096 + 8 * i) with
    | some i => (r.countUe (src * 4096 + 8 * i), some src)
    | none =>
      let r := r.scrub (src * 4096) 4096
      (if free then r.freeFolio dst else r.copyFolio src dst).moveFolios free rest

/-- A move stops at a source folio that holds an uncorrectable word: the folios before it have been written, and its parcel is
stopped with the folio's virtual address (R267). -/
def moveStop (r : Run z) (core : Nat) (t : TInstr) (pg : Nat) : Run z :=
  let r := (r.moveFolios (moveOverlaps t) ((t.reads.zip t.writes).takeWhile fun p => p.1 ≠ pg)).1
  let va := ((List.find? (fun p => p.2 = pg) t.map).map (·.1)).getD 0 * 4096
  r.laneFault core t.gang .loadAccess va t.pc.toNat t.mask.toNat stUncorrectable (some (t.seq + 1))

end Run

/-- FMOVE_FINISH: the move's folios have been copied; at an uncorrectable word it stops there and stops its parcel
(R260, R267). -/
def execFmoveFinish (core seq : Nat) (s : State) : Host.Outcome State Fault Refusal :=
  let r := Run.start s
  match (s.core core).running.find? fun e => e.seq = seq && e.op = .fmove with
  | none => done r
  | some t =>
    let r := r.finished core t
    match r.moveFolios (moveOverlaps t) (t.reads.zip t.writes) with
    | (r, none) => done r
    | (r, some pg) =>
      let va := ((List.find? (fun p => p.2 = pg) t.map).map (·.1)).getD 0 * 4096
      done (r.laneFault core t.gang .loadAccess va t.pc.toNat t.mask.toNat stUncorrectable (some (t.seq + 1)))

end Sys2Proof.Machine
end

