-- ==== Sys2Proof/Machine/Sched.lean ====
section
/-! DEFINITION. Work submission (R272 to R299): cards, contexts, queues and doorbells, parcels from take to completion,
gangs from admission to retirement (R83 to R88), statistics blocks (R158 to R163) and permits (R438 to R441). -/

namespace Sys2Proof.Machine

/-- Key of a SCHED register. -/
def schedReg (off : Nat) : Nat := regKey 5 off

/-! ## Cards (R272 to R275) -/

/-- The device's copy of a card. -/
def cardOf (s : State) (n : Nat) : Card := SMap.get {} s.sched.cards n

/-- Word i of the device's copy of a card. -/
def cardW (s : State) (n i : Nat) : Nat := (SMap.get 0 (cardOf s n).words i).toNat

/-- Fields of the header (R273); a card never taken up counts as EN = 0 (R274). -/
def cardKind (s : State) (n : Nat) : Nat := bits (cardW s n 0) 31 28
def cardEn (s : State) (n : Nat) : Bool := bit (cardW s n 0) 27
def cardCtx (s : State) (n : Nat) : Nat := bits (cardW s n 0) 11 0
def cardPrio (s : State) (n : Nat) : Nat := bits (cardW s n 1) 7 0
def cardWeight (s : State) (n : Nat) : Nat := bits (cardW s n 1) 15 8
def cardEvt (s : State) (n : Nat) : Nat := cardW s n 2

/-- A card pair of words as a 64-bit address. -/
def cardAddr (s : State) (n i : Nat) : Nat := cardW s n i + 2 ^ 32 * cardW s n (i + 1)

/-- Physical address of word i of card n in the Catalogue (R272). -/
def catAddr (s : State) (n i : Nat) : Nat := s.reg64 (schedReg 0x010) + 128 * n + 4 * i

/-- A card is held: by its kind and HOLD or EN (R274). -/
def cardHeld (s : State) (n : Nat) : Bool :=
  match cardKind s n with
  | 1 => bit (cardW s n 0) 26
  | 6 => bit (cardW s n 0) 26
  | 0 => false
  | 5 => false
  | _ => cardEn s n

/-- The HW words of a card of a kind, SYNC apart. -/
def hwWords : Nat → List Nat
  | 1 => [9, 10, 11, 12]
  | 2 => [16, 17, 18, 19]
  | 3 => [7, 8]
  | 4 => [7, 8]
  | 6 => [10, 11, 12]
  | 7 => [9, 10, 11]
  | _ => []

/-- Cards held. -/
def heldCount (s : State) : Nat := (s.sched.cards.filter fun c => cardHeld s c.1).length

/-- Key of a session's register (R308). -/
def sessReg (n off : Nat) : Nat := schedReg (0x20000 + 0x10 * n + off)

/-- The expiry of a session's lease: RENEW + HBMS × MISSES × 1,000,000 ns (R308). -/
def leaseEnd (s : State) (n : Nat) : Nat :=
  s.reg64 (sessReg n 4) + s.fld (sessReg n 0) 15 0 * s.fld (sessReg n 0) 27 24 * 1000000

/-- EN of a context (R277). -/
def ctxEn (s : State) (c : Nat) : Bool := s.fld (schedReg (0x10000 + 0x10 * c)) 31 31 = 1

namespace Run

variable {z : State}

/-- Replace the device's copy of a card. -/
def setCard (r : Run z) (n : Nat) (c : Card) : Run z :=
  r.put (.sched { r.s.sched with cards := SMap.set {} r.s.sched.cards n c })

/-- A HW word of a card changes: the copy and the Catalogue (R275). -/
def setHw (r : Run z) (n i v : Nat) : Run z :=
  let c := cardOf r.s n
  (r.setCard n { c with words := SMap.set 0 c.words i (BitVec.ofNat 32 v) }).storeMem (catAddr r.s n i) 4 v

/-- Count in a HW word that holds at 0xFFFF_FFFF. -/
def bumpHw (r : Run z) (n i : Nat) : Run z := r.setHw n i (sat32 (cardW r.s n i + 1))

/-- An event of a channel: TADD 1 on EVT_TALLY (R273). -/
def cardEvent (r : Run z) (n : Nat) : Run z := r.deviceAdd (cardEvt r.s n)

/-- Write the HW words of a card's copy to the Catalogue. -/
def writeBack (r : Run z) (n : Nat) : Run z :=
  r.each (3 :: hwWords (cardKind r.s n)) fun i r => r.storeMem (catAddr r.s n i) 4 (cardW r.s n i)

/-- Read the HW words of a card that was evicted back from the Catalogue (R520). A word that cannot be read keeps its value. -/
def readBack (r : Run z) (n : Nat) : Run z :=
  let c := cardOf r.s n
  let r := r.scrub (catAddr r.s n 0) 128
  r.setCard n { c with words := (3 :: hwWords (cardKind r.s n)).foldl (fun m i =>
    if r.s.isUe (catAddr r.s n i) then m else SMap.set 0 m i (BitVec.ofNat 32 (r.s.load (catAddr r.s n i) 4))) c.words }

/-- A card is used: fetched into the card cache when absent, evicting the least recently used one not held, whose HW words are
written back first (R275). The SW words stay those of the last take-up: nothing but a CARD_SYNC changes a card's settings (R276). -/
def touchCard (r : Run z) (n : Nat) : Run z :=
  let c := cardOf r.s n
  let cached := r.s.sched.cards.filter fun x => x.2.cached
  let r :=
    if c.cached || cached.length < 512 then r
    else
      let cand := cached.filter fun x => !cardHeld r.s x.1
      match cand with
      | [] => r
      | x :: rest =>
        let lru := rest.foldl (fun m y => if y.2.used < m.2.used then y else m) x
        let r := r.writeBack lru.1
        r.setCard lru.1 { cardOf r.s lru.1 with cached := false }
  let r := r.when (c.taken && !c.cached) fun r => r.readBack n
  r.setCard n { cardOf r.s n with cached := true, used := r.s.now }

end Run

/-- CARD_FETCH: a needed card that is absent is fetched into the card cache (R275). -/
def execCardFetch (n : Nat) (s : State) : Host.Outcome State Fault Refusal :=
  let r := Run.start s
  if (cardOf s n).taken && !(cardOf s n).cached then done (r.touchCard n) else done r

/-! ## Contexts (R277, R278) -/

namespace Run

variable {z : State}

/-- A write of SCHED_CTXn_CFG (R277). -/
def writeCtxCfg (r : Run z) (n : Nat) (v : Nat) : Run z :=
  let k := schedReg (0x10000 + 0x10 * n)
  let old := (r.s.reg k).toNat
  let changes := bits v 23 0 ≠ bits old 23 0
  if changes && bits old 30 29 ≠ 0 then r
  else
    let en := bit v 31
    let inflight := r.s.fld (schedReg (0x1000C + 0x10 * n)) 12 0
    let state :=
      if en then 1
      else if bits old 30 29 = 0 then 0
      else if inflight = 0 then 0 else 2
    r.setRegN k (b2n en * 2 ^ 31 + state * 2 ^ 29 + bits v 23 0)

/-- A write of a ROOT half, ignored while STATE is not OFF when it changes it (R277). -/
def writeCtxRoot (r : Run z) (n : Nat) (hi : Bool) (v : Nat) : Run z :=
  let k := schedReg ((if hi then 0x10008 else 0x10004) + 0x10 * n)
  if r.s.fld (schedReg (0x10000 + 0x10 * n)) 30 29 ≠ 0 || (!hi && !bit v 0) then r
  else r.setRegN k (if hi then v else v / 4096 * 4096 + 1)

/-- Set the parcels of a context in flight; a DRAINING context with none becomes OFF (R277). -/
def setCtxInflight (r : Run z) (n v : Nat) : Run z :=
  let r := r.setFld (schedReg (0x1000C + 0x10 * n)) 12 0 v
  let k := schedReg (0x10000 + 0x10 * n)
  r.when (v = 0 && r.s.fld k 30 29 = 2) fun r => r.setFld k 30 29 0

end Run

/-! ## Doorbells (R280, R292) -/

/-- Whether a queue takes a doorbell stamped at `stamp`: the range rule, but for one stamped after the expiry of a lease whose
policy is DRAIN (R280, R301, R309). -/
def queueBellOk (s : State) (n v stamp : Nat) : Bool :=
  let q := s.fld (schedReg (0x10000 + 0x10 * cardCtx s n)) 11 0
  let cfg := s.fld (sessReg q 0) 31 28
  let head := bits (cardW s n 9) 15 0
  let tail := bits (cardW s n 10) 15 0
  let d := (v + 65536 - head) % 65536
  !(cfg / 4 = 3 || (cfg = 5 && decide (stamp > leaseEnd s q))) && decide ((tail + 65536 - head) % 65536 ≤ d) &&
    decide (d ≤ 2 ^ bits (cardW s n 8) 3 0)

/-- Whether a mailbox takes a doorbell under the range rule: RX moves the consumed index, otherwise the transmit tail. -/
def mailboxBellOk (s : State) (n : Nat) (rx : Bool) (v : Nat) : Bool :=
  let idx := cardW s n (if rx then 9 else 10)
  let hi := bits idx 31 16
  let lo := bits idx 15 0
  let d := (v + 65536 - hi) % 65536
  if rx then decide (d ≤ (lo + 65536 - hi) % 65536)
  else decide ((lo + 65536 - hi) % 65536 ≤ d) && decide (d ≤ 2 ^ bits (cardW s n 8) 7 4)

/-- Whether a doorbell stamped at `stamp` is taken (R280). -/
def bellOk (s : State) (v stamp : Nat) : Bool :=
  let n := bits v 29 16
  cardEn s n && (match cardKind s n with
    | 1 => !bit v 30 && queueBellOk s n (bits v 15 0) stamp
    | 7 => mailboxBellOk s n (bit v 30) (bits v 15 0)
    | _ => false)

namespace Run

variable {z : State}

/-- A doorbell of a queue; one that is refused is ignored and counted. -/
def queueDoorbell (r : Run z) (n v stamp : Nat) : Run z :=
  let r := r.touchCard n
  if queueBellOk r.s n v stamp then r.setHw n 10 v else r.bumpHw n 11

/-- A mailbox doorbell is ignored and counted in MBX_ERR[15:0]. -/
def mbxIgnore (r : Run z) (n : Nat) : Run z :=
  let e := cardW r.s n 11
  r.setHw n 11 (setBits e 15 0 (min 0xFFFF (bits e 15 0 + 1)))

/-- A doorbell of a mailbox: RX moves the consumed index, otherwise the transmit tail (R280, R292). The mailbox source of
the HCX no longer holds once nothing is unconsumed. -/
def mailboxDoorbell (r : Run z) (n : Nat) (rx : Bool) (v stamp : Nat) : Run z :=
  if !mailboxBellOk r.s n rx v then r.mbxIgnore n
  else if rx then
    let prod := bits (cardW r.s n 9) 15 0
    let r := r.setHw n 9 (v * 65536 + prod)
    let h := bits (cardW r.s n 8) 2 0
    r.when (v = prod) fun r => r.setHart h { r.s.hart h with mbxIrq := false }
  else
    let taken := bits (cardW r.s n 10) 31 16
    let tail := bits (cardW r.s n 10) 15 0
    let r := r.setHw n 10 (taken * 65536 + v)
    r.when (v ≠ tail) fun r => r.put (.sched { r.s.sched with
      bells := SMap.set [] r.s.sched.bells n (SMap.get [] r.s.sched.bells n ++ [(v, stamp)]) })

/-- A doorbell stamped at `stamp` (R280). While a tenant switch runs doorbells are ignored, which the caller sees to. -/
def doorbell (r : Run z) (v stamp : Nat) : Run z :=
  let n := bits v 29 16
  let rx := bit v 30
  let err := schedReg 0x030
  if !cardEn r.s n then r.bump err
  else match cardKind r.s n with
    | 1 => if rx then r.bumpHw n 11 else r.queueDoorbell n (bits v 15 0) stamp
    | 7 => r.mailboxDoorbell n rx (bits v 15 0) stamp
    | _ => r.bump err

/-! ## Tallies for contexts (R290) -/

/-- A read of SCHED_TALLY_ALLOC_LO: the handle, with the status latched in _HI. While the scheduler restarts it gives
handle 0 with INTERNAL (R301). -/
def readTallyAlloc (r : Run z) : Nat × Run z :=
  let hi := schedReg 0x024
  if !fwRuns r.s 0 then (0, r.setLatch hi (BitVec.ofNat 32 stInternal))
  else match r.allocTally (r.s.fld (schedReg 0x038) 11 0) with
    | (some i, r) => (tallyHandle r.s i, r.setLatch hi 0)
    | (none, r) => (0, r.setLatch hi (BitVec.ofNat 32 stTallyExhausted))

/-- A write of SCHED_TALLY_FREE. -/
def writeTallyFree (r : Run z) (h : Nat) : Run z :=
  match tallyOf r.s h with
  | some i => r.freeTally i
  | none => r.bump (schedReg 0x030)

end Run

/-! ## Taking an entry (R278, R281, R283, R298, R299) -/

/-- Parcels in flight. -/
def inFlight (s : State) : Nat := s.sched.parcels.length

/-- STATE of the session that governs a context (R309): 0 CLOSED, 1 LIVE, 2 HELD, 3 DRAINING. -/
def ctxSession (s : State) (c : Nat) : Nat := s.fld (schedReg (0x10000 + 0x10 * c)) 11 0
def sessState (s : State) (n : Nat) : Nat := s.fld (schedReg (0x20000 + 0x10 * n)) 31 30

/-- The session of a context is HELD, so that its queues take nothing and its channels stop (R309). -/
def sessionHolds (s : State) (c : Nat) : Bool := sessState s (ctxSession s c) = 2

/-- A queue can take its next entry (R278, R279, R281, R286). -/
def canTake (s : State) (n : Nat) : Bool :=
  cardKind s n = 1 && cardEn s n && ctxEn s (cardCtx s n) && !workHeld s && !sessionHolds s (cardCtx s n) &&
  !bit (cardW s n 9) 16 && bits (cardW s n 9) 15 0 ≠ bits (cardW s n 10) 15 0 &&
  decide (s.fld (schedReg (0x1000C + 0x10 * cardCtx s n)) 12 0 <
    s.fld (schedReg (0x10000 + 0x10 * cardCtx s n)) 23 12 + 1) &&
  decide (inFlight s < 4096) &&
  !s.sched.parcels.any fun ip => ip.2.stage = .waiting && (match ip.2.origin with
    | .queue c _ => c = n
    | _ => false)

/-- The queue the policy serves next (R298). -/
def nextQueue (s : State) : Option Nat :=
  let can := (s.sched.cards.map (·.1)).filter fun n => canTake s n
  let top := can.foldl (fun m n => max m (cardPrio s n)) 0
  let cands := can.filter fun n => cardPrio s n = top
  if cands.contains s.sched.last && decide (s.sched.lastN < cardWeight s s.sched.last) then some s.sched.last
  else match cands.find? fun n => n > s.sched.last with
    | some n => some n
    | none => cands.head?

/-- A handle names no allocated tally, or is 0 with a threshold. -/
def badWait (s : State) (h v : Nat) : Bool := if h = 0 then v ≠ 0 else (tallyOf s h).isNone

/-- The status the descriptor's checks give (R282, R283); OK when it passes. -/
def descStatus (s : State) (ctx : Nat) (d : List Nat) : Nat :=
  let w := fun i => d.getD i 0
  let ctrl := w 0
  let reflex := bit ctrl 29
  let rsv := bits ctrl 31 30 ≠ 0 || bits ctrl 7 0 ≠ 0
  let refZero := w 8 = 0 && w 6 = 0 && w 7 = 0 && w 1 = 0 && bits ctrl 28 8 = 0
  let anyBad := bit ctrl 24 && (bits ctrl 23 16 ≠ 0 || bits ctrl 15 8 ≠ 0)
  let align := if reflex then w 2 % 64 ≠ 0 else w 2 % 16 ≠ 0
  let stats := w 6 + 2 ^ 32 * w 7
  if rsv || (reflex && !refZero) || anyBad || align || w 4 % 16 ≠ 0 || w 6 % 16 ≠ 0 then stBadKernel
  else if bits ctrl 15 8 + bits ctrl 23 16 > 175 then stBounds
  else if badWait s (w 10) (w 11) || badWait s (w 12) (w 13) ||
      (w 14 ≠ 0 && (tallyOf s (w 14)).isNone) || (w 15 ≠ 0 && (tallyOf s (w 15)).isNone) then stBounds
  else if stats ≠ 0 && !(mapped s (ctxX s ctx) .load stats 304 && mapped s (ctxX s ctx) .store stats 304) then stBounds
  else stOk

/-- The fabric time at which a wait is met already at the take. -/
def metAtTake (s : State) (h v : Nat) : Option Nat :=
  if h = 0 then some (s.timeAt tbSched)
  else match tallyOf s h with
    | some i => if v ≤ (s.tally i).value.toNat then some (s.timeAt tbSched) else none
    | none => none

/-- The lowest free slot of the list of parcels in flight. -/
def freeSlot (s : State) : Nat := ((List.range 4096).find? fun i => (s.parcel? i).isNone).getD 4096

/-- Words of a number, low first. -/
def words32 : Nat → Nat → List Nat
  | 0, _ => []
  | n + 1, v => v % 2 ^ 32 :: words32 n (v / 2 ^ 32)

namespace Run

variable {z : State}

/-- A parcel enters flight: counted for its context and the device (R286). -/
def addParcel (r : Run z) (p : Parcel) : Run z :=
  let r := r.setParcel (freeSlot r.s) p
  let r := r.setRegN (schedReg 0x01C) (inFlight r.s)
  r.setCtxInflight p.ctx (r.s.fld (schedReg (0x1000C + 0x10 * p.ctx)) 12 0 + 1)

/-- Take the next entry of a queue (R281, R283). -/
def takeEntry (r : Run z) (n : Nat) : Run z :=
  let r := r.touchCard n
  let ctx := cardCtx r.s n
  let head := bits (cardW r.s n 9) 15 0
  let va := cardAddr r.s n 4 + 64 * (head % 2 ^ bits (cardW r.s n 8) 3 0)
  match r.readIn (ctxX r.s ctx) va 64 with
  | (.error _, r) => (r.noteUe (ctxX r.s ctx) va 64).setHw n 9 (cardW r.s n 9 ||| 0x10000)
  | (.ok d, r) =>
    let ws := words32 16 d
    let st := descStatus r.s ctx ws
    let r := r.setHw n 9 ((head + 1) % 65536)
    let r := r.setHw n 12 (cardW r.s n 12 + 1)
    let r := r.trace 0x10 0x0010 (n * 2 ^ 16 + head)
    r.addParcel {
      ctx := ctx, origin := .queue n head, desc := ws.map (BitVec.ofNat 32 ·), taken := r.s.timeAt tbSched
      stage := if st = stOk then .waiting else .ending, status := st
      met0 := metAtTake r.s (ws.getD 10 0) (ws.getD 11 0), met1 := metAtTake r.s (ws.getD 12 0) (ws.getD 13 0) }

end Run

/-- PARCEL_TAKE: the scheduler takes the next entry of the queue that its policy serves, at most 4 per microsecond
(R281, R298, R299). -/
def execParcelTake (card : Nat) (s : State) : Host.Outcome State Fault Refusal :=
  let r := Run.start s
  let us := s.now / 1000
  let n := if s.sched.takeUs = us then s.sched.takeN else 0
  if !fwRuns s 0 || nextQueue s ≠ some card || n ≥ 4 then done r
  else
    let r := r.put (.sched { s.sched with
      takeUs := us, takeN := n + 1, last := card
      lastN := if s.sched.last = card && decide (s.sched.lastN < cardWeight s card) then s.sched.lastN + 1 else 1 })
    done (r.takeEntry card)

/-! ## Statistics blocks (R158 to R162, R521) -/

/-- Address of a parcel's statistics block, 0 for none. -/
def statsVa (p : Parcel) : Nat := (p.desc.getD 6 0).toNat + 2 ^ 32 * (p.desc.getD 7 0).toNat

/-- A word of a parcel's statistics block, 0 when it cannot be read. -/
def statWord (s : State) (p : Parcel) (off : Nat) : Nat :=
  match readVirt s (ctxX s p.ctx) (statsVa p + off) 4 with
  | .ok v => v
  | .error _ => 0

/-- The block can be read and written. -/
def statsOk (s : State) (p : Parcel) : Bool :=
  (match readVirt s (ctxX s p.ctx) (statsVa p) 304 with
    | .ok _ => true
    | .error _ => false) && mapped s (ctxX s p.ctx) .store (statsVa p) 304

namespace Run

variable {z : State}

/-- Write a word of a statistics block. -/
def setStat (r : Run z) (p : Parcel) (off v : Nat) : Run z := r.tryWrite (ctxX r.s p.ctx) (statsVa p + off) 4 v

/-- Do an access to a parcel's block, or drop it and lose the statistics (R521). -/
def withStats (r : Run z) (i : Nat) (p : Parcel) (f : Run z → Run z) : Run z :=
  if statsVa p = 0 || p.statsLost then r
  else if statsOk r.s p then f (r.markRange (ctxX r.s p.ctx) .load (statsVa p) 304)
  else r.setParcel i { p with statsLost := true }

/-- Zero the HW words: all of them at the first dispatch, all but SAT_EXCEEDED and FIRST_SAT before a re-run (R159, R162). -/
def zeroStats (r : Run z) (p : Parcel) (rerun : Bool) : Run z :=
  let st := if rerun then statWord r.s p 4 &&& 4 else 0
  let first := if rerun then statWord r.s p 0x2C else 0
  let r := r.each (List.range 67) fun k r => r.setStat p (0x20 + 4 * k + (if k ≥ 3 then 4 else 0)) 0
  (r.setStat p 4 st).setStat p 0x2C first

/-- Merge a bank's statistics set into a block (R158). -/
def mergeBank (r : Run z) (p : Parcel) (core bank : Nat) : Run z :=
  let q := fun off => (r.s.reg (qReg core bank off)).toNat
  let raise := fun (r : Run z) off v => if statWord r.s p off < v then r.setStat p off v else r
  let add := fun (r : Run z) off v => r.setStat p off (sat32 (statWord r.s p off + v))
  -- a block that has no format yet has no drained element either
  let had := statWord r.s p 0x28 ≠ 0
  let r := raise r 0x20 (q 0)
  let r := add (add r 0x24 (q 4)) 0x28 (q 8)
  let r := r.each (List.range 64) fun j r => raise r (0x30 + 4 * j) (q (0x100 + 4 * j))
  let flg := q 0x0C
  let st := statWord r.s p 4
  let st := st ||| (b2n (bit flg 0) * 8) ||| (b2n (bit flg 1) * 16) ||| (b2n (bit flg 2) * 32)
  let st :=
    if !bit flg 3 then st
    else if !had then setBits st 23 20 (bits flg 7 4)
    else if bits st 23 20 ≠ bits flg 7 4 then st ||| 32
    else st
  r.setStat p 4 st

end Run

/-- Whether TMAX × 2^-e does not exceed MAXF of a format (R160). -/
def shiftFits (tmax : Fp.Val) (fmt : Nat) (e : Int) : Bool :=
  let maxf : Fp.Val := match Fp.floatOf fmt with
    | some f => f.value f.maxCode
    | none => Fp.Val.ofInt (if fmt = 8 then 127 else 32767)
  decide (Fp.Val.cmp (tmax.scale (-e)) maxf ≤ 0)

/-- NEXT_SHIFT: the least e from -127 to 127 (R160). -/
def nextShift (tmax fmt : Nat) : Int :=
  match Fp.fp32.value tmax with
  | .inf _ => 127
  | v =>
    if v.isZero then -127
    else match (List.range 255).find? fun (k : Nat) => shiftFits v fmt ((k : Int) - 127) with
      | some k => (k : Int) - 127
      | none => 127

namespace Run

variable {z : State}

/-- Complete a block at the end of a run: NEXT_SHIFT, then VALID (R160). -/
def closeStats (r : Run z) (p : Parcel) : Run z :=
  let st := statWord r.s p 4
  let e := nextShift (statWord r.s p 0x20) (bits st 23 20)
  r.setStat p 4 (setBits st 31 24 (e % 256).toNat ||| 1)

/-! ## Dispatch (R81, R284, R285) -/

/-- A parcel's work ends with a status. -/
def endParcel (r : Run z) (i status : Nat) : Run z :=
  match r.s.parcel? i with
  | some p => r.setParcel i { p with stage := .ending, status := status }
  | none => r

end Run

/-- The kernel header's NTD, BANKS and NREG, none when a value does not occur or an RSV bit is set (R81). -/
def kernelHeader (n : Nat) : Option (Nat × Nat × Nat) :=
  let ntd := bits n 20 16
  let nb := bits n 10 8
  let nreg := bits n 5 0
  if bits n 31 21 ≠ 0 || bits n 15 11 ≠ 0 || bits n 7 6 ≠ 0 || n / 2 ^ 32 ≠ 0 || ntd > 16 || nb > 4 ||
      ! [4, 8, 16, 24, 32].contains nreg then none
  else some (ntd, nb, nreg)

namespace Run

variable {z : State}

/-- A kernel parcel whose wait has ended: header, statistics block, and dispatch, or EMPTY for a GRID of 0 (R81, R285). -/
def dispatchKernel (r : Run z) (i : Nat) (p : Parcel) : Run z :=
  let c := ctxX r.s p.ctx
  let va := (p.desc.getD 2 0).toNat + 2 ^ 32 * (p.desc.getD 3 0).toNat
  match (r.noteUe c va 16).readIn c va 16 with
  | (.error _, r) => r.endParcel i stBadKernel
  | (.ok n, r) =>
    match kernelHeader n with
    | none => r.endParcel i stBadKernel
    | some (ntd, nb, nreg) =>
      let hasStats := statsVa p ≠ 0
      let ctrl := statWord r.s p 0
      if hasStats && (bits ctrl 30 21 ≠ 0 || bits ctrl 15 0 ≠ 0) then r.endParcel i stBadKernel
      else
        let p := { p with stage := .running, ntd := ntd, nbanks := nb, nreg := nreg }
        let r := r.setParcel i p
        let r := r.withStats i p fun r => r.zeroStats p false
        if (p.desc.getD 8 0) = 0 then
          let p := (r.s.parcel? i).getD p
          (r.withStats i p fun r => r.closeStats p).endParcel i stEmpty
        else r

end Run

/-- PARCEL_WAIT_TIMEOUT: the deadline has passed before the waits were met (R284). -/
def execParcelWaitTimeout (i : Nat) (s : State) : Host.Outcome State Fault Refusal :=
  let r := Run.start s
  match s.parcel? i with
  | some p =>
    if fwRuns s 0 && p.stage = .waiting && !waitsMet p && decide (s.timeAt tbSched > p.taken + (p.desc.getD 9 0).toNat * 1000) then
      let slot := match p.origin with | .queue _ x => x | _ => 0
      done ((r.trace 0x10 0x0011 (stTimeout * 2 ^ 16 + slot)).endParcel i stTimeout)
    else done r
  | none => done r

/-! ## Permits (R438 to R441) -/

/-- Key of a PWR register. -/
def pwrReg (off : Nat) : Nat := regKey 1 off

/-- Price of an energy class in tokens (R439). -/
def permitPrice (cls : Nat) : Nat := if cls ≤ 1 then 0 else 4 ^ (cls - 1)

/-- Whether a cluster's clock is stretched by a droop (R446): kept as a mark in the model's power record by the power
chapter. -/
def stretched (s : State) (cl : Nat) : Bool := (SMap.find? s.power.stretch cl).isSome

namespace Run

variable {z : State}

/-- A request ends, granted or withdrawn: its wait counts, and in fixed-frequency mode a request that waited counts as a
stall (R440, R445). -/
def countWait (r : Run z) (q : PermitReq) : Run z :=
  let wait := r.s.now - q.since
  let r := r.bump (pwrReg 0x320) wait
  let cl := q.core / 12
  let r := r.put (.ledger { r.s.ledger with waited := SMap.set 0 r.s.ledger.waited cl (SMap.get 0 r.s.ledger.waited cl + wait) })
  r.when (r.s.fld (pwrReg 0x304) 31 31 = 1 && decide (wait > 0)) fun r => r.bump (pwrReg 0x324)

/-- Requests are withdrawn (R441). -/
def withdraw (r : Run z) (gone : PermitReq → Bool) : Run z :=
  let l := r.s.ledger.reqs
  let r := r.put (.ledger { r.s.ledger with reqs := l.filter fun q => !gone q })
  r.each (l.filter gone) fun q r => r.countWait q

end Run

/-- PERMIT_GRANT: the oldest request, when the bucket and the rate of 24 per microsecond allow (R440). -/
def execPermitGrant (s : State) : Host.Outcome State Fault Refusal :=
  let r := Run.start s
  match s.ledger.reqs with
  | [] => done r
  | q :: rest =>
    let us := s.now / 1000
    let n := if s.ledger.grantUs = us then s.ledger.grants else 0
    let level := (s.reg (pwrReg 0x30C)).toNat
    if n ≥ 24 || level < permitPrice q.eclass || stretched s (q.core / 12) then done r
    else
      let r := r.put (.ledger { s.ledger with reqs := rest, grantUs := us, grants := n + 1 })
      let r := r.setRegN (pwrReg 0x30C) (level - permitPrice q.eclass)
      let r := r.setReg64 (pwrReg 0x318) (s.reg64 (pwrReg 0x318) + 1)
      let r := r.countWait q
      match r.s.parcel? q.parcel with
      | some p => done (r.setParcel q.parcel { p with permits := p.permits ++ [q.core] })
      | none => done r

/-- PERMIT_TIMEOUT: the first gang of a parcel or re-run has waited PERMIT_TO µs (R441). -/
def execPermitTimeout (i : Nat) (s : State) : Host.Outcome State Fault Refusal :=
  let r := Run.start s
  match s.parcel? i with
  | none => done r
  | some p =>
    let late := s.ledger.reqs.any fun q =>
      q.parcel = i && decide (s.now > q.since + 1000 * s.fld (pwrReg 0x314) 15 0)
    if p.stage = .running && p.next = 0 && p.retired = 0 && p.again.isEmpty && p.permits.isEmpty && late then
      let r := r.withdraw fun q => q.parcel = i
      done ((r.bump (pwrReg 0x328)).endParcel i stNoPermit)
    else done r

/-! ## Gangs: admission, retirement, parking (R83 to R88, R285) -/

/-- Storage block of a gang in bytes (R85). -/
def storageOf (nreg ntd : Nat) : Nat := cdiv (256 * nreg + 32 * ntd) 512 * 512

/-- Gangs of a core. -/
def gangsOf (s : State) (core : Nat) : List (Nat × Gang) := s.gangs.filter fun kg => kg.1 / 128 = core

/-- The grid index a parcel dispatches next, if any: indices of a fence first, then in increasing order (R285, R289). -/
def nextIndex (p : Parcel) : Option Nat :=
  match p.again with
  | i :: _ => some i
  | [] => if p.next < (p.desc.getD 8 0).toNat then some p.next else none

/-- Gangs of a parcel that are still to be dispatched. -/
def gangsLeft (p : Parcel) : Nat := p.again.length + ((p.desc.getD 8 0).toNat - p.next)

/-- A logical core is reserved as a reflex core or on its way there (R228). -/
def reflexReserved (s : State) (l : Nat) : Bool :=
  (List.range 16).any fun n => s.fld (schedReg (0xF0000 + 0x100 * n)) 31 31 = 1 &&
    s.fld (schedReg (0xF0000 + 0x100 * n)) 7 0 = l

/-- Whether the placement of a parcel takes in a logical core (R285). -/
def placed (p : Parcel) (l : Nat) : Bool :=
  let c := (p.desc.getD 0 0).toNat
  bit c 24 || (decide (bits c 15 8 ≤ l) && decide (l ≤ bits c 15 8 + bits c 23 16))

/-- A reflex parcel, which completes when its group stops (R229). -/
def isReflex (p : Parcel) : Bool := bit (p.desc.getD 0 0).toNat 29

/-- A logical number takes no further gang: a rolling swap moves it (R463). -/
def swapDrains (s : State) (l : Nat) : Bool :=
  match s.fix.swap with
  | some w => w.logical = l && w.drain.isSome
  | none => false

/-- Storage of the gangs of a core that are live, and that are parked. -/
def liveStorage (s : State) (core : Nat) : Nat :=
  ((gangsOf s core).filter fun kg => !kg.2.parked).foldl (fun n kg => n + storageOf kg.2.nreg kg.2.ntd) 0
def parkedStorage (s : State) (core : Nat) : Nat :=
  ((gangsOf s core).filter fun kg => kg.2.parked).foldl (fun n kg => n + storageOf kg.2.nreg kg.2.ntd) 0

/-- Bytes of a core's parking region (R85, R86). -/
def parkBytes (s : State) (core : Nat) : Nat := s.fld (coreReg core 4) 20 16 * 8192

/-- Where a core has storage for a gang of a parcel: a live place (false), or with none left a place in the parking region
(true), where the gang starts parked and ready (R84, R85; DEDUCED, log 127). -/
def storagePlace (s : State) (core : Nat) (p : Parcel) : Option Bool :=
  let b := storageOf p.nreg p.ntd
  if liveStorage s core + b ≤ 131072 then some false
  else if parkedStorage s core + b ≤ parkBytes s core then some true
  else none

/-- The wait of a parcel for a backed core has lasted DEG_MS (R461). -/
def degradedOver (s : State) (p : Parcel) : Bool :=
  match p.degradedAt with
  | some t => decide (s.now ≥ t + s.fld (fixReg 8) 31 16 * 1000000)
  | none => false

/-- A core could admit the next gang of a parcel, permits apart (R84, R85, R285, R424). -/
def couldAdmit (s : State) (core : Nat) (p : Parcel) : Bool :=
  let l := logicalOf s core
  let gs := gangsOf s core
  let held := gs.foldl (fun n kg => n + kg.2.banks.length) 0
  let first := p.next = 0 && p.again.isEmpty && !p.rerun
  fwRuns s 0 && p.stage = .running && !p.stop && !degradedOver s p && (nextIndex p).isSome && decide (l < 176) && placed p l &&
  !(first && sessionHolds s p.ctx) && !swapDrains s l &&
  !reflexReserved s l && s.fld (pwrReg (0x100 + 0x10 * (core / 12))) 29 29 = 0 &&
  decide (gs.length < 128) && (storagePlace s core p).isSome && decide (held + p.nbanks ≤ 4)

/-- Rank of a parcel for the next admission: card PRIO, then earlier take, then lower card (R299). -/
def parcelRank (s : State) (p : Parcel) : Nat × Nat × Nat :=
  match p.origin with
  | .queue n _ => (255 - cardPrio s n, p.taken, n)
  | _ => (0, p.taken, 0)

/-- Lexicographic order of ranks. -/
def rankLt (a b : Nat × Nat × Nat) : Bool :=
  decide (a.1 < b.1) || (a.1 = b.1 && (decide (a.2.1 < b.2.1) || (a.2.1 = b.2.1 && decide (a.2.2 < b.2.2))))

/-- The seeds of a gang's rounding generators (R151). -/
def seedsOf (seed : W32) (gi : Nat) : W32 × W32 :=
  let h := seed ^^^ BitVec.ofNat 32 (gi * 0x9E3779B9)
  let h := if h = 0 then 0x6A09E667 else h
  let t := h ^^^ 0x5851F42D
  (h, if t = 0 then 0x6A09E667 else t)

/-- The placement of a parcel holds a backed core that is no reflex core (R461). -/
def placeBacked (s : State) (p : Parcel) : Bool :=
  (List.range 176).any fun l => placed p l && !reflexReserved s l && (coreOfLogical s l).isSome

/-- The gang as it starts (R83), live, or parked and ready since the time given (R85). -/
def newGang (i : Nat) (p : Parcel) (gi : Nat) (banks : List Nat) (parked : Option Nat := none) : Gang :=
  let pc := (p.desc.getD 2 0).toNat + 2 ^ 32 * (p.desc.getD 3 0).toNat + 16
  let t : Thread := { pc := BitVec.ofNat 48 pc }
  let t := ((t.wg 1 (BitVec.ofNat 32 gi)).wg 2 (p.desc.getD 4 0)).wg 3 (p.desc.getD 5 0)
  let (v, w) := seedsOf (p.desc.getD 1 0) gi
  { parcel := i, gridIdx := gi, nreg := p.nreg, ntd := p.ntd, banks := banks
    threads := List.replicate 64 t, parked := parked.isSome, readyAt := parked, vecRng := v, tenRng := w }

namespace Run

variable {z : State}

/-- Parcels that have left their wait and find no backed core note since when (R461). A wait whose deadline passed while the
scheduler restarted stays over (R301). -/
def noteDegraded (r : Run z) : Run z :=
  r.each (r.s.sched.parcels.filter fun p => p.2.stage = .running && !isReflex p.2) fun p r =>
    let at_ := if p.2.stop || (nextIndex p.2).isNone then none
      else if placeBacked r.s p.2 then p.2.degradedAt.filter fun _ => degradedOver r.s p.2
      else some (p.2.degradedAt.getD r.s.now)
    if at_ = p.2.degradedAt then r else r.setParcel p.1 { p.2 with degradedAt := at_ }

/-- A bank as an admitted gang receives it: CLEAR, every cell 0, ZPB and counts 0, statistics zeroed (R119, R133, R157). -/
def freshBank (r : Run z) (core b : Nat) : Run z :=
  let r := r.setCore core ((r.s.core core).setBank b {})
  let r := r.put (.power { r.s.power with statsLost := r.s.power.statsLost.filter (· ≠ 4 * core + b) })
  r.each ([0, 4, 8, 0xC] ++ (List.range 64).map fun j => 0x100 + 4 * j) fun off r => r.setRegN (qReg core b off) 0

/-- The core asks the Ledger for a permit for a parcel's next gang, once. A permit is for one gang, so no more are asked
for than gangs are left to dispatch (R439, R440). -/
def askPermit (r : Run z) (i core : Nat) (p : Parcel) : Run z :=
  let mine := r.s.ledger.reqs.filter fun q => q.parcel = i
  if mine.any (fun q => q.core = core) || decide (mine.length + p.permits.length ≥ gangsLeft p) then r
  else r.put (.ledger { r.s.ledger with reqs := r.s.ledger.reqs ++
    [⟨i, core, bits (p.desc.getD 0 0).toNat 27 25, r.s.now⟩] })

end Run

/-- A gang of a parcel is left for a core: not every one has its permit, or its request, at another core (R439, R440). -/
def gangLeftFor (s : State) (core i : Nat) (p : Parcel) : Bool :=
  decide ((s.ledger.reqs.filter fun q => q.parcel = i && q.core ≠ core).length +
    (p.permits.filter fun c => c ≠ core).length < gangsLeft p)

/-- GANG_ADMIT: a core admits the next gang of a parcel, giving it a free gang number and free banks. A class of 2 or above
first needs a permit, for which the core asks (R84, R285, R299, R439). -/
def execGangAdmit (core parcel gang : Nat) (banks : List Nat) (s : State) : Host.Outcome State Fault Refusal :=
  let r := Run.start s
  match s.parcel? parcel with
  | none => done r
  | some p =>
    let gs := gangsOf s core
    let better := s.sched.parcels.any fun q => q.1 ≠ parcel && couldAdmit s core q.2 && gangLeftFor s core q.1 q.2 &&
      rankLt (parcelRank s q.2) (parcelRank s p)
    let choiceOk := decide (gang < 128) && !gs.any (fun kg => kg.1 % 128 = gang) && banks.length = p.nbanks &&
      banks.all (fun b => decide (b < 4) && !gs.any fun kg => kg.2.banks.contains b) && banks.eraseDups = banks
    if core ≥ 192 || !couldAdmit s core p || better || !choiceOk then done r
    else
      let needs := decide (bits (p.desc.getD 0 0).toNat 27 25 ≥ 2)
      if needs && !p.permits.contains core then done (r.askPermit parcel core p)
      else match nextIndex p with
        | none => done r
        | some gi =>
          let p' := { p with
            permits := if needs then p.permits.erase core else p.permits
            again := p.again.drop 1
            next := if p.again.isEmpty then p.next + 1 else p.next }
          let r := r.setParcel parcel p'
          let r := r.each banks fun b r => r.freshBank core b
          let parked := if storagePlace s core p = some true then some s.now else none
          let r := (r.when parked.isNone fun r => r.noteReady core).setGang core gang (newGang parcel p gi banks parked)
          let r := r.put (.power { r.s.power with idleSince := s.now })
          done (r.traceCore core 0x0600 gi)

/-- Whether every gang of a parcel has retired with nothing left to dispatch. -/
def runEnded (p : Parcel) : Bool := !p.stop && p.retired = (p.desc.getD 8 0).toNat && p.again.isEmpty

/-- A run that has ended is due to be re-run (R161). -/
def rerunDue (s : State) (p : Parcel) : Bool :=
  let ctrl := statWord s p 0
  let lg := if bits ctrl 20 16 = 0 then 12 else bits ctrl 20 16
  p.stage = .running && runEnded p && !p.rerun && statsVa p ≠ 0 && !p.statsLost && p.status = stOk &&
  bit ctrl 31 && bit (p.desc.getD 0 0).toNat 28 && decide (statWord s p 0x24 * 2 ^ lg > statWord s p 0x28)

/-- The first run exceeded its threshold, re-run or not (R161). -/
def satExceeded (s : State) (p : Parcel) : Bool :=
  let ctrl := statWord s p 0
  let lg := if bits ctrl 20 16 = 0 then 12 else bits ctrl 20 16
  bit ctrl 31 && decide (statWord s p 0x24 * 2 ^ lg > statWord s p 0x28)

namespace Run

variable {z : State}

/-- In IDLE a cluster with no admitted gang, no reflex group and no pin is dormant: clock stopped, regulator at the
320 MHz point (R423). -/
def settleDormant (r : Run z) (cl : Nat) : Run z :=
  let busy := r.s.gangs.any (fun kg => kg.1 / 128 / 12 = cl) || (SMap.get [] r.s.power.pins cl ≠ []) || decide (cl ≥ 16)
  if powerState r.s ≠ 1 || busy then r
  else
    let k := pwrReg (0x100 + 0x10 * cl)
    (r.setFld k 29 29 1).setFld k 11 0 (vtabMv r.s cl 3)

/-- The last gang of a run has retired: the block is completed (R160), SAT_EXCEEDED noted (R161), RERUN_DONE (R163). -/
def closeRun (r : Run z) (i : Nat) : Run z :=
  match r.s.parcel? i with
  | none => r
  | some p =>
    if !runEnded p || statsVa p = 0 || p.statsLost then r
    else r.withStats i p fun r =>
      let r := r.closeStats p
      if p.rerun then r.setStat p 4 (statWord r.s p 4 ||| 2)
      else if satExceeded r.s p then
        (r.setStat p 4 (statWord r.s p 4 ||| 4)).setStat p 0x2C (statWord r.s p 0x24)
      else r

/-- A parcel that was stopped has no gang left: its work has ended (R92). -/
def closeStopped (r : Run z) (i : Nat) : Run z :=
  match r.s.parcel? i with
  | none => r
  | some p =>
    if p.stop && p.stage = .running && !r.s.gangs.any (fun kg => kg.2.parcel = i) then
      let r := r.withdraw fun q => q.parcel = i
      r.setParcel i { p with stage := .ending }
    else r

end Run

/-- A gang leaves its core: an exited gang's statistics are merged, its number, banks and waits are freed, and its parcel
counts it or, when stopped, closes (R84, R92, R160). -/
def Run.retireGang {z : State} (r : Run z) (core gang : Nat) (x : Gang) : Run z :=
  let r := if x.stopped then r
    else match r.s.parcel? x.parcel with
      | none => r
      | some p => r.withStats x.parcel p fun r => r.each x.banks fun b r => r.mergeBank p core b
  let r := (r.dropGangWaits core gang).dropGang core gang
  let r := r.bump (coreReg core 0x0D0)
  let r := r.traceCore core 0x0601 x.gridIdx
  let r := r.when ((gangsOf r.s core).isEmpty) fun r => r.takeMirror (coreReg core 4)
  let r := (r.put (.power { r.s.power with idleSince := r.s.now })).settleDormant (core / 12)
  match r.s.parcel? x.parcel with
  | none => r
  | some p =>
    if x.stopped then r.closeStopped x.parcel
    else (r.setParcel x.parcel { p with retired := p.retired + 1 }).closeRun x.parcel

/-- GANG_RETIRE: a gang whose threads have all exited, or that was stopped, and whose tensor instructions have all finished
is retired (R84, R92, R158). -/
def execGangRetire (core gang : Nat) (s : State) : Host.Outcome State Fault Refusal :=
  let r := Run.start s
  match s.gang? core gang with
  | none => done r
  | some x =>
    let c := s.core core
    let busy := (c.queue ++ c.running).any fun t => t.gang = gang
    if busy || !(x.stopped || x.allExited) then done r
    else done (r.retireGang core gang x)

/-- PARCEL_RERUN: the parcel is run again once, with its narrow drains altered to BF16 (R161, R162). -/
def execParcelRerun (i : Nat) (s : State) : Host.Outcome State Fault Refusal :=
  let r := Run.start s
  match s.parcel? i with
  | none => done r
  | some p =>
    if !fwRuns s 0 || !rerunDue s p then done r
    else
      let p := { p with rerun := true, next := 0, retired := 0 }
      let r := r.setParcel i p
      done (r.withStats i p fun r => r.zeroStats p true)

/-- A live gang that may be parked: blocked for AFTER ARITH cycles, with no tensor instruction in flight (R84, R87). -/
def mayPark (s : State) (core : Nat) (kg : Nat × Gang) : Bool :=
  let c := s.core core
  !kg.2.parked && !kg.2.allExited && !(c.queue ++ c.running).any (fun t => t.gang = kg.1 % 128) &&
  match kg.2.blockedAt with
  | some t => decide (s.now ≥ t + arithNs s core (s.fld (coreReg core 4) 12 0))
  | none => false

/-- The pair of the least value of a list; between equals the one that stands first, which is the lower gang number (R87 names none:
DESIGN CHOICE, log 128). -/
def leastBy (f : Nat × Gang → Nat) : List (Nat × Gang) → Option (Nat × Gang)
  | [] => none
  | x :: xs => some (xs.foldl (fun m y => if f y < f m then y else m) x)

/-- A parked gang is ready: its blocking wait has resolved (R88). -/
def parkedReady (s : State) (core : Nat) (kg : Nat × Gang) : Bool :=
  kg.2.parked && !kg.2.stopped && kg.2.yieldTo.isEmpty && !gangWaits s core (kg.1 % 128) && !kg.2.active.isEmpty

/-- GANG_PARK_SWAP: the parked gang that became ready first is unparked, and in the same swap the gang blocked longest is parked
(R87, R88). Where live storage has room for it, it is unparked with no other gang parked: R87 names only swaps, under which a
parked gang would never run again once the live ones have retired (DESIGN CHOICE, log 127). -/
def execGangParkSwap (core : Nat) (s : State) : Host.Outcome State Fault Refusal :=
  let r := Run.start s
  let gs := gangsOf s core
  let out := leastBy (fun kg => kg.2.blockedAt.getD 0) (gs.filter (mayPark s core))
  match leastBy (fun kg => kg.2.readyAt.getD 0) (gs.filter (parkedReady s core)) with
  | none => done r
  | some b =>
    let sb := storageOf b.2.nreg b.2.ntd
    let back := fun (r : Run s) =>
      (r.noteReady core).setGang core (b.1 % 128) { b.2 with parked := false, readyAt := none, blockedAt := none }
    if liveStorage s core + sb ≤ 131072 then done (back r)
    else match out with
      | none => done r
      | some o =>
        let so := storageOf o.2.nreg o.2.ntd
        if decide (parkedStorage s core + so - sb ≤ parkBytes s core) && decide (liveStorage s core + sb - so ≤ 131072) then
          done (back (r.setGang core (o.1 % 128) { o.2 with parked := true, readyAt := none }))
        else done r

/-! ## Completion (R163, R287) -/

/-- A parcel's work has ended: nothing of it runs, and no re-run is due. -/
def workEnded (s : State) (p : Parcel) : Bool :=
  p.stage = .ending || (p.stage = .running && !isReflex p && runEnded p && !rerunDue s p)

/-- The status a parcel completes with (R163). -/
def finalStatus (p : Parcel) : Nat :=
  if p.stage = .running && p.rerun && p.status = stOk then stSaturatedRerun else p.status

/-- A signal handle that no longer names its tally. -/
def sigLost (s : State) (h : Nat) : Bool := h ≠ 0 && (tallyOf s h).isNone

namespace Run

variable {z : State}

/-- Remove a parcel from flight (R286). -/
def leaveFlight (r : Run z) (i : Nat) (p : Parcel) : Run z :=
  let r := r.dropParcel i
  let r := r.setRegN (schedReg 0x01C) (inFlight r.s)
  r.setCtxInflight p.ctx (r.s.fld (schedReg (0x1000C + 0x10 * p.ctx)) 12 0 - 1)

/-- Write the completion record, the word DONE last; a fault sets QERR (R279, R287). -/
def writeRecord (r : Run z) (n idx : Nat) (p : Parcel) (status : Nat) (lost : Bool) : Run z :=
  let c := ctxX r.s p.ctx
  let va := cardAddr r.s n 6 + 64 * (idx % 2 ^ bits (cardW r.s n 8) 3 0)
  let fr := p.fault
  let t := r.s.timeAt tbSched
  let g := fun (f : FaultRecord → Nat) => match fr with | some x => f x | none => 0
  let info := g (·.cause) * 2 ^ 24 + g (·.gang) * 2 ^ 17 + b2n lost * 2 ^ 16 + p.fcore % 256 * 2 ^ 8 + p.redisp % 16
  let ws : List Nat := [info, t % 2 ^ 32, t / 2 ^ 32, p.taken % 2 ^ 32, p.taken / 2 ^ 32] ++
    words32 2 (g (·.tval.toNat)) ++ words32 2 (g (·.pc.toNat)) ++ words32 2 (g (·.mask.toNat)) ++
    [p.ftime % 2 ^ 32, p.ftime / 2 ^ 32, 0, 0]
  let body := ws.reverse.foldl (fun m w => m * 2 ^ 32 + w % 2 ^ 32) 0
  match r.writeVirt c (va + 4) 60 body with
  | .error _ => r.setHw n 9 (cardW r.s n 9 ||| 0x10000)
  | .ok r => r.tryWrite c va 4 (status * 2 ^ 16 + idx)

/-- Completion of a queue's parcel: record, then SIG0, SIG1 on success, then EVT_TALLY (R287). -/
def completeQueue (r : Run z) (i : Nat) (p : Parcel) (n idx : Nat) : Run z :=
  let status := finalStatus p
  let s0 := (p.desc.getD 14 0).toNat
  let s1 := (p.desc.getD 15 0).toNat
  let r := r.touchCard n
  let r := r.writeRecord n idx p status (isSuccess status && (sigLost r.s s0 || sigLost r.s s1))
  let r := r.trace 0x10 0x0012 (status * 2 ^ 16 + idx)
  let r := r.leaveFlight i p
  let r := r.setHw n 12 (cardW r.s n 12 - 1)
  let r := r.when (isSuccess status) fun r => (r.deviceAdd s0).deviceAdd s1
  r.cardEvent n

end Run

end Sys2Proof.Machine
end

