-- ==== Sys2Proof/Machine/Kv.lean ====
section
/-! DEFINITION. The key-value store: pools and the Page Index (R205 to R208), the sequence table and the request ring
(R209 to R216), eviction and recompute (R217 to R220). -/

namespace Sys2Proof.Machine

/-- Key of a PIDX register. -/
def pidxReg (off : Nat) : Nat := regKey 6 off

/-! ## Status codes (R216) -/

def stKvNoSeq : Nat := 0x0300
def stKvNoPage : Nat := 0x0301
def stKvSeqLimit : Nat := 0x0302
def stKvTentative : Nat := 0x0303
def stKvRecomputeFailed : Nat := 0x0304
def stKvPinned : Nat := 0x0305
def stKvSeqExhausted : Nat := 0x0306
def stKvBadRequest : Nat := 0x0307

/-! ## Sequence records (R209) -/

/-- A word of a sequence record. -/
def seqW (s : State) (q off : Nat) : Nat := s.load (seqTableBase + 64 * q + off) 4

/-- A pair of words of a sequence record. -/
def seqAddr (s : State) (q off : Nat) : Nat := seqW s q off + 2 ^ 32 * seqW s q (off + 4)

/-- Fields of CTRL. -/
def seqState (s : State) (q : Nat) : Nat := bits (seqW s q 0) 31 30
def seqPool (s : State) (q : Nat) : Nat := bits (seqW s q 0) 29 28
def seqFloor (s : State) (q : Nat) : Nat := bits (seqW s q 0) 27 18
def seqLayers (s : State) (q : Nat) : Nat := bits (seqW s q 0) 15 8 + 1
def seqPins (s : State) (q : Nat) : Nat := bits (seqW s q 0) 7 0

/-- TOK, TENT and RES. -/
def seqTok (s : State) (q : Nat) : Nat := seqW s q 0x04
def seqTent (s : State) (q : Nat) : Nat := seqW s q 0x08
def seqRes (s : State) (q : Nat) : Nat := seqW s q 0x0C

/-- The rights under which a sequence's page lists and recompute parcel are reached: those of RCTX. -/
def seqX (s : State) (q : Nat) : XCtx := ctxX s (bits (seqW s q 0x30) 11 0)

/-! ## The Page Index (R205 to R208) -/

/-- A Page Index entry. -/
structure PageEnt where
  idx : Nat
  /-- 0 FREE, 1 LIVE, 2 RECOMP. -/
  state : Nat
  seq : Nat
  layer : Nat
  lpage : Nat
  deriving DecidableEq, Repr

/-- The entry a 64-bit word describes (R206). -/
def PageEnt.of (n v : Nat) : PageEnt := ⟨n, bits v 63 62, bits v 61 50, bits v 49 42, bits v 41 33⟩

/-- The word of an entry with USED slots (R206). -/
def PageEnt.word (e : PageEnt) (used : Nat) : Nat :=
  e.state * 2 ^ 62 + e.seq % 4096 * 2 ^ 50 + e.layer % 256 * 2 ^ 42 + e.lpage % 512 * 2 ^ 33 + used % 512 * 2 ^ 24

/-- The entries that are not FREE, by rising number. -/
def pageEnts (s : State) : List PageEnt :=
  (s.regs.filter fun c => decide (pidxReg 0x10000 ≤ c.1) && decide (c.1 < pidxReg 0x50000) && c.1 % 8 = 4).map fun c =>
    let n := (c.1 - pidxReg 0x10000) / 8
    PageEnt.of n (s.reg64 (pidxReg (0x10000 + 8 * n)))

/-- The entries of a sequence. -/
def seqEnts (s : State) (q : Nat) : List PageEnt := (pageEnts s).filter fun e => e.seq = q

/-- First entry and number of entries of a pool (R205). -/
def poolFirst (s : State) (p : Nat) : Nat := s.fld (pidxReg (0x04C + 0x10 * p)) 14 0
def poolCount (s : State) (p : Nat) : Nat := s.fld (pidxReg (0x048 + 0x10 * p)) 15 0

/-- The numbers of a pool's FREE entries, rising. -/
def poolFree (s : State) (p : Nat) : List Nat :=
  let used := (pageEnts s).map (·.idx)
  ((List.range (poolCount s p)).map (poolFirst s p + ·)).filter fun n => !used.contains n

/-- Whether a write to a pool register is taken: v is the word it would hold (R205). -/
def poolWriteOk (s : State) (off v : Nat) : Bool :=
  let q := (off - 0x040) / 0x10
  let part := off % 0x10
  let first := fun p => if p = q ∧ part = 0xC then bits v 14 0 else poolFirst s p
  let count := fun p => if p = q ∧ part = 8 then bits v 15 0 else poolCount s p
  let ends := (List.range 4).all fun p => decide (first p + count p ≤ 32768)
  let apart := (List.range 4).all fun p => (List.range 4).all fun p' =>
    p = p' || count p = 0 || count p' = 0 || decide (first p + count p ≤ first p') || decide (first p' + count p' ≤ first p)
  let inUse := (pageEnts s).any fun e =>
    decide (poolFirst s q ≤ e.idx) && decide (e.idx < poolFirst s q + poolCount s q)
  let changes := s.reg (pidxReg off) ≠ BitVec.ofNat 32 v
  ends && apart && !(changes && inUse)

namespace Run

variable {z : State}

/-- Write a word of a sequence record. -/
def setSeqW (r : Run z) (q off v : Nat) : Run z := r.store (seqTableBase + 64 * q + off) 4 v

/-- Replace SSTATE, or PINS. -/
def setSeqState (r : Run z) (q v : Nat) : Run z := r.setSeqW q 0 (setBits (seqW r.s q 0) 31 30 v)
def setSeqPins (r : Run z) (q v : Nat) : Run z := r.setSeqW q 0 (setBits (seqW r.s q 0) 7 0 v)

/-- FREE of every pool (R205). -/
def countFree (r : Run z) : Run z :=
  r.each (List.range 4) fun p r => r.setRegN (pidxReg (0x080 + 4 * p)) (poolFree r.s p).length

/-- Write a Page Index entry, with USED as the sequence's tokens give it (R206). -/
def setEnt (r : Run z) (e : PageEnt) : Run z :=
  let used := min 256 (seqTok r.s e.seq + seqTent r.s e.seq - 256 * e.lpage)
  r.setReg64 (pidxReg (0x10000 + 8 * e.idx)) (if e.state = 0 then 0 else e.word used)

/-- Write a page-list word (R207). -/
def setPageWord (r : Run z) (q layer page v : Nat) : Run z :=
  r.tryWrite (seqX r.s q) (seqAddr r.s q 0x18 + 2048 * layer + 4 * page) 4 v

/-- Free some entries of a sequence, their page-list words becoming 0. -/
def freeEnts (r : Run z) (es : List PageEnt) : Run z :=
  (r.each es fun e r => (r.setPageWord e.seq e.layer e.lpage 0).setEnt { e with state := 0 }).countFree

/-- USED of every page of a sequence. -/
def refreshUsed (r : Run z) (q : Nat) : Run z := r.each (seqEnts r.s q) fun e r => r.setEnt e

/-- Allocate pages, the lowest FREE entries of the pool in order, as LIVE with VALID or RECOMP with FILL (R207, R208). -/
def allocPages (r : Run z) (q : Nat) (pages : List (Nat × Nat)) (fill : Bool) : Run z :=
  (r.each ((poolFree r.s (seqPool r.s q)).zip pages) fun a r =>
    let r := r.setEnt ⟨a.1, if fill then 2 else 1, q, a.2.1, a.2.2⟩
    r.setPageWord q a.2.1 a.2.2 ((if fill then 2 ^ 30 else 2 ^ 31) + a.1)).countFree

end Run

/-- The pages, layer by layer, that tokens 0 to t - 1 cover and the sequence has not (R208, R212). -/
def missingPages (s : State) (q t : Nat) : List (Nat × Nat) :=
  let have_ := (seqEnts s q).map fun e => (e.layer, e.lpage)
  ((List.range (seqLayers s q)).flatMap fun l => (List.range (cdiv t 256)).map fun p => (l, p)).filter fun x =>
    !have_.contains x

/-! ## Eviction (R217, R218) -/

/-- Pages per layer that eviction can take from a sequence. -/
def evictPages (s : State) (q : Nat) : Nat := cdiv (seqRes s q) 256 - seqFloor s q

/-- Insert into a list ordered by a key. -/
def insertByKey (f : Nat → Nat) (x : Nat) : List Nat → List Nat
  | [] => [x]
  | y :: ys => if f x < f y then x :: y :: ys else y :: insertByKey f x ys

/-- The candidates for eviction, oldest first by LAST_USE, then by lower SEQ. -/
def evictCands (s : State) (pool q : Nat) : List Nat :=
  ((List.range 4096).filter fun x =>
    x ≠ q && seqState s x = 1 && seqPool s x = pool && seqPins s x = 0 && seqTent s x = 0 &&
    decide (seqRes s x > 256 * seqFloor s x)).foldl (fun l x => insertByKey (fun y => seqAddr s y 0x10) x l) []

/-- Whether FREE entries and eviction together cover k pages for a sequence. -/
def canCover (s : State) (q k : Nat) : Bool :=
  let pool := seqPool s q
  let free := (poolFree s pool).length
  decide (k ≤ free) ||
    decide (k ≤ (evictCands s pool q).foldl (fun n x => n + seqLayers s x * evictPages s x) free)

namespace Run

variable {z : State}

/-- Evict pages from page p0 upward of a sequence (R218). -/
def evictFrom (r : Run z) (q p0 : Nat) : Run z :=
  let es := (seqEnts r.s q).filter fun e => decide (e.lpage ≥ p0)
  let r := r.freeEnts es
  let r := r.setSeqW q 0x0C (min (seqRes r.s q) (256 * p0))
  (r.setSeqW q 0x34 (sat32 (seqW r.s q 0x34 + es.length))).trace 0x11 0x0021 (es.length * 2 ^ 16 + q)

/-- Evict until k pages are FREE for a sequence: from each candidate the smallest tail that covers what is missing. -/
def evictFor (r : Run z) (q k : Nat) : Run z :=
  let pool := seqPool r.s q
  if (poolFree r.s pool).length ≥ k then r
  else r.each (evictCands r.s pool q) fun x r =>
    let missing := k - (poolFree r.s pool).length
    let tail := min (evictPages r.s x) (cdiv missing (seqLayers r.s x))
    if tail = 0 then r else r.evictFrom x (cdiv (seqRes r.s x) 256 - tail)

/-! ## Requests (R210 to R215) -/

/-- Complete a request: RESULT, STATUS with DONE, and TADD 1 on TALLY (R213). -/
def kvComplete (r : Run z) (q : KvReq) (status result : Nat) : Run z :=
  let c := ctxX r.s 0
  let r := r.tryWrite c (q.va + 0x14) 4 result
  let r := r.tryWrite c (q.va + 0x18) 4 (2 ^ 31 + status)
  (r.trace 0x11 0x0020 (q.op * 2 ^ 24 + q.seq)).deviceAdd q.tally

/-- A request on a sequence completes OK: LAST_USE, then its completion. -/
def kvOk (r : Run z) (q : KvReq) (seq result : Nat) : Run z :=
  ((r.setSeqW seq 0x10 r.s.now).setSeqW seq 0x14 (r.s.now / 2 ^ 32)).kvComplete q stOk result

end Run

/-- The lowest CLOSED record. -/
def closedSeq (s : State) : Option Nat := (List.range 4096).find? fun q => seqState s q = 0

/-- The OPEN block, as its 16 words, when it is well formed (R212, R214). -/
def openBlock (s : State) (addr : Nat) : Option (List Nat) :=
  match readVirt s (ctxX s 0) addr 64 with
  | .error _ => none
  | .ok v =>
    let w := words32 16 v
    let g := fun i => w.getD i 0
    let ctrl := g 0
    if bits ctrl 27 18 ≤ 512 && bits ctrl 31 30 = 0 && bits ctrl 17 16 = 0 && bits ctrl 7 0 = 0 &&
        [1, 2, 3, 4, 5, 13, 14, 15].all (fun i => g i = 0) && g 6 % 2048 = 0 && decide (g 12 < 4096) then some w
    else none

/-- The checks of R214 that need no page: none when they pass. A COUNT of 0 in a reservation, COMMIT or DISCARD completes
OK before the rules of its operation. -/
def kvCheck (s : State) (q : KvReq) : Option Nat :=
  let sq := q.seq
  if q.op = 1 then (if (closedSeq s).isNone then some stKvSeqExhausted else none)
  else if seqState s sq = 0 then some stKvNoSeq
  else match q.op with
    | 2 => if seqPins s sq > 0 then some stKvPinned else none
    | 3 => if seqPins s sq = 255 then some stBounds else none
    | 4 => if seqPins s sq = 0 then some stBounds else none
    | 5 =>
      if q.count = 0 then none
      else if seqTent s sq > 0 then some stKvTentative
      else if seqTok s sq + seqTent s sq + q.count > 131072 then some stKvSeqLimit else none
    | 6 => if q.count ≠ 0 && decide (seqTok s sq + seqTent s sq + q.count > 131072) then some stKvSeqLimit else none
    | 7 => if q.count > seqTent s sq then some stBounds else none
    | 8 => if q.count > seqTent s sq then some stBounds else none
    | _ => some stKvBadRequest

/-- Tokens that pages must cover for a request: its reservation, or the residency it restores (R212, R219). -/
def kvTokens (s : State) (q : KvReq) : Nat :=
  match q.op with
  | 3 => seqTok s q.seq
  | 5 => seqTok s q.seq + seqTent s q.seq + q.count
  | 6 => seqTok s q.seq + seqTent s q.seq + q.count
  | _ => 0

/-- Whether a request restores residency (R219). -/
def kvRestores (q : KvReq) : Bool := q.op = 3 || ((q.op = 5 || q.op = 6) && q.count ≠ 0)

namespace Run

variable {z : State}

/-- OPEN (R212). -/
def kvOpenSeq (r : Run z) (q : KvReq) (w : List Nat) : Run z :=
  match closedSeq r.s with
  | none => r.kvComplete q stKvSeqExhausted 0
  | some n =>
    let g := fun i => w.getD i 0
    let r := r.each [0x18, 0x1C, 0x20, 0x24, 0x28, 0x2C, 0x30] fun off r => r.setSeqW n off (g (off / 4))
    let r := r.each [0x04, 0x08, 0x0C] fun off r => r.setSeqW n off 0
    let r := r.setSeqW n 0 (setBits (g 0) 31 30 1)
    let r := r.each (List.range (512 * seqLayers r.s n)) fun i r => r.setPageWord n (i / 512) (i % 512) 0
    r.kvOk q n n

/-- Free every page of a sequence and close it. -/
def closeSeq (r : Run z) (n : Nat) : Run z := (r.freeEnts (seqEnts r.s n)).setSeqState n 0

/-- Free the pages with no reserved slot, held while the sequence was pinned (R215). -/
def freeEmpty (r : Run z) (n : Nat) : Run z :=
  r.freeEnts ((seqEnts r.s n).filter fun e => decide (256 * e.lpage ≥ seqTok r.s n + seqTent r.s n))

/-- The effect of a request whose sequence is resident, and its completion (R212, R215). -/
def kvFinish (r : Run z) (q : KvReq) : Run z :=
  let n := q.seq
  let tok := seqTok r.s n
  let tent := seqTent r.s n
  match q.op with
  | 2 => (r.closeSeq n).kvOk q n 0
  | 3 => (r.setSeqPins n (seqPins r.s n + 1)).kvOk q n tok
  | 4 =>
    let pins := seqPins r.s n - 1
    let r := r.setSeqPins n pins
    (r.when (pins = 0) fun r => r.freeEmpty n).kvOk q n pins
  | 7 =>
    let r := ((r.setSeqW n 0x04 (tok + q.count)).setSeqW n 0x08 (tent - q.count)).setSeqW n 0x0C (tok + q.count)
    r.kvOk q n (tok + q.count)
  | 8 =>
    let r := (r.setSeqW n 0x08 (tent - q.count)).refreshUsed n
    (r.when (seqPins r.s n = 0) fun r => r.freeEmpty n).kvOk q n (tent - q.count)
  | op =>
    let pages := missingPages r.s n (tok + tent + q.count)
    if !canCover r.s n pages.length then r.kvComplete q stKvNoPage 0
    else
      let r := r.evictFor n pages.length
      let r := if op = 5 then (r.setSeqW n 0x04 (tok + q.count)).setSeqW n 0x0C (tok + q.count)
        else r.setSeqW n 0x08 (tent + q.count)
      let r := (r.allocPages n pages false).refreshUsed n
      r.kvOk q n (tok + tent)

/-- The status and the value a COUNT of 0 completes with at once (R214). -/
def kvZero (r : Run z) (q : KvReq) : Run z :=
  let tok := seqTok r.s q.seq
  let tent := seqTent r.s q.seq
  r.kvComplete q stOk (match q.op with | 5 => tok | 6 => tok + tent | 7 => tok | _ => tent)

/-- Submit the recompute parcel of a sequence: its argument, then the parcel to RCTX (R219). A descriptor that cannot be
read makes a parcel that ends BAD_KERNEL. -/
def submitRecompute (r : Run z) (n : Nat) : Run z :=
  let ctx := bits (seqW r.s n 0x30) 11 0
  let c := ctxX r.s ctx
  let tok := seqTok r.s n
  let res := seqRes r.s n
  let base : Parcel := { ctx := ctx, origin := .recompute n, desc := [], taken := r.s.now }
  match r.readIn c (seqAddr r.s n 0x28) 64 with
  | (.error _, r) => r.addParcel { base with stage := .ending, status := stBadKernel }
  | (.ok d, r) =>
    let ws := words32 16 d
    let arg := ws.getD 4 0 + 2 ^ 32 * ws.getD 5 0
    let r := r.tryWrite c arg 16 (n + 2 ^ 32 * res + 2 ^ 64 * (tok - res))
    let st := descStatus r.s ctx ws
    r.addParcel { base with
      desc := ws.map (BitVec.ofNat 32 ·), stage := if st = stOk then .waiting else .ending, status := st
      met0 := metAtTake r.s (ws.getD 10 0) (ws.getD 11 0), met1 := metAtTake r.s (ws.getD 12 0) (ws.getD 13 0) }

/-- A sequence is to be recomputed: its parcel enters flight, or waits while 4,096 parcels are in it (R286; DEDUCED, log 133). -/
def startRecompute (r : Run z) (n : Nat) : Run z :=
  if inFlight r.s < 4096 then r.submitRecompute n else r.put (.kv { r.s.kv with owed := r.s.kv.owed ++ [n] })

/-- A parcel has left flight, and the recompute parcel that waits longest enters it (R286). -/
def owedRecompute (r : Run z) : Run z :=
  match r.s.kv.owed with
  | n :: rest => if inFlight r.s < 4096 then (r.put (.kv { r.s.kv with owed := rest })).submitRecompute n else r
  | [] => r

/-- Put a request among those that wait for a recompute. -/
def kvHold (r : Run z) (q : KvReq) (front : Bool := false) : Run z :=
  let k := r.s.kv
  r.put (.kv { k with waiting := if front then q :: k.waiting else k.waiting ++ [q] })

/-- Serve a request whose turn has come: the checks, a recompute if residency must be restored, or its effect. It takes every
page of the recompute and of the reservation at once, or is refused before anything happens (R208, R214, R219); those of the
reservation are LIVE with no slot reserved until the recompute has completed (DEDUCED, log 129). -/
def kvServe (r : Run z) (q : KvReq) : Run z :=
  match (if q.bad then some stKvBadRequest else kvCheck r.s q) with
  | some st => r.kvComplete q st 0
  | none =>
    if q.op ≥ 5 && q.count = 0 then r.kvZero q
    else if kvRestores q && decide (seqRes r.s q.seq < seqTok r.s q.seq) then
      let all := missingPages r.s q.seq (kvTokens r.s q)
      if !canCover r.s q.seq all.length then r.kvComplete q stKvNoPage 0
      else
        let fill := missingPages r.s q.seq (seqTok r.s q.seq)
        let r := r.evictFor q.seq all.length
        let r := r.allocPages q.seq fill true
        let r := r.allocPages q.seq (all.filter fun x => !fill.contains x) false
        let r := r.setSeqState q.seq 2
        (r.startRecompute q.seq).kvHold q true
    else r.kvFinish q

/-- Serve the requests that waited on a sequence, in order, until one of them starts a recompute. -/
def kvDrain (r : Run z) (n : Nat) : Nat → Run z
  | 0 => r
  | fuel + 1 =>
    if seqState r.s n = 2 then r
    else match r.s.kv.waiting.find? fun q => q.seq = n with
      | none => r
      | some q =>
        let r := r.put (.kv { r.s.kv with waiting := r.s.kv.waiting.erase q })
        (r.kvServe q).kvDrain n fuel

end Run

/-- Virtual address of the ring entry to be examined next. -/
def kvHeadVa (s : State) : Nat := s.reg64 (pidxReg 0) + 32 * (s.fld (pidxReg 0x010) 11 0 % 2 ^ s.fld (pidxReg 8) 3 0)

/-- The entry to be examined next, as a number; 0 when it cannot be read. -/
def kvHead (s : State) : Nat :=
  match readVirt s (ctxX s 0) (kvHeadVa s) 32 with
  | .ok v => v
  | .error _ => 0

namespace Run

variable {z : State}

/-- Take the entry at PIDX_RQ_HEAD if it holds an OP that the caller serves: copy it, write 0 to its first word, advance
HEAD, and sleep when the next entry's OP is 0 (R210). -/
def kvTake (r : Run z) (mine : Nat → Bool) (serve : KvReq → Nat → Run z → Run z) : Run z :=
  let e := kvHead r.s
  let w := words32 8 e
  let op := bits (w.getD 0 0) 31 24
  if !fwRuns r.s 1 || r.s.fld (pidxReg 8) 31 31 = 0 || !r.s.kv.awake || op = 0 || !mine op then r
  else
    let q : KvReq := {
      op := op, seq := bits (w.getD 0 0) 11 0, count := w.getD 1 0, addr := w.getD 2 0 + 2 ^ 32 * w.getD 3 0
      tally := w.getD 4 0, va := kvHeadVa r.s }
    let c := ctxX r.s 0
    let r := (r.markRange c .load q.va 32).tryWrite c q.va 4 0
    let r := r.setRegN (pidxReg 0x010) ((r.s.fld (pidxReg 0x010) 11 0 + 1) % 2 ^ r.s.fld (pidxReg 8) 3 0)
    let r := r.when (bits (kvHead r.s) 31 24 = 0) fun r => r.put (.kv { r.s.kv with awake := false })
    serve q e r

/-- A request with an RSV bit set is refused: those of OP_SEQ, of STATUS and the last word (R210, R214). -/
def kvRsv (e : Nat) : Bool := bits e 23 12 ≠ 0 || bits e 222 208 ≠ 0 || e / 2 ^ 224 ≠ 0

/-- A request that names a sequence: behind the requests that wait on it, if any, even when it will be refused (R211). -/
def kvQueue (q : KvReq) (e : Nat) (r : Run z) : Run z :=
  let q := { q with bad := kvRsv e || decide (q.op > 8) }
  if r.s.kv.waiting.any fun x => x.seq = q.seq then r.kvHold q else r.kvServe q

end Run

/-! ## The request commands: the memory processor takes the next entry of the ring -/

/-- OPEN (R212, R214). -/
def execKvOpen (s : State) : Host.Outcome State Fault Refusal :=
  done ((Run.start s).kvTake (· = 1) fun q e r =>
    if Run.kvRsv e || q.seq ≠ 0 then r.kvComplete q stKvBadRequest 0
    else
      let w := openBlock r.s q.addr
      let r := r.markRange (ctxX r.s 0) .load q.addr 64
      match w with
      | none => r.kvComplete q stKvBadRequest 0
      | some w => r.kvOpenSeq q w)

/-- CLOSE. -/
def execClose (s : State) : Host.Outcome State Fault Refusal := done ((Run.start s).kvTake (· = 2) Run.kvQueue)

/-- PIN. -/
def execPin (s : State) : Host.Outcome State Fault Refusal := done ((Run.start s).kvTake (· = 3) Run.kvQueue)

/-- UNPIN. -/
def execUnpin (s : State) : Host.Outcome State Fault Refusal := done ((Run.start s).kvTake (· = 4) Run.kvQueue)

/-- APPEND. -/
def execAppend (s : State) : Host.Outcome State Fault Refusal := done ((Run.start s).kvTake (· = 5) Run.kvQueue)

/-- TAPPEND. -/
def execTappend (s : State) : Host.Outcome State Fault Refusal := done ((Run.start s).kvTake (· = 6) Run.kvQueue)

/-- COMMIT. -/
def execCommit (s : State) : Host.Outcome State Fault Refusal := done ((Run.start s).kvTake (· = 7) Run.kvQueue)

/-- DISCARD. -/
def execDiscard (s : State) : Host.Outcome State Fault Refusal := done ((Run.start s).kvTake (· = 8) Run.kvQueue)

/-- A request entry with an unlisted OP (R212, R214). -/
def execKvBadRequest (s : State) : Host.Outcome State Fault Refusal :=
  done ((Run.start s).kvTake (fun op => decide (op > 8)) Run.kvQueue)

/-- RECOMPUTE_COMPLETE: the recompute parcel has completed; the request goes on or fails, and the requests behind it on
its sequence follow (R219, R220, R211). -/
def execRecomputeComplete (i : Nat) (s : State) : Host.Outcome State Fault Refusal :=
  let r := Run.start s
  match s.parcel? i with
  | none => done r
  | some p =>
    match p.origin with
    | .recompute n =>
      if !fwRuns s 1 || !workEnded s p then done r
      else
        let status := finalStatus p
        let r := (r.leaveFlight i p).owedRecompute
        let r := r.when (isSuccess status) fun r =>
          (r.deviceAdd (p.desc.getD 14 0).toNat).deviceAdd (p.desc.getD 15 0).toNat
        let fill := (seqEnts r.s n).filter fun e => e.state = 2
        let req := r.s.kv.waiting.find? fun q => q.seq = n
        let r := r.put (.kv { r.s.kv with waiting := match req with | some q => r.s.kv.waiting.erase q | none => r.s.kv.waiting })
        let r :=
          if isSuccess status then
            let r := r.each fill fun e r => (r.setEnt { e with state := 1 }).setPageWord n e.layer e.lpage (2 ^ 31 + e.idx)
            let r := (r.setSeqW n 0x0C (seqTok r.s n)).setSeqState n 1
            let r := r.setSeqW n 0x38 (sat32 (seqW r.s n 0x38 + 1))
            match req with
            | some q => r.kvFinish q
            | none => r
          else
            let r := ((r.freeEnts fill).freeEmpty n).setSeqState n 1
            match req with
            | some q => r.kvComplete q stKvRecomputeFailed status
            | none => r
        done (r.kvDrain n (r.s.kv.waiting.length + 1))
    | _ => done r

end Sys2Proof.Machine
end

