-- ==== Sys2Proof/Machine/Wire.lean ====
section
/-! DEFINITION. Octets on the wire: Mehryen headers with their CRC-32C (R318, R319), Ethernet frames (R332, R335), and
the IPv4, IPv6 and UDP headers around a message (R315). -/

namespace Sys2Proof.Machine

/-- Octets of a number in network order. -/
def beBytes (n v : Nat) : List Byte := (leBytes n v).reverse

/-- The number that octets in network order spell. -/
def ofBe (bs : List Byte) : Nat := ofLe bs.reverse

/-- n octets of a string from a place, fewer at its end. -/
def slice (bs : List Byte) (at_ n : Nat) : List Byte := (bs.drop at_).take n

/-- A little-endian field of n octets at a place. -/
def le (bs : List Byte) (at_ n : Nat) : Nat := ofLe (slice bs at_ n)

/-- A field of n octets in network order. -/
def be (bs : List Byte) (at_ n : Nat) : Nat := ofBe (slice bs at_ n)

/-- Pad octets with zeros to a length. -/
def padTo (n : Nat) (bs : List Byte) : List Byte := bs ++ List.replicate (n - bs.length) 0

/-! ## CRC-32C (R319) -/

/-- One bit of the reflected division. -/
def crcBit (c : W32) : W32 := if c.getLsbD 0 then (c >>> 1) ^^^ 0x82F63B78 else c >>> 1

/-- One octet. -/
def crcByte (c : W32) (b : Byte) : W32 :=
  (List.range 8).foldl (fun c _ => crcBit c) (c ^^^ b.setWidth 32)

/-- CRC-32C of a string. -/
def crc32c (bs : List Byte) : W32 := bs.foldl crcByte 0xFFFFFFFF ^^^ 0xFFFFFFFF

/-! ## Mehryen headers (R318) -/

/-- The fields of a header. -/
structure Hdr where
  major : Nat := 1
  minor : Nat
  reply : Bool := false
  nocrc : Bool := false
  repeat_ : Bool := false
  more : Bool := false
  rsv : Nat := 0
  part : Nat := 0
  opcode : Nat
  status : Nat := 0
  session : Nat
  rsv2 : Nat := 0
  length : Nat
  token : Nat
  seq : Nat
  time : Nat
  crc : Nat := 0
  deriving DecidableEq, Repr

/-- The header in the first 32 octets of a string. -/
def Hdr.parse (bs : List Byte) : Hdr :=
  let vf := le bs 0 4
  let os := le bs 4 4
  let sl := le bs 8 4
  { major := bits vf 31 24, minor := bits vf 23 16, reply := bit vf 15, nocrc := bit vf 14, repeat_ := bit vf 13
    more := bit vf 12, rsv := bits vf 11 8, part := bits vf 7 0, opcode := bits os 31 16, status := bits os 15 0
    session := bits sl 31 20, rsv2 := bits sl 19 16, length := bits sl 15 0, token := le bs 12 4, seq := le bs 16 4
    time := le bs 20 8, crc := le bs 28 4 }

/-- The octets of a header with a CRC word. -/
def Hdr.bytes (h : Hdr) (crc : Nat) : List Byte :=
  leBytes 4 (h.major * 2 ^ 24 + h.minor % 256 * 2 ^ 16 + b2n h.reply * 2 ^ 15 + b2n h.nocrc * 2 ^ 14 +
    b2n h.repeat_ * 2 ^ 13 + b2n h.more * 2 ^ 12 + h.part % 256) ++
  leBytes 4 (h.opcode % 2 ^ 16 * 2 ^ 16 + h.status % 2 ^ 16) ++
  leBytes 4 (h.session % 4096 * 2 ^ 20 + h.length % 2 ^ 16) ++
  leBytes 4 h.token ++ leBytes 4 h.seq ++ leBytes 8 h.time ++ leBytes 4 crc

/-- A whole message: header with its CRC, and payload. -/
def Hdr.message (h : Hdr) (payload : List Byte) : List Byte :=
  let crc := if h.nocrc then 0 else (crc32c (h.bytes 0 ++ payload)).toNat
  h.bytes crc ++ payload

/-- Whether a message's CRC matches: header with the CRC word taken as 0, then payload (R319). -/
def crcOk (bs : List Byte) (length : Nat) : Bool :=
  (crc32c (bs.take 28 ++ leBytes 4 0 ++ slice bs 32 length)).toNat = le bs 28 4

/-! ## Frames -/

/-- Number of octets of a frame with its tag and FCS (R332). -/
def Frame.len (f : Frame) (tagged : Bool) : Nat := 14 + (if tagged then 4 else 0) + max 46 f.body.length + 4

/-- The octets of a frame from destination address to last data octet. -/
def Frame.bytes (f : Frame) (tagged : Bool) : List Byte :=
  leBytes 6 f.dst ++ leBytes 6 f.src ++
    (if tagged then beBytes 2 0x8100 ++ beBytes 2 (f.pcp * 2 ^ 13 + f.vid) else []) ++ beBytes 2 f.etype ++ f.body

/-- A frame of addresses, VLAN, priority, EtherType and data. -/
def Frame.of (dst src vid pcp etype : Nat) (body : List Byte) : Frame :=
  { dst := dst, src := src, vid := vid, pcp := pcp, etype := etype, body := body }

/-- A frame from its octets; an untagged or priority-tagged one takes the VLAN given (R335). -/
def Frame.parse (bs : List Byte) (pvid : Nat) : Frame :=
  let dst := le bs 0 6
  let src := le bs 6 6
  if be bs 12 2 = 0x8100 then
    let tci := be bs 14 2
    let vid := bits tci 11 0
    .of dst src (if vid = 0 then pvid else vid) (bits tci 15 13) (be bs 16 2) (bs.drop 18)
  else .of dst src pvid 0 (be bs 12 2) (bs.drop 14)

/-- Whether an address is a group address. -/
def isGroup (mac : Nat) : Bool := bit mac 0

/-! ## Internet headers -/

/-- The ones' complement sum of 16-bit words in network order. -/
def onesSum : Nat → List Byte → Nat → Nat
  | 0, _, acc => acc
  | fuel + 1, bs, acc =>
    match bs with
    | [] => acc
    | [a] => (acc + a.toNat * 256) % 65535
    | a :: b :: rest => onesSum fuel rest ((acc + a.toNat * 256 + b.toNat) % 65535)

/-- The Internet checksum of octets. -/
def inetSum (bs : List Byte) : Nat := 65535 - onesSum bs.length bs 0

/-- A UDP datagram in IPv4 or IPv6, from the device's address and port to the partner's. -/
def udpPacket (v6 : Bool) (src dst sport dport : Nat) (data : List Byte) : List Byte :=
  let n := data.length + 8
  let udp0 := beBytes 2 sport ++ beBytes 2 dport ++ beBytes 2 n
  if v6 then
    let pseudo := beBytes 16 src ++ beBytes 16 dst ++ beBytes 4 n ++ beBytes 4 17
    let sum := inetSum (pseudo ++ udp0 ++ beBytes 2 0 ++ data)
    beBytes 4 (6 * 2 ^ 28) ++ beBytes 2 n ++ beBytes 1 17 ++ beBytes 1 64 ++ beBytes 16 src ++ beBytes 16 dst ++
      udp0 ++ beBytes 2 (if sum = 0 then 65535 else sum) ++ data
  else
    let h := fun (c : Nat) => beBytes 2 0x4500 ++ beBytes 2 (n + 20) ++ beBytes 4 0 ++ beBytes 1 64 ++ beBytes 1 17 ++
      beBytes 2 c ++ beBytes 4 src ++ beBytes 4 dst
    h (inetSum (h 0)) ++ udp0 ++ beBytes 2 0 ++ data

/-- A UDP datagram found in an IPv4 or IPv6 body: version, source and destination addresses, ports, data, and whether it
is a fragment. -/
structure Udp where
  v6 : Bool
  src : Nat
  dst : Nat
  sport : Nat
  dport : Nat
  data : List Byte
  frag : Bool
  deriving DecidableEq, Repr

/-- The datagram in a frame's body, if it is one. -/
def udpOf (etype : Nat) (b : List Byte) : Option Udp :=
  if etype = 0x0800 && bits (be b 0 1) 7 4 = 4 && be b 9 1 = 17 then
    let hl := 4 * bits (be b 0 1) 3 0
    let u := b.drop hl
    some ⟨false, be b 12 4, be b 16 4, be u 0 2, be u 2 2, slice u 8 (be u 4 2 - 8), bits (be b 6 2) 13 0 ≠ 0⟩
  else if etype = 0x86DD && bits (be b 0 1) 7 4 = 6 && be b 6 1 = 17 then
    let u := b.drop 40
    some ⟨true, be b 8 16, be b 24 16, be u 0 2, be u 2 2, slice u 8 (be u 4 2 - 8), false⟩
  else if etype = 0x86DD && bits (be b 0 1) 7 4 = 6 && be b 6 1 = 44 && be b 40 1 = 17 then
    some ⟨true, be b 8 16, be b 24 16, 0, 0, [], true⟩
  else none

end Sys2Proof.Machine
end

