-- ==== Sys2Proof/Machine/Eth.lean ====
section
/-! DEFINITION. The switch: TSN tables (R337), stream filters and sequence recovery (R340, R341), forwarding (R335) and
egress with gates, shapers and preemption (R342, R343), link state (R334). -/

namespace Sys2Proof.Machine

/-- Key of an ETH register. -/
def ethReg (off : Nat) : Nat := regKey 8 off

/-- Key of a register of external port n. -/
def portReg (n off : Nat) : Nat := ethReg (0x100 * n + off)

def stEthTableFull : Nat := 0x0800
def stEthBadFlow : Nat := 0x0801

/-- A port beyond its registers. -/
def ethPort (s : State) (n : Nat) : EthPort := SMap.get {} s.eth.ports n

/-- LINK of a port is UP. -/
def linkUp (s : State) (n : Nat) : Bool := n < 4 && s.fld (portReg n 4) 31 30 = 1 && awake s

/-- Nanoseconds, times 10, of one octet at a port's speed. -/
def octetTime (s : State) (n : Nat) : Nat :=
  match s.fld (portReg n 0) 27 26 with | 0 => 80 | 1 => 32 | 2 => 16 | _ => 8

/-- MAC address of a port as a number, from the Accession Record, its first byte lowest (R454). -/
def portMac (s : State) (n : Nat) : Nat := s.load (accBase + 0x20 + 8 * n) 6

/-- A VLAN's table word, 0 when it is not VALID. -/
def vlanWord (s : State) (vid : Nat) : Nat :=
  let w := SMap.get 0 s.eth.vlans vid
  if bit w 31 then w else 0

/-- Membership and untagged membership of ports 0 to 4. -/
def vlanMember (s : State) (vid port : Nat) : Bool := bit (vlanWord s vid) (16 + port)
def vlanUntagged (s : State) (vid port : Nat) : Bool := bit (vlanWord s vid) (8 + port)

/-! ## Stream identification (R340) -/

/-- A stream filter's words. -/
def filterWords (s : State) (i : Nat) : Nat × Nat × Nat := SMap.get (0, 0, 0) s.eth.filters i

/-- Whether a filter is VALID. -/
def filterValid (s : State) (i : Nat) : Bool := bit (filterWords s i).2.1 31

/-- Whether a filter matches a frame from an external port. -/
def filterMatches (w : Nat × Nat × Nat) (f : Frame) (ingress : Nat) : Bool :=
  let mac := w.1 + 2 ^ 32 * bits w.2.1 15 0
  bit w.2.1 31 && (if bit w.2.2 31 then f.src = mac else f.dst = mac) && bits w.2.1 27 16 = f.vid &&
    (bit w.2.2 30 || bits w.2.1 30 28 = f.pcp) && decide (ingress < 4) && bit w.2.2 (16 + ingress)

/-- The lowest-numbered filter that identifies a frame. -/
def filterOf (s : State) (f : Frame) (ingress : Nat) : Option Nat :=
  (List.find? (fun c => filterMatches c.2 f ingress) s.eth.filters).map (·.1)

/-- Traffic class of a frame at its egress: IPV of its gate, or its PCP. -/
def classOf (s : State) (f : Frame) (flt : Option Nat) : Nat :=
  match flt with
  | some i =>
    let g := SMap.get 0 s.eth.gates (bits (filterWords s i).2.2 29 20)
    if bit g 3 then bits g 2 0 else f.pcp
  | none => f.pcp

/-- The VALID CB streams that name a filter and have a flag: bit 29 for REC, bit 30 for GEN (R341). -/
def cbOf (s : State) (flt : Option Nat) (flag : Nat) : List Nat :=
  match flt with
  | none => []
  | some i => (s.eth.cbs.filter fun c => bit c.2.1 31 && bit c.2.1 flag && bits c.2.1 25 16 = i).map (·.1)

/-- State of a CB stream. -/
def cbState (s : State) (i : Nat) : CbState := SMap.get {} s.eth.cbState i

/-- Sequence number of a frame's redundancy tag (IEEE 802.1CB: EtherType 0xF1C1, two reserved octets, the number). -/
def rtagSeq (f : Frame) : Option Nat := if f.etype = 0xF1C1 then some (be f.body 2 2) else none

/-- Difference of two 16-bit sequence numbers, as a signed number. -/
def seqDelta (a b : Nat) : Int := sext 16 ((a + 65536 - b) % 65536)

/-- The credit of a class's shaper now, in millionths of a bit: it grows at the idle slope while the class's gate is open, and stands
while it is closed (R343, IEEE 802.1Q). -/
def shaperCredit (s : State) (n c : Nat) : Int :=
  let slope := SMap.get 0 s.eth.shapers (8 * n + c)
  let d := SMap.get (0, 0) (ethPort s n).credit c
  if bit (ethPort s n).gates c then d.1 + slope * (s.now - d.2) else d.1

/-- The credits of a port as they stand now, before its gates or a queue change. A class with no frame waiting keeps no credit
above 0. -/
def creditsNow (s : State) (n : Nat) : SMap (Int × Nat) :=
  (List.range 8).foldl (fun m c =>
    if SMap.get 0 s.eth.shapers (8 * n + c) = 0 then SMap.set (0, 0) m c (0, 0)
    else
      let v := shaperCredit s n c
      let v := if (SMap.get [] (ethPort s n).queues c).isEmpty then min 0 v else v
      SMap.set (0, 0) m c (v, s.now)) (ethPort s n).credit

namespace Run

variable {z : State}

/-- Replace Ethernet state, or a port's. -/
def setEth (r : Run z) (e : Eth) : Run z := r.put (.eth e)
def setPort (r : Run z) (n : Nat) (p : EthPort) : Run z :=
  r.setEth { r.s.eth with ports := SMap.set {} r.s.eth.ports n p }

/-- Count in a port's counter. -/
def countPort (r : Run z) (n off : Nat) (k : Nat := 1) : Run z :=
  if n ≥ 4 || k = 0 then r
  else
    let r := r.bump (portReg n off) k
    r.when (off = 0x028 || off = 0x02C || off = 0x030) fun r => r.errEvent 8

/-- Trace points 0x0100 and 0x0101: a frame on a stream filter whose bit is set in OBS_TRC_FILT (R489). -/
def traceStream (r : Run z) (point port : Nat) (flt : Option Nat) : Run z :=
  match flt with
  | some i =>
    r.when (r.s.fld (obsReg (0x140 + 4 * (i / 32))) (i % 32) (i % 32) = 1) fun r =>
      r.trace 0x20 point (i * 2 ^ 16 + port)
  | none => r

/-- Replace a CB stream's state. -/
def setCbState (r : Run z) (i : Nat) (c : CbState) : Run z :=
  r.setEth { r.s.eth with cbState := SMap.set {} r.s.eth.cbState i c }

/-- Sequence recovery of a CB stream with REC: whether the frame passes (R341). -/
def cbRecover (r : Run z) (i ingress : Nat) (f : Frame) : Bool × Run z :=
  let w := SMap.get (0, 0) r.s.eth.cbs i
  let c := cbState r.s i
  let c := if decide (r.s.now ≥ c.last + bits w.2 15 0 * 1000000) then { c with top := none, seen := [] } else c
  let h := bits w.1 5 0
  match rtagSeq f with
  | none => (false, r.countPort ingress 0x034)
  | some q =>
    match c.top with
    | none => (true, r.setCbState i { c with top := some q, seen := [q], last := r.s.now })
    | some t =>
      let d := seqDelta q t
      if 1 ≤ d ∧ d ≤ h then
        (true, r.setCbState i { c with
          top := some q, last := r.s.now
          seen := q :: c.seen.filter fun x => decide (seqDelta q x < h) })
      else if d ≤ 0 ∧ -(h : Int) < d ∧ !c.seen.contains q then
        (true, r.setCbState i { c with seen := q :: c.seen, last := r.s.now })
      else (false, r.countPort ingress 0x034)

/-- The treatment of an identified frame: MAXSDU, gate, and sequence recovery (R340, R341). -/
def streamCheck (r : Run z) (f : Frame) (len ingress : Nat) (flt : Option Nat) : Bool × Run z :=
  match flt with
  | none => (true, r)
  | some i =>
    let w := filterWords r.s i
    if len > bits w.2.2 10 0 then (false, r.countPort ingress 0x02C)
    else if !bit (SMap.get 0 r.s.eth.gates (bits w.2.2 29 20)) 31 then (false, r.countPort ingress 0x02C)
    else (cbOf r.s flt 29).foldl (fun p k => if p.1 then p.2.cbRecover k ingress f else p) (true, r)

/-! ## Egress -/

/-- Queue a frame for an external port, or discard it while its link is not UP (R334) or when it is longer than 1,522 bytes (R332,
R348). -/
def ethEnqueue (r : Run z) (port : Nat) (f : Frame) (cls : Nat) : Run z :=
  if !linkUp r.s port || f.len (!vlanUntagged r.s f.vid port) > 1522 then r.countPort port 0x028
  else
    let p := ethPort r.s port
    r.setPort port { p with
      credit := creditsNow r.s port
      queues := SMap.set [] p.queues cls (SMap.get [] p.queues cls ++ [f]) }

/-- Insert the redundancy tag of each CB stream with GEN at egress, numbering its frames from 0 (R341). -/
def cbGenerate (r : Run z) (f : Frame) (flt : Option Nat) : Frame × Run z :=
  (cbOf r.s flt 30).foldl (fun (f, r) k =>
      let c := cbState r.s k
      ({ f with etype := 0xF1C1, body := beBytes 2 0 ++ beBytes 2 c.gen ++ beBytes 2 f.etype ++ f.body },
        r.setCbState k { c with gen := (c.gen + 1) % 65536 })) (f, r)

end Run

/-! ## Forwarding database (R335, R337) -/

/-- Bucket of a key. -/
def fdbBucket (mac vid : Nat) : Nat := Config.fdbHash mac vid % 1024

/-- Index of the entry of a key. -/
def fdbFind (s : State) (mac vid : Nat) : Option Nat :=
  (List.find? (fun c => c.2.mac = mac && c.2.vid = vid) s.eth.fdb).map (·.1)

/-- A place for a key in its bucket: its own entry, a free one, or a learned one, which of them no rule says. -/
def fdbPlace (s : State) (mac vid : Nat) : Option Nat :=
  match fdbFind s mac vid with
  | some i => some i
  | none =>
    let slots := (List.range 8).map fun k => 8 * fdbBucket mac vid + k
    match slots.find? fun i => (SMap.find? s.eth.fdb i).isNone with
    | some i => some i
    | none =>
      let learned := slots.filter fun i => match SMap.find? s.eth.fdb i with | some e => !e.static_ | none => false
      learned[Config.fdbVictim s.free % learned.length]?

/-- Ports a frame goes to: of its entry, or every member but the ingress port (R335). -/
def destPorts (s : State) (f : Frame) (ingress : Nat) : List Nat :=
  let flood := (List.range 5).filter fun p => p ≠ ingress && vlanMember s f.vid p
  if isGroup f.dst then flood
  else match fdbFind s f.dst f.vid with
    | none => flood
    | some i =>
      let ports := match SMap.find? s.eth.fdb i with | some e => e.ports | none => 0
      (List.range 5).filter fun p => bit ports p && p ≠ ingress && vlanMember s f.vid p

namespace Run

variable {z : State}

/-- Learn the source of an accepted frame; a static entry is not changed. -/
def learn (r : Run z) (f : Frame) (ingress : Nat) : Run z :=
  match fdbPlace r.s f.src f.vid with
  | none => r
  | some i =>
    let r := r.put .draw
    match SMap.find? r.s.eth.fdb i with
    | some e =>
      if e.mac = f.src && e.vid = f.vid && e.static_ then r
      else r.setEth { r.s.eth with fdb := SMap.insert r.s.eth.fdb i ⟨f.src, f.vid, false, 2 ^ ingress, r.s.now⟩ }
    | none => r.setEth { r.s.eth with fdb := SMap.insert r.s.eth.fdb i ⟨f.src, f.vid, false, 2 ^ ingress, r.s.now⟩ }

/-- Forward a frame to the external ports among its destinations. -/
def forwardOut (r : Run z) (f : Frame) (flt : Option Nat) (dests : List Nat) : Run z :=
  let cls := classOf r.s f flt
  let out := dests.filter (· < 4)
  if out.isEmpty then r
  else
    let (f, r) := r.cbGenerate f flt
    r.each out fun p r => r.ethEnqueue p f cls

/-- A frame the device sends from port 4 passes the switch like any other (R335). -/
def sendFrame (r : Run z) (f : Frame) : Run z :=
  if !vlanMember r.s f.vid 4 then r
  else
    let r := r.learn f 4
    r.forwardOut f none (destPorts r.s f 4)

end Run

/-! ## Gates (R342) -/

/-- From entry i, which starts `acc` into the cycle: the entry in force `into` the cycle, and where it ends in it; the last
entry lasts to the cycle's end, and a cycle's end cuts an entry. -/
def gateFind (into cycle : Nat) : List (Nat × Nat × Nat) → Nat → Nat → Nat × Nat
  | [], i, _ => (i - 1, cycle)
  | [_], i, _ => (i, cycle)
  | e :: es, i, acc =>
    if into < acc + e.1 then (i, min (acc + e.1) cycle) else gateFind into cycle es (i + 1) (acc + e.1)

/-- The entry of a gate list in force at a time, and the time at which it ends. With a new list to come at `next`, a cycle of the old
list that would be cut to EXT or less is not begun: its last full cycle is extended by that much (R342; PRESUMED, IEEE 802.1Q, log 143). -/
def gateAt (g : GateList) (t : Nat) (next : Option Nat) : Nat × Nat :=
  let into := (t - g.base) % g.cycle
  let start := t - into
  let (i, e) := gateFind into g.cycle g.ents 0 0
  match next with
  | none => (i, start + e)
  | some b =>
    if start ≤ b ∧ b < start + g.cycle ∧ g.base < start ∧ b - start ≤ g.ext then
      ((gateFind (g.cycle - 1) g.cycle g.ents 0 0).1, b)
    else if b ≤ start + e then (i, b)
    else if e = g.cycle ∧ start + g.cycle < b ∧ b - (start + g.cycle) ≤ g.ext then (i, b)
    else (i, start + e)

/-- The gate states of a port at a time, with the hold operation of the entry, and when they may change next (R342). -/
def gatesAt (p : EthPort) (t : Nat) : (Nat × Nat) × Option (Nat × Nat) :=
  let coming := p.pend.filter fun g => decide (t < g.base)
  let next := coming.map (·.base)
  match (if p.pend.isSome && coming.isNone then p.pend else p.oper) with
  | none => ((0, 255), next.map fun b => (0, b))
  | some g =>
    if g.ents.isEmpty || g.cycle = 0 then ((0, 255), next.map fun b => (0, b))
    else if t < g.base then ((0, 255), some (0, g.base))
    else
      let (i, e) := gateAt g t next
      let ent := g.ents.getD i (0, 0, 255)
      (ent.2, some (i, e))

/-- Whether the gate of a class stays open from a time up to a limit, by the lists in force and to come (R343). -/
def openUntil (p : EthPort) (c limit : Nat) : Nat → Nat → Bool
  | 0, _ => true
  | fuel + 1, t =>
    if limit ≤ t then true
    else
      let (g, next) := gatesAt p t
      bit g.2 c && (match next with
        | some (_, e) => openUntil p c limit fuel (max e (t + 1))
        | none => true)

/-- A class is preemptable on a port while PREEMPT_ACTIVE is 1 (R343). -/
def preemptable (s : State) (n c : Nat) : Bool :=
  s.fld (portReg n 4) 27 27 = 1 && s.fld (portReg n 0) (14 + c) (14 + c) = 0

namespace Run

variable {z : State}

/-- The gates of a port close on a preemptable frame, or an express frame preempts it: its fragment ends within
64 × (FRAGSZ + 1) + 64 byte times, and a gap of 12 byte times follows (R343). Where in that bound it ends is a free value (log 144). A frame
that ends inside the bound is sent whole. -/
def preempt (r : Run z) (n : Nat) : Run z :=
  let p := ethPort r.s n
  match p.tx with
  | none => r
  | some x =>
    let bound := 64 * (r.s.fld (portReg n 0) 23 22 + 1) + 64
    let tail := cdiv (Config.fragTail r.s.free % (bound + 1) * octetTime r.s n) 10
    let gap := cdiv (12 * octetTime r.s n) 10
    if x.ends ≤ r.s.now + cdiv (bound * octetTime r.s n) 10 || p.rest.isSome then r
    else (r.put .draw).setPort n { p with
      tx := some { x with ends := r.s.now + tail + gap, cut := true }, rest := some { x with ends := x.ends - (r.s.now + tail) } }

/-- Apply the entry of the oper list in force now: gate states, holding, and the preemption of a frame whose gate closes
(R342, R343). -/
def gateApply (r : Run z) (n : Nat) : Run z :=
  let p := ethPort r.s n
  let (ent, next) := gatesAt p r.s.now
  let hold := if p.oper.isNone then false else if ent.1 = 1 then true else if ent.1 = 2 then false else p.hold
  let at_ := next.getD (0, p.entEnds)
  let r := r.setPort n { p with credit := creditsNow r.s n, ent := at_.1, entEnds := at_.2, gates := ent.2, hold := hold }
  match p.tx with
  | some x => if preemptable r.s n x.cls && !x.cut && (!bit ent.2 x.cls || hold) && decide (r.s.now < x.ends) then r.preempt n else r
  | none => r

/-- Setting CHANGE: the admin list, LEN, CYCLE and EXT are copied, to take effect at BASE or the first later cycle start
(R342). -/
def qbvChange (r : Run z) (n : Nat) : Run z :=
  let base := r.s.reg64 (portReg n 0x040)
  let cycle := (r.s.reg (portReg n 0x048)).toNat
  let len := r.s.fld (portReg n 0x050) 8 0
  let at_ := if r.s.now < base || cycle = 0 then base else base + cycle * ((r.s.now - base) / cycle + 1)
  let ents := (List.range len).map fun i =>
    let e := SMap.get (0, 0) r.s.eth.admin (256 * n + i)
    (e.1, bits e.2 9 8, bits e.2 7 0)
  let p := ethPort r.s n
  r.setPort n { p with pend := some ⟨at_, cycle, (r.s.reg (portReg n 0x04C)).toNat, ents⟩ }

end Run

/-- QBV_CONFIG_CHANGE: at its base time the new list becomes the oper list (R342). -/
def execQbvConfigChange (n : Nat) (s : State) : Host.Outcome State Fault Refusal :=
  let r := Run.start s
  match (ethPort s n).pend with
  | some g =>
    if n ≥ 4 || s.now < g.base then done r
    else
      let r := r.setPort n { ethPort s n with oper := some g, pend := none }
      done ((r.setFld (portReg n 0x050) 31 31 0).gateApply n)
  | none => done r

/-- GATE_CONTROL_ENTRY: an interval has ended and the next entry applies (R342). -/
def execGateControlEntry (n : Nat) (s : State) : Host.Outcome State Fault Refusal :=
  let r := Run.start s
  if n < 4 && (ethPort s n).oper.isSome && decide ((ethPort s n).entEnds ≤ s.now) then done (r.gateApply n) else done r

end Sys2Proof.Machine
end

