-- ==== Sys2Proof/Machine/Gptp.lean ====
section
/-! DEFINITION. The gPTP instances (R338, R339): peer delay, the choice of the grandmaster, and Sync sent as grandmaster or relayed as
a time-aware bridge; and the servo that steers fabric time (R31 to R33). PRESUMED throughout, log 142: the layout of the messages, the
priority vectors, the clock identity and the intervals are those of IEEE 802.1AS-2020, which the spec names and does not give. -/

namespace Sys2Proof.Machine

namespace Run

variable {z : State}

/-- STATE of TOP_FT_STAT: 0 FREE, 1 ACQUIRING, 2 LOCKED, 3 HOLDOVER. -/
def ftState (r : Run z) (v : Nat) : Run z := r.setFld (topReg 0x10C) 1 0 v

/-- HOLDOVER: the keeper keeps its last rate, and the count of measurements in range starts again (R32). -/
def holdover (r : Run z) : Run z := (r.setEth { r.s.eth with good := 0 }).ftState 3

/-- A Sync measurement of the domain that SRC selects: the offset saturates into OFS, a forward step where it is permitted,
a rate that the servo chooses within ±500 ppm, and the keeper's state (R31 to R33). DEDUCED, log 139: a grandmaster behind fabric time
is followed at −500 ppm while the keeper is ACQUIRING, the state that R33 speaks of. -/
def syncMeasured (r : Run z) (offset : Int) (rate : Int) : Run z :=
  let st := r.s.fld (topReg 0x10C) 1 0
  let st := if st = 3 || st = 0 then 1 else st
  let ofs := max (-2147483648) (min 2147483647 offset)
  let r := r.setRegN (topReg 0x110) (ofs % 2 ^ 32).toNat
  let corr := if st = 1 && decide (offset < 0) then -500000 else max (-500000) (min 500000 rate)
  let r := r.setRegN (topReg 0x114) (corr % 2 ^ 32).toNat
  let step := st = 1 && r.s.fld (topReg 0x108) 3 3 = 1 && decide (offset > 1000000)
  let r := r.when step fun r =>
    (r.setNow (r.s.now + offset.toNat)).setFld (topReg 0x10C) 31 24 (min 255 (r.s.fld (topReg 0x10C) 31 24 + 1))
  let good := if -50 ≤ offset ∧ offset ≤ 50 then r.s.eth.good + 1 else 0
  let r := r.setEth { r.s.eth with good := good, lastSync := r.s.now }
  r.ftState (if st = 1 && decide (good ≥ 8) then 2 else st)

end Run

/-! ## What an instance knows -/

/-- An instance's configuration word; it runs while EN is 1. -/
def gptpCfg (s : State) (d : Nat) : Nat := (s.reg (ethReg (0x2000 + 0x40 * d))).toNat
def gptpOn (s : State) (d : Nat) : Bool := bit (gptpCfg s d) 31

/-- The ports that take part in an instance. -/
def gptpPorts (s : State) (d : Nat) : List Nat := (List.range 4).filter fun n => bit (gptpCfg s d) (24 + n)

/-- An instance on a port. -/
def gptpPort (s : State) (d n : Nat) : GptpPort := SMap.get {} s.eth.gptp (8 * d + n)

/-- The device's clock identity: the MAC address of port 0 with FF FE in its middle. -/
def clockId (s : State) : Nat :=
  let m := leBytes 6 (portMac s 0)
  ofBe (m.take 3 ++ [0xFF, 0xFE] ++ m.drop 3)

/-- The identity of one of its ports. -/
def portId (s : State) (n : Nat) : Nat := clockId s * 2 ^ 16 + n + 1

/-- The device's system identity in an instance: PRIORITY1, the clock quality of an unsteered clock, priority2 and identity. -/
def ownVec (s : State) (d : Nat) : Nat := bits (gptpCfg s d) 23 16 * 2 ^ 104 + 0xF8FE436A * 2 ^ 72 + 248 * 2 ^ 64 + clockId s

/-- A port carries Sync and announcements of an instance: it takes part, its link is UP, and the neighbour delay is measured and not
above 800 ns (R338). -/
def gptpCapable (s : State) (d n : Nat) : Bool :=
  gptpOn s d && (gptpPorts s d).contains n && linkUp s n &&
    (match (gptpPort s d n).delay with | some x => decide (x ≤ 800) | none => false)

/-- A priority vector as one number: system identity, steps, source port, and receiving port; the lower is the better. -/
def gptpRank (vec steps src port : Nat) : Nat := ((vec * 2 ^ 16 + steps) * 2 ^ 80 + src) * 2 ^ 16 + port

/-- The announcements in force that a port may follow. -/
def gptpHeard (s : State) (d : Nat) : List (Nat × GAnnounce) :=
  (gptpPorts s d).filterMap fun n => if gptpCapable s d n then (gptpPort s d n).heard.map (n, ·) else none

/-- The grandmaster that the BMCA selects: its system identity, and the port it is heard on, none for the device itself; with
PRIORITY1 255 the device is no candidate. -/
def gptpBest (s : State) (d : Nat) : Option (Nat × Option Nat) :=
  let own := gptpRank (ownVec s d) 0 (clockId s * 2 ^ 16) 0
  let best := (gptpHeard s d).foldl (fun (b : Option (Nat × Nat × Nat)) h =>
    let rank := gptpRank h.2.vec h.2.steps h.2.src h.1
    match b with
    | some (k, _, _) => if rank < k then some (rank, h.2.vec, h.1) else b
    | none => some (rank, h.2.vec, h.1)) none
  let capable := gptpOn s d && bits (gptpCfg s d) 23 16 ≠ 255
  match best with
  | some (k, v, n) => if capable && decide (own < k) then some (ownVec s d, none) else some (v, some n)
  | none => if capable then some (ownVec s d, none) else none

/-- Steps from the grandmaster that the device announces: 0 for itself, one more than the port it follows heard. -/
def gptpSteps (s : State) (d : Nat) : Nat :=
  match gptpBest s d with
  | some (_, some n) => (match (gptpPort s d n).heard with | some a => a.steps + 1 | none => 0)
  | _ => 0

/-- The ports on which the device is the master: all but the one it follows and those that hear a better offer. -/
def gptpMasters (s : State) (d : Nat) : List Nat :=
  match gptpBest s d with
  | none => []
  | some (v, slave) => (gptpPorts s d).filter fun n => gptpCapable s d n && some n ≠ slave &&
      (match (gptpPort s d n).heard with
        | some a => decide (gptpRank v (gptpSteps s d) (portId s n) 0 < gptpRank a.vec a.steps a.src 0)
        | none => true)

/-- A time as its 10 octets, and the time that 10 octets spell. -/
def stampBytes (t : Nat) : List Byte := beBytes 6 (t / 1000000000) ++ beBytes 4 (t % 1000000000)
def stampOfBytes (bs : List Byte) (at_ : Nat) : Nat := be bs at_ 6 * 1000000000 + be bs (at_ + 6) 4

/-- The correction field of a message, in whole nanoseconds. -/
def corrOf (bs : List Byte) : Int := sext 64 (be bs 8 8) / 65536

/-- A message: its header and what follows it. -/
def gptpBytes (s : State) (d n type seq : Nat) (corr : Int) (log : Nat) (rest : List Byte) : List Byte :=
  beBytes 1 (0x10 + type) ++ beBytes 1 0x12 ++ beBytes 2 (34 + rest.length) ++ beBytes 1 (bits (gptpCfg s d) 7 0) ++ beBytes 1 0 ++
    beBytes 2 (if type = 0 || type = 3 then 0x0208 else 0x0008) ++ beBytes 8 ((corr * 65536) % 2 ^ 64).toNat ++ beBytes 4 0 ++
    beBytes 10 (portId s n) ++ beBytes 2 seq ++ beBytes 1 0 ++ beBytes 1 log ++ rest

/-- A frame to a group address of a port, sent untagged from the port itself. -/
def portFrame (s : State) (n dst etype : Nat) (vid : Nat) (body : List Byte) : Frame := .of dst (portMac s n) vid 7 etype body

/-- The information TLV of a Follow_Up of the device's own. -/
def followInfo : List Byte := beBytes 4 0x0003001C ++ beBytes 6 0x0080C2000001 ++ List.replicate 22 0

namespace Run

variable {z : State}

/-- Replace an instance's record of a port. -/
def setGptp (r : Run z) (d n : Nat) (p : GptpPort) : Run z :=
  r.setEth { r.s.eth with gptp := SMap.set {} r.s.eth.gptp (8 * d + n) p }

/-- Queue a message on a port. -/
def gptpPut (r : Run z) (n : Nat) (body : List Byte) : Run z :=
  r.ethEnqueue n (portFrame r.s n 0x0E0000C28001 0x88F7 (r.s.fld (portReg n 0) 11 0) body) 7

/-- The BMCA has run. When the selected grandmaster of the domain that SRC names changes, the keeper acquires the new one, or stays
FREE where it is the device itself (R339). -/
def gptpSelect (r : Run z) (d : Nat) : Run z :=
  let best := gptpBest r.s d
  let id := match best with | some b => b.1 | none => 0
  if SMap.get 0 r.s.eth.gms d = id then r
  else
    let r := r.setEth { r.s.eth with gms := SMap.set 0 r.s.eth.gms d id }
    if r.s.fld (topReg 0x108) 1 0 ≠ d + 1 then r
    else match best with
      | some (_, none) => ((r.setEth { r.s.eth with good := 0 }).setRegN (topReg 0x110) 0).ftState 0
      | some (_, some _) => (r.setEth { r.s.eth with good := 0, lastSync := r.s.now }).ftState 1
      | none => r

/-- The BMCA of both instances. -/
def gptpSelects (r : Run z) : Run z := (r.gptpSelect 0).gptpSelect 1

/-! ## Messages sent -/

/-- A Sync on a port where the device is the master: a fresh sequence number, and what its Follow_Up will carry when it is relayed. -/
def gptpSync (r : Run z) (d n : Nat) (relay : Option GRelay) : Run z :=
  let p := gptpPort r.s d n
  let seq := (p.syncSeq + 1) % 65536
  let r := r.setGptp d n { p with syncSeq := seq, relay := relay.map fun x => { x with seq := seq } }
  r.gptpPut n (gptpBytes r.s d n 0 seq 0 0xFD (List.replicate 10 0))

/-- The messages of an interval on one port: a peer-delay request, and where the device is the master an announcement of the selected
grandmaster, with a Sync when that is the device itself (R338). -/
def gptpSend (r : Run z) (d n : Nat) : Run z :=
  let p := gptpPort r.s d n
  let seq := (p.reqSeq + 1) % 65536
  let r := r.setGptp d n { p with reqSeq := seq, t1 := none, resp := none }
  let r := r.gptpPut n (gptpBytes r.s d n 2 seq 0 0 (List.replicate 20 0))
  match gptpBest r.s d with
  | none => r
  | some (vec, slave) =>
    if !(gptpMasters r.s d).contains n then r
    else
      let path := (match slave with
        | some m => (match (gptpPort r.s d m).heard with | some a => a.path | none => [])
        | none => []) ++ beBytes 8 (clockId r.s)
      let r := r.gptpPut n (gptpBytes r.s d n 11 seq 0 0 (List.replicate 13 0 ++ beBytes 14 vec ++ beBytes 2 (gptpSteps r.s d) ++
        beBytes 1 0xA0 ++ beBytes 2 8 ++ beBytes 2 path.length ++ path))
      r.when slave.isNone fun r => r.gptpSync d n none

/-- The instance that a message of a domain belongs to on a port. -/
def gptpInst (s : State) (n : Nat) (body : List Byte) : Option Nat :=
  (List.range 2).find? fun d => gptpOn s d && (gptpPorts s d).contains n && bits (gptpCfg s d) 7 0 = be body 4 1

/-- A message has left a port with its egress stamp: what follows it is queued (R338). -/
def gptpSent (r : Run z) (n : Nat) (body : List Byte) (stamp : Nat) : Run z :=
  match gptpInst r.s n body with
  | none => r
  | some d =>
    let p := gptpPort r.s d n
    let seq := be body 30 2
    match be body 0 1 % 16 with
    | 0 =>
      match p.relay with
      | none => r.gptpPut n (gptpBytes r.s d n 8 seq 0 0xFD (stampBytes stamp ++ followInfo))
      | some x =>
        if x.seq ≠ seq then r
        else (r.setGptp d n { p with relay := none }).gptpPut n
          (gptpBytes r.s d n 8 seq (x.corr + stamp - x.stamp) 0xFD (stampBytes x.origin ++ x.info))
    | 2 => if seq = p.reqSeq then r.setGptp d n { p with t1 := some stamp } else r
    | 3 => r.gptpPut n (gptpBytes r.s d n 10 seq 0 0x7F (stampBytes stamp ++ slice body 44 10))
    | _ => r

/-- An announcement that has not been repeated for 3 s is forgotten. -/
def gptpAge (r : Run z) (d n : Nat) : Run z :=
  let p := gptpPort r.s d n
  match p.heard with
  | some a => if r.s.now > a.at_ + 3000000000 then r.setGptp d n { p with heard := none } else r
  | none => r

/-! ## Messages received -/

/-- An announcement is kept when it comes from the port's present master or is the better one; one that has passed the device, or has
taken 255 steps, is discarded. -/
def gptpAnnounce (r : Run z) (d n : Nat) (body : List Byte) : Run z :=
  let p := gptpPort r.s d n
  let len := if be body 64 2 = 8 then be body 66 2 else 0
  let a : GAnnounce := ⟨be body 47 14, be body 61 2, be body 20 10, slice body 68 len, r.s.now⟩
  let mine := a.src / 2 ^ 16 = clockId r.s || (List.range (a.path.length / 8)).any fun i => be a.path (8 * i) 8 = clockId r.s
  let keep := match p.heard with
    | some h => h.src = a.src || decide (gptpRank a.vec a.steps a.src n < gptpRank h.vec h.steps h.src n)
    | none => true
  if mine || a.steps ≥ 255 || a.vec / 2 ^ 104 = 255 || !keep || !gptpCapable r.s d n then r
  else (r.setGptp d n { p with heard := some a }).gptpSelect d

/-- The Follow_Up of a Sync on the port that the instance follows: the grandmaster's time at the Sync's ingress is its origin and
corrections and the neighbour delay. It is the measurement of the domain that SRC selects, and the Sync is relayed with residence
time in its correction field (R338). -/
def gptpFollow (r : Run z) (d n : Nat) (y : GSync) (body : List Byte) : Run z :=
  let p := gptpPort r.s d n
  let corr := y.corr + corrOf body + (p.delay.getD 0 : Nat)
  let origin := stampOfBytes body 34
  let r := r.setGptp d n { p with sync := none }
  let r := r.each (gptpMasters r.s d) fun m r => r.gptpSync d m (some ⟨0, origin, corr, y.stamp, slice body 44 32⟩)
  let offset : Int := origin + corr - y.stamp
  if r.s.fld (topReg 0x108) 1 0 ≠ d + 1 then r
  else (r.put .draw).syncMeasured offset (Config.servoRate r.s.free offset)

/-- A gPTP frame reaches the instance of its domain with its ingress stamp (R338). -/
def gptpReceive (r : Run z) (n : Nat) (body : List Byte) (stamp : Nat) : Run z :=
  match gptpInst r.s n body with
  | none => r
  | some d =>
    let p := gptpPort r.s d n
    let seq := be body 30 2
    let src := be body 20 10
    let follows := match gptpBest r.s d with | some (_, some m) => m = n | _ => false
    let toMe := be body 44 10 = portId r.s n && seq = p.reqSeq
    match be body 0 1 % 16 with
    | 0 => if follows then r.setGptp d n { p with sync := some ⟨src, seq, stamp, corrOf body⟩ } else r
    | 2 => r.gptpPut n (gptpBytes r.s d n 3 seq 0 0x7F (stampBytes stamp ++ beBytes 10 src))
    | 3 => if toMe then r.setGptp d n { p with resp := some (stampOfBytes body 34, stamp) } else r
    | 8 =>
      match p.sync with
      | some y => if follows && y.src = src && y.seq = seq then r.gptpFollow d n y body else r
      | none => r
    | 10 =>
      match p.t1, p.resp with
      | some t1, some (t2, t4) =>
        let turn : Int := (t4 - t1 : Int) - (stampOfBytes body 34 - t2 : Int)
        if toMe then (r.setGptp d n { p with resp := none, delay := some (turn / 2).toNat }).gptpSelect d else r
      | _, _ => r
    | 11 => r.gptpAnnounce d n body
    | _ => r

end Run

end Sys2Proof.Machine
end

