-- ==== Sys2Proof/Machine/EthTx.lean ====
section
/-! DEFINITION. Egress of the external ports (R343), link state (R334), access to the TSN tables (R337), and the timers of MKA and
gPTP (R338, R344). -/

namespace Sys2Proof.Machine

/-! ## Transmission (R343) -/

/-- Time in ns a frame occupies a port, with preamble and gap. -/
def frameTime (s : State) (n : Nat) (f : Frame) : Nat :=
  cdiv ((f.len (!vlanUntagged s f.vid n) + 20) * octetTime s n) 10

/-- Whether the frame at the head of a class may start now on a port whose line is free for it: its gate is open and stays so until
the frame ends, unless it may be preempted, and its shaper's credit is not negative (R343). -/
def txMayStart (s : State) (n c : Nat) (f : Frame) : Bool :=
  let p := ethPort s n
  let stays := openUntil p c (s.now + frameTime s n f) (frameTime s n f + 1) s.now
  bit p.gates c && (decide (0 ≤ shaperCredit s n c) || SMap.get 0 s.eth.shapers (8 * n + c) = 0) && (preemptable s n c || stays) &&
    !(preemptable s n c && (p.hold || p.rest.isSome))

/-- The class whose frame starts next: the highest that may. -/
def nextClass (s : State) (n : Nat) : Option (Nat × Frame × List Frame) :=
  let cand := [7, 6, 5, 4, 3, 2, 1, 0].filterMap fun c =>
    match SMap.get [] (ethPort s n).queues c with
    | f :: rest => if txMayStart s n c f then some (c, f, rest) else none
    | [] => none
  cand.head?

namespace Run

variable {z : State}

/-- A frame starts: it leaves its queue, is counted and protected, and its shaper pays for it (R343, R344). A gPTP frame is stamped
at the message timestamp point, after its 8 octets of preamble (R30, R338). -/
def txStart (r : Run z) (n c : Nat) (f : Frame) (rest : List Frame) : Run z :=
  let p := ethPort r.s n
  let t := frameTime r.s n f
  let slope := SMap.get 0 r.s.eth.shapers (8 * n + c)
  let credit := creditsNow r.s n
  let bitsSent := (f.len (!vlanUntagged r.s f.vid n) + 20) * 8 * 1000000
  let prot := r.s.fld (portReg n 0) 25 25 = 1 && f.etype ≠ 0x888E && f.etype ≠ 0x88F7
  let p := { p with
    queues := SMap.set [] p.queues c rest
    tx := some { frame := f, cls := c, ends := r.s.now + t }
    credit := if slope = 0 then credit else SMap.set (0, 0) credit c ((SMap.get (0, 0) credit c).1 - bitsSent, r.s.now)
    pn := if prot then p.pn + 1 else p.pn }
  let r := ((r.setPort n p).countPort n 0x024).traceStream 0x0101 n f.flt
  if f.etype = 0x88F7 then r.gptpSent n f.body (r.s.timeAt tbEth + 8 * octetTime r.s n / 10) else r

/-- A protected port discards a frame it has no live SA for (R344). -/
def txUnprotected (r : Run z) (n c : Nat) (rest : List Frame) : Run z :=
  let p := ethPort r.s n
  (r.setPort n { p with credit := creditsNow r.s n, queues := SMap.set [] p.queues c rest }).countPort n 0x030

end Run

/-- Whether a port must protect a frame and cannot (R344). -/
def cannotProtect (s : State) (n : Nat) (f : Frame) : Bool :=
  s.fld (portReg n 0) 25 25 = 1 && f.etype ≠ 0x888E && f.etype ≠ 0x88F7 &&
    !(s.fld (ethReg (0x3000 + 0x40 * n)) 31 30 = 2 && (ethPort s n).sak.isSome)

/-- The next frame starts on a free line, an express frame preempts a preemptable one, or the remainder of a preempted frame
goes on (R343). -/
def Run.ethTxStart {z : State} (r : Run z) (n : Nat) : Run z :=
  if !linkUp r.s n then r
  else
    let s := r.s
    let p := ethPort s n
    let express := fun c => !preemptable s n c
    let go := match nextClass s n with
      | some (c, f, rest) => if cannotProtect s n f then r.txUnprotected n c rest else r.txStart n c f rest
      | none => r
    let first := match nextClass s n with | some (c, _, _) => express c | none => false
    match p.tx with
    | some x =>
      if s.now < x.ends then (if first && !express x.cls && !x.cut then r.preempt n else r)
      else match p.rest with
        | some y =>
          if bit p.gates y.cls && !p.hold && !first then
            r.setPort n { p with tx := some { y with ends := s.now + y.ends }, rest := none }
          else go
        | none => go
    | none => go

/-! ## Link (R332, R334) -/

namespace Run

variable {z : State}

/-- Queued frames of a port, and the remainder of one preempted, are discarded and counted in its RXDROP (R334). -/
def dropQueues (r : Run z) (n : Nat) : Run z :=
  let p := ethPort r.s n
  let k := p.queues.foldl (fun m q => m + q.2.length) (b2n p.rest.isSome)
  (r.setPort n { p with credit := creditsNow r.s n, queues := [], tx := none, rest := none }).countPort n 0x028 k

/-- STATE of MKA on a port: NO_KEY without a usable link key, else as given (R344). -/
def mkaState (r : Run z) (n v : Nat) : Run z :=
  let usable := r.s.fld (topReg 8) 15 8 ≠ 0 && r.s.eth.linkKey
  r.setFld (ethReg (0x3000 + 0x40 * n)) 31 30 (if usable then v else 0)

/-- LINK leaves UP: the queued frames go, and nothing else changes (R334). What the gPTP instances select follows the ports they can
use (R338). -/
def linkLost (r : Run z) (n v : Nat) : Run z := ((r.setRegN (portReg n 4) (v * 2 ^ 30)).dropQueues n).gptpSelects

end Run

/-- LINK_DOWN: LINK leaves UP, to DOWN or, when the SerDes has lost lock, to FAULT (R334). -/
def execLinkDown (n : Nat) (fault : Bool) (s : State) : Host.Outcome State Fault Refusal :=
  let r := Run.start s
  if n < 4 && s.fld (portReg n 4) 31 30 = 1 then done (r.linkLost n (if fault then 2 else 0)) else done r

/-- LINK_UP: an enabled port's link comes up at its configured speed; `verified` is the outcome of IEEE 802.3br
verification (R332). -/
def execLinkUp (n : Nat) (verified : Bool) (s : State) : Host.Outcome State Fault Refusal :=
  let r := Run.start s
  let cfg := (s.reg (portReg n 0)).toNat
  if n < 4 && bit cfg 31 && awake s && s.fld (portReg n 4) 31 30 ≠ 1 then
    let r := r.setRegN (portReg n 4) (2 ^ 30 + bits cfg 27 26 * 2 ^ 28 + b2n (bit cfg 24 && verified) * 2 ^ 27)
    let r := r.when (bit cfg 25 && r.s.fld (ethReg (0x3000 + 0x40 * n)) 31 30 ≠ 2) fun r => r.mkaState n 1
    done (r.gateApply n)
  else done r

/-! ## Table access (R337) -/

/-- An entry read from a TSN table, none outside the table's range. -/
def tblRead (s : State) (table port i : Nat) : Option (List Nat) :=
  let e := s.eth
  match table with
  | 1 => if 1 ≤ i ∧ i ≤ 4094 then some [SMap.get 0 e.vlans i] else none
  | 2 =>
    if i ≤ 8191 then
      match SMap.find? e.fdb i with
      | some x => some [x.mac % 2 ^ 32, 2 ^ 31 + b2n x.static_ * 2 ^ 30 + x.vid * 2 ^ 16 + x.mac / 2 ^ 32, x.ports]
      | none => some [0, 0, 0]
    else none
  | 3 => if i ≤ 255 then (let x := SMap.get (0, 0) e.admin (256 * port + i); some [x.1, x.2]) else none
  | 4 => if i ≤ 1023 then (let x := filterWords s i; some [x.1, x.2.1, x.2.2]) else none
  | 5 => if i ≤ 1023 then some [SMap.get 0 e.gates i] else none
  | 6 => if i ≤ 511 then (let x := SMap.get (0, 0) e.cbs i; some [x.1, x.2]) else none
  | 7 => if i ≤ 7 then some [SMap.get 0 e.shapers (8 * port + i)] else none
  | _ => none

/-- Whether the words hold only values that occur and no RSV bit, for a table (R337). -/
def tblValid (s : State) (table port : Nat) (d : List Nat) : Bool :=
  let w := fun i => d.getD i 0
  match table with
  | 1 => bits (w 0) 30 21 = 0 && bits (w 0) 15 13 = 0 && bits (w 0) 7 0 = 0
  | 2 => bits (w 1) 29 28 = 0 && w 2 < 32 && decide (1 ≤ bits (w 1) 27 16) && decide (bits (w 1) 27 16 ≤ 4094)
  | 3 => w 0 ≠ 0 && bits (w 1) 31 10 = 0 && bits (w 1) 9 8 ≠ 3
  | 4 => bits (w 2) 15 11 = 0 && decide (1 ≤ bits (w 2) 10 0) && decide (bits (w 2) 10 0 ≤ 1522) &&
      decide (1 ≤ bits (w 1) 27 16) && decide (bits (w 1) 27 16 ≤ 4094)
  | 5 => bits (w 0) 30 4 = 0
  | 6 => bits (w 0) 28 26 = 0 && bits (w 0) 15 6 = 0 && decide (1 ≤ bits (w 0) 5 0) && decide (bits (w 0) 5 0 ≤ 32) &&
      bits (w 1) 31 16 = 0 && bits (w 1) 15 0 ≠ 0
  | 7 =>
    let rate := match s.fld (portReg port 0) 27 26 with | 0 => 1000000 | 1 => 2500000 | 2 => 5000000 | _ => 10000000
    decide (w 0 ≤ rate)
  | _ => false

namespace Run

variable {z : State}

/-- The pending table command, as table, port and index. -/
def tblEnd (r : Run z) (status : Nat) : Run z :=
  (r.setFld (ethReg 0x1000) 31 31 0).setRegN (ethReg 0x1024) status

/-- Write an entry: the status and the change (R337). -/
def tblWrite (r : Run z) (table port i : Nat) (d : List Nat) : Nat × Run z :=
  let w := fun k => d.getD k 0
  let e := r.s.eth
  if table ≠ 2 && (tblRead r.s table port i).isNone then (stBounds, r)
  else if !tblValid r.s table port d then (stBounds, r)
  else match table with
    | 1 => (stOk, r.setEth { e with vlans := SMap.set 0 e.vlans i (w 0) })
    | 2 =>
      let mac := w 0 + 2 ^ 32 * bits (w 1) 15 0
      let vid := bits (w 1) 27 16
      if !bit (w 1) 31 then
        match fdbFind r.s mac vid with
        | some k => (stOk, r.setEth { e with fdb := SMap.erase e.fdb k })
        | none => (stOk, r)
      else match fdbPlace r.s mac vid with
        | some k => (stOk, (r.put .draw).setEth { e with fdb := SMap.insert e.fdb k ⟨mac, vid, bit (w 1) 30, w 2, r.s.now⟩ })
        | none => (stEthTableFull, r)
    | 3 => (stOk, r.setEth { e with admin := SMap.set (0, 0) e.admin (256 * port + i) (w 0, w 1) })
    | 4 => (stOk, r.setEth { e with filters := SMap.set (0, 0, 0) e.filters i (w 0, w 1, w 2) })
    | 5 => (stOk, r.setEth { e with gates := SMap.set 0 e.gates i (w 0) })
    | 6 => (stOk, r.setEth { e with cbs := SMap.set (0, 0) e.cbs i (w 0, w 1), cbState := SMap.set {} e.cbState i {} })
    | _ =>
      let p := ethPort r.s port
      let was := if SMap.get 0 e.shapers (8 * port + i) = 0 then 0 else shaperCredit r.s port i
      let r := r.setPort port { p with credit := SMap.set (0, 0) (creditsNow r.s port) i (was, r.s.now) }
      (stOk, r.setEth { r.s.eth with shapers := SMap.set 0 e.shapers (8 * port + i) (w 0) })

end Run

/-- ETH_TBL_READ: the pending command reads an entry into DATA0 to DATA7 (R337). -/
def execEthTblRead (s : State) : Host.Outcome State Fault Refusal :=
  let r := Run.start s
  let c := (s.reg (ethReg 0x1000)).toNat
  if !(bit c 31 && !bit c 30) then done r
  else match tblRead s (bits c 29 24) (bits c 18 16) (bits c 15 0) with
    | none => done (r.tblEnd stBounds)
    | some d => done ((r.each (List.range 8) fun k r => r.setRegN (ethReg (0x1004 + 4 * k)) (d.getD k 0)).tblEnd stOk)

/-- ETH_TBL_WRITE: the pending command writes an entry between two frames (R337). -/
def execEthTblWrite (s : State) : Host.Outcome State Fault Refusal :=
  let r := Run.start s
  let c := (s.reg (ethReg 0x1000)).toNat
  if !(bit c 31 && bit c 30) then done r
  else
    let d := (List.range 8).map fun k => (s.reg (ethReg (0x1004 + 4 * k))).toNat
    let x := r.tblWrite (bits c 29 24) (bits c 18 16) (bits c 15 0) d
    done (x.2.tblEnd x.1)

/-- FDB_AGE_OUT: a learned entry has had no frame for AGE seconds (R335). -/
def execFdbAgeOut (i : Nat) (s : State) : Host.Outcome State Fault Refusal :=
  let r := Run.start s
  match SMap.find? s.eth.fdb i with
  | some e =>
    if !e.static_ && decide (s.now ≥ e.last + s.fld (ethReg 0x800) 15 0 * 1000000000) then
      done (r.setEth { s.eth with fdb := SMap.erase s.eth.fdb i })
    else done r
  | none => done r

/-- CB_HISTORY_RESET: no frame of the stream has passed for RESET ms (R341). -/
def execCbHistoryReset (i : Nat) (s : State) : Host.Outcome State Fault Refusal :=
  let r := Run.start s
  let w := SMap.get (0, 0) s.eth.cbs i
  if bit w.1 31 && bit w.1 29 && decide (s.now ≥ (cbState s i).last + bits w.2 15 0 * 1000000) then
    done (r.setCbState i { cbState s i with top := none, seen := [] })
  else done r

/-! ## MKA timers and gPTP messages (R338, R344) -/

/-- SAK_REKEY: an SA's packet number has reached three quarters of its range, and the key server distributes a fresh SAK (R344). -/
def execSakRekey (n : Nat) (s : State) : Host.Outcome State Fault Refusal :=
  let r := Run.start s
  let p := ethPort s n
  let range := if s.fld (ethReg (0x3000 + 0x40 * n)) 29 29 = 1 then 2 ^ 64 else 2 ^ 32
  if n < 4 && p.sak.isSome && p.server && decide (4 * max p.pn p.rxPn ≥ 3 * range) then
    let (k, r) := r.draw
    done (r.setPort n { p with sak := some k, pn := 1, rxPn := 0 })
  else done r

/-- MKA_TIMER: the hello timer sends an MKPDU, and a port whose peer has been silent for the 6 s of IEEE 802.1X drops out
of SECURED (R344). -/
def execMkaTimer (n : Nat) (s : State) : Host.Outcome State Fault Refusal :=
  let r := Run.start s
  if n ≥ 4 || s.fld (portReg n 0) 25 25 = 0 || s.fld (ethReg (0x3000 + 0x40 * n)) 31 30 = 0 then done r
  else
    let p := ethPort s n
    let lapsed := s.fld (ethReg (0x3000 + 0x40 * n)) 31 30 = 2 && decide (s.now ≥ p.peerAt + 6000000000)
    let r := r.when lapsed fun r => (r.setPort n { p with sak := none, server := false }).mkaState n 1
    let (k, r) := r.draw
    let p := ethPort r.s n
    let body := Config.mkaBody (s.fld (topReg 8) 15 8) (s.fld (ethReg (0x3000 + 0x40 * n)) 23 16)
      (if p.server then p.sak else none) k.toNat
    done (r.ethEnqueue n (portFrame s n 0x030000C28001 0x888E (s.fld (portReg n 0) 11 0) body) 7)

/-- GPTP_MESSAGE_INTERVAL: an instance sends the messages of one interval on its ports (R338). An announcement that has not been
repeated for 3 intervals of 1 s is forgotten (PRESUMED, IEEE 802.1AS, log 142). -/
def execGptpMessageInterval (d : Nat) (s : State) : Host.Outcome State Fault Refusal :=
  let r := Run.start s
  if d ≥ 2 || !gptpOn s d then done r
  else
    let r := r.each (gptpPorts s d) fun n r => r.gptpAge d n
    let r := r.gptpSelect d
    done (r.each (gptpPorts s d) fun n r => r.gptpSend d n)

end Sys2Proof.Machine
end

