-- ==== Sys2Proof/Machine/Mhy.lean ====
section
/-! DEFINITION. Mehryen carriage: sending messages and replies on the four transports (R315, R318, R322), and the checks
that every message passes before its owner executes it (R316, R320, R321, R323), with leases renewed and reclaimed (R308,
R310). -/

namespace Sys2Proof.Machine

/-- Opcodes of *Message catalogue* with their owners and the bit of feature word 0 that enables them (R324, R325). -/
def catalogue : List (Nat × Nat × Nat) := [
  (0x0001, 4, 0), (0x0003, 0, 0), (0x0004, 0, 0), (0x0005, 0, 0),
  (0x0100, 0, 1), (0x0101, 0, 1), (0x0102, 0, 1), (0x0103, 0, 1), (0x0104, 0, 1), (0x0105, 0, 1), (0x0106, 0, 1),
  (0x0200, 1, 2), (0x0201, 1, 2), (0x0300, 0, 3), (0x0301, 0, 3), (0x0302, 0, 3), (0x0303, 0, 3),
  (0x0400, 3, 4), (0x0401, 3, 4), (0x0410, 0, 5), (0x0411, 0, 5),
  (0x0500, 4, 6), (0x0501, 4, 6), (0x0502, 4, 6), (0x0503, 4, 6), (0x0504, 4, 6)]

/-- Opcodes that are executed again when repeated: they take a place among the last 64 requests and keep no reply (R322, R330). -/
def notKept (op : Nat) : Bool := [0x0200, 0x0301, 0x0303, 0x0502].contains op

/-- A session's record. -/
def sess? (s : State) (n : Nat) : Option Sess := SMap.find? s.mhy.sess n

/-- Whether a session negotiated bit b of feature word 0. -/
def hasFeat (x : Sess) (b : Nat) : Bool := bit (x.feats.getD 0 0) b

/-- Largest message of a partner's transport (R315). -/
def maxMsg (s : State) (p : Peer) : Nat :=
  match p.bind with
  | .eth _ _ => 1500
  | .udp false _ _ => 1472
  | .udp true _ _ => 1452
  | .mailbox c => 2 ^ bits (cardW s c 8) 11 8 - 16

/-- IPv6 address of a port, and its IPv4 address (R336). -/
def portIp6 (s : State) (n : Nat) : Nat :=
  (List.range 4).foldl (fun a k => a * 2 ^ 32 + (s.reg (portReg n (0x060 + 4 * k))).toNat) 0
def portIp (s : State) (n : Nat) : Nat := (s.reg (portReg n 0x010)).toNat

/-- Cut octets into pieces of n, at least one. -/
def chunksOf (n : Nat) : Nat → List Byte → List (List Byte)
  | 0, bs => [bs]
  | fuel + 1, bs => if bs.length ≤ n then [bs] else bs.take n :: chunksOf n fuel (bs.drop n)

namespace Run

variable {z : State}

/-- Replace Mehryen state, or a session's record. -/
def setMhy (r : Run z) (m : Mhy) : Run z := r.put (.mhy m)
def setSess (r : Run z) (n : Nat) (x : Sess) : Run z := r.setMhy { r.s.mhy with sess := SMap.insert r.s.mhy.sess n x }

/-- Count of a MHY counter register. -/
def countMhy (r : Run z) (off : Nat) : Run z :=
  let r := r.bump (ethReg off)
  r.when (off = 0x4014 || off = 0x401C) fun r => r.errEvent 9

/-- ETH_MHY_BADLEN counts every message that is answered with BAD_LENGTH (R317). -/
def badLength (r : Run z) (status : Nat) : Run z := if status = stBadLength then r.countMhy 0x4018 else r

/-! ## Sending -/

/-- Send the octets of one message to a partner: one message per frame, datagram or slot, in a traffic class. -/
def mhySend (r : Run z) (p : Peer) (bs : List Byte) (cls : Nat := 0) : Run z :=
  match p.bind with
  | .eth _ _ => r.sendFrame (.of p.mac (portMac r.s p.via) p.vlan cls 0x88B5 (padTo 46 bs))
  | .udp v6 addr port =>
    let src := if v6 then portIp6 r.s p.via else portIp r.s p.via
    let sport := r.s.fld (ethReg 0x4000) 15 0
    r.sendFrame (.of p.mac (portMac r.s p.via) p.vlan cls (if v6 then 0x86DD else 0x0800)
      (padTo 46 (udpPacket v6 src addr sport port bs)))
  | .mailbox c => r.setMhy { r.s.mhy with outbox := r.s.mhy.outbox ++ [(c, bs)] }

/-- Send a message with a payload, in parts when it exceeds the largest message (R323). -/
def mhyParts (r : Run z) (p : Peer) (h : Hdr) (payload : List Byte) : Run z :=
  let cs := chunksOf (maxMsg r.s p - 32) payload.length payload
  r.each ((List.range cs.length).zip cs) fun c r =>
    r.mhySend p (({ h with length := c.2.length, part := c.1, more := decide (c.1 + 1 < cs.length) } : Hdr).message c.2)

/-- A reply to a request. -/
def mhyAnswer (r : Run z) (p : Peer) (minor : Nat) (nocrc : Bool) (opcode session token seq status : Nat)
    (payload : List Byte) (again : Bool := false) : Run z :=
  let h : Hdr := {
    minor := minor, reply := true, nocrc := nocrc, repeat_ := again, opcode := opcode, status := status
    session := session, length := 0, token := token, seq := seq, time := r.s.now }
  r.mhyParts p h payload

/-- Send the reply of a request that executes, and one repeat for each repeated request; keep it (R322). -/
def mhyReply (r : Run z) (session seq status : Nat) (payload : List Byte) : Run z :=
  match r.s.mhy.execs.find? fun e => e.session = session && e.seq = seq && e.opcode ≠ 1, sess? r.s session with
  | some e, some x =>
    let r := r.setMhy { r.s.mhy with execs := r.s.mhy.execs.filter fun e' => !(e'.session = session && e'.seq = seq && e'.opcode ≠ 1) }
    let kept := if notKept e.opcode then [] else payload.take 64
    let r := r.setSess session { x with kept := (⟨seq, e.opcode, status, kept⟩ :: x.kept.filter fun k => k.seq ≠ seq).take 64 }
    let r := r.badLength status
    let r := r.mhyAnswer e.peer x.minor e.nocrc e.opcode session x.token seq status payload
    r.each (List.range e.repeats) fun _ r =>
      r.mhyAnswer e.peer x.minor e.nocrc e.opcode session x.token seq status payload true
  | _, _ => r

/-! ## Leases (R308, R310) -/

/-- A renewal stamped at `stamp`: RENEW never moves backwards. -/
def renewLease (r : Run z) (n stamp : Nat) : Run z :=
  if stamp > r.s.reg64 (sessReg n 4) then r.setReg64 (sessReg n 4) stamp else r

/-- A renewal by SCHED_HEARTBEAT: ignored for a CLOSED session or an expired lease. -/
def heartbeat (r : Run z) (n stamp : Nat) : Run z :=
  if r.s.fld (sessReg n 0) 31 30 = 1 && decide (stamp ≤ leaseEnd r.s n) then r.renewLease n stamp else r

/-- Reclaim a HELD session: LIVE again, RENEW at the reclaim's stamp, and its held reflex groups resume (R242, R310). -/
def reclaim (r : Run z) (n stamp : Nat) : Run z :=
  let r := (r.setFld (sessReg n 0) 31 30 1).setReg64 (sessReg n 4) stamp
  let r := match sess? r.s n with | some x => r.setSess n { x with expired := none } | none => r
  r.each (r.s.rfx.groups.filter fun g => match r.s.parcel? g.2.parcel with
      | some p => ctxSession r.s p.ctx = n
      | none => false) fun g r =>
    let r := r.put (.rfx { r.s.rfx with groups := SMap.insert r.s.rfx.groups g.1 { g.2 with held := none, hold := false } })
    r.setFld (schedReg (0xF0020 + 0x100 * (g.1 / 4) + 0x20 * (g.1 % 4))) 1 1 0

/-! ## Receiving -/

/-- Reject a message before it is accepted: the reply carries SESSION, TOKEN and SEQ of its header (R320). -/
def mhyReject (r : Run z) (p : Peer) (h : Hdr) (status : Nat) : Run z :=
  let minor := match sess? r.s h.session with | some x => x.minor | none => 2
  (r.badLength status).mhyAnswer p minor (h.nocrc && (match p.bind with | .mailbox _ => true | _ => false)) h.opcode h.session h.token h.seq
    status []

end Run

/-- Step 5 of R320: none when the session passes, with whether the message reclaims it. -/
def sessionCheck (s : State) (p : Peer) (h : Hdr) (stamp : Nat) : Except Nat Bool :=
  match s.fld (sessReg h.session 0) 31 30, sess? s h.session with
  | 0, _ => .error stLeaseLost
  | st, some x =>
    if x.token ≠ h.token || x.peer.bind ≠ p.bind then .error stDenied
    else if x.releasing then .error stLeaseLost
    else if st = 2 then
      (if stamp ≤ leaseEnd s h.session + 60000000000 then .ok true else .error stLeaseLost)
    else if st = 3 || stamp > leaseEnd s h.session then .error stLeaseLost
    else .ok false
  | _, none => .error stLeaseLost

/-- Opcodes that the boot ROM executes in network recovery (R469). -/
def recoveryOps : List Nat := [0x0001, 0x0004, 0x0201, 0x0503, 0x0504]

/-- The queue of a message: its owner's, or 5 for an opcode that is unknown or not negotiated (R320, R321), or that network
recovery does not execute (R469). -/
def mhyQueue (s : State) (x : Option Sess) (op : Nat) : Nat :=
  match catalogue.find? fun c => c.1 = op with
  | none => 5
  | some c =>
    if s.sec.recovery then (if recoveryOps.contains op then c.2.1 else 5)
    else match x with
    | some x => if hasFeat x c.2.2 then c.2.1 else 5
    | none => if op = 1 then c.2.1 else 5

/-- A PACE that the device sent over a session is not yet answered (R329). -/
def paceOpen (s : State) (session seq : Nat) : Bool :=
  s.mhy.jobs.any fun j => j.out.any fun o => o.seq = seq && j.peerSess.getD o.to_ 4096 = session

namespace Run

variable {z : State}

/-- Put an accepted message in its owner's queue of 1,024 (R321). -/
def mhyEnqueue (r : Run z) (m : Msg) : Run z :=
  let q := mhyQueue r.s (sess? r.s m.session) m.opcode
  let old := SMap.get [] r.s.mhy.queues q
  if old.length ≥ 1024 then r.countMhy 0x401C
  else
    let r := r.setMhy { r.s.mhy with queues := SMap.set [] r.s.mhy.queues q (old ++ [m]) }
    r.setMhy { r.s.mhy with execs := r.s.mhy.execs ++
      [{ session := m.session, seq := m.seq, opcode := m.opcode, peer := m.peer, nocrc := m.nocrc }] }

/-- The kept reply of a repeated request; that of a TALLY_ALLOC is rebuilt from the tallies it still holds (R322). -/
def mhyRepeat (r : Run z) (p : Peer) (h : Hdr) (x : Sess) (k : Kept) : Run z :=
  let payload :=
    if k.opcode = 0x0103 && k.status = stOk then
      (r.s.tallies.filter fun t => t.2.allocated && t.2.by_ = some (h.session, k.seq)).flatMap fun t =>
        leBytes 4 (tallyHandle r.s t.1)
    else k.payload
  r.mhyAnswer p x.minor h.nocrc k.opcode h.session x.token k.seq k.status payload true

/-- A part of a message: kept until the last, or abandoned with BAD_LENGTH (R323). A reassembly whose next part is 100 ms late has
been abandoned, and no part follows it. -/
def mhyPart (r : Run z) (p : Peer) (h : Hdr) (x : Sess) (payload : List Byte) (stamp : Nat) : Run z :=
  let live := x.reasm.filter fun a => decide (stamp ≤ a.at_ + 100000000)
  let follows := match live with
    | some a => a.seq = h.seq && a.opcode = h.opcode && a.next = h.part
    | none => h.part = 0
  let all := (match live with | some a => a.bytes | none => []) ++ payload
  if !follows || all.length > 16384 then
    (r.setSess h.session { x with reasm := none }).mhyReject p h stBadLength
  else if h.more then
    r.setSess h.session { x with reasm := some ⟨h.seq, h.opcode, h.part + 1, all, stamp⟩ }
  else
    let r := r.setSess h.session { x with reasm := none }
    r.mhyEnqueue ⟨p, h.session, h.token, h.seq, h.opcode, h.minor, h.nocrc, all, stamp⟩

/-- A reply to a PACE the device sent ends its resending (R329). -/
def paceAnswered (r : Run z) (session seq : Nat) : Run z :=
  r.setMhy { r.s.mhy with jobs := r.s.mhy.jobs.map fun j => { j with
    out := j.out.filter fun o => !(o.seq = seq && j.peerSess.getD o.to_ 4096 = session) } }

/-- A message that passed steps 1 to 4: session checks, repeats, parts, and its queue (R320). A HELLO that repeats one still queued is
counted like any repeat (R322). -/
def mhyAccept (r : Run z) (p : Peer) (h : Hdr) (payload : List Byte) (stamp : Nat) : Run z :=
  if h.opcode = 1 then
    let same (e : MExec) : Bool := e.opcode = 1 && e.seq = h.seq && e.peer.bind = p.bind
    if r.s.mhy.execs.any same then
      r.setMhy { r.s.mhy with execs := r.s.mhy.execs.map fun e => if same e then { e with repeats := e.repeats + 1 } else e }
    else r.mhyEnqueue ⟨p, h.session, h.token, h.seq, h.opcode, h.minor, h.nocrc, payload, stamp⟩
  else match sessionCheck r.s p h stamp with
    | .error st => r.mhyReject p h st
    | .ok again =>
      let r := if again then r.reclaim h.session stamp else r.renewLease h.session stamp
      match sess? r.s h.session with
      | none => r
      | some x =>
        if h.reply then r.paceAnswered h.session h.seq
        else if r.s.mhy.execs.any fun e => e.session = h.session && e.seq = h.seq && e.opcode ≠ 1 then
          r.setMhy { r.s.mhy with execs := r.s.mhy.execs.map fun e =>
            if e.session = h.session && e.seq = h.seq && e.opcode ≠ 1 then { e with repeats := e.repeats + 1 } else e }
        else match x.kept.find? fun k => k.seq = h.seq && !notKept k.opcode with
          | some k => r.mhyRepeat p h x k
          | none =>
            if hasFeat x 7 && (h.more || h.part ≠ 0) then r.mhyPart p h x payload stamp
            else r.mhyEnqueue ⟨p, h.session, h.token, h.seq, h.opcode, h.minor, h.nocrc, payload, stamp⟩

/-- Parse the messages of one frame, datagram or slot in order (R316, R320). DEDUCED, log 141: of replies only one that answers a PACE still
open passes step 4, with the STATUS it carries, and it goes on through step 5 like any message. -/
def mhyReceive (r : Run z) (p : Peer) (stamp : Nat) (bs : List Byte) : Nat → Run z
  | 0 => r
  | fuel + 1 =>
    let h := Hdr.parse bs
    if bs.length < 32 || h.major = 0 then r
    else
      let r := r.countMhy 0x4010
      let box := match p.bind with | .mailbox _ => true | _ => false
      if h.length > bs.length - 32 then r.mhyReject p h stBadLength
      else if !(box && h.nocrc) && !crcOk bs h.length then r.countMhy 0x4014
      else
        let rest := bs.drop ((32 + h.length + 3) / 4 * 4)
        let payload := slice bs 32 h.length
        let answer := h.reply && h.opcode = 0x0411 && paceOpen r.s h.session h.seq
        let r :=
          if h.major ≠ 1 then r.mhyReject p h stVersion
          else if h.rsv ≠ 0 || h.rsv2 ≠ 0 || ((h.reply || h.status ≠ 0) && !answer) || (h.nocrc && !box) then r.mhyReject p h stBounds
          else r.mhyAccept p h payload stamp
        r.mhyReceive p stamp rest fuel

end Run

/-! ## Network flows (R345, R346) and mailboxes (R292, R317) -/

/-- A channel takes work: EN, its context ACTIVE, and its session neither HELD nor DRAINING (R274, R277, R309). -/
def cardActive (s : State) (n : Nat) : Bool :=
  cardEn s n && ctxEn s (cardCtx s n) && decide (sessState s (ctxSession s (cardCtx s n)) ≤ 1)

/-- The flow that takes a frame: by its filter, or by its EtherType (R336). -/
def flowOf (s : State) (flt : Option Nat) (etype : Nat) : Option Nat :=
  (List.find? (fun c => cardKind s c.1 = 6 && cardActive s c.1 &&
    (match bits (cardW s c.1 8) 15 14 with
      | 0 => flt = some (bits (cardW s c.1 8) 9 0)
      | 1 => etype = bits (cardW s c.1 8) 31 16
      | _ => false)) s.sched.cards).map (·.1)

namespace Run

variable {z : State}

/-- A frame enters a flow's receive ring with its ingress stamp: cut to the slot, marked TRUNCATED and counted, or dropped on a full
ring (R291, R346). DESIGN CHOICE, log 79: the SLOT word holds the ingress port where a mailbox slot holds TRUNCATED, so the mark stands in
bits 31:16 of the word that follows it. -/
def flowReceive (r : Run z) (n ingress : Nat) (raw : List Byte) (stamp : Nat) : Run z :=
  let r := r.touchCard n
  let cfg := cardW r.s n 9
  let idx := cardW r.s n 10
  let prod := bits idx 15 0
  let cons := bits idx 31 16
  let err := cardW r.s n 12
  if (prod + 65536 - cons) % 65536 ≥ 2 ^ bits cfg 7 4 then r.setHw n 12 (setBits err 15 0 (min 0xFFFF (bits err 15 0 + 1)))
  else
    let slot := 2 ^ bits cfg 11 8
    let bs := raw.take (slot - 16)
    let va := cardAddr r.s n 4 + slot * (prod % 2 ^ bits cfg 7 4)
    let pre := leBytes 4 (ingress * 2 ^ 16 + bs.length) ++
      leBytes 4 (if raw.length > slot - 16 then stTruncated * 2 ^ 16 else 0) ++ leBytes 8 stamp
    match r.writeVirtBytes (ctxX r.s (cardCtx r.s n)) va (pre ++ bs) with
    | .error _ => r.setHw n 12 (setBits err 15 0 (min 0xFFFF (bits err 15 0 + 1)))
    | .ok r =>
      let r := r.when (raw.length > slot - 16) fun r => r.setHw n 12 (setBits err 31 16 (min 0xFFFF (bits err 31 16 + 1)))
      (r.setHw n 10 (cons * 65536 + (prod + 1) % 65536)).cardEvent n

/-- A write of ETH_FLOW_DB (R346). -/
def flowDb (r : Run z) (v : Nat) : Run z :=
  let n := bits v 29 16
  let x := bits v 15 0
  if !cardEn r.s n || cardKind r.s n ≠ 6 then r.bump (schedReg 0x030)
  else if bit v 30 then
    let idx := cardW r.s n 10
    let cons := bits idx 31 16
    let prod := bits idx 15 0
    if (x + 65536 - cons) % 65536 ≤ (prod + 65536 - cons) % 65536 then r.setHw n 10 (x * 65536 + prod)
    else r.bump (schedReg 0x030)
  else
    let idx := cardW r.s n 11
    let taken := bits idx 31 16
    let tail := bits idx 15 0
    let d := (x + 65536 - taken) % 65536
    if (tail + 65536 - taken) % 65536 ≤ d ∧ d ≤ 2 ^ bits (cardW r.s n 9) 7 4 then r.setHw n 11 (taken * 65536 + x)
    else r.bump (schedReg 0x030)

end Run

/-- FLOW_TX_TAKE: the device takes a flow's transmit slot that its tail covers, and the frame leaves on EPORT (R346). A
slot whose prefix does not occur sends nothing. -/
def execFlowTxTake (n : Nat) (s : State) : Host.Outcome State Fault Refusal :=
  let r := Run.start s
  let idx := cardW s n 11
  let taken := bits idx 31 16
  if cardKind s n ≠ 6 || !cardActive s n || !awake s || taken = bits idx 15 0 then done r
  else
    let cfg := cardW s n 9
    let slot := 2 ^ bits cfg 11 8
    let c := ctxX s (cardCtx s n)
    let va := cardAddr s n 6 + slot * (taken % 2 ^ bits cfg 7 4)
    let r := r.touchCard n
    let r := match r.readBlock c va 4 with
      | (.error _, r) => r
      | (.ok w, r) =>
        let len := bits w 15 0
        if bits w 31 16 ≠ 0 || len > slot - 16 || len < 14 then r
        else match r.readBlock c (va + 16) len with
          | (.error _, r) => r
          | (.ok v, r) =>
            let f := Frame.parse (leBytes len v) (s.fld (portReg (bits cfg 1 0) 0) 11 0)
            r.ethEnqueue (bits cfg 1 0) f f.pcp
    done ((r.setHw n 11 ((taken + 1) % 65536 * 65536 + bits idx 15 0)).cardEvent n)

/-- MAILBOX_TX_TAKE: the device takes a transmit slot that a doorbell covers, and its message passes the checks of R320,
stamped at that doorbell (R308). -/
def execMailboxTxTake (n : Nat) (s : State) : Host.Outcome State Fault Refusal :=
  let r := Run.start s
  let idx := cardW s n 10
  let taken := bits idx 31 16
  if cardKind s n ≠ 7 || !cardActive s n || !awake s || taken = bits idx 15 0 then done r
  else
    let cfg := cardW s n 8
    let slot := 2 ^ bits cfg 11 8
    let c := ctxX s (cardCtx s n)
    let va := cardAddr s n 6 + slot * (taken % 2 ^ bits cfg 7 4)
    let r := (r.touchCard n).setHw n 10 ((taken + 1) % 65536 * 65536 + bits idx 15 0)
    let peer : Peer := { bind := .mailbox n }
    let bells := SMap.get [] s.sched.bells n
    let stamp := match bells with | b :: _ => b.2 | [] => s.now
    let r := r.put (.sched { r.s.sched with
      bells := SMap.set [] r.s.sched.bells n (if (bells.getD 0 (0, 0)).1 = (taken + 1) % 65536 then bells.drop 1 else bells) })
    let r := match r.readBlock c va slot with
      | (.error _, r) => r
      | (.ok v, r) =>
        let bs := leBytes slot v
        let len := le bs 0 2
        let msg := slice bs 16 len
        let h := Hdr.parse (slice bs 16 (slot - 16))
        if len > slot - 16 || len ≠ 32 + h.length then (r.countMhy 0x4010).mhyReject peer h stBadLength
        else r.mhyReceive peer stamp msg 1
    done (r.cardEvent n)

/-- REASSEMBLY_TIMEOUT: the next part has not arrived within 100 ms (R323). -/
def execReassemblyTimeout (n : Nat) (s : State) : Host.Outcome State Fault Refusal :=
  let r := Run.start s
  match sess? s n with
  | some x =>
    match x.reasm with
    | some a => if s.now > a.at_ + 100000000 then done (r.setSess n { x with reasm := none }) else done r
    | none => done r
  | none => done r

end Sys2Proof.Machine
end

