-- ==== Sys2Proof/Machine/EthRx.lean ====
section
/-! DEFINITION. Frames received: their ingress stamps (R30), protection (R344), the switch's steps (R335) and delivery at port 4
(R336). -/

namespace Sys2Proof.Machine

/-- The packet number of a received frame from its 32 bits on the wire: under GCM-AES-XPN-256 the upper 32 bits are those of the next
expected number, one more where the low half has wrapped (R344; PRESUMED, IEEE 802.1AE, log 143). -/
def fullPn (xpn : Bool) (next wire : Nat) : Nat :=
  if !xpn then wire
  else next / 2 ^ 32 * 2 ^ 32 + wire + (if bit next 31 && !bit wire 31 then 2 ^ 32 else 0)

namespace Run

variable {z : State}

/-- An EAPOL frame reaches MKA: an MKPDU of a live peer that names the CKN of the device's key group elects the key server by its
priority and SCI, and the port is SECURED under the SAK that the key server distributes (R344; PRESUMED, IEEE 802.1X, log 143: an MKPDU's
parameter set holds the priority at octet 5, the SCI at 8, and the CKN from octet 36). -/
def mkaReceive (r : Run z) (n : Nat) (body : List Byte) : Run z :=
  let key := r.s.fld (topReg 8) 15 8
  let ckn := "JX176-K".toList.map (fun c => BitVec.ofNat 8 c.toNat) ++ [BitVec.ofNat 8 (48 + key / 10), BitVec.ofNat 8 (48 + key % 10)]
  let k := ethReg (0x3000 + 0x40 * n)
  if r.s.fld (portReg n 0) 25 25 = 0 || r.s.fld k 31 30 = 0 || slice body 36 9 ≠ ckn || !Config.mkaAccepts key body then r
  else
    let own := r.s.fld k 23 16 * 2 ^ 64 + ofBe (leBytes 6 (portMac r.s n)) * 2 ^ 16 + 1
    let server := decide (own < be body 5 1 * 2 ^ 64 + be body 8 8)
    let p := ethPort r.s n
    let p := { p with server := server, peerAt := r.s.now }
    if server then
      if p.sak.isSome then (r.setPort n p).mkaState n 2
      else
        let (w, r) := r.draw
        (r.setPort n { p with sak := some w, pn := 1, rxPn := 0 }).mkaState n 2
    else match Config.mkaSak key body with
      | some w => (r.setPort n (if p.sak = some w then p else { p with sak := some w, pn := 1, rxPn := 0 })).mkaState n 2
      | none => (r.setPort n p).mkaState n (if p.sak.isSome then 2 else 1)

/-- The answer to an ARP request or an IPv6 Neighbour Solicitation for the port's address, none for another frame
(R336). -/
def neighbourAnswer (r : Run z) (n : Nat) (f : Frame) : Option Frame :=
  let ip := portIp r.s n
  let ip6 := portIp6 r.s n
  if f.etype = 0x0806 && be f.body 0 2 = 1 && be f.body 2 2 = 0x0800 && be f.body 6 2 = 1 && ip ≠ 0 &&
      be f.body 24 4 = ip then
    some (.of f.src (portMac r.s n) f.vid 0 0x0806 (padTo 46
      (beBytes 2 1 ++ beBytes 2 0x0800 ++ beBytes 1 6 ++ beBytes 1 4 ++ beBytes 2 2 ++ leBytes 6 (portMac r.s n) ++
        beBytes 4 ip ++ slice f.body 8 6 ++ slice f.body 14 4)))
  else if f.etype = 0x86DD && be f.body 6 1 = 58 && be f.body 40 1 = 135 && ip6 ≠ 0 && be f.body 48 16 = ip6 then
    let icmp := fun (sum : Nat) => beBytes 2 0x8800 ++ beBytes 2 sum ++ beBytes 4 0x60000000 ++ beBytes 16 ip6 ++
      beBytes 2 0x0201 ++ leBytes 6 (portMac r.s n)
    let pseudo := beBytes 16 ip6 ++ slice f.body 8 16 ++ beBytes 4 32 ++ beBytes 4 58
    some (.of f.src (portMac r.s n) f.vid 0 0x86DD (padTo 46
      (beBytes 4 (6 * 2 ^ 28) ++ beBytes 2 32 ++ beBytes 1 58 ++ beBytes 1 255 ++ beBytes 16 ip6 ++ slice f.body 8 16 ++
        icmp (inetSum (pseudo ++ icmp 0)))))
  else none

/-- A Mehryen message in a frame or datagram (R315, R316, R336): none when the frame carries none for this device. -/
def mhyFrame (r : Run z) (n : Nat) (f : Frame) (stamp : Nat) : Option (Run z) :=
  let cfg := (r.s.reg (ethReg 0x4000)).toNat
  if f.etype = 0x88B5 && bit cfg 16 then
    some (r.mhyReceive ⟨.eth f.src f.vid, n, f.src, f.vid⟩ stamp f.body (f.body.length / 32 + 1))
  else match udpOf f.etype f.body with
    | none => none
    | some u =>
      let mine := if u.v6 then portIp6 r.s n else portIp r.s n
      if !bit cfg 17 || mine = 0 || u.dst ≠ mine then none
      else if u.frag then some (r.countMhy 0x401C)
      else if u.dport ≠ bits cfg 15 0 then none
      else some (r.mhyReceive ⟨.udp u.v6 u.src u.sport, n, f.src, f.vid⟩ stamp u.data (u.data.length / 32 + 1))

/-- Delivery at port 4, to the first destination that matches (R336). A flow takes the frame as it leaves the switch, without its tag
where port 4 is in the untagged set of its VLAN (R335). -/
def deliver4 (r : Run z) (n : Nat) (f : Frame) (flt : Option Nat) (stamp : Nat) : Run z :=
  let reflex := r.s.rfx.groups.any fun g => g.2.cards.any fun c => flt = some (bits (c.getD 0 0).toNat 9 0)
  match reflex, flt with
  | true, some i => r.put (.rfx { r.s.rfx with landing := r.s.rfx.landing ++ [(i, f.body)] })
  | _, _ =>
    match flowOf r.s flt f.etype with
    | some c => r.flowReceive c n (f.bytes (!vlanUntagged r.s f.vid 4)) stamp
    | none =>
      if f.etype = 0x88F7 then r.gptpReceive n f.body stamp
      else if f.etype = 0x888E then r.mkaReceive n f.body
      else match r.mhyFrame n f stamp with
        | some r => r
        | none =>
          match r.neighbourAnswer n f with
          | some a => r.sendFrame a
          | none => r.countPort n 0x028

/-- What a protected port takes from a frame: the frame as it stands for EAPOL and gPTP, else what its SA opens inside the
replay window; none is a discard (R344). -/
def unprotect (r : Run z) (n : Nat) (raw : List Byte) : Option (List Byte × Run z) :=
  let p := ethPort r.s n
  let et := be raw 12 2
  if r.s.fld (portReg n 0) 25 25 = 0 || et = 0x888E || et = 0x88F7 then some (raw, r)
  else match p.sak with
    | none => none
    | some k =>
      let xpn := r.s.fld (ethReg (0x3000 + 0x40 * n)) 29 29 = 1
      let pn := fullPn xpn (p.rxPn + 1) (be raw 16 4)
      let win := r.s.fld (ethReg (0x3000 + 0x40 * n)) 15 0
      if r.s.fld (ethReg (0x3000 + 0x40 * n)) 31 30 ≠ 2 || et ≠ 0x88E5 || decide (pn + win < p.rxPn + 1) then none
      else match Config.macsecOpen k raw with
        | none => none
        | some bs => some (bs, r.setPort n { p with rxPn := max p.rxPn pn })

/-- The switch takes a frame that arrived whole on an external port (R335). -/
def switchFrame (r : Run z) (n : Nat) (raw : List Byte) (stamp : Nat) : Run z :=
  let f := Frame.parse raw (r.s.fld (portReg n 0) 11 0)
  if !vlanMember r.s f.vid n then r
  else
    let flt := filterOf r.s f n
    let f := { f with flt := flt }
    let r := r.traceStream 0x0100 n flt
    let (pass, r) := r.streamCheck f (raw.length + 4) n flt
    if !pass then r
    else
      let r := r.learn f n
      let dests := if f.dst = portMac r.s n then [4] else destPorts r.s f n
      let r := r.forwardOut f flt dests
      if dests.contains 4 then r.deliver4 n f flt stamp else r

end Run

/-- The ingress stamp of a frame whose last octet has just arrived: the time of its first octet after the preamble, at the port's
speed, and no earlier than the port's stamps before it (R29, R30). -/
def ingressStamp (s : State) (n len : Nat) : Nat :=
  max (ethPort s n).rxAt (s.timeAt tbEth - len * octetTime s n / 10)

/-- ETH_FRAME_RX: a frame is received on an external port: `raw` runs from its destination address to its last data octet,
and `fcsOk` says whether its FCS is right (R332, R334, R335, R336). Its ingress stamp goes with it (R30). -/
def execEthFrameRx (n : Nat) (raw : List Byte) (fcsOk : Bool) (s : State) : Host.Outcome State Fault Refusal :=
  let r := Run.start s
  if !linkUp s n then done r
  else
    let stamp := ingressStamp s n (raw.length + 4)
    let r := (r.setPort n { ethPort s n with rxAt := max (ethPort s n).rxAt (s.timeAt tbEth) }).countPort n 0x020
    if !fcsOk || raw.length + 4 < 64 || raw.length + 4 > 1522 then done (r.countPort n 0x028)
    else match r.unprotect n raw with
      | none => done (r.countPort n 0x030)
      | some (bs, r) => done (r.switchFrame n bs stamp)

end Sys2Proof.Machine
end

