-- ==== Sys2Proof/Machine/Power.lean ====
section
/-! DEFINITION. Power: requests and claims (R427 to R430), DVFS (R433 to R437), the Ledger's refill (R438, R443 to R445),
droop and heat (R446 to R448). Entries into the lower states and the return stand in PowerEntry. -/

namespace Sys2Proof.Machine

def stPwrBadState : Nat := 0x0900
def stPwrThermal : Nat := 0x0901
def stReflexActive : Nat := 0x0400

/-- Key of PWR_CLc_DVFS; c = 16 is HOST. -/
def dvfsReg (c : Nat) : Nat := pwrReg (0x100 + 0x10 * c)

/-- A sensor's reading in °C (R447). -/
def tempOf (s : State) (n : Nat) : Int := sext 8 (s.fld (pwrReg (0x610 + 4 * n)) 7 0)

/-- T_THROT, T_ALERT and HYST. -/
def tThrot (s : State) : Int := s.fld (pwrReg 0x600) 31 24
def tAlert (s : State) : Int := s.fld (pwrReg 0x600) 23 16
def tHyst (s : State) : Int := s.fld (pwrReg 0x600) 3 0

/-- Some sensor is at or above a temperature. -/
def anySensor (s : State) (t : Int) : Bool := (List.range 18).any fun n => decide (tempOf s n ≥ t)

/-- The highest claim that stands, as a state code, 5 for none (R427). -/
def claimState (s : State) : Nat := s.power.claims.foldl (fun m c => min m c.2) 5

/-- A cluster holds work: a gang of it has not retired (R444). -/
def clusterBusy (s : State) (cl : Nat) : Bool := s.gangs.any fun kg => kg.1 / 128 / 12 = cl

/-- A cluster is pinned (R437). -/
def pinned (s : State) (cl : Nat) : Bool := SMap.get [] s.power.pins cl ≠ []

/-- A reflex parcel is in flight (R240): its descriptor has PKIND 1. -/
def reflexInFlight (s : State) : Bool := s.sched.parcels.any fun p => bit (p.2.desc.getD 0 0).toNat 29

namespace Run

variable {z : State}

/-- Replace the power record. -/
def setPower (r : Run z) (p : Power) : Run z := r.put (.power p)

/-- Answer the Mehryen request that asked for something, if one did. -/
def answer (r : Run z) (asker : Option (Nat × Nat)) (status : Nat) (payload : List Byte := []) : Run z :=
  match asker with
  | some a => r.mhyReply a.1 a.2 status payload
  | none => r

/-- A power state is reached: STATE, trace point 0x0501, and dormant clusters in IDLE (R423, R489). In
SLEEP and DEEP_SLEEP a LOCKED keeper is in HOLDOVER (R32). HOST runs at 640 MHz in
IDLE and at its DVFS point in RUN. -/
def reachState (r : Run z) (st : Nat) : Run z :=
  let r := (r.setFld (pwrReg 4) 31 29 st).trace 0x24 0x0501 st
  let r := r.setPower { r.s.power with idleSince := r.s.now }
  let r := r.when ((st = 2 || st = 3) && r.s.fld (topReg 0x10C) 1 0 = 2) fun r => r.holdover
  if st = 1 then
    let r := r.setFld (dvfsReg 16) 17 16 3
    r.each (List.range 16) fun c r => r.settleDormant c
  else if st = 0 then
    let r := r.setFld (dvfsReg 16) 17 16 (r.s.fld (dvfsReg 16) 13 12)
    r.each (List.range 16) fun c r => r.when (r.s.fld (dvfsReg c) 29 29 = 1) fun r =>
      (r.setFld (dvfsReg c) 29 29 0).setFld (dvfsReg c) 11 0 (vtabMv r.s c (r.s.fld (dvfsReg c) 13 12))
  else r

/-- A request completes with a status: STATUS, GO clear, PENDING clear, and the reply if a message asked. -/
def endRequest (r : Run z) (asker : Option (Nat × Nat)) (status : Nat) : Run z :=
  let r := (r.setFld (pwrReg 4) 15 0 status).setFld (pwrReg 0) 31 31 0
  r.answer asker status

/-- The pending request fails and takes go on (R428). -/
def failRequest (r : Run z) : Run z :=
  match r.s.power.req with
  | none => r
  | some q =>
    let r := r.setPower { r.s.power with req := none }
    (r.setFld (pwrReg 4) 28 28 0).endRequest q.asker stPwrBadState

/-- A request for a power state (R240, R427, R428). While the power processor restarts it waits (R301). -/
def requestState (r : Run z) (target : Nat) (asker : Option (Nat × Nat)) : Run z :=
  let st := powerState r.s
  if r.s.power.req.isSome || r.s.power.asked.isSome || r.s.power.entering.isSome || r.s.sec.switch.isSome then
    (if asker.isSome then r.answer asker stPwrBadState else r.setFld (pwrReg 4) 15 0 stPwrBadState)
  else if decide (st ≤ 1) && asker.isNone && fwState r.s 3 ≠ 0 then r.setPower { r.s.power with asked := some target }
  else if target = st then (r.setPower { r.s.power with last := target }).endRequest asker stOk
  else if target > claimState r.s then r.endRequest asker stPwrBadState
  else if target = 0 && anySensor r.s (tAlert r.s) then r.endRequest asker stPwrThermal
  else if st ≤ 1 && target ≤ 1 then
    ((r.setPower { r.s.power with last := target }).reachState target).endRequest asker stOk
  else if st ≤ 1 then
    if reflexInFlight r.s then r.endRequest asker stReflexActive
    else if r.s.vault.windows ≠ [] then r.endRequest asker stPwrBadState
    else
      let deadline := r.s.now + r.s.fld (pwrReg 8) 15 0 * 1000000
      let r := r.setPower { r.s.power with req := some ⟨target, deadline, asker⟩ }
      r.setFld (pwrReg 4) 28 28 1
  else r.endRequest asker stPwrBadState

/-- The state in force follows the last accepted request and the claims, while the device is awake (R427). -/
def settleState (r : Run z) : Run z :=
  let want := min r.s.power.last (claimState r.s)
  if fwRuns r.s 3 && decide (want ≤ 1) && want ≠ powerState r.s then r.reachState want else r

/-- The power processor has returned: the request that waited is made, and the state in force settles (R301). -/
def powerResume (r : Run z) : Run z :=
  match r.s.power.asked with
  | some t =>
    let r := (r.setPower { r.s.power with asked := none }).requestState t none
    (r.setFld (pwrReg 0) 31 31 (b2n r.s.power.req.isSome)).settleState
  | none => r.settleState

/-- A claim stands for an owner (R417, R427); one at or above the state in force fails a request that drains (R428). -/
def addClaim (r : Run z) (owner st : Nat) : Run z :=
  let run := decide (claimState r.s = 0)
  let r := r.setPower { r.s.power with
    claims := SMap.insert r.s.power.claims owner st, idleSince := if st = 0 || run then r.s.now else r.s.power.idleSince }
  let r := r.when (r.s.power.req.isSome && decide (st ≤ powerState r.s)) fun r => r.failRequest
  r.settleState

/-- A claim is released; while a RUN claim stood no interval without one ran (R427). -/
def dropClaim (r : Run z) (owner : Nat) : Run z :=
  let run := decide (claimState r.s = 0)
  (r.setPower { r.s.power with
    claims := SMap.erase r.s.power.claims owner, idleSince := if run then r.s.now else r.s.power.idleSince }).settleState

/-- A wake: in RUN and IDLE nothing; during an entry into SLEEP or DEEP_SLEEP after it; in those states at once
(R429, R430). -/
def wakeTo (r : Run z) (source target : Nat) : Run z :=
  match r.s.power.entering with
  | some e => if e.target = 4 then r else r.setPower { r.s.power with wakePending := some (source * 8 + target) }
  | none =>
    if powerState r.s = 2 || powerState r.s = 3 then
      (r.setFld (pwrReg 4) 23 16 source).setPower { r.s.power with ret := some target, last := target }
    else r

end Run

/-- POWER_DRAIN_TIMEOUT: drain is not complete within DRAIN_MS (R428). -/
def execPowerDrainTimeout (s : State) : Host.Outcome State Fault Refusal :=
  let r := Run.start s
  match s.power.req with
  | some q => if s.now > q.deadline then done r.failRequest else done r
  | none => done r

/-- AUTO_IDLE_ENTRY: no gang resident and no RUN claim for IDLE_AFTER ms (R427). -/
def execAutoIdleEntry (s : State) : Host.Outcome State Fault Refusal :=
  let r := Run.start s
  let cfg := (s.reg (pwrReg 8)).toNat
  if powerState s = 0 && fwRuns s 3 && bit cfg 31 && s.gangs.isEmpty && claimState s ≠ 0 && s.power.req.isNone &&
      decide (s.now ≥ s.power.idleSince + bits cfg 23 16 * 1000000) then
    done ((r.setPower { s.power with last := 1 }).reachState 1)
  else done r

/-- WAKE_PIN (R430). -/
def execWakePin (s : State) : Host.Outcome State Fault Refusal :=
  let r := Run.start s
  if s.fld (pwrReg 0xC) 31 31 = 1 then done (r.wakeTo 1 (s.fld (pwrReg 0xC) 1 0)) else done r

/-- WAKE_TIMER: fabric time is at or after PWR_WAKE_AT (R430). -/
def execWakeTimer (s : State) : Host.Outcome State Fault Refusal :=
  let r := Run.start s
  if s.fld (pwrReg 0xC) 30 30 = 1 && decide (s.reg64 (pwrReg 0x10) ≤ s.now) then
    done (r.wakeTo 2 (s.fld (pwrReg 0xC) 1 0))
  else done r

/-! ## DVFS (R433 to R437) -/

namespace Run

variable {z : State}

/-- The regulator of a cluster or HOST takes the table voltage of a point; it settles after the slew and 10 µs (R435). -/
def setVolt (r : Run z) (c p : Nat) : Run z :=
  let old := r.s.fld (dvfsReg c) 11 0
  let new := vtabMv r.s c p
  let r := (r.setFld (dvfsReg c) 13 12 p).setFld (dvfsReg c) 11 0 new
  let slew := (max old new - min old new) * 1000 + 10000
  r.setPower { r.s.power with settle := SMap.set 0 r.s.power.settle c (r.s.now + slew) }

/-- A cluster or HOST is at a point: VSEL, DIV and the divider register, and trace point 0x0040 (R435). In IDLE the clock of
HOST stays at 640 MHz (R423). -/
def atPoint (r : Run z) (c p : Nat) : Run z :=
  let r := r.setVolt c p
  let r := (r.setFld (dvfsReg c) 17 16 (if c = 16 && powerState r.s = 1 then 3 else p)).setFld (dvfsReg c) 31 31 0
  let r := r.setRegN (regKey 2 (0x100 + 4 * c)) p
  r.trace 0x13 0x0040 (c * 2 ^ 16 + p)

/-- The sequencer starts toward TARGET: BUSY, and for HOST the voltage step, a lowering changing the divider first
(R434, R436). -/
def startMove (r : Run z) (c p : Nat) : Run z :=
  let cur := r.s.fld (dvfsReg c) 17 16
  let r := (r.setFld (dvfsReg c) 21 20 p).setFld (dvfsReg c) 31 31 1
  if c < 16 then r
  else
    let r := r.setPower { r.s.power with vstep := some (r.s.now, p, cur) }
    r.when (p > cur && powerState r.s ≠ 1) fun r => (r.setFld (dvfsReg c) 17 16 p).setRegN (regKey 2 (0x100 + 4 * c)) p

/-- A write that breaks a rule of R434 is ignored and counted. -/
def refuseDvfs (r : Run z) (c : Nat) : Run z := r.bump (pwrReg (0x104 + 0x10 * c))

/-- A write of CLK_CLc_DIV (R434). A pinned cluster keeps its point: a write that would change it is refused too (R437;
DEDUCED, log 130). -/
def writeDiv (r : Run z) (c p : Nat) : Run z :=
  let cur := r.s.fld (dvfsReg c) 17 16
  let vsel := r.s.fld (dvfsReg c) 13 12
  let settled := decide (SMap.get 0 r.s.power.settle c ≤ r.s.now)
  if p < cur && !(decide (vsel ≤ p) && settled) || p ≠ cur && pinned r.s c then r.refuseDvfs c
  else ((r.setFld (dvfsReg c) 17 16 p).setRegN (regKey 2 (0x100 + 4 * c)) p).trace 0x13 0x0040 (c * 2 ^ 16 + p)

/-- A write of PWR_CLc_DVFS: BASE, then VSEL under R434, then TARGET, which a pinned cluster does not follow (R437). -/
def writeDvfs (r : Run z) (c v : Nat) : Run z :=
  let vsel := r.s.fld (dvfsReg c) 13 12
  let nv := bits v 13 12
  let cur := r.s.fld (dvfsReg c) 17 16
  if nv > vsel && decide (cur < nv) then r.refuseDvfs c
  else
    let r := r.setFld (dvfsReg c) 25 24 (bits v 25 24)
    let r := r.when (nv ≠ vsel) fun r => r.setVolt c nv
    let t := bits v 21 20
    if t = r.s.fld (dvfsReg c) 21 20 then r
    else if pinned r.s c then r.setFld (dvfsReg c) 21 20 t
    else r.startMove c t

/-- Pin a cluster for an owner at or above a point; below it, it is raised first, and a dormant one wakes at its BASE (R238,
R424, R437). A change under way ends with the
pin: at its target where that is at or above the point, and else the cluster goes no lower. -/
def addPin (r : Run z) (c owner freq : Nat) : Run z :=
  let dormant := r.s.fld (dvfsReg c) 29 29 = 1
  let r := r.when dormant fun r => r.setFld (dvfsReg c) 29 29 0
  let cur := if dormant then r.s.fld (dvfsReg c) 25 24 else r.s.fld (dvfsReg c) 17 16
  let target := r.s.fld (dvfsReg c) 21 20
  let busy := r.s.fld (dvfsReg c) 31 31 = 1
  let p := if busy && decide (target ≤ freq) then target else min cur freq
  let r := r.when (busy || dormant || decide (p ≠ cur)) fun r => (r.setFld (dvfsReg c) 21 20 p).atPoint c p
  let r := r.setPower { r.s.power with pins := SMap.set [] r.s.power.pins c (owner :: SMap.get [] r.s.power.pins c) }
  r.setFld (dvfsReg c) 30 30 1

/-- Release an owner's pin on every cluster. -/
def dropPin (r : Run z) (owner : Nat) : Run z :=
  r.each (r.s.power.pins.filter fun p => p.2.contains owner) fun p r =>
    let rest := p.2.filter (· ≠ owner)
    let r := r.setPower { r.s.power with pins := SMap.set [] r.s.power.pins p.1 rest }
    (r.when rest.isEmpty fun r => r.setFld (dvfsReg p.1) 30 30 0).settleDormant p.1

end Run

/-- DVFS_STEP_END: a cluster's change completes (R434, R435). -/
def execDvfsStepEnd (c : Nat) (s : State) : Host.Outcome State Fault Refusal :=
  let r := Run.start s
  if c < 16 && s.fld (dvfsReg c) 31 31 = 1 then done (r.atPoint c (s.fld (dvfsReg c) 21 20)) else done r

/-- The power processor reaches the HOST regulator over PMBus: PWR_PMB_CFG.EN, and a regulator that answered at boot. Every step
fails otherwise (R502, R513). -/
def pmbUp (s : State) : Bool := s.fld (pwrReg 0x700) 31 31 = 1 && s.fld (pwrReg 0x704) 31 31 = 1

/-- VSTEP_ACK: the HOST rail has settled, and a raise changes the divider (R436). Without a step under way the pin is
ignored (R514), and a step that PMBus did not carry fails at its timeout (R502). -/
def execVstepAck (s : State) : Host.Outcome State Fault Refusal :=
  let r := Run.start s
  match s.power.vstep with
  | some (_, p, _) => if pmbUp s then done ((r.setPower { s.power with vstep := none }).atPoint 16 p) else done r
  | none => done r

/-- VSTEP_TIMEOUT: VSTEP_ACK has not risen within 1 ms; HOST stays at the old point (R436). -/
def execVstepTimeout (s : State) : Host.Outcome State Fault Refusal :=
  let r := Run.start s
  match s.power.vstep with
  | some (t, _, old) =>
    if s.now < t + 1000000 then done r
    else
      let r := r.setPower { s.power with vstep := none }
      let r := (r.setFld (dvfsReg 16) 17 16 old).setFld (dvfsReg 16) 31 31 0
      let r := r.setRegN (regKey 2 0x140) old
      done (r.bump (pwrReg 0x20C))
  | none => done r

/-- CLUSTER_WAKE: a dormant cluster to which a parcel is dispatched wakes at its BASE point (R424). -/
def execClusterWake (c : Nat) (s : State) : Host.Outcome State Fault Refusal :=
  let r := Run.start s
  let wanted := s.sched.parcels.any fun p => p.2.stage = .running && !p.2.stop && (nextIndex p.2).isSome &&
    (List.range 12).any fun k =>
      let l := logicalOf s (12 * c + k)
      decide (l < 176) && placed p.2 l && !reflexReserved s l
  if c < 16 && s.fld (dvfsReg c) 29 29 = 1 && wanted then
    let base := s.fld (dvfsReg c) 25 24
    let r := r.setPower { s.power with idleSince := s.now }
    done (((r.setFld (dvfsReg c) 29 29 0).setFld (dvfsReg c) 21 20 base).atPoint c base)
  else done r

/-! ## The Ledger (R438, R443 to R445) -/

/-- LEDGER_REFILL: the microsecond boundaries passed credit the rate, carrying fractions, up to the capacity (R438). -/
def execLedgerRefill (s : State) : Host.Outcome State Fault Refusal :=
  let r := Run.start s
  let us := s.now / 1000
  let n := us - s.ledger.us
  if n = 0 then done r
  else
    let total := s.ledger.frac + n * (s.reg (pwrReg 0x308)).toNat
    let level := min (s.power.capNow * 1000) ((s.reg (pwrReg 0x30C)).toNat + total / 1000)
    let r := r.put (.ledger { s.ledger with us := us, frac := total % 1000 })
    done (r.setRegN (pwrReg 0x30C) level)

namespace Run

variable {z : State}

/-- The power processor moves a cluster by a point, or leaves it at the end of the scale. -/
def moveBy (r : Run z) (c : Nat) (up : Bool) : Run z :=
  let cur := r.s.fld (dvfsReg c) 17 16
  if up then (if cur = 0 then r else r.startMove c (cur - 1)) else if cur = 3 then r else r.startMove c (cur + 1)

/-- Adaptive mode's moves at an update (R444): each unpinned cluster that holds work, by at most one point, lowered for its
permit waits before it is raised; HOST as its load says. Answers the mask of the lowered ones. -/
def adaptive (r : Run z) (powerMw : Nat) (hostUp hostDown : Bool) : Run z × Nat :=
  let cool := decide (powerMw * 10 < r.s.power.capNow * 9000) && !anySensor r.s (tThrot r.s)
  let waits := fun (c : Nat) => SMap.get 0 r.s.ledger.waited c +
    (r.s.ledger.reqs.filter fun q => q.core / 12 = c).foldl (fun n q => n + min 1000000 (r.s.now - q.since)) 0
  let low := (List.range 16).filter fun c => clusterBusy r.s c && !pinned r.s c && decide (waits c > 50000) &&
    decide (r.s.fld (dvfsReg c) 17 16 < 3)
  let r0 := r
  let r := r.each (List.range 16) fun c r =>
    if !clusterBusy r.s c || pinned r.s c then r
    else if waits c > 50000 then r.moveBy c false
    else if cool then r.moveBy c true else r
  let r := if hostDown then r.moveBy 16 false else if hostUp && cool then r.moveBy 16 true else r
  (r, laneMask low + (if hostDown && decide (r0.s.fld (dvfsReg 16) 17 16 < 3) then 2 ^ 16 else 0))

end Run

/-- LEDGER_RATE_UPDATE: every millisecond the power processor takes the cap in force, sets the refill rate, and moves the
clusters. The operands are what it measured over the last millisecond: the package power, the power of the consumers that
take no permit, both in mW, and whether the host cores' load asks for a higher or a lower point (R438, R443, R444, R445). -/
def execLedgerRateUpdate (powerMw fixedMw : Nat) (hostUp hostDown : Bool) (s : State) :
    Host.Outcome State Fault Refusal :=
  let r := Run.start s
  let ms := s.now / 1000000
  if !fwRuns s 3 || ms ≤ s.power.rateMs then done r
  else
    let cap := s.fld (pwrReg 0x300) 7 0
    let r := r.setPower { s.power with capNow := cap, rateMs := ms }
    let base := cap * 1000 - (s.reg (pwrReg 0x310)).toNat - fixedMw
    let r := (r.setPower { r.s.power with base := base }).setRegN (pwrReg 0x308) (base * (10 - s.power.cut) / 10)
    let r := r.setRegN (pwrReg 0x30C) (min (cap * 1000) (s.reg (pwrReg 0x30C)).toNat)
    let r := r.setRegN (pwrReg 0x330) powerMw
    let fixed := s.fld (pwrReg 0x304) 31 31 = 1
    let (r, low) :=
      if fixed then
        (r.each ((List.range 16).filter fun c => clusterBusy s c && !pinned s c &&
            s.fld (dvfsReg c) 17 16 ≠ s.fld (pwrReg 0x304) 1 0) fun c r => r.startMove c (s.fld (pwrReg 0x304) 1 0), 0)
      else r.adaptive powerMw hostUp hostDown
    let r := r.setRegN (pwrReg 0x334) (low ||| s.power.cooled)
    let r := r.setPower { r.s.power with cooled := 0 }
    done (r.put (.ledger { r.s.ledger with waited := [] }))

namespace Run

variable {z : State}

/-- A write of a cap in watts: refused when it raises the cap while a sensor is at or above T_ALERT (R443). -/
def writeCap (r : Run z) (w : Nat) : Nat × Run z :=
  if w > r.s.fld (pwrReg 0x300) 7 0 && anySensor r.s (tAlert r.s) then (stPwrThermal, r)
  else (stOk, r.setFld (pwrReg 0x300) 7 0 w)

/-- A write of PWR_MODE (R445). -/
def writeMode (r : Run z) (v : Nat) : Nat × Run z :=
  let sets := bit v 31
  if sets && r.s.mhy.jobs.any fun j => decide (j.n > 2) then (stPwrBadState, r)
  else if sets && anySensor r.s (tAlert r.s) then (stPwrThermal, r)
  else (stOk, r.setRegN (pwrReg 0x304) (b2n sets * 2 ^ 31 + bits v 1 0))

end Run

/-! ## Droop and heat (R446 to R448) -/

/-- DROOP_DETECT: a supply falls below the droop level: an event, and the clock of the cluster, or of HOST, is stretched, a
stretch under way starting its 256 cycles again (R446). -/
def execDroopDetect (c : Nat) (s : State) : Host.Outcome State Fault Refusal :=
  let r := Run.start s
  if c > 16 then done r
  else
    let r := r.setPower { s.power with stretch := SMap.insert s.power.stretch c s.now }
    done ((r.bump (pwrReg (0x108 + 0x10 * c))).errEvent 12)

/-- DROOP_STRETCH_END: the supply has stayed above the level for 256 cycles of the stretched clock (R446). -/
def execDroopStretchEnd (c : Nat) (s : State) : Host.Outcome State Fault Refusal :=
  let r := Run.start s
  match SMap.find? s.power.stretch c with
  | some t =>
    let mhz := if c < 16 then arithMhz s (12 * c)
      else (match s.fld (dvfsReg 16) 17 16 with | 0 => 1920 | 1 => 1280 | 2 => 960 | _ => 640) / 2
    if s.now < t + 256000 / mhz then done r
    else done (r.setPower { s.power with stretch := SMap.erase s.power.stretch c })
  | none => done r

/-- The sensors that call for cooling: at or above T_THROT, or cooled and not yet below T_THROT − HYST (R447). -/
def hotSensors (s : State) : List Nat :=
  (List.range 18).filter fun n =>
    decide (tempOf s n ≥ tThrot s) || (s.power.hot.contains n && decide (tempOf s n ≥ tThrot s - tHyst s))

/-- The unpinned clusters nearest a sensor: a cluster's sensor lies at the cluster itself, and the HCX's at HOST (R447). A pinned
cluster's heat is so met by lowering its neighbours. -/
def nearestTo (s : State) (n : Nat) : List Nat :=
  if n = 16 then [16]
  else
    let d := fun c => if c = n then 0 else 1 + Config.sensorDistance n c
    let free := (List.range 16).filter fun c => !pinned s c
    free.filter fun c => free.all fun x => decide (d c ≤ d x)

namespace Run

variable {z : State}

/-- The readings of the eighteen sensors and then of the sixteen vault dies are shown (R269, R447). -/
def showTemps (r : Run z) (temps : List (BitVec 8)) : Run z :=
  let r := r.each ((List.range 18).zip temps) fun t r => r.setRegN (pwrReg (0x610 + 4 * t.1)) t.2.toNat
  let top := (temps.take 18).foldl (fun m t => if m.toInt < t.toInt then t else m) (temps.headD 0)
  let r := r.each ((List.range 16).zip (temps.drop 18)) fun t r =>
    let k := vltReg (0x100 + 0x20 * t.1)
    (r.setFld k 7 0 t.2.toNat).setFld k 16 16 (b2n (decide (85 < t.2.toInt)))
  let r := r.setRegN (pwrReg 0x660) top.toNat
  r.when (anySensor r.s (tAlert r.s)) fun r => r.errEvent 13

/-- The power processor's response to heat, once a millisecond (R447): in adaptive mode the clusters nearest a hot sensor come
down a point; in fixed-frequency mode the refill rate loses a tenth more, and regains all of it when nothing is hot. -/
def coolDown (r : Run z) : Run z :=
  let ms := r.s.now / 1000000
  let hot := hotSensors r.s
  if !fwRuns r.s 3 || ms ≤ r.s.power.tempMs then r
  else
    let r := r.setPower { r.s.power with hot := hot, tempMs := ms }
    let cut := if r.s.fld (pwrReg 0x304) 31 31 = 1 && !hot.isEmpty then min 10 (r.s.power.cut + 1) else 0
    let r := r.when (cut ≠ r.s.power.cut) fun r =>
      (r.setPower { r.s.power with cut := cut }).setRegN (pwrReg 0x308) (r.s.power.base * (10 - cut) / 10)
    if r.s.fld (pwrReg 0x304) 31 31 = 1 then r
    else
      let lower := ((hot.flatMap (nearestTo r.s)).eraseDups).filter fun c => decide (r.s.fld (dvfsReg c) 17 16 < 3)
      let r := r.each lower fun c r => r.moveBy c false
      r.setPower { r.s.power with cooled := r.s.power.cooled ||| laneMask lower }

end Run

/-- TEMP_SAMPLE: the eighteen sensors and then the sixteen vault dies are read, and the thermal responses are applied (R447). A vault
above 85 °C refreshes at the doubled rate (R269). -/
def execTempSample (temps : List (BitVec 8)) (s : State) : Host.Outcome State Fault Refusal :=
  let r := Run.start s
  if temps.length ≠ 34 || !awake s then done r else done (r.showTemps temps).coolDown

/-- THERMAL_TRIP: a sensor has reached 112 °C; THERM_TRIP_N is low and every clock but the crystal stops until PORST_N
(R448). -/
def execThermalTrip (s : State) : Host.Outcome State Fault Refusal :=
  done ((Run.start s).setPower { s.power with tripped := true })

end Sys2Proof.Machine
end

