-- ==== Sys2Proof/Machine/Reflex.lean ====
section
/-! DEFINITION. The reflex lane (R223 to R247): reflex cores, the start of a group, frames in and out, steps and their
latches, reset marks, checkpoints, stopping and holding; and PARCEL_WAIT_END, which starts a group or dispatches a
kernel (R284, R285). -/

namespace Sys2Proof.Machine

def stReflexNoCore : Nat := 0x0401
def stReflexNoSlice : Nat := 0x0402
def stReflexBadGroup : Nat := 0x0403
def stReflexNoTime : Nat := 0x0404
def stReflexStopped : Nat := 0x0405

/-! ## Registers and descriptors -/

/-- Key of SCHED_RFX_CORE_n. -/
def rfxCoreReg (n : Nat) : Nat := schedReg (0xF0000 + 0x100 * n)

/-- Key of a register of the group of key 4n + k, by its offset from the group's block (CTRL is 0x20). -/
def rfxReg (key off : Nat) : Nat := schedReg (0xF0000 + 0x100 * (key / 4) + 0x20 * (key % 4) + off)

/-- STATE of a slot: 0 OFF, 1 DRAINING, 2 READY, 3 RUNNING. -/
def rfxState (s : State) (n : Nat) : Nat := s.fld (rfxCoreReg n) 25 24

/-- The physical core of a slot. -/
def rfxPhys (s : State) (n : Nat) : Option Nat := coreOfLogical s (s.fld (rfxCoreReg n) 7 0)

/-- The group of a key. -/
def rfxGroup? (s : State) (key : Nat) : Option RGroup := SMap.find? s.rfx.groups key

/-- The groups of a slot. -/
def rfxGroupsOf (s : State) (n : Nat) : List (Nat × RGroup) := s.rfx.groups.filter fun g => g.1 / 4 = n

namespace RGroup

/-- Word i of a group descriptor (R230). -/
def w (d : List W32) (i : Nat) : Nat := (d.getD i 0).toNat

/-- A pair of words as an address. -/
def w64 (d : List W32) (i : Nat) : Nat := w d i + 2 ^ 32 * w d (i + 1)

def kind (d : List W32) : Nat := bits (w d 0) 31 30
def fb (d : List W32) : Nat := match bits (w d 0) 29 28 with | 0 => 1 | 1 => 2 | _ => 0
def wfmt (d : List W32) : Nat := bits (w d 0) 27 24
def xfmt (d : List W32) : Nat := bits (w d 0) 23 20
def ofmt (d : List W32) : Nat := bits (w d 0) 19 16
def auto (d : List W32) : Bool := bit (w d 0) 15
def recover (d : List W32) : Bool := bit (w d 0) 14
def timed (d : List W32) : Bool := bit (w d 0) 13
def freq (d : List W32) : Nat := bits (w d 0) 12 11
def sizeH (d : List W32) : Nat := bits (w d 1) 31 25 + 1
def sizeI (d : List W32) : Nat := bits (w d 1) 24 18 + 1
def sizeO (d : List W32) : Nat := bits (w d 1) 17 11
def nch (d : List W32) : Nat := bits (w d 1) 10 5
def first (d : List W32) : Nat := bits (w d 1) 1 0
def cofs (d : List W32) : Nat := bits (w d 2) 13 8
def lcore (d : List W32) : Nat := bits (w d 2) 7 0
def period (d : List W32) : Nat := w d 3
def phase (d : List W32) : Nat := w64 d 4
def outDiv (d : List W32) : Nat := bits (w d 6) 15 0
def auditN (d : List W32) : Nat := bits (w d 7) 31 16
def depth (d : List W32) : Nat := bits (w d 7) 7 0
def cbase (d : List W32) : Nat := w64 d 16
def eps (d : List W32) : Nat := w d 18

/-- G, the gates of the cell (R223). -/
def gates (d : List W32) : Nat := match kind d with | 0 => 3 | 1 => 4 | _ => 2

/-- The recurrent width: H rounded up to a multiple of 32 for the GRU, H otherwise (R223). -/
def hk (d : List W32) : Nat := if kind d = 0 then 32 * cdiv (sizeH d) 32 else sizeH d

/-- State columns S (R223). -/
def cols (d : List W32) : Nat := if kind d = 1 then 2 * sizeH d else hk d

/-- State slices it occupies (R227). -/
def slices (d : List W32) : Nat := cdiv (cols d) 32

/-- The state banks it touches. -/
def stateBanks (d : List W32) : List Nat :=
  [0, 1].filter fun b => (List.range (slices d)).any fun i => (first d + i) / 2 = b

/-- Tiles of gate columns (R223). -/
def tiles (d : List W32) : Nat := cdiv (gates d * hk d) 64

/-- ARITH cycles per recurrent K-step (R234). -/
def passes (d : List W32) : Nat := if fb d = 0 then 4 else 1

/-- Step and head cycles (R234). -/
def stepCycles (d : List W32) : Nat := tiles d * (sizeI d + passes d * hk d) + 48
def headCycles (d : List W32) : Nat := if sizeO d = 0 then 0 else passes d * hk d

/-- C_g of R235. -/
def cost (d : List W32) : Nat :=
  stepCycles d + headCycles d + (if auditN d = 0 then 0 else cdiv (134 * (stateBanks d).length) (auditN d))

/-- MHz of FREQ. -/
def mhz (d : List W32) : Nat := match freq d with | 0 => 1280 | 1 => 960 | 2 => 640 | _ => 320

/-- The standing permit in nanowatts (R239). -/
def permit (d : List W32) : Nat := eps d * 1000000000 / period d

/-- Whether every field of a descriptor occurs and lies in its range (R229 step 1, R246). -/
def descOk (d : List W32) : Bool :=
  let h := sizeH d
  bits (w d 0) 10 0 = 0 && kind d ≠ 3 && bits (w d 0) 29 28 ≠ 3 && [3, 4, 5, 6].contains (wfmt d) &&
  [1, 2].contains (xfmt d) && [0, 1, 2, 7].contains (ofmt d) &&
  decide (h ≤ (if kind d = 1 then 64 else 96)) && decide (sizeI d ≤ 96) && decide (sizeO d ≤ 64) &&
  decide (1 ≤ nch d) && decide (nch d ≤ 32) && bits (w d 1) 4 2 = 0 &&
  bits (w d 2) 31 14 = 0 && decide (cofs d ≤ 55) && decide (period d ≥ 100) &&
  bits (w d 6) 31 16 = 0 && decide (outDiv d ≥ 1) && bits (w d 7) 15 8 = 0 && decide (depth d ≥ 1) &&
  decide (eps d ≥ 1) && (d.drop 21).all (· = 0)

/-! ### The carrel region (R230) -/

/-- The tensor descriptor of gate tile t or, past the last tile, of the head, as if it began at folio 0. -/
def tileShape (d : List W32) (t : Nat) : TDesc :=
  let head := decide (t ≥ tiles d)
  let n := if head then sizeO d else min 64 (gates d * hk d - 64 * t)
  let k := if head then hk d else sizeI d + hk d
  let x : TDesc := { TDesc.ofBits 0 with fmt := wfmt d, rank := 2, role := 1, d1 := n, d0 := k, d2 := 1, d3 := 1, s1 := 1 }
  { x with sofs := if Fp.isBlock x.fmt then x.folios.length else 0 }

/-- Folios of a tile, elements and then block scales. -/
def tileFolios (d : List W32) (t : Nat) : Nat := (tileShape d t).folios.length + (tileShape d t).scaleFolios.length

/-- Folios before tile t, and of all weights with the head. -/
def tileStart (d : List W32) (t : Nat) : Nat := (List.range t).foldl (fun n i => n + tileFolios d i) 0
def weightFolios (d : List W32) : Nat := tileStart d (tiles d) + (if sizeO d = 0 then 0 else tileFolios d (tiles d))

/-- Bytes of the biases and of the initial states. -/
def biasBytes (d : List W32) : Nat := 4 * (gates d * hk d + sizeO d)
def initBytes (d : List W32) : Nat := 128 * cols d

/-- Folios of one checkpoint entry and of the ring; none without checkpoints (R245). -/
def entryFolios (d : List W32) : Nat := 1 + 4 * (stateBanks d).length
def ringFolios (d : List W32) : Nat := if auditN d = 0 then 0 else depth d * entryFolios d

/-- First folios, from COFS, of biases, initial states and ring, and the size of the region. -/
def biasAt (d : List W32) : Nat := weightFolios d
def initAt (d : List W32) : Nat := biasAt d + cdiv (biasBytes d) 4096
def ringAt (d : List W32) : Nat := initAt d + cdiv (initBytes d) 4096
def regionFolios (d : List W32) : Nat := ringAt d + ringFolios d

end RGroup

/-- First byte of a group's region in the carrel of a core. -/
def rfxBase (core : Nat) (d : List W32) : Nat := carrelBase core + 4096 * RGroup.cofs d

/-- A map of pages to themselves. -/
def sameMap (base n : Nat) : SMap Nat := (List.range n).map fun i => (base + i, base + i)

/-- Weight of gate column or output c at K-step k. -/
def rfxWeight (s : State) (core : Nat) (d : List W32) (t j k : Nat) : Fp.Val :=
  let page := rfxBase core d / 4096 + RGroup.tileStart d t
  let x := { RGroup.tileShape d t with base := page }
  x.value s (sameMap page (RGroup.tileFolios d t)) j k

/-- An FP32 word of a group's region. -/
def rfxWord (s : State) (core : Nat) (d : List W32) (folio i : Nat) : Nat := s.load (rfxBase core d + 4096 * folio + 4 * i) 4

/-! ## State columns (R227) -/

/-- Bank and column of state column e. -/
def rfxPlace (d : List W32) (e : Nat) : Nat × Nat :=
  let sl := RGroup.first d + e / 32
  (sl / 2, 32 * (sl % 2) + e % 32)

/-- The exact value of state column e of row i. -/
def rfxCell (s : State) (core : Nat) (d : List W32) (i e : Nat) : Fp.Val :=
  let p := rfxPlace d e
  Fp.a40.value ((((s.core core).bank p.1).cell i p.2).toNat)

namespace Run

variable {z : State}

/-- Set a state cell. -/
def setRfxCell (r : Run z) (core : Nat) (d : List W32) (i e code : Nat) : Run z :=
  let p := rfxPlace d e
  let b := (r.s.core core).bank p.1
  r.setBank core p.1 { (b.setCell i p.2 (BitVec.ofNat 40 code)) with fmt := .a40 }

/-- Row i reloads every state column from its initial state, exactly (R237). -/
def rfxReload (r : Run z) (core : Nat) (d : List W32) (i : Nat) : Run z :=
  r.each (List.range (RGroup.cols d)) fun e r =>
    let x := rfxWord r.s core d (RGroup.initAt d) (i * RGroup.cols d + e)
    r.setRfxCell core d i e (Fp.toA40 (Fp.fp32.value x))

/-- The slices of a group are cleared to +0 (R241). -/
def rfxClear (r : Run z) (core : Nat) (d : List W32) : Run z :=
  r.each (List.range 32) fun i r => r.each (List.range (32 * RGroup.slices d)) fun e r => r.setRfxCell core d i e 0

/-- Replace a group. -/
def setRfx (r : Run z) (key : Nat) (g : RGroup) : Run z :=
  r.put (.rfx { r.s.rfx with groups := SMap.insert r.s.rfx.groups key g })

/-- The sum of the standing permits of all groups, in mW (R239, R438). -/
def rfxStanding (r : Run z) : Run z :=
  r.setRegN (pwrReg 0x310) (r.s.rfx.groups.foldl (fun n g => n + RGroup.permit g.2.desc) 0 / 1000000)

/-- A group ends: slices cleared, pin and standing permit released, and its parcel ends with a status (R241). -/
def rfxEnd (r : Run z) (key : Nat) (g : RGroup) (status : Nat) : Run z :=
  let n := key / 4
  let r := match rfxPhys r.s n with
    | some c => r.rfxClear c g.desc
    | none => r
  let r := r.put (.rfx { r.s.rfx with groups := SMap.erase r.s.rfx.groups key })
  let r := (r.setRegN (rfxReg key 0x20) 0).setRegN (rfxReg key 0x24) 0
  let r := (r.dropPin (1000 + key)).rfxStanding
  let r := r.when ((rfxGroupsOf r.s n).isEmpty) fun r => r.setFld (rfxCoreReg n) 25 24 2
  r.endParcel g.parcel status

end Run

/-! ## Reflex cores (R228) -/

namespace Run

variable {z : State}

/-- A write of SCHED_RFX_CORE_n with a value that occurs (R228). -/
def writeRfxCore (r : Run z) (n v : Nat) : Run z :=
  let k := rfxCoreReg n
  let en := r.s.fld k 31 31 = 1
  let was := r.s.fld k 7 0
  let l := bits v 7 0
  let taken := (List.range 16).any fun m => m ≠ n && r.s.fld (rfxCoreReg m) 31 31 = 1 && r.s.fld (rfxCoreReg m) 7 0 = l
  if (!bit v 31 && rfxState r.s n = 3) || (en && l ≠ was) || (bit v 31 && !en && taken) then r
  else
    let st := if !bit v 31 then 0 else if en then rfxState r.s n else 1
    (r.setRegN k (b2n (bit v 31) * 2 ^ 31 + st * 2 ^ 24 + l)).noteDegraded

end Run

/-- REFLEX_CORE_READY: no gang remains on a DRAINING reflex core (R228). -/
def execReflexCoreReady (n : Nat) (s : State) : Host.Outcome State Fault Refusal :=
  let r := Run.start s
  let empty := match rfxPhys s n with
    | some c => (gangsOf s c).isEmpty
    | none => true
  if n < 16 && s.fld (rfxCoreReg n) 31 31 = 1 && rfxState s n = 1 && fwRuns s 0 && empty then
    done (r.setFld (rfxCoreReg n) 25 24 2)
  else done r

/-! ## Starting a group (R229 to R231, R235, R239) -/

/-- The Catalogue words of a channel's card, none where they break a rule of R229 step 1. -/
def rfxCardOk (ws : List Nat) : Bool :=
  let w := fun i => ws.getD i 0
  bits (w 0) 31 28 = 5 && bits (w 0) 25 12 = 0 && bits (w 1) 31 16 = 0 && bits (w 1) 15 8 ≠ 0 &&
  bits (w 4) 31 16 = 0 && bits (w 5) 31 8 = 0 && decide (bits (w 5) 7 2 ≤ 50) && (ws.drop 8).all (· = 0)

/-- The words of card n as the Catalogue holds them. -/
def catWords (s : State) (n : Nat) : List Nat := (List.range 32).map fun i => s.load (catAddr s n i) 4

/-- Whether an enabled network flow names a stream filter (R229, R345). -/
def flowNames (s : State) (flt : Nat) : Bool :=
  s.sched.cards.any fun c => cardKind s c.1 = 6 && cardEn s c.1 && bits (cardW s c.1 8) 15 14 = 0 &&
    bits (cardW s c.1 8) 9 0 = flt

/-- Fields of a channel's BIND and EGRESS words. -/
def bindStream (c : List W32) : Nat := bits (c.getD 0 0).toNat 9 0
def bindRec (c : List W32) : Nat := bits (c.getD 0 0).toNat 13 10
def bindOut (c : List W32) : Bool := bit (c.getD 0 0).toNat 15
def bindStaleZero (c : List W32) : Bool := bit (c.getD 0 0).toNat 14
def egressTlen (c : List W32) : Nat := bits (c.getD 1 0).toNat 7 2 + 14
def egressPort (c : List W32) : Nat := bits (c.getD 1 0).toNat 1 0
def egressTmpl (c : List W32) : Nat := (c.getD 2 0).toNat + 2 ^ 32 * (c.getD 3 0).toNat

/-- Channels of one STREAM agree on TMPL, TLEN and EPORT (R231). -/
def cardsAgree (cs : List (List W32)) : Bool :=
  cs.all fun a => cs.all fun b => bindStream a ≠ bindStream b || a.drop 1 = b.drop 1

/-- The streams that get output frames, lowest row first (R233). -/
def outStreams (d : List W32) (cs : List (List W32)) : List Nat :=
  if RGroup.sizeO d = 0 then [] else ((cs.filter bindOut).map bindStream).eraseDups

/-- Bytes of an output value. -/
def outBytes (d : List W32) : Nat := Fp.widthOf (RGroup.ofmt d) / 8

/-- Length of the output frame of a stream before padding. -/
def outLen (d : List W32) (cs : List (List W32)) (st : Nat) : Nat :=
  let mine := cs.filter fun c => bindOut c && bindStream c = st
  let tlen := match mine.head? with
    | some c => egressTlen c
    | none => 14
  tlen + 16 + mine.length * (4 + RGroup.sizeO d * outBytes d)

/-- Slices a group occupies. -/
def slicesOf (d : List W32) : List Nat := (List.range (RGroup.slices d)).map (RGroup.first d + ·)

/-- The two conditions of R235 over the groups of a core. -/
def scheduleFits (ds : List (List W32)) : Bool :=
  let sum := ds.foldl (fun (a : Nat × Nat) d =>
    let num := RGroup.cost d * 1000
    let den := RGroup.period d * RGroup.mhz d
    (a.1 * den + num * a.2, a.2 * den)) (0, 1)
  decide (sum.1 ≤ sum.2) &&
  (List.range ds.length).all fun i =>
    let d := ds.getD i []
    let other := (List.range ds.length).foldl (fun m j => if j = i then m else max m (RGroup.cost (ds.getD j []))) 0
    decide ((RGroup.cost d + other) * 1000 ≤ RGroup.period d * RGroup.mhz d)

/-- The slot of a logical core that is READY or RUNNING and backed. -/
def rfxSlot (s : State) (l : Nat) : Option (Nat × Nat) :=
  match (List.range 16).find? fun n => s.fld (rfxCoreReg n) 31 31 = 1 && s.fld (rfxCoreReg n) 7 0 = l &&
      decide (rfxState s n ≥ 2) with
  | none => none
  | some n => (rfxPhys s n).map fun c => (n, c)

/-- The checks of R229 in order: the slot and physical core, or the status. -/
def rfxCheck (s : State) (d : List W32) (nums : List Nat) (words : List (List Nat)) (c : XCtx) :
    Except Nat (Nat × Nat) :=
  let cards := words.map fun ws => ((ws.drop 4).take 4).map (BitVec.ofNat 32 ·)
  if !RGroup.descOk d || nums.any (fun n => decide (n > 16383)) || !words.all rfxCardOk || !cardsAgree cards ||
      cards.any (fun x => flowNames s (bindStream x)) then .error stReflexBadGroup
  else match rfxSlot s (RGroup.lcore d) with
    | none => .error stReflexNoCore
    | some (n, core) =>
      let others := (rfxGroupsOf s n).map fun g => g.2.desc
      let used := others.flatMap slicesOf
      let mine := slicesOf d
      if mine.any (fun x => decide (x > 3) || used.contains x) then .error stReflexNoSlice
      else
        let lo := RGroup.cofs d
        let hi := lo + RGroup.regionFolios d
        let clash := others.any fun o => decide (lo < RGroup.cofs o + RGroup.regionFolios o) && decide (RGroup.cofs o < hi)
        let long := (outStreams d cards).any fun st => decide (outLen d cards st > 1514)
        let readable := [(8, 4096 * RGroup.weightFolios d), (10, RGroup.biasBytes d), (12, RGroup.initBytes d)].all fun x =>
          match readVirt s c (RGroup.w64 d x.1) x.2 with
          | .ok _ => true
          | .error _ => false
        let fenced := (rfxGroupsOf s n).any fun g => g.2.fenced.isSome
        let total := s.rfx.groups.foldl (fun m g => m + RGroup.permit g.2.desc) (RGroup.permit d)
        if hi > 56 || clash || long || !readable then .error stBounds
        else if !scheduleFits (d :: others) then .error stReflexNoTime
        else if 2 * total > s.power.capNow * 1000000000 then .error stNoPermit
        else if fenced then .error stReflexNoCore
        else .ok (n, core)

namespace Run

variable {z : State}

/-- A reflex core's writes into its carrel empty its Prism store where it holds data of their folios (R176). -/
def touchPages (r : Run z) (pa n : Nat) : Run z :=
  r.each (List.range (cdiv n 4096)) fun i r => r.prismTouch (pa / 4096 + i)

/-- Copy n bytes from a virtual address to a physical one, the start of a folio. -/
def copyIn (r : Run z) (c : XCtx) (va pa n : Nat) : Run z :=
  match r.readIn c va n with
  | (.ok v, r) => (r.touchPages pa n).setBytes pa (leBytes n v)
  | (.error _, r) => r

/-- The sequencer copies weights, biases and initial states into the region (R230). -/
def rfxCopy (r : Run z) (core : Nat) (d : List W32) (c : XCtx) : Run z :=
  let b := rfxBase core d
  let r := r.copyIn c (RGroup.w64 d 8) b (4096 * RGroup.weightFolios d)
  let r := r.copyIn c (RGroup.w64 d 10) (b + 4096 * RGroup.biasAt d) (RGroup.biasBytes d)
  r.copyIn c (RGroup.w64 d 12) (b + 4096 * RGroup.initAt d) (RGroup.initBytes d)

/-- A reflex parcel whose wait has ended: the group starts, or its parcel ends with the status of R229. -/
def rfxStart (r : Run z) (i : Nat) (p : Parcel) : Run z :=
  let c := ctxX r.s p.ctx
  let va := (p.desc.getD 2 0).toNat + 2 ^ 32 * (p.desc.getD 3 0).toNat
  match (r.noteUe c va 128).readIn c va 128 with
  | (.error _, r) => r.endParcel i stReflexBadGroup
  | (.ok raw, r) =>
    let d := (words32 32 raw).map (BitVec.ofNat 32 ·)
    match r.readIn c (RGroup.w64 d 14) (2 * RGroup.nch d) with
    | (.error _, r) => r.endParcel i stReflexBadGroup
    | (.ok ns, r) =>
      let nums := (List.range (RGroup.nch d)).map fun j => bits ns (16 * j + 15) (16 * j)
      let words := nums.map fun n => catWords r.s (n % 16384)
      match rfxCheck r.s d nums words c with
      | .error st => r.endParcel i st
      | .ok (n, core) =>
        let key := 4 * n + RGroup.first d
        let r := r.rfxCopy core d c
        let r := r.each [0, 1, 2, 3] fun b r => r.setBank core b { ((r.s.core core).bank b) with fmt := .a40 }
        let r := r.rfxClear core d
        let r := r.each (List.range (RGroup.nch d)) fun j r => r.rfxReload core d j
        let cards := words.map fun ws => ((ws.drop 4).take 4).map (BitVec.ofNat 32 ·)
        let now := r.s.now
        let tick := if now ≤ RGroup.phase d then 0 else cdiv (now - RGroup.phase d) (RGroup.period d)
        let zeros := List.replicate 32 (List.replicate (RGroup.sizeI d) 0)
        let r := r.setRfx key { parcel := i, desc := d, cards := cards, cardNums := nums, last := zeros, tick := tick }
        let r := r.each [0x24, 0x28, 0x2C, 0x30, 0x34, 0x38, 0x3C] fun off r => r.setRegN (rfxReg key off) 0
        let r := (r.setRegN (rfxReg key 0x20) 1).setFld (rfxCoreReg n) 25 24 3
        let r := (r.addPin (core / 12) (1000 + key) (RGroup.freq d)).rfxStanding
        r.setParcel i { p with stage := .running }

end Run

/-- PARCEL_WAIT_END: the waited tallies are met; a kernel is checked and dispatched, a reflex group is started
(R81, R229, R284, R285). No dispatch starts while a power request drains (R428). -/
def execParcelWaitEnd (i : Nat) (s : State) : Host.Outcome State Fault Refusal :=
  let r := Run.start s
  match s.parcel? i with
  | none => done r
  | some p =>
    if !fwRuns s 0 || p.stage ≠ .waiting || !waitsMet p || workHeld s || sessionHolds s p.ctx then done r
    else
      let slot := match p.origin with | .queue _ x => x | _ => 0
      let r := r.trace 0x10 0x0011 slot
      done (if isReflex p then r.rfxStart i p else (r.dispatchKernel i p).noteDegraded)

/-! ## Frames in (R232) -/

/-- The record of index REC in a payload, if the payload holds it in full. -/
def recordOf (d : List W32) (payload : List Byte) (rec_ : Nat) : Option (Bool × List Nat) :=
  let n := RGroup.sizeI d
  let at_ := 8 + rec_ * (4 + 2 * n)
  if payload.length < at_ + 4 + 2 * n then none
  else some (bit (le payload at_ 2) 0, (List.range n).map fun k => le payload (at_ + 4 + 2 * k) 2)

namespace Run

variable {z : State}

/-- A payload lands in a group's workspace: its records join the inbox, a landing may trigger a step under ARRIVE, and
IN_TALLY is signalled (R232, R234). -/
def rfxLand (r : Run z) (key : Nat) (g : RGroup) (stream : Nat) (payload : List Byte) : Run z :=
  let rows := (List.range (RGroup.nch g.desc)).filter fun i => bindStream (g.cards.getD i []) = stream
  if rows.isEmpty then r
  else
    let recs := rows.filterMap fun i => (recordOf g.desc payload (bindRec (g.cards.getD i []))).map fun x =>
      { row := i, at_ := r.s.now, reset := x.1, vals := x.2 : RRec }
    let due := match g.lastL with
      | some l => max r.s.now (l + RGroup.period g.desc)
      | none => r.s.now
    let trig := if RGroup.timed g.desc || g.trig.isSome || g.latch.isSome then g.trig else some due
    (r.setRfx key { g with inbox := g.inbox ++ recs, trig := trig }).deviceAdd (RGroup.w g.desc 19)

end Run

/-- REFLEX_FRAME_LANDING: the oldest payload on its way lands for every group that names its stream (R232). -/
def execReflexFrameLanding (s : State) : Host.Outcome State Fault Refusal :=
  let r := Run.start s
  match s.rfx.landing with
  | [] => done r
  | (st, payload) :: rest =>
    if !awake s then done r
    else
      let r := r.put (.rfx { s.rfx with landing := rest })
      done (r.each s.rfx.groups fun kg r => r.rfxLand kg.1 kg.2 st payload)

/-! ## Latches (R234, R235, R237) -/

/-- The newest record of a row that landed at or before L. -/
def newestRec (g : RGroup) (row l : Nat) : Option RRec :=
  (g.inbox.filter fun x => x.row = row && decide (x.at_ ≤ l)).getLast?

/-- The latch at L. A latch that has not started keeps what it took where nothing newer landed (R235). -/
def latchAt (g : RGroup) (l : Nat) : RLatch :=
  let n := RGroup.nch g.desc
  let marks := (g.marks.filter fun m => decide (m.2 ≤ l)).foldl (fun m x => m ||| x.1) 0
  let old := g.latch
  let rows := (List.range n).map fun i =>
    match newestRec g i l, old with
    | some x, _ => (x.vals, false, x.reset)
    | none, some o => (o.inputs.getD i [], o.stale.getD i true, false)
    | none, none =>
      (if bindStaleZero (g.cards.getD i []) then List.replicate (RGroup.sizeI g.desc) 0 else g.last.getD i [], true, false)
  let resets := (List.range n).foldl (fun m i => if (rows.getD i ([], true, false)).2.2 then m ||| 2 ^ i else m) 0
  let oldMask := match old with | some o => o.mask | none => 0
  { at_ := l, mask := (marks ||| resets ||| oldMask) % 2 ^ n
    inputs := rows.map (·.1), stale := rows.map (·.2.1) }

namespace Run

variable {z : State}

/-- Latch a step at L: inputs and marks up to L are taken, and MARK shows those still pending (R237). -/
def rfxLatch (r : Run z) (key : Nat) (g : RGroup) (l : Nat) : Run z :=
  let x := latchAt g l
  let marks := g.marks.filter fun m => !decide (m.2 ≤ l)
  let r := r.setRfx key { g with
    latch := some x, lastL := some l, marks := marks, inbox := g.inbox.filter fun y => !decide (y.at_ ≤ l)
    last := x.inputs }
  r.setRegN (rfxReg key 0x24) (marks.foldl (fun m y => m ||| y.1) 0)

/-- Count in a counter of a group, and as an error event (R492). -/
def rfxCount (r : Run z) (key off : Nat) : Run z := r.countErr (rfxReg key off) 14

end Run

/-- A group takes no latch: it is held, asked to stop, or waits for a spare. -/
def rfxIdle (g : RGroup) : Bool := g.held.isSome || g.hold || g.stop.isSome

/-- REFLEX_TICK: the next tick of a TIMED group has come (R234, R235). A tick that finds the previous step not started
counts OVERRUN; one that falls between a fence and the resumption counts MISSED (R243). -/
def execReflexTick (n k : Nat) (s : State) : Host.Outcome State Fault Refusal :=
  let r := Run.start s
  let key := 4 * n + k
  match rfxGroup? s key with
  | none => done r
  | some g =>
    let l := RGroup.phase g.desc + g.tick * RGroup.period g.desc
    if !RGroup.timed g.desc || !awake s || s.now < l then done r
    else
      let g := { g with tick := g.tick + 1 }
      let r := r.setRfx key g
      if g.fenced.isSome then done (r.rfxCount key 0x3C)
      else if rfxIdle g then done r
      else done ((r.when g.latch.isSome fun r => r.rfxCount key 0x30).rfxLatch key g l)

/-- REFLEX_ARRIVE_LATCH: the triggering time of a landing has come (R234). -/
def execReflexArriveLatch (n k : Nat) (s : State) : Host.Outcome State Fault Refusal :=
  let r := Run.start s
  let key := 4 * n + k
  match rfxGroup? s key with
  | none => done r
  | some g =>
    match g.trig with
    | none => done r
    | some l =>
      if RGroup.timed g.desc || !awake s || s.now < l then done r
      else
        let g := { g with trig := none }
        if g.fenced.isSome then done ((r.setRfx key { g with lastL := some l }).rfxCount key 0x3C)
        else if rfxIdle g then done (r.setRfx key g)
        else done (r.rfxLatch key g l)

/-! ## Steps (R225, R234, R235) -/

/-- σ or tanh of an FP32 word as the cell unit gives it, within 2^-22 and inside its range (R225 step 3). -/
def rfxGate (tanh : Bool) (a : W32) : W32 :=
  match Fp.fp32.value a.toNat with
  | .nan => 0x7FC00000
  | .inf neg => if neg then (if tanh then 0xBF800000 else 0) else 0x3F800000
  | .fin s m e =>
    if m = 0 && tanh then a
    else
      let ref : Fp.Val :=
        if tanh then Fp.Val.add .nearest (Fp.Val.scale 1 (Fp.sigRef s m (e + 1))) (Fp.Val.ofInt (-1)) else Fp.sigRef s m e
      let o := Config.gateOffer tanh a
      let lo : Fp.Val := if tanh then Fp.Val.ofInt (-1) else Fp.Val.ofInt 0
      let x := Fp.fp32.value o.toNat
      let inRange := decide (Fp.Val.cmp lo x ≤ 0) && decide (Fp.Val.cmp x (Fp.Val.ofInt 1) ≤ 0)
      if inRange then offered o ref 1 (-22) else to32 ref

/-- A value in the feedback format: ∞ and NaN pass through (R156). -/
def rfxFeedback (d : List W32) (v : Fp.Val) : Fp.Val :=
  match v with
  | .inf n => .inf n
  | v => Fp.valueOf (RGroup.fb d) (Fp.convert (RGroup.fb d) false .nearest v).bits

/-- The A40 sum of a bias, the inputs and the recurrent input over a column of a tile (R117, R225). -/
def rfxSum (s : State) (core : Nat) (d : List W32) (bias t j kx kr : Nat) (x rec_ : Nat → Fp.Val) : Fp.Val :=
  let start := Fp.fp32.value (rfxWord s core d (RGroup.biasAt d) bias)
  Fp.a40.value (accA40 start (kx + kr) 1 fun k =>
    Fp.Val.mul (if k < kx then x k else rec_ (k - kx)) (rfxWeight s core d t j k)).toNat

/-- The pre-activation of gate column c, as FP32. -/
def rfxPre (s : State) (core : Nat) (d : List W32) (x rec_ : Nat → Fp.Val) (c : Nat) : W32 :=
  to32 (rfxSum s core d c (c / 64) (c % 64) (RGroup.sizeI d) (RGroup.hk d) x rec_)

/-- Inputs of a row as exact values. -/
def rfxInput (d : List W32) (vals : List Nat) (k : Nat) : Fp.Val := Fp.valueOf (RGroup.xfmt d) (vals.getD k 0)

/-- The new state columns of row i, as A40 codes (R223, R225). -/
def rfxRow (s : State) (core : Nat) (d : List W32) (vals : List Nat) (i : Nat) : List Nat :=
  let x := rfxInput d vals
  let h := fun k => rfxCell s core d i k
  let fb := fun k => rfxFeedback d (h k)
  let f32 := fun (a : W32) => Fp.fp32.value a.toNat
  let mul := Fp.Val.mul
  let add := Fp.Val.add .nearest
  let one := Fp.Val.ofInt 1
  let pre := rfxPre s core d x fb
  let n := RGroup.hk d
  match RGroup.kind d with
  | 0 =>
    let rs := (List.range n).map fun j => rfxGate false (pre (2 * j))
    let q := fun k => rfxFeedback d (mul (f32 (rs.getD k 0)) (h k))
    (List.range n).map fun j =>
      let zg := f32 (rfxGate false (pre (2 * j + 1)))
      let ng := f32 (rfxGate true (rfxPre s core d x q (2 * n + j)))
      Fp.toA40 (add (mul zg (h j)) (mul (add one zg.neg) ng))
  | 1 =>
    let cs := (List.range n).map fun j =>
      let ig := f32 (rfxGate false (pre (4 * j)))
      let fg := f32 (rfxGate false (pre (4 * j + 1)))
      let gg := f32 (rfxGate true (pre (4 * j + 2)))
      Fp.toA40 (add (mul fg (rfxCell s core d i (n + j))) (mul ig gg))
    let hs := (List.range n).map fun j =>
      let og := f32 (rfxGate false (pre (4 * j + 3)))
      Fp.toA40 (mul og (f32 (rfxGate true (to32 (Fp.a40.value (cs.getD j 0))))))
    hs ++ cs
  | _ =>
    (List.range n).map fun j =>
      let fg := f32 (rfxGate false (pre (2 * j)))
      let ng := f32 (rfxGate true (pre (2 * j + 1)))
      Fp.toA40 (add (mul (add one fg.neg) (h j)) (mul fg ng))

/-- The outputs of row i in OFMT: head sums over the state just written (R233). -/
def rfxOut (s : State) (core : Nat) (d : List W32) (i : Nat) : List Nat :=
  let fb := fun k => rfxFeedback d (rfxCell s core d i k)
  (List.range (RGroup.sizeO d)).map fun o =>
    let v := rfxSum s core d (RGroup.gates d * RGroup.hk d + o) (RGroup.tiles d) o 0 (RGroup.hk d) fb fb
    (Fp.convert (RGroup.ofmt d) false .nearest v).bits

/-- The rows whose state holds a NaN, as a mask. -/
def rfxNanMask (s : State) (core : Nat) (d : List W32) : Nat :=
  (List.range (RGroup.nch d)).foldl (fun m i =>
    if (List.range (RGroup.cols d)).any fun e => (rfxCell s core d i e).isNan then m ||| 2 ^ i else m) 0

/-- ARITH cycles of a step with its reset marks (R234). -/
def rfxStepCycles (g : RGroup) (x : RLatch) : Nat :=
  let m := ((List.range (RGroup.nch g.desc)).filter fun i => bit x.mask i).length
  RGroup.stepCycles g.desc + (m - RGroup.sizeI g.desc)

/-- The due group of a slot whose deadline L + PERIOD is earliest, the lower first slice on a tie (R235). -/
def rfxDue (s : State) (n : Nat) : Option (Nat × RGroup × RLatch) :=
  (rfxGroupsOf s n).foldl (fun best kg =>
    if rfxIdle kg.2 then best
    else match kg.2.latch with
      | none => best
      | some x => match best with
        | none => some (kg.1, kg.2, x)
        | some b => if x.at_ + RGroup.period kg.2.desc < b.2.2.at_ + RGroup.period b.2.1.desc then some (kg.1, kg.2, x)
          else best) none

/-- REFLEX_STEP_START: the due step of earliest deadline starts when the array is free, its marked rows reloaded
(R235, R237). -/
def execReflexStepStart (n : Nat) (s : State) : Host.Outcome State Fault Refusal :=
  let r := Run.start s
  let free := (rfxGroupsOf s n).all fun g => g.2.step.isNone && decide (g.2.busy ≤ s.now)
  match rfxDue s n, rfxPhys s n with
  | some (key, g, x), some core =>
    if !free || !awake s || g.fenced.isSome then done r
    else
      let rows := (List.range (RGroup.nch g.desc)).filter fun i => bit x.mask i
      let r := r.each rows fun i r => r.rfxReload core g.desc i
      done (r.setRfx key { g with
        latch := none, step := some ⟨x, s.now, s.now + arithNs s core (rfxStepCycles g x)⟩ })
  | _, _ => done r

namespace Run

variable {z : State}

/-- Write a checkpoint to an address: the state banks, then the header (R141, R245). -/
def rfxCkptBanks (r : Run z) (core : Nat) (d : List W32) (base : Nat) : Run z :=
  let r := r.touchPages base (4096 * RGroup.entryFolios d)
  r.each (List.range (RGroup.stateBanks d).length) fun b r =>
    let bank := (r.s.core core).bank ((RGroup.stateBanks d).getD b 0)
    r.each (List.range 2048) fun n r => r.store (base + 4096 * (1 + 4 * b) + 8 * n) 8 (SMap.get 0 bank.cells n).toNat

/-- A checkpoint: ring entry c mod DEPTH of the region, header last, then its copy at CBASE (R245). -/
def rfxCheckpoint (r : Run z) (key core : Nat) (g : RGroup) (ctx step : Nat) : Run z :=
  let d := g.desc
  let e := g.ckpts % RGroup.depth d * (4096 * RGroup.entryFolios d)
  let base := rfxBase core d + 4096 * RGroup.ringAt d + e
  let r := r.rfxCkptBanks core d base
  let r := r.setBytes base (leBytes 8 step ++ leBytes 8 r.s.now ++ leBytes 4 (rfxNanMask r.s core d) ++ List.replicate 4076 0)
  let r := r.setRfx key { g with
    ckpts := g.ckpts + 1, ckBusy := r.s.now + arithNs r.s core (134 * (RGroup.stateBanks d).length) }
  if RGroup.cbase d = 0 then r
  else
    let c := ctxX r.s ctx
    let va := RGroup.cbase d + e
    let n := 4096 * (RGroup.entryFolios d - 1)
    let note := fun (r : Run z) (m : SMap Nat) => match rfxGroup? r.s key with
      | some x => r.setRfx key { x with copied := m }
      | none => r
    let pos := g.ckpts % RGroup.depth d
    match r.writeVirtBytes c (va + 4096) (r.s.bytes (base + 4096) n) with
    | .error _ => r
    | .ok r => match r.writeVirtBytes c va (r.s.bytes base 4096) with
      | .error _ => note r (SMap.erase g.copied pos)
      | .ok r => note r (SMap.insert g.copied pos g.ckpts)

end Run

/-- REFLEX_STEP_END: every state value is written; counters, STEP_TALLY, outputs and checkpoint follow
(R225, R233 to R235, R245). -/
def execReflexStepEnd (n k : Nat) (s : State) : Host.Outcome State Fault Refusal :=
  let r := Run.start s
  let key := 4 * n + k
  match rfxGroup? s key, rfxPhys s n with
  | some g, some core =>
    match g.step with
    | none => done r
    | some st =>
      let d := g.desc
      let waits := (rfxGroupsOf s n).any fun o => decide (o.2.ckBusy > s.now) &&
        (RGroup.stateBanks o.2.desc).any fun b => (RGroup.stateBanks d).contains b
      if s.now < st.ends || waits then done r
      else
        let x := st.latch
        let rows := List.range (RGroup.nch d)
        let new := rows.map fun i => rfxRow s core d (x.inputs.getD i []) i
        let r := r.each rows fun i r => r.each (List.range (RGroup.cols d)) fun e r =>
          r.setRfxCell core d i e ((new.getD i []).getD e 0)
        let late := decide (s.now > x.at_ + RGroup.period d)
        let steps := s.reg64 (rfxReg key 0x28) + 1
        let r := r.setReg64 (rfxReg key 0x28) steps
        let r := r.when late fun r => r.rfxCount key 0x34
        let r := r.bump (rfxReg key 0x38) ((x.stale.filter id).length)
        let sends := (!RGroup.timed d || steps % RGroup.outDiv d = 0) && (outStreams d g.cards ≠ [])
        let headNs := arithNs s core (RGroup.headCycles d)
        let out : ROut := {
          step := steps, time := s.now, late := late, restarted := g.restarted, nan := rfxNanMask r.s core d, latch := x
          outs := rows.map fun i => rfxOut r.s core d i, streams := outStreams d g.cards }
        let g := { g with
          step := none, busy := s.now + headNs
          out := if sends then g.out ++ [out] else g.out, restarted := g.restarted && !sends
          held := if g.hold then some s.now else g.held, hold := false }
        let r := (r.setRfx key g).when g.held.isSome fun r => r.setFld (rfxReg key 0x20) 1 1 1
        let ctx := match s.parcel? g.parcel with | some p => p.ctx | none => 0
        let r := if RGroup.auditN d ≠ 0 && steps % RGroup.auditN d = 0 then r.rfxCheckpoint key core g ctx steps else r
        done (r.deviceAdd (RGroup.w d 20))
  | _, _ => done r

/-! ## Frames out (R233) -/

/-- The octets of an output frame: template, header, records, zeros to 60 (R233). -/
def rfxFrame (d : List W32) (cs : List (List W32)) (o : ROut) (st : Nat) (tmpl : List Byte) : List Byte :=
  let rows := (List.range (RGroup.nch d)).filter fun i => bindOut (cs.getD i []) && bindStream (cs.getD i []) = st
  let body := rows.flatMap fun i =>
    let flags := b2n (o.latch.stale.getD i false) + 2 * b2n (bit o.latch.mask i) + 4 * b2n o.late +
      8 * b2n o.restarted + 16 * b2n (bit o.nan i)
    leBytes 4 flags ++ ((o.outs.getD i []).flatMap fun v => leBytes (outBytes d) v)
  padTo 60 (tmpl ++ leBytes 4 o.step ++ leBytes 4 0 ++ leBytes 8 o.time ++ body)

/-- REFLEX_OUTPUT_FRAME: the next output frame of a group is built and queued at its egress port (R233, R236). -/
def execReflexOutputFrame (n k : Nat) (s : State) : Host.Outcome State Fault Refusal :=
  let r := Run.start s
  let key := 4 * n + k
  match rfxGroup? s key with
  | none => done r
  | some g =>
    match g.out with
    | [] => done r
    | o :: rest =>
      match o.streams with
      | [] => done (r.setRfx key { g with out := rest })
      | st :: more =>
        if s.now < g.busy && rest.isEmpty then done r
        else
          let r := r.setRfx key { g with out := if more.isEmpty then rest else { o with streams := more } :: rest }
          match List.find? (fun c => bindOut c && bindStream c = st) g.cards, s.parcel? g.parcel with
          | some c, some p =>
            match r.readIn (ctxX s p.ctx) (egressTmpl c) (egressTlen c) with
            | (.error _, r) => done r
            | (.ok v, r) =>
              let f := Frame.parse (rfxFrame g.desc g.cards o st (leBytes (egressTlen c) v))
                (s.fld (portReg (egressPort c) 0) 11 0)
              done (r.ethEnqueue (egressPort c) f f.pcp)
          | _, _ => done r

/-! ## Marks, stopping, holding, fences (R237, R241 to R243) -/

namespace Run

variable {z : State}

/-- A write of RSTM: MARK bits below NCH of a running group wait for its next latch (R237). -/
def rfxMark (r : Run z) (key v : Nat) : Run z :=
  match rfxGroup? r.s key with
  | none => r
  | some g =>
    let m := v % 2 ^ RGroup.nch g.desc
    (r.setRfx key { g with marks := g.marks ++ [(m, r.s.now)] }).setRegN (rfxReg key 0x24)
      ((r.s.reg (rfxReg key 0x24)).toNat ||| m)

/-- STOP written 1: the group ends at its next step boundary (R241). -/
def rfxStop (r : Run z) (key status : Nat) : Run z :=
  match rfxGroup? r.s key with
  | none => r
  | some g =>
    (r.setRfx key { g with stop := some (g.stop.getD status) }).setFld (rfxReg key 0x20) 31 31 1

/-- A group ends at once, its step and frames dropped (R242 ABORT, R478). -/
def rfxAbort (r : Run z) (key status : Nat) : Run z :=
  match rfxGroup? r.s key with
  | none => r
  | some g => r.rfxEnd key g status

/-- A group is to be held at its next step boundary (R242 HOLD). -/
def rfxHold (r : Run z) (key : Nat) : Run z :=
  match rfxGroup? r.s key with
  | none => r
  | some g =>
    if g.step.isSome then r.setRfx key { g with hold := true }
    else (r.setRfx key { g with held := some r.s.now, latch := none }).setFld (rfxReg key 0x20) 1 1 1

/-- The orphan policy of a session for its groups with AUTO = 0 (R242). POLICY 0 is HOLD, 1 DRAIN, 2 ABORT. -/
def rfxOrphan (r : Run z) (session policy : Nat) : Run z :=
  r.each (r.s.rfx.groups.filter fun g => !RGroup.auto g.2.desc && (match r.s.parcel? g.2.parcel with
      | some p => ctxSession r.s p.ctx = session
      | none => false)) fun g r =>
    match policy with
    | 0 => r.rfxHold g.1
    | 1 => r.rfxStop g.1 stLeaseLost
    | _ => r.rfxAbort g.1 stLeaseLost

/-- A reflex core is fenced: its groups wait for a spare, a step in progress lost (R243). -/
def rfxFence (r : Run z) (logical : Nat) : Run z :=
  r.each (r.s.rfx.groups.filter fun g => RGroup.lcore g.2.desc = logical && g.2.fenced.isNone) fun g r =>
    r.setRfx g.1 { g.2 with fenced := some r.s.now, step := none, latch := none }

end Run

/-- REFLEX_GROUP_END: at the step boundary, with every frame queued, a stopping group ends (R241, R242). -/
def execReflexGroupEnd (n k : Nat) (s : State) : Host.Outcome State Fault Refusal :=
  let r := Run.start s
  match rfxGroup? s (4 * n + k) with
  | none => done r
  | some g =>
    match g.stop with
    | some st => if g.step.isNone && g.out.isEmpty && awake s then done (r.rfxEnd (4 * n + k) g st) else done r
    | none => done r

/-- REFLEX_HOLD_EXPIRY: 60 s on HOLD without a reclaim (R242). -/
def execReflexHoldExpiry (n k : Nat) (s : State) : Host.Outcome State Fault Refusal :=
  let r := Run.start s
  match rfxGroup? s (4 * n + k) with
  | none => done r
  | some g =>
    match g.held with
    | some t => if fwRuns s 0 && decide (s.now > t + 60000000000) then done (r.rfxEnd (4 * n + k) g stLeaseLost) else done r
    | none => done r

/-- The complete checkpoints that CBASE holds, newest first: ring positions with the numbers of their checkpoints. -/
def rfxCopies (g : RGroup) : List (Nat × Nat) :=
  let up := g.copied.foldl (fun m e => SMap.insert m e.2 e.1) []
  up.reverse.map fun e => (e.2, e.1)

/-- The newest complete checkpoint that CBASE holds and that can be read: its STEP and the bytes of its bank images
(R243, R245). -/
def rfxRecover (s : State) (g : RGroup) (ctx : Nat) : Option (Nat × List Byte) :=
  let d := g.desc
  if !RGroup.recover d || RGroup.cbase d = 0 then none
  else
    let n := 4096 * (RGroup.entryFolios d - 1)
    (rfxCopies g).findSome? fun e =>
      let va := RGroup.cbase d + e.1 * (4096 * RGroup.entryFolios d)
      match readVirt s (ctxX s ctx) va 8, readVirt s (ctxX s ctx) (va + 4096) n with
      | .ok step, .ok v => some (step, leBytes n v)
      | _, _ => none

namespace Run

variable {z : State}

/-- Load a group's state from the bank images of a checkpoint. -/
def rfxRestore (r : Run z) (core : Nat) (d : List W32) (img : List Byte) : Run z :=
  r.each (List.range (RGroup.nch d)) fun i r => r.each (List.range (RGroup.cols d)) fun e r =>
    let p := rfxPlace d e
    let b := (RGroup.stateBanks d).findIdx (· = p.1)
    r.setRfxCell core d i e (le img (4096 * 4 * b + 8 * (64 * i + p.2)) 5)

end Run

/-- REFLEX_RESUME: the group goes on on the spare that took its logical number, from its newest checkpoint or its initial
states (R243). -/
def execReflexResume (n k : Nat) (s : State) : Host.Outcome State Fault Refusal :=
  let r := Run.start s
  let key := 4 * n + k
  match rfxGroup? s key, rfxPhys s n with
  | some g, some core =>
    if g.fenced.isNone || !awake s then done r
    else
      let d := g.desc
      let ctx := match s.parcel? g.parcel with | some p => p.ctx | none => 0
      let r := r.rfxCopy core d (ctxX s ctx)
      let r := r.each [0, 1, 2, 3] fun b r => r.setBank core b { ((r.s.core core).bank b) with fmt := .a40 }
      let r := match rfxRecover s g ctx with
        | some (step, img) => (r.rfxRestore core d img).setReg64 (rfxReg key 0x28) step
        | none => r.each (List.range (RGroup.nch d)) fun j r => r.rfxReload core d j
      let r := r.setRfx key { g with fenced := none, restarted := true }
      done ((r.dropPin (1000 + key)).addPin (core / 12) (1000 + key) (RGroup.freq d))
  | _, _ => done r

end Sys2Proof.Machine
end

