-- ==== Sys2Proof/Machine/Audio.lean ====
section
/-! DEFINITION. Microphones, the mute path, the audio archive, the copy engine, beams and the audio channels (R350 to
R370, R374 to R376). Loupe, Lens and the ladders stand in Ladder. -/

namespace Sys2Proof.Machine

def stAudMuted : Nat := 0x0700
def stAudArchiveGone : Nat := 0x0701

/-- Key of an AUD register. -/
def audReg (off : Nat) : Nat := regKey 0x0B off

/-- The mute path is engaged (R354). -/
def muted (s : State) : Bool := s.fld (audReg 0x300) 31 31 = 1

/-- Fields of AUD_MICn_CFG in effect. -/
def micEn (s : State) (n : Nat) : Bool := s.fld (audReg (0x40 * n)) 31 31 = 1
def micTdm (s : State) (n : Nat) : Bool := s.fld (audReg (0x40 * n)) 30 30 = 1
def micArm (s : State) (n : Nat) : Bool := s.fld (audReg (0x40 * n)) 29 29 = 1
def micSettle (s : State) (n : Nat) : Nat := s.fld (audReg (0x40 * n)) 23 20 * 1000000
def micPwrDly (s : State) (n : Nat) : Nat := s.fld (audReg (0x40 * n)) 19 14 * 1000000

/-- A microphone port beyond its register. -/
def audPort (s : State) (n : Nat) : AudPort := SMap.get {} s.aud.ports n

/-- A port's clock runs, so that its microphones are sampled. -/
def micRuns (s : State) (n : Nat) : Bool := (audPort s n).clockAt.isSome

/-- A port's microphones have been sampled since a time. -/
def micRunsFrom (s : State) (n t : Nat) : Bool :=
  match (audPort s n).clockAt with
  | some c => decide (c ≤ t)
  | none => false

/-- MIC_PWR_ENn is high (R353): EN, powered in the clock rate in force, and not muted. In OFF no microphone is powered. -/
def micPower (s : State) (n : Nat) : Bool :=
  micEn s n && (!micTdm s n || s.aud.fast) && !muted s && powerState s ≠ 4

/-- Some instant from a time on lies within the first SETTLE ms after a port's clock start or switch. -/
def settling (s : State) (n from_ : Nat) : Bool :=
  match (audPort s n).clockAt with
  | some t => micSettle s n ≠ 0 && decide (from_ < t + micSettle s n)
  | none => false

namespace Run

variable {z : State}

/-- Replace audio state. -/
def setAud (r : Run z) (a : Aud) : Run z := r.put (.aud a)

/-- MIC_PWR_EN0 to 3 follow R353: a rise is stamped, and a fall stops the clock. -/
def settlePorts (r : Run z) : Run z :=
  r.each [0, 1, 2, 3] fun n r =>
    let p := audPort r.s n
    let p' : AudPort := if !micPower r.s n then {} else if p.pwrAt.isSome then p else { pwrAt := some r.s.now }
    if p' = p then r else r.setAud { r.s.aud with ports := SMap.set {} r.s.aud.ports n p' }

/-- MUTE_LED goes low when the last enabled port's clock runs, or at once when no port is enabled (R355). -/
def settleLed (r : Run z) : Run z :=
  if !muted r.s && [0, 1, 2, 3].all (fun n => !micPower r.s n || micRuns r.s n) then r.setAud { r.s.aud with led := false } else r

end Run

/-- MIC_CLOCK_START: PWRDLY ms after MIC_PWR_ENn rose (R353). -/
def execMicClockStart (n : Nat) (s : State) : Host.Outcome State Fault Refusal :=
  let r := Run.start s
  let p := audPort s n
  match p.pwrAt with
  | some t =>
    if n < 4 && p.clockAt.isNone && decide (s.now ≥ t + micPwrDly s n) then
      done (r.setAud { s.aud with ports := SMap.set {} s.aud.ports n { p with clockAt := some s.now } }).settleLed
    else done r
  | none => done r

/-! ## The archive (R358 to R361) -/

/-- Where the model keeps the archive, which lies in island SRAM and has no address of its own. -/
def archBase : Nat := 2 ^ 48 + 0x500000

/-- First byte of the slot of a row. -/
def rowAddr (row : Nat) : Nat := archBase + 2096 * (row % 250)

/-- Archive channel k: EN, array and microphone (R358). -/
def archByte (s : State) (k : Nat) : Nat := s.fld (audReg (0x100 + 4 * (k / 4))) (8 * (k % 4) + 7) (8 * (k % 4))
def archEn (s : State) (k : Nat) : Bool := k < 8 && bit (archByte s k) 7
def archArray (s : State) (k : Nat) : Nat := bits (archByte s k) 4 3
def archMic (s : State) (k : Nat) : Nat := bits (archByte s k) 2 0

/-- AUD_ARC_NEWEST and ROWS. -/
def archNewest (s : State) : Nat := s.reg64 (audReg 0x108)
def archRows (s : State) : Nat := s.fld (audReg 0x110) 7 0

/-- Archive index of the present instant. -/
def archNow (s : State) : Nat := 512 * s.aud.rowSeq + min 511 ((s.now - s.aud.rowStart) / 62500)

/-- Stamp of an archive index, from the stamp of the first sample of its row (R352). -/
def stampOf (s : State) (i : Nat) : Nat :=
  let row := i / 512
  if s.aud.rowSeq ≤ row then s.aud.rowStart + (i - 512 * s.aud.rowSeq) * 62500
  else if row + 1 = s.aud.rowSeq then s.aud.prev + i % 512 * 62500
  else s.load (rowAddr row) 8 + i % 512 * 62500

/-! ### IMA ADPCM (R360) -/

/-- The step table of 89 entries. -/
def imaSteps : List Nat := [
  7, 8, 9, 10, 11, 12, 13, 14, 16, 17, 19, 21, 23, 25, 28, 31, 34, 37, 41, 45, 50, 55, 60, 66, 73, 80, 88, 97, 107, 118,
  130, 143, 157, 173, 190, 209, 230, 253, 279, 307, 337, 371, 408, 449, 494, 544, 598, 658, 724, 796, 876, 963, 1060,
  1166, 1282, 1411, 1552, 1707, 1878, 2066, 2272, 2499, 2749, 3024, 3327, 3660, 4026, 4428, 4871, 5358, 5894, 6484,
  7132, 7845, 8630, 9493, 10442, 11487, 12635, 13899, 15289, 16818, 18500, 20350, 22385, 24623, 27086, 29794, 32767]

/-- Saturate to INT16. -/
def sat16 (i : Int) : Int := if i > 32767 then 32767 else if i < -32768 then -32768 else i

/-- The next predictor and step index after a code. -/
def imaStep (st : Int × Nat) (code : Nat) : Int × Nat :=
  let step := imaSteps.getD st.2 7
  let d := step / 8 + (if bit code 2 then step else 0) + (if bit code 1 then step / 2 else 0) + (if bit code 0 then step / 4 else 0)
  let p := if bit code 3 then st.1 - d else st.1 + d
  let adj : Int := match code % 8 with | 4 => 2 | 5 => 4 | 6 => 6 | 7 => 8 | _ => -1
  let i : Int := (st.2 : Int) + adj
  (sat16 p, if i < 0 then 0 else if i > 88 then 88 else i.toNat)

/-- The code of a sample. -/
def imaCode (st : Int × Nat) (x : Int) : Nat :=
  let step := imaSteps.getD st.2 7
  let neg := decide (x < st.1)
  let d := (x - st.1).natAbs
  let b2 := decide (d ≥ step)
  let d := if b2 then d - step else d
  let b1 := decide (d ≥ step / 2)
  let d := if b1 then d - step / 2 else d
  let b0 := decide (d ≥ step / 4)
  8 * b2n neg + 4 * b2n b2 + 2 * b2n b1 + b2n b0

/-- Code samples, with the coder's state after them. -/
def imaEncode (st : Int × Nat) : List Int → List Nat × (Int × Nat)
  | [] => ([], st)
  | x :: xs =>
    let c := imaCode st x
    let (cs, st') := imaEncode (imaStep st c) xs
    (c :: cs, st')

/-- Samples of codes. -/
def imaDecode (st : Int × Nat) : List Nat → List Int
  | [] => []
  | c :: cs =>
    let st' := imaStep st c
    st'.1 :: imaDecode st' cs

/-- Two codes to a byte, the earlier in the low half. -/
def packNibbles : List Nat → List Byte
  | a :: b :: rest => BitVec.ofNat 8 (a + 16 * b) :: packNibbles rest
  | [a] => [BitVec.ofNat 8 a]
  | [] => []

/-- The 512 samples of archive channel k in the slot of a row. -/
def decodeRow (s : State) (row k : Nat) : List Int :=
  let a := rowAddr row + 16 + 260 * k
  let st : Int × Nat := (sext 16 (s.load a 2), min 88 (s.load (a + 2) 1))
  imaDecode st ((List.range 512).map fun i => (s.byte (a + 4 + i / 2)).toNat / 16 ^ (i % 2) % 16)

/-- The captured samples of archive channel k from an archive index on, echo-cancelled where the canceller runs (R366): its weights
are 0 at its first sample, and a TAIL of 0 subtracts nothing. -/
def echoed (s : State) (k from_ : Nat) (xs : List (BitVec 16)) : List (BitVec 16) :=
  let cfg := (s.reg (audReg 0x400)).toNat
  match s.aud.aec with
  | none => xs
  | some (first, stop) =>
    if bits cfg 22 18 = 0 then xs
    else ((List.range xs.length).zip xs).map fun (i, x) =>
      let at_ := from_ + i
      if at_ ≤ first || (match stop with | some t => decide (t ≤ at_) | none => false) then x
      else Config.aecSample cfg k first at_ x (SMap.get (false, []) s.aud.spk (bits cfg 30 30)).2

/-- The row in assembly as it completes: its bytes, and the coders after it (R359, R360). A channel whose port was not sampled from
the row's first sample on is coded as a gap (R375), as is every channel of a row whose assembly was discarded (R354). -/
def rowBytes (s : State) (samples : List (List (BitVec 16))) : List Byte × SMap (Int × Nat) :=
  let live := fun k => archEn s k && micRunsFrom s (archArray s k) s.aud.rowStart && !muted s && !s.aud.cut
  let chan := fun k (acc : List Byte × SMap (Int × Nat)) =>
    if live k then
      let raw := (samples.getD k []) ++ List.replicate 512 0
      let xs := (echoed s k (512 * s.aud.rowSeq) (raw.take 512)).map BitVec.toInt
      let st := SMap.get (0, 0) s.aud.coder k
      let (cs, st') := imaEncode st xs
      (acc.1 ++ leBytes 2 (BitVec.ofInt 16 st.1).toNat ++ leBytes 2 st.2 ++ packNibbles cs, SMap.set (0, 0) acc.2 k st')
    else (acc.1 ++ List.replicate 260 0, acc.2)
  let body := (List.range 8).foldl (fun acc k => chan k acc) ([], [])
  let clipped := fun k => live k && ((samples.getD k []).take 512).any fun x => x.toInt = 32767 || x.toInt = -32768
  let mask := fun (f : Nat → Bool) => (List.range 8).foldl (fun m k => if f k then m + 2 ^ k else m) 0
  let flags := mask (fun k => archEn s k && !muted s && settling s (archArray s k) s.aud.rowStart) * 2 ^ 24 +
    mask (fun k => !live k) * 2 ^ 16 + mask clipped * 2 ^ 8 + b2n (muted s) * 8 + s.aud.rowState
  (leBytes 8 s.aud.rowStart ++ leBytes 4 s.aud.rowSeq ++ leBytes 4 flags ++ body.1, body.2)

namespace Run

variable {z : State}

/-- At a row boundary every RWM field of the AUD window takes effect, port modes and clock rates follow the power state,
and Loupe and Lens start on arrays newly armed (R352, R355, R376). The echo canceller starts with weights 0 when EN changes
(R366), and 48 kHz blocks begin where the microphones run at their RUN rates again (R367). -/
def rowBoundary (r : Run z) : Run z :=
  let aecWas := r.s.fld (audReg 0x400) 31 31
  let r := r.takeMirrors fun k => k / 2 ^ 20 = 0x0B
  let aecNow := r.s.fld (audReg 0x400) 31 31
  let r := r.when (aecWas ≠ aecNow) fun r =>
    r.setAud { r.s.aud with aec := if aecNow = 1 && awake r.s then some (512 * r.s.aud.rowSeq, none) else none }
  let low := match r.s.power.entering with
    | some e => decide (e.target ≥ 2)
    | none => !awake r.s
  let changed := r.s.aud.fast = low
  let r := r.setAud { r.s.aud with fast := !low }
  let r := r.settlePorts
  let r := r.when changed fun r => r.each [0, 1, 2, 3] fun n r =>
    let p := audPort r.s n
    if p.clockAt.isSome then
      r.setAud { r.s.aud with ports := SMap.set {} r.s.aud.ports n { p with clockAt := some r.s.aud.rowStart } }
    else r
  let r := r.when (changed && !low) fun r =>
    r.each (r.s.sched.cards.filter fun c => cardKind r.s c.1 = 3 && cardEn r.s c.1) fun c r =>
      r.setAud { r.s.aud with mic := SMap.insert r.s.aud.mic c.1 (512 * r.s.aud.rowSeq, 0) }
  let r := r.settleLed
  let f := cdiv (512 * r.s.aud.rowSeq) 160
  let deep := powerState r.s = 3 || (match r.s.power.entering with | some e => e.target = 3 | none => false)
  r.each [0, 1, 2, 3] fun n r =>
    if !(micArm r.s n && micEn r.s n) || muted r.s then
      r.setAud { r.s.aud with loupe := SMap.erase r.s.aud.loupe n, lens := SMap.erase r.s.aud.lens n }
    else
      let a := r.s.aud
      let loupe := if (SMap.find? a.loupe n).isSome then a.loupe else SMap.insert a.loupe n { next := f }
      let lens := if (SMap.find? a.lens n).isSome || deep then a.lens else SMap.insert a.lens n { next := f }
      r.setAud { a with loupe := loupe, lens := lens }

end Run

/-! ## The copy engine (R362, R363) -/

/-- Bytes an archive copy writes. -/
def copySize (c : ACopy) : Nat :=
  if c.whole then c.count / 512 * 2096 else ((List.range 8).filter fun k => bit c.mask k).length * 2 * c.count

/-- The checks of R362: OK or the status of the first that fails. -/
def copyStatus (s : State) (c : ACopy) : Nat :=
  let gone : Int := (archNewest s / 512 : Nat) - 1 - min ((archRows s : Int) - 1) 248
  if c.count > 128000 || c.dst % 4096 ≠ 0 || (c.whole && (c.first % 512 ≠ 0 || c.count % 512 ≠ 0)) ||
      c.first + c.count > archNewest s || !mapped s (ctxX s c.ctx) .store c.dst (copySize c) then stBounds
  else if muted s then stAudMuted
  else if ((c.first / 512 : Nat) : Int) < gone then stAudArchiveGone
  else stOk

namespace Run

variable {z : State}

/-- Copy the part of a row that a copy names: the whole row, or each channel's samples into its plane. -/
def copyRow (r : Run z) (c : ACopy) (row : Nat) : Run z :=
  let x := ctxX r.s c.ctx
  let put := fun (r : Run z) va bs => match r.writeVirtBytes x va bs with
    | .ok r => r
    | .error _ => r
  if c.whole then put r (c.dst + 2096 * (row - c.first / 512)) (r.s.bytes (rowAddr row) 2096)
  else
    let ks := (List.range 8).filter fun k => bit c.mask k
    let lo := max c.first (512 * row)
    let hi := min (c.first + c.count) (512 * row + 512)
    r.each (List.range ks.length) fun j r =>
      let xs := ((decodeRow r.s row (ks.getD j 0)).drop (lo - 512 * row)).take (hi - lo)
      put r (c.dst + 2 * c.count * j + 2 * (lo - c.first)) (xs.flatMap fun v => leBytes 2 (BitVec.ofInt 16 v).toNat)

/-- Copy the next n rows that a copy names, oldest first (R363). -/
def copyRows (r : Run z) (c : ACopy) (n : Nat) : Run z :=
  let r0 := c.first / 512
  let rows := if c.count = 0 then 0 else (c.first + c.count - 1) / 512 + 1 - r0
  let stop := min rows (c.moved + n)
  let r := r.each ((List.range stop).drop c.moved) fun i r => r.copyRow c (r0 + i)
  r.setAud { r.s.aud with copy := r.s.aud.copy.map fun x => if x = c then { x with moved := stop } else x }

/-- The copy ends: STATUS, then TALLY (R363). -/
def copyEnd (r : Run z) (c : ACopy) (status : Nat) : Run z :=
  let r := r.setAud { r.s.aud with copy := none }
  let r := r.setRegN (audReg 0x138) status
  let r := r.setFld (audReg 0x134) 31 31 0
  r.deviceAdd c.tally

/-- A row is written whole into its slot, and the next begins (R358, R361). A copy that still reads the slot moves its rows first
(R363), and a row lasts no longer than 500 ppm above 32 ms (R352). -/
def rowComplete (r : Run z) (samples : List (List (BitVec 16))) : Run z :=
  let r := match r.s.aud.copy with
    | some c => if c.first / 512 + 250 ≤ r.s.aud.rowSeq then r.copyRows c c.count else r
    | none => r
  let a := r.s.aud
  let (bs, coder) := rowBytes r.s samples
  let r := r.setBytes (rowAddr a.rowSeq) bs
  let r := r.setReg64 (audReg 0x108) (512 * (a.rowSeq + 1))
  let r := r.setFld (audReg 0x110) 7 0 (min 250 (archRows r.s + 1))
  let r := r.setAud { a with
    coder := coder, rowSeq := a.rowSeq + 1, rowStart := min (r.s.timeAt tbAud) (a.rowStart + 32016000), rowState := powerState r.s
    prev := a.rowStart, cut := false }
  r.rowBoundary

/-- GO of AUD_ACP_CTRL (R361, R362); ignored while BUSY. A COUNT of 0 completes at once. -/
def copyGo (r : Run z) : Run z :=
  if r.s.fld (audReg 0x138) 31 31 = 1 then r
  else
    let ctrl := (r.s.reg (audReg 0x134)).toNat
    let c : ACopy := {
      ctx := bits ctrl 27 16, whole := bit ctrl 30, first := r.s.reg64 (audReg 0x120), count := (r.s.reg (audReg 0x128)).toNat
      dst := r.s.reg64 (audReg 0x12C), mask := bits ctrl 7 0, tally := (r.s.reg (audReg 0x13C)).toNat }
    let st := copyStatus r.s c
    if st ≠ stOk then (r.setFld (audReg 0x138) 15 0 st).setFld (audReg 0x134) 31 31 0
    else if c.count = 0 then r.copyEnd c stOk
    else
      let r := r.setAud { r.s.aud with copy := some c }
      (r.setFld (audReg 0x138) 31 31 1).setFld (audReg 0x134) 31 31 1

end Run

/-- ARCHIVE_ROW_COMPLETE: 512 sample periods, within 500 ppm of 32 ms, have passed since the row began; `samples` are the
captured samples of the archive channels (R352, R358). -/
def execArchiveRowComplete (samples : List (List (BitVec 16))) (s : State) : Host.Outcome State Fault Refusal :=
  let r := Run.start s
  if s.now < s.aud.rowStart + 31984000 then done r else done (r.rowComplete samples)

/-- ARCHIVE_COPY_END: the copy under way has moved its rows (R363). -/
def execArchiveCopyEnd (s : State) : Host.Outcome State Fault Refusal :=
  let r := Run.start s
  match s.aud.copy with
  | some c => if awake s then done ((r.copyRows c (c.count + 1)).copyEnd c stOk) else done r
  | none => done r

/-! ## Beams (R365) -/

/-- A tap of a beam record at a base: INT16. -/
def beamTap (s : State) (base j : Nat) : Int := sext 16 (s.fld (base + 4 * (j / 2)) (16 * (j % 2) + 15) (16 * (j % 2)))

/-- Round n / 2^15 to nearest-even. -/
def roundQ15 (n : Int) : Int :=
  let q := n / 32768
  let r := n % 32768
  if r > 16384 ∨ (r = 16384 ∧ q % 2 ≠ 0) then q + 1 else q

/-- One output of main beam b of array n at sample t of a block whose microphones are given from 70 samples before it. -/
def mainBeam (s : State) (n b : Nat) (mics : List (List (BitVec 16))) (t : Nat) : Int :=
  sat16 (roundQ15 ((List.range 8).foldl (fun (acc : Int) m =>
    let rec_ := audReg (0x10000 + 32 * (64 * n + 8 * b + m))
    if s.fld rec_ 31 31 = 0 then acc
    else
      let d := s.fld rec_ 5 0
      (List.range 8).foldl (fun (a : Int) j =>
        a + beamTap s (rec_ + 4) j * (((mics.getD m []).getD (t + 70 - d - j) 0).toInt)) acc) 0))

/-- One output of island beam b of array n at an archive index, from the archive channels after decoding; the sum runs over the
microphones that are archive channels (R365). -/
def islandBeam (s : State) (n b at_ : Nat) : Int :=
  sat16 (roundQ15 ((List.range 8).foldl (fun (acc : Int) m =>
    let rec_ := audReg (0x18000 + 16 * (32 * n + 8 * b + m))
    match (List.range 8).find? fun k => archEn s k && archArray s k = n && archMic s k = m with
    | none => acc
    | some k =>
      if s.fld rec_ 31 31 = 0 then acc
      else (List.range 4).foldl (fun (a : Int) j =>
        let i := at_ - (s.fld rec_ 4 0 + j)
        let x := if at_ < s.fld rec_ 4 0 + j then 0 else (decodeRow s (i / 512) k).getD (i % 512) 0
        a + beamTap s (rec_ + 4) j * x) acc) 0))

namespace Run

variable {z : State}

/-- The AUD block stops in SLEEP and DEEP_SLEEP: the speaker ports are held low, and the echo canceller stops (R366, R368, R374). -/
def audStop (r : Run z) : Run z :=
  r.setAud { r.s.aud with
    spk := [], out := [], aec := r.s.aud.aec.map fun x => (x.1, some (x.2.getD (archNow r.s))) }

/-- In OFF no microphone is powered, the archive is lost, and Loupe and Lens stop (R353, R374). -/
def audOff (r : Run z) : Run z :=
  let r := (r.audStop.put (.wipe archBase (archBase + 524288))).setFld (audReg 0x110) 7 0 0
  (r.setAud { r.s.aud with loupe := [], lens := [], copy := none, cut := true }).settlePorts

/-- On a return to IDLE or RUN the echo canceller starts with weights 0 (R366). -/
def audStart (r : Run z) : Run z :=
  r.setAud { r.s.aud with mic := [], aec := if r.s.fld (audReg 0x400) 31 31 = 1 then some (archNow r.s, none) else none }

end Run

/-! ## Audio channels (R367 to R370) -/

/-- BLK of a card in ms. -/
def blkMs (s : State) (n : Nat) : Nat := 2 ^ bits (cardW s n 6) 11 9

/-- Bytes of a ring slot: the block rounded up to 4,096. -/
def micPlanes (s : State) (n : Nat) : List Nat := (List.range 8).filter fun b => bit (bits (cardW s n 6) 23 16) b
def micSamples (s : State) (n : Nat) : Nat := (if bits (cardW s n 6) 8 7 = 2 then 16 else 48) * blkMs s n
def micSlot (s : State) (n : Nat) : Nat := cdiv (0x20 + 2 * micSamples s n * (micPlanes s n).length) 4096 * 4096
def outSlot (s : State) (n : Nat) : Nat := cdiv (16 + 768 * blkMs s n) 4096 * 4096

/-- The planes of a microphone block, of an archive index on, from what the microphones or archive channels captured. -/
def micBlock (s : State) (n from_ : Nat) (mics : List (List (BitVec 16))) : List (List (BitVec 16)) :=
  let len := micSamples s n
  let arr := bits (cardW s n 6) 1 0
  (micPlanes s n).map fun p =>
    let pad := fun (l : List (BitVec 16)) => (l ++ List.replicate len 0).take len
    match bits (cardW s n 6) 8 7 with
    | 0 => pad ((mics.getD p []).drop 70)
    | 1 => (List.range len).map fun t => BitVec.ofInt 16 (mainBeam s arr p mics t)
    | _ => echoed s p from_ (pad (mics.getD p []))

/-- Whether the source of a plane has been sampled since a time. -/
def micSourceRuns (s : State) (n p t : Nat) : Bool :=
  if bits (cardW s n 6) 8 7 = 2 then archEn s p && micRunsFrom s (archArray s p) t
  else micRunsFrom s (bits (cardW s n 6) 1 0) t
def micSourceSettling (s : State) (n p t : Nat) : Bool :=
  if bits (cardW s n 6) 8 7 = 2 then settling s (archArray s p) t else settling s (bits (cardW s n 6) 1 0) t

namespace Run

variable {z : State}

/-- A block of a microphone card is written, or dropped on a full ring (R357, R367). -/
def micDeliver (r : Run z) (n from_ dropped : Nat) (mics : List (List (BitVec 16))) : Run z :=
  let idx := cardW r.s n 7
  let prod := bits idx 15 0
  let next := from_ + 16 * blkMs r.s n
  let full := (prod + 65536 - bits idx 31 16) % 65536 ≥ 2 ^ bits (cardW r.s n 6) 15 12
  let lost := fun (r : Run z) => (r.bumpHw n 8).setAud { r.s.aud with mic := SMap.insert r.s.aud.mic n (next, dropped + 1) }
  if full then lost r
  else
    let m := muted r.s
    let ps := micPlanes r.s n
    let t := stampOf r.s from_
    let run := ps.map fun p => micSourceRuns r.s n p t && !m
    let planes := (micBlock r.s n from_ mics).zip run
    let zero := List.replicate (micSamples r.s n) (0 : BitVec 16)
    let data := planes.map fun x => if x.2 then x.1 else zero
    let clip := data.any fun l => l.any fun v => v.toInt = 32767 || v.toInt = -32768
    let gap := run.any (!·)
    let set := ps.any fun p => !m && micSourceSettling r.s n p t
    let flags := min 65535 dropped * 65536 + 8 * b2n clip + 4 * b2n gap + 2 * b2n set + b2n m
    let bytes := leBytes 8 flags ++ leBytes 8 t ++ leBytes 8 from_ ++ leBytes 8 0 ++
      data.flatMap fun l => l.flatMap fun v => leBytes 2 v.toNat
    let va := cardAddr r.s n 4 + micSlot r.s n * (prod % 2 ^ bits (cardW r.s n 6) 15 12)
    match r.writeVirtBytes (ctxX r.s (cardCtx r.s n)) va bytes with
    | .error _ => lost r
    | .ok r =>
      let r := r.setAud { r.s.aud with mic := SMap.insert r.s.aud.mic n (next, 0) }
      (r.setHw n 7 (bits idx 31 16 * 65536 + (prod + 1) % 65536)).cardEvent n

end Run

/-- MIC_BLOCK_DELIVER: a block of a microphone-array card has been captured (R367). `mics` are the 48 kHz samples of each
microphone from 70 before the block, or for ARCH16 the captured 16 kHz samples of each archive channel. -/
def execMicBlockDeliver (n : Nat) (mics : List (List (BitVec 16))) (s : State) : Host.Outcome State Fault Refusal :=
  let r := Run.start s
  let (from_, dropped) := SMap.get (512 * s.aud.rowSeq, 0) s.aud.mic n
  if cardKind s n ≠ 3 || !cardActive s n || !awake s || !s.aud.fast || (micPlanes s n).isEmpty ||
      decide (archNow s < from_ + 16 * blkMs s n - 1) then done r
  else done (r.micDeliver n from_ dropped mics)

/-- OUTPUT_BLOCK_PLAY: a block boundary of an output card; a block that a doorbell covered at least 1 ms before it starts
to play, otherwise zeros play (R368). The port's data pin carries the block's frames, every slot in order (R350). -/
def execOutputBlockPlay (n : Nat) (s : State) : Host.Outcome State Fault Refusal :=
  let r := Run.start s
  let per := blkMs s n * 1000000
  let t := s.aud.rowStart + (s.now - s.aud.rowStart) / per * per
  let (last, played) := SMap.get (0, false) s.aud.out n
  if cardKind s n ≠ 4 || !cardActive s n || !awake s || (t ≤ last && (SMap.find? s.aud.out n).isSome) then done r
  else
    let idx := cardW s n 7
    let head := bits idx 31 16
    let tail := match (SMap.get [] s.aud.tails n).find? fun x => decide (x.2 + 1000000 ≤ t) with
      | some x => x.1
      | none => head
    let ready := (tail + 65536 - head) % 65536 ≠ 0 && decide ((tail + 65536 - head) % 65536 ≤ 4096)
    let port := bits (cardW s n 6) 0 0
    let wide := bit (cardW s n 6) 8
    let play := fun (r : Run s) (bs : List Byte) => r.setAud { r.s.aud with
      out := SMap.insert r.s.aud.out n (t, ready), spk := SMap.insert r.s.aud.spk port (wide, bs) }
    if !ready then
      let r := play r []
      done (if played then r.bumpHw n 8 else r)
    else
      let c := ctxX s (cardCtx s n)
      let va := cardAddr s n 4 + outSlot s n * (head % 2 ^ bits (cardW s n 6) 15 12)
      let len := 768 * blkMs s n
      let r := match r.readBlock c (va + 16) len with
        | (.ok v, r) => play r (leBytes len v)
        | (.error _, r) => play r []
      let r := (r.tryWrite c (va + 8) 8 t).tryWrite c va 4 (2 ^ 31)
      done ((r.setHw n 7 ((head + 1) % 65536 * 65536 + bits idx 15 0)).cardEvent n)

namespace Run

variable {z : State}

/-- A write of AUD_RING_DB (R369). -/
def audRingDb (r : Run z) (v : Nat) : Run z :=
  let n := bits v 29 16
  let x := bits v 15 0
  let idx := cardW r.s n 7
  let hi := bits idx 31 16
  let lo := bits idx 15 0
  let err := r.bump (schedReg 0x030)
  if !cardEn r.s n then err
  else match cardKind r.s n, bit v 30 with
    | 3, true =>
      if (x + 65536 - hi) % 65536 ≤ (lo + 65536 - hi) % 65536 then r.setHw n 7 (x * 65536 + lo) else err
    | 4, false =>
      let d := (x + 65536 - hi) % 65536
      if (lo + 65536 - hi) % 65536 ≤ d ∧ d ≤ 2 ^ bits (cardW r.s n 6) 15 12 then
        let r := r.setHw n 7 (hi * 65536 + x)
        r.setAud { r.s.aud with tails := SMap.set [] r.s.aud.tails n ((x, r.s.now) :: (SMap.get [] r.s.aud.tails n).take 63) }
      else err
    | _, _ => err

end Run

/-- An audio card holds a value that does not occur, a misaligned ring or a set RSV bit (R276, R367, R368). -/
def audioBad (ws : List Nat) : Bool :=
  let w := fun i => ws.getD i 0
  let mic := bits (w 0) 31 28 = 3
  let cfg := w 6
  let src := bits cfg 8 7
  decide (bits cfg 11 9 > 5) || decide (bits cfg 15 12 < 2) || decide (bits cfg 15 12 > 12) || w 4 % 4096 ≠ 0 ||
    (ws.drop 9).any (· ≠ 0) ||
    (if mic then bits cfg 31 24 ≠ 0 || bits cfg 6 2 ≠ 0 || src = 3 || (src = 2 && bits cfg 1 0 ≠ 0)
      else bits cfg 31 16 ≠ 0 || bits cfg 7 1 ≠ 0)

/-- The body check of an audio card at its take-up (R370): OK, BOUNDS or DENIED. -/
def audioBody (s : State) (n : Nat) (ws : List Nat) (c : XCtx) : Nat :=
  let w := fun i => ws.getD i 0
  let mic := bits (w 0) 31 28 = 3
  let cfg := w 6
  let blk := 2 ^ bits cfg 11 9
  let lg := bits cfg 15 12
  let planes := ((List.range 8).filter fun b => bit (bits cfg 23 16) b).length
  let slot := if mic then cdiv (0x20 + 2 * ((if bits cfg 8 7 = 2 then 16 else 48) * blk) * planes) 4096 * 4096
    else cdiv (16 + 768 * blk) 4096 * 4096
  let ring := w 4 + 2 ^ 32 * w 5
  let rights := mapped s c .store ring (slot * 2 ^ lg) && mapped s c .load ring (slot * 2 ^ lg)
  let twin := s.sched.cards.any fun o => o.1 ≠ n && cardKind s o.1 = 4 && cardEn s o.1 &&
    bits (cardW s o.1 6) 0 0 = bits cfg 0 0
  if bit (w 0) 27 && !rights then stBounds
  else if !mic && bit (w 0) 27 && twin then stDenied
  else stOk

end Sys2Proof.Machine
end

