-- ==== Sys2Proof/Machine/Isp.lean ====
section
/-! DEFINITION. What an image pipe computes (R388 to R392): the stages from black level to colour space, the statistics of
both taps, the scalers and the stored layouts, over the Aperture of one frame. -/

namespace Sys2Proof.Machine

/-- An image, as rows of component values. -/
abbrev Img := List (List Nat)

/-- Fields of a camera card (R380). -/
structure CamCfg where
  port : Nat
  vc : Nat
  pipe : Nat
  dt : Nat
  stream : Nat
  lastPix : Bool
  keyed : Bool
  width : Nat
  height : Nat
  x0 : Nat
  y0 : Nat
  aw : Nat
  ah : Nat
  padVal : Nat
  fperiod : Nat
  wdog : Nat
  fcntEn : Bool
  fcntLe : Bool
  fcntLen : Nat
  fcntOfs : Nat
  outs : List Nat
  ring : Nat
  log2n : Nat
  slotf : Nat

/-- Read the fields of a camera card from its words. -/
def CamCfg.of (ws : List W32) : CamCfg :=
  let w := fun i => (ws.getD i 0).toNat
  { port := bits (w 4) 31 29, vc := bits (w 4) 28 27, pipe := bits (w 4) 26 26, dt := bits (w 4) 25 20
    stream := bits (w 4) 19 16, lastPix := bits (w 4) 15 14 = 1, keyed := bits (w 4) 13 12 = 1
    width := bits (w 5) 27 16 + 1, height := bits (w 5) 11 0 + 1, x0 := bits (w 6) 27 16, y0 := bits (w 6) 11 0
    aw := bits (w 7) 27 16 + 1, ah := bits (w 7) 11 0 + 1, padVal := bits (w 8) 15 0, fperiod := bits (w 9) 31 8
    wdog := if bits (w 9) 4 0 = 0 then 12 else bits (w 9) 4 0, fcntEn := bit (w 10) 31, fcntLe := bit (w 10) 30
    fcntLen := bits (w 10) 29 28 + 1, fcntOfs := bits (w 10) 11 0, outs := [w 11, w 12]
    ring := w 13 + 2 ^ 32 * w 14, log2n := bits (w 15) 27 24, slotf := bits (w 15) 19 0 + 1 }

/-- Bits of a RAW data type, 0 for YUV422 and RGB888 (R378). -/
def rawBits (dt : Nat) : Nat := match dt with | 0x2A => 8 | 0x2B => 10 | 0x2C => 12 | 0x2D => 14 | 0x2E => 16 | _ => 0

/-- A data type of image data (R378). -/
def imageType (dt : Nat) : Bool := rawBits dt ≠ 0 || dt = 0x1E || dt = 0x24

/-- A received pixel as the front end keeps it: RAW shifted to 16 bits (R379). -/
def unpackPixel (dt v : Nat) : Nat :=
  if rawBits dt ≠ 0 then v % 2 ^ rawBits dt * 2 ^ (16 - rawBits dt)
  else if dt = 0x1E then v % 2 ^ 16 else v % 2 ^ 24

/-- The pixel that PADVAL gives (R381). -/
def padPixel (c : CamCfg) : Nat :=
  if rawBits c.dt ≠ 0 then unpackPixel c.dt c.padVal
  else if c.dt = 0x1E then c.padVal else c.padVal % 256 * 0x10101

/-- A line made WIDTH pixels long (R384). -/
def sizeLine (c : CamCfg) (px : List Nat) : List Nat :=
  let n := px.length
  (List.range c.width).map fun x =>
    if x < n then px.getD x 0
    else if !c.lastPix then padPixel c
    else
      -- the last received pixel of the same parity
      let y := if n = 0 then 0 else if (n - 1) % 2 = x % 2 then n - 1 else n - 2
      if n = 0 || (n = 1 && x % 2 = 1) then padPixel c else px.getD y 0

/-! ## Helpers -/

/-- Build an image. -/
def mapImg (w h : Nat) (f : Nat → Nat → Nat) : Img := (List.range h).map fun y => (List.range w).map fun x => f x y

/-- A pixel of an image. -/
def imgAt (i : Img) (x y : Nat) : Nat := (i.getD y []).getD x 0

/-- A coordinate under EDGE with the CFA step of 2: the nearest one of its parity inside the image (R390). -/
def edge2 (t : Int) (n : Nat) : Nat :=
  if t < 0 then (t % 2).toNat else if t < n then t.toNat else n - 2 + ((t - n) % 2).toNat

/-- A pixel at an offset from (x, y). -/
def near (i : Img) (w h x y : Nat) (dx dy : Int) : Nat := imgAt i (edge2 ((x : Int) + dx) w) (edge2 ((y : Int) + dy) h)

/-- Saturate to 16 bits. -/
def sat65535 (i : Int) : Nat := if i < 0 then 0 else if i > 65535 then 65535 else i.toNat

/-- A parameter word of a frame (R393). -/
def ispReg (stream off : Nat) : Nat := regKey 0x0A (0x10000 + 0x1000 * stream + off)
def paramOf (ps : SMap W32) (stream off : Nat) : Nat := (SMap.get (regReset (ispReg stream off)) ps (ispReg stream off)).toNat

/-- CFA channel of an Aperture position, and its colour: 0 red, 1 green, 2 blue (R390). -/
def cfaChan (x y : Nat) : Nat := x % 2 + 2 * (y % 2)
def cfaColour (cfa c : Nat) : Nat :=
  ((match cfa with
    | 0 => [0, 1, 1, 2]
    | 1 => [1, 0, 2, 1]
    | 2 => [1, 2, 0, 1]
    | _ => [2, 1, 1, 0]) : List Nat).getD c 1

/-! ## RAW stages 1 to 4 -/

/-- Stage 1: black level. -/
def blackLevel (p : Nat → Nat) (w h : Nat) (i : Img) : Img :=
  mapImg w h fun x y =>
    let k := p (0x010 + 4 * cfaChan x y)
    sat65535 (((imgAt i x y - bits k 15 0) * bits k 31 16 + 2048) / 4096 : Nat)

/-- Insert into a rising list. -/
def insertNat (a : Nat) : List Nat → List Nat
  | [] => [a]
  | b :: bs => if a ≤ b then a :: b :: bs else b :: insertNat a bs

/-- Stage 2: defective pixels. -/
def defects (p : Nat → Nat) (w h : Nat) (i : Img) : Img :=
  if !bit (p 0) 0 then i
  else mapImg w h fun x y =>
    let v := imgAt i x y
    let ns : List Nat := [(-2, -2), (0, -2), (2, -2), (-2, 0), (2, 0), (-2, 2), (0, 2), (2, 2)].map fun (d : Int × Int) =>
      near i w h x y d.1 d.2
    let s := ns.foldl (fun l a => insertNat a l) []
    let t := bits (p 0x020) 15 0
    if v > s.getD 7 0 + t || v + t < s.getD 0 0 then (s.getD 3 0 + s.getD 4 0) / 2 else v

/-- The interpolated gain of a channel at a full-frame pixel (stage 3). -/
def shadeGain (grid : List Byte) (c width height x y : Nat) : Nat :=
  let node := fun i j => ofLe ((grid.drop (2 * (4 * (17 * j + i) + c))).take 2)
  let ax := x * 16 * 65536 / max 1 (width - 1)
  let ay := y * 12 * 65536 / max 1 (height - 1)
  let i := min 15 (ax / 65536)
  let j := min 11 (ay / 65536)
  let fx := ax - i * 65536
  let fy := ay - j * 65536
  let top := node i j * (65536 - fx) + node (i + 1) j * fx
  let bot := node i (j + 1) * (65536 - fx) + node (i + 1) (j + 1) * fx
  (top * (65536 - fy) + bot * fy + 2 ^ 31) / 2 ^ 32

/-- Stage 3: lens shading. -/
def shading (p : Nat → Nat) (c : CamCfg) (grid : List Byte) (i : Img) : Img :=
  if !bit (p 0) 1 then i
  else mapImg c.aw c.ah fun x y =>
    sat65535 ((imgAt i x y * shadeGain grid (cfaChan x y) c.width c.height (c.x0 + x) (c.y0 + y) + 2048) / 4096 : Nat)

/-- Stage 4: white balance. -/
def whiteBalance (p : Nat → Nat) (w h : Nat) (i : Img) : Img :=
  mapImg w h fun x y => sat65535 ((imgAt i x y * bits (p (0x030 + 4 * cfaChan x y)) 15 0 + 2048) / 4096 : Nat)

/-! ## Stage 5: demosaic -/

/-- The green plane. -/
def greenPlane (cfa w h : Nat) (i : Img) : Img :=
  mapImg w h fun x y =>
    if cfaColour cfa (cfaChan x y) = 1 then imgAt i x y
    else
      let l := near i w h x y (-1) 0
      let r := near i w h x y 1 0
      let u := near i w h x y 0 (-1)
      let d := near i w h x y 0 1
      let dh := max l r - min l r
      let dv := max u d - min u d
      if dh < dv then (l + r + 1) / 2 else if dv < dh then (u + d + 1) / 2 else (l + r + u + d + 2) / 4

/-- The red (0) or blue (2) plane: green plus the mean of the neighbouring colour differences. -/
def colourPlane (cfa k w h : Nat) (i g : Img) : Img :=
  mapImg w h fun x y =>
    let own := cfaColour cfa (cfaChan x y)
    let diff := fun (dx dy : Int) => (near i w h x y dx dy : Int) - near g w h x y dx dy
    let gv : Int := imgAt g x y
    if own = k then imgAt i x y
    else if own = 1 then
      if cfaColour cfa (cfaChan (x + 1) y) = k then sat65535 (gv + (diff (-1) 0 + diff 1 0 + 1) / 2)
      else sat65535 (gv + (diff 0 (-1) + diff 0 1 + 1) / 2)
    else sat65535 (gv + (diff (-1) (-1) + diff 1 (-1) + diff (-1) 1 + diff 1 1 + 2) / 4)

/-! ## Stages 6 to 9 -/

/-- Coefficient n of a matrix at a register offset, S3.12. -/
def coef (p : Nat → Nat) (base n : Nat) : Int :=
  let w := p (base + 4 * (n / 2))
  sext 16 (if n % 2 = 0 then bits w 15 0 else bits w 31 16)

/-- Row k of a matrix product with its offset: the product rounded once, the result saturated. -/
def matRow (p : Nat → Nat) (base ofs k : Nat) (a b c : Nat) : Nat :=
  let s := coef p base (3 * k) * a + coef p base (3 * k + 1) * b + coef p base (3 * k + 2) * c
  sat65535 ((s + 2048) / 4096 + coef p ofs k)

/-- Apply a matrix to three planes. -/
def matrix (p : Nat → Nat) (base ofs w h : Nat) (is : List Img) : List Img :=
  [0, 1, 2].map fun k => mapImg w h fun x y =>
    matRow p base ofs k (imgAt (is.getD 0 []) x y) (imgAt (is.getD 1 []) x y) (imgAt (is.getD 2 []) x y)

/-- Stage 7: the tone curve of 65 entries. -/
def tonePoint (p : Nat → Nat) (k : Nat) : Nat :=
  let w := p (0x060 + 4 * (k / 2))
  if k % 2 = 0 then bits w 15 0 else bits w 31 16
def tone (p : Nat → Nat) (w h : Nat) (i : Img) : Img :=
  mapImg w h fun x y =>
    let v := imgAt i x y
    let a : Int := tonePoint p (v / 1024)
    let b : Int := tonePoint p (v / 1024 + 1)
    sat65535 (a + ((b - a) * (v % 1024 : Nat) + 512) / 1024)

/-- Stage 8: noise reduction. -/
def noise (p : Nat → Nat) (w h : Nat) (i : Img) : Img :=
  if !bit (p 0) 2 then i
  else mapImg w h fun x y =>
    let v := imgAt i x y
    let sum := [-1, 0, 1].foldl (fun (t : Nat) (dy : Int) => [-1, 0, 1].foldl (fun (t : Nat) (dx : Int) =>
      t + near i w h x y dx dy) t) 0
    let m := (2 * sum + 9) / 18
    let d : Int := (m : Int) - v
    if d.natAbs ≤ bits (p 0x0F0) 15 0 then sat65535 (v + (d * (bits (p 0x0F0) 20 16 : Nat) + 8) / 16) else v

/-! ## Statistics (R392) -/

/-- First Aperture column or row of zone z of 16. -/
def zoneLo (n z : Nat) : Nat := z * n / 16

/-- The three folios of a tap. -/
def tapBytes (w h : Nat) (i : Img) : List Byte :=
  let zone := fun zx zy =>
    let xs := (List.range w).filter fun x => decide (zoneLo w zx ≤ x) && decide (x < zoneLo w (zx + 1))
    let ys := (List.range h).filter fun y => decide (zoneLo h zy ≤ y) && decide (y < zoneLo h (zy + 1))
    let fold := fun c (f : Nat → Nat) => ys.foldl (fun t y => xs.foldl (fun t x =>
      if cfaChan x y = c then t + f (imgAt i x y) else t) t) 0
    ([0, 1, 2, 3].flatMap fun c => leBytes 4 (fold c id)) ++
      ([0, 1, 2, 3].flatMap fun c => leBytes 2 (fold c fun v => if v = 65535 then 1 else 0)) ++ List.replicate 8 0
  let hist := (i.zip (List.range h)).foldl (fun (m : SMap Nat) row => (row.1.zip (List.range w)).foldl (fun m px =>
    if cfaChan px.2 row.2 = 1 || cfaChan px.2 row.2 = 2 then SMap.insert m (px.1 / 256) (SMap.get 0 m (px.1 / 256) + 1)
    else m) m) []
  ((List.range 256).flatMap fun z => zone (z % 16) (z / 16)) ++
    ((List.range 256).flatMap fun b => leBytes 4 (SMap.get 0 hist b)) ++ List.replicate 3072 0

/-- The sum of channels 1 and 2 of a zone of a tap's folios, for V0 (R405). -/
def zoneGreen (tap : List Byte) (z : Nat) : Nat := ofLe ((tap.drop (32 * z + 4)).take 4) + ofLe ((tap.drop (32 * z + 8)).take 4)

/-! ## Scalers and stored layouts (R391) -/

/-- Output pixel (u, v): the area-weighted mean, with 16 fractional bits, rounded to nearest with ties up. -/
def scalePixel (w h ow oh : Nat) (i : Img) (u v : Nat) : Nat :=
  let overlap := fun (n on a t : Nat) => min ((a + 1) * n) ((t + 1) * on) - max (a * n) (t * on)
  let xs := (List.range w).filter fun x => overlap w ow u x ≠ 0
  let ys := (List.range h).filter fun y => overlap h oh v y ≠ 0
  let s := ys.foldl (fun t y => xs.foldl (fun t x => t + overlap w ow u x * overlap h oh v y * imgAt i x y) t) 0
  (s * 65536 / max 1 (w * h) + 32768) / 65536

/-- A scaled plane. -/
def scaleImg (w h ow oh : Nat) (i : Img) : Img := mapImg ow oh fun u v => scalePixel w h ow oh i u v

/-- An 8-bit component. -/
def to8 (v : Nat) : Nat := min 255 ((v + 128) / 256)

/-- v / 65,535 in BF16 or FP16, to nearest-even. -/
def unitFloat (fmt v : Nat) : Nat :=
  let q := v * 2 ^ 64 / 65535
  let x : Fp.Val := .fin false (2 * q + b2n (v * 2 ^ 64 % 65535 ≠ 0)) (-65)
  ((if fmt = 1 then Fp.bf16 else Fp.fp16).round .nearest x).1

/-- A stored plane: every row padded to a multiple of 64 bytes, the plane to whole folios. -/
def planeBytes (rows : List (List Byte)) : List Byte :=
  let body := rows.flatMap fun r => r ++ List.replicate (cdiv r.length 64 * 64 - r.length) 0
  body ++ List.replicate (cdiv body.length 4096 * 4096 - body.length) 0

/-- Folios of a plane of a row size and a number of rows. -/
def planeFolios (rowBytes rows : Nat) : Nat := cdiv (cdiv rowBytes 64 * 64 * rows) 4096

/-- Fields of an output word. -/
def outEn (o : Nat) : Bool := bit o 31
def outKind (o : Nat) : Nat := bits o 30 29
def outFmt (o : Nat) : Nat := bits o 28 25
def outW (o : Nat) : Nat := bits o 23 12 + 1
def outH (o : Nat) : Nat := bits o 11 0 + 1

/-- Folios of an output (R391). -/
def outFolios (o : Nat) : Nat :=
  if !outEn o then 0
  else
    let w := outW o
    let h := outH o
    match outKind o with
    | 0 => planeFolios w h + planeFolios w (h / 2)
    | 1 => planeFolios (2 * (cdiv w 2 * 2)) h
    | 2 => 3 * planeFolios (w * (if outFmt o = 8 then 1 else 2)) h
    | _ => planeFolios w h

/-- Slot size in folios (R386). -/
def slotFolios (c : CamCfg) : Nat := 8 + (c.outs.map outFolios).foldl (· + ·) 0

/-- The bytes of one RGB planar component. -/
def rgbBytes (fmt v : Nat) : List Byte :=
  if fmt = 8 then [BitVec.ofInt 8 ((to8 v : Int) - 128)] else leBytes 2 (unitFloat fmt v)

/-- The bytes of an output: `rgb` are the planes of stage 8 and `ycc` those of stage 9, over the Aperture. -/
def outputBytes (c : CamCfg) (o : Nat) (rgb ycc : List Img) : List Byte :=
  let w := outW o
  let h := outH o
  let sc := fun (is : List Img) k => scaleImg c.aw c.ah w h (is.getD k [])
  let rowsOf := fun (i : Img) (f : Nat → List Byte) => i.map fun r => r.flatMap f
  let byte := fun v => [BitVec.ofNat 8 (to8 v)]
  if !outEn o then []
  else match outKind o with
    | 0 =>
      let cb := sc ycc 1
      let cr := sc ycc 2
      let mean := fun (i : Img) u v =>
        (imgAt i (2 * u) (2 * v) + imgAt i (2 * u + 1) (2 * v) + imgAt i (2 * u) (2 * v + 1) + imgAt i (2 * u + 1) (2 * v + 1)) / 4
      planeBytes (rowsOf (sc ycc 0) byte) ++
        planeBytes ((List.range (h / 2)).map fun v => (List.range (w / 2)).flatMap fun u => byte (mean cb u v) ++ byte (mean cr u v))
    | 1 =>
      let y := sc ycc 0
      let cb := sc ycc 1
      let cr := sc ycc 2
      planeBytes ((List.range h).map fun v => (List.range (cdiv w 2)).flatMap fun u =>
        let x1 := min (2 * u + 1) (w - 1)
        byte (imgAt y (2 * u) v) ++ byte ((imgAt cb (2 * u) v + imgAt cb x1 v) / 2) ++
          byte (imgAt y x1 v) ++ byte ((imgAt cr (2 * u) v + imgAt cr x1 v) / 2))
    | 2 => [0, 1, 2].flatMap fun k => planeBytes (rowsOf (sc rgb k) (rgbBytes (outFmt o)))
    | _ => planeBytes (rowsOf (sc ycc 0) byte)

/-! ## A whole frame -/

/-- What the pipe makes of a frame: the two taps, the planes of stage 8 and those of stage 9. -/
structure Piped where
  tap0 : List Byte
  tap1 : List Byte
  rgb : List Img
  ycc : List Img

/-- Run the pipe over a frame (R390). `draw` numbers the values that the spec does not state. -/
def pipeFrame (f : CamFrame) (draw : Nat) : Piped :=
  let c := CamCfg.of f.cfg
  let p := paramOf f.params c.stream
  let w := c.aw
  let h := c.ah
  let ap := mapImg w h fun x y => imgAt f.lines (c.x0 + x) (c.y0 + y)
  let none3 := List.replicate 12288 (0 : Byte)
  let late := fun (rgb : List Img) =>
    let rgb := (matrix p 0x040 0x054 w h rgb).map fun i => noise p w h (tone p w h i)
    (rgb, matrix p 0x100 0x114 w h rgb)
  if rawBits c.dt ≠ 0 then
    let s1 := blackLevel p w h ap
    let s3 := shading p c f.grid (defects p w h s1)
    let s4 := whiteBalance p w h s3
    let cfa := bits (p 0) 9 8
    let g := greenPlane cfa w h s4
    let (rgb, ycc) := late [colourPlane cfa 0 w h s4 g, g, colourPlane cfa 2 w h s4 g]
    ⟨tapBytes w h s1, tapBytes w h s3, rgb, ycc⟩
  else if c.dt = 0x24 then
    let comp := fun k => mapImg w h fun x y => imgAt ap x y / 256 ^ (2 - k) % 256 * 257
    let (rgb, ycc) := late [comp 0, comp 1, comp 2]
    ⟨none3, none3, rgb, ycc⟩
  else
    let luma := mapImg w h fun x y => imgAt ap x y / 256 * 257
    let chroma := fun k => mapImg w h fun x y => imgAt ap (x / 2 * 2 + k) y % 256 * 257
    let unstated := [0, 1, 2].map fun k => mapImg w h fun x y => Config.camUnstated draw k (y * w + x) % 65536
    ⟨none3, none3, unstated, [luma, chroma 0, chroma 1]⟩

end Sys2Proof.Machine
end

