-- ==== Sys2Proof/Machine/Camera.lean ====
section
/-! DEFINITION. Camera ports, streams and frames from Frame Start to delivery (R378 to R389, R393 to R396, R400), FSYNC
outputs and I3C controllers (R397 to R399). FRAME_DELIVER stands in Ladder, which scores the frame. -/

namespace Sys2Proof.Machine

def stCamBadStream : Nat := 0x0600
def stCamNoContext : Nat := 0x0601

/-- Key of a CSI register, and of a camera port's register. -/
def csiReg (off : Nat) : Nat := regKey 9 off
def camPortReg (n off : Nat) : Nat := csiReg (0x100 * n + off)

/-- A stream beyond its card. -/
def camStream (s : State) (n : Nat) : CamStream := SMap.get {} s.cam.streams n

/-- The camera blocks run: in RUN and IDLE, until an entry into another state begins (R400). -/
def camRuns (s : State) : Bool :=
  awake s && (match s.power.entering with | some e => decide (e.target ≤ 1) | none => true)

/-- Fabric time as the CSI ports stamp it (R30). -/
def camNow (s : State) : Nat := s.timeAt tbCsi

/-- A port receives: EN, its lanes out of ULPS, and the camera blocks run (R379, R400). -/
def camReceives (s : State) (port : Nat) : Bool :=
  port < 8 && camRuns s && s.fld (camPortReg port 0) 31 31 = 1 &&
    (s.fld (camPortReg port 4) 31 30 = 1 || s.fld (camPortReg port 4) 31 30 = 2)

/-- The card whose body is a camera's, as CamCfg. -/
def camCard (s : State) (n : Nat) : CamCfg := CamCfg.of ((List.range 32).map fun i => BitVec.ofNat 32 (cardW s n i))

/-- The enabled stream of a port and virtual channel. -/
def camOf (s : State) (port vc : Nat) : Option Nat :=
  (List.find? (fun c => cardKind s c.1 = 2 && cardEn s c.1 && (camCard s c.1).port = port && (camCard s c.1).vc = vc)
    s.sched.cards).map (·.1)

/-- The open frame of a stream. -/
def openFrame (s : State) (n : Nat) : Option CamFrame :=
  match (camStream s n).frames.getLast? with
  | some f => if f.fe.isNone then some f else none
  | none => none

/-- The watchdog expiry of a frame (R385). -/
def frameExpiry (f : CamFrame) : Nat := f.fs + (CamCfg.of f.cfg).fperiod * (CamCfg.of f.cfg).wdog * 125

/-- Whether a key is a parameter of ISP stream s. -/
def isParam (stream k : Nat) : Bool := decide (ispReg stream 0 ≤ k) && decide (k < ispReg stream 0x1000)

/-- The parameters in effect for a stream, and the mirror bank's. -/
def paramsNow (s : State) (stream : Nat) : SMap W32 := s.regs.filter fun r => isParam stream r.1
def paramsMirror (s : State) (stream : Nat) : SMap W32 := s.mirror.filter fun r => isParam stream r.1

namespace Run

variable {z : State}

/-- Replace camera state, or a stream's. -/
def setCam (r : Run z) (c : Cam) : Run z := r.put (.cam c)
def setStream (r : Run z) (n : Nat) (x : CamStream) : Run z :=
  r.setCam { r.s.cam with streams := SMap.set {} r.s.cam.streams n x }

/-- Replace the last frame of a stream. -/
def setFrame (r : Run z) (n : Nat) (f : CamFrame) : Run z :=
  let x := camStream r.s n
  r.setStream n { x with frames := x.frames.dropLast ++ [f] }

/-- A malformed packet is counted in a port counter by its index (R380); ECC2 and CRC are error events (R492). -/
def countCsi (r : Run z) (port i : Nat) : Run z :=
  let r := r.bump (camPortReg port (0x010 + 4 * i))
  r.when (i = 1 || i = 2) fun r => r.errEvent 10

/-- A header with a single-bit error was corrected. -/
def countEcc1 (r : Run z) (port : Nat) (ecc1 : Bool) : Run z := r.when ecc1 fun r => r.countCsi port 0

/-- Count a drop on the card in a half of a word that holds at 0xFFFF, with trace point 0x0201 (R387, R389, R396). -/
def countDrop (r : Run z) (n word : Nat) (hi : Bool) (f : CamFrame) : Run z :=
  let w := cardW r.s n word
  let w' := if hi then setBits w 31 16 (min 0xFFFF (bits w 31 16 + 1)) else setBits w 15 0 (min 0xFFFF (bits w 15 0 + 1))
  let r := (r.setHw n word w').errEvent 11
  r.trace 0x21 0x0201 ((CamCfg.of f.cfg).stream * 2 ^ 16 + f.fnum % 2 ^ 16)

/-- The frame at a place of a stream is dropped: an open one discards its further lines, a closed one is gone. -/
def removeFrame (r : Run z) (n i : Nat) (f : CamFrame) : Run z :=
  let x := camStream r.s n
  if f.fe.isNone then r.setStream n { x with frames := x.frames.set i { f with dropped := true, slots := [] } }
  else r.setStream n { x with frames := x.frames.eraseIdx i }

/-! ### ISP parameters (R393 to R395) -/

/-- A new set takes effect for stream s: its RWM fields, and the next generation. -/
def applySet (r : Run z) (stream : Nat) (set : SMap W32) : Run z :=
  let keys := ((paramsNow r.s stream).map (·.1) ++ set.map (·.1)).eraseDups
  let r := r.each keys fun k r =>
    match regDesc k with
    | none => r
    | some d =>
      let m := d.maskOf [.rwm]
      let cur := (r.s.reg k).toNat
      r.setRegN k ((cur - (cur &&& m)) + ((SMap.get (regReset k) set k).toNat &&& m))
  r.setFld (ispReg stream 0) 31 16 (r.s.fld (ispReg stream 0) 31 16 + 1)

/-- Whether the mirror bank of a stream differs from what is in effect. -/
def mirrorDiffers (s : State) (stream : Nat) : Bool :=
  ((paramsNow s stream).map (·.1) ++ (paramsMirror s stream).map (·.1)).any fun k =>
    match regDesc k with
    | none => false
    | some d => (s.reg k).toNat &&& d.maskOf [.rwm] ≠ (s.mir k).toNat &&& d.maskOf [.rwm]

/-- The frame takes the parameters in force, with its shading grid; false when the grid cannot be read (R393, R396). -/
def takeParams (r : Run z) (ctx : Nat) (f : CamFrame) : CamFrame × Bool × Run z :=
  let st := (CamCfg.of f.cfg).stream
  let ps := paramsNow r.s st
  let f := { f with params := ps, pgen := r.s.fld (ispReg st 0) 31 16 }
  if !bit (paramOf ps st 0) 1 then (f, true, r)
  else
    let va := paramOf ps st 0x024 + 2 ^ 32 * paramOf ps st 0x028
    match r.readBlock (ctxX r.s ctx) va 1768 with
    | (.ok v, r) => ({ f with grid := leBytes 1768 v }, true, r)
    | (.error _, r) => (f, false, r)

/-- Show the pending sets of an ISP stream in KSTAT. -/
def setPend (r : Run z) (stream : Nat) (l : List (Nat × SMap W32)) : Run z :=
  (r.setCam { r.s.cam with pend := SMap.set [] r.s.cam.pend stream l }).setFld (ispReg stream 8) 2 0 l.length

/-- A write of ISP_Ss_ARM: the mirror bank is copied into a free pending slot (R394). -/
def ispArm (r : Run z) (stream tag : Nat) : Run z :=
  let l := SMap.get [] r.s.cam.pend stream
  if l.length ≥ 4 then
    r.setFld (ispReg stream 8) 31 16 (min 0xFFFF (r.s.fld (ispReg stream 8) 31 16 + 1))
  else r.setPend stream (l ++ [(tag, paramsMirror r.s stream)])

/-- The sensor counter in the embedded data held so far (R395). -/
def sensorCount (f : CamFrame) : Option Nat :=
  let c := CamCfg.of f.cfg
  let b := (f.emb.drop c.fcntOfs).take c.fcntLen
  if !c.fcntEn || f.emb.isEmpty || b.length < c.fcntLen then none
  else some (ofLe (if c.fcntLe then b else b.reverse))

/-- Before the first Aperture line the keyed set of the frame is chosen (R395). -/
def chooseKeyed (r : Run z) (n ctx : Nat) (f : CamFrame) : CamFrame × Bool × Run z :=
  let c := CamCfg.of f.cfg
  if f.keyed then (f, true, r)
  else
    let count := sensorCount f
    let missing := c.fcntEn && count.isNone
    let f := { f with keyed := true, sfcnt := count.getD 0, embMissing := missing, unkeyed := missing }
    if !c.keyed then (f, true, r)
    else match count with
      | none => r.takeParams ctx { f with unkeyed := true, embMissing := true }
      | some v =>
        let m := 2 ^ (8 * c.fcntLen)
        let l := SMap.get [] r.s.cam.pend c.stream
        let hit := l.find? fun t => t.1 % m = v
        let stale := fun (t : Nat × SMap W32) =>
          let d := (v + m - t.1 % m) % m
          decide (1 ≤ d) && decide (d ≤ m / 2)
        let gone := (l.filter stale).length
        let rest := l.filter fun t => !stale t && t.1 % m ≠ v
        let w := cardW r.s n 18
        let r := r.when (gone ≠ 0) fun r => r.setHw n 18 (setBits w 15 0 (min 0xFFFF (bits w 15 0 + gone)))
        let r := r.setPend c.stream rest
        match hit with
        | some t => (r.applySet c.stream t.2).takeParams ctx f
        | none => r.takeParams ctx { f with unkeyed := !l.isEmpty }

/-! ### Closing and dropping -/

/-- A frame closes: missing lines are padded, and the keyed set chosen if no Aperture line did (R384, R385, R400). -/
def closeFrame (r : Run z) (n t : Nat) (late cut short : Bool) : Run z :=
  match openFrame r.s n with
  | none => r
  | some f =>
    let c := CamCfg.of f.cfg
    let x := camStream r.s n
    if f.dropped then r.setStream n { x with frames := x.frames.dropLast }
    else
      let (f, ok, r) := r.chooseKeyed n (cardCtx r.s n) f
      let miss := c.height - f.lines.length
      let f := { f with
        lines := f.lines ++ List.replicate miss (List.replicate c.width (padPixel c))
        padN := miss, fe := some t, late := late, cut := cut, short := short }
      if ok then r.setFrame n f
      else
        let x := camStream r.s n
        ((r.setStream n { x with frames := x.frames.dropLast, dropUe := x.dropUe + 1 }).countDrop n 18 true f)

/-- The frames of a pipe that hold slots, with their cards and places. -/
def slotHolders (s : State) (pipe : Nat) : List (Nat × Nat × CamFrame) :=
  s.cam.streams.flatMap fun st =>
    ((List.range st.2.frames.length).zip st.2.frames).filterMap fun x =>
      if x.2.slots ≠ [] && (CamCfg.of x.2.cfg).pipe = pipe then some (st.1, x.1, x.2) else none

/-- The frame that a pipe's overflow drops: of the lowest PRIO, then the higher stream number (R389). -/
def overflowVictim (s : State) (pipe : Nat) : Option (Nat × Nat × CamFrame) :=
  (slotHolders s pipe).foldl (fun best x =>
    match best with
    | none => some x
    | some b =>
      let px := bits ((x.2.2.cfg.getD 1 0).toNat) 7 0
      let pb := bits ((b.2.2.cfg.getD 1 0).toNat) 7 0
      if px < pb || (px = pb && decide ((CamCfg.of x.2.2.cfg).stream > (CamCfg.of b.2.2.cfg).stream)) then some x else best) none

end Run

/-! ## The pipe (R388, R389) -/

/-- The line that a pipe reads next: the earliest completed, then the lower stream number. -/
def nextLine (s : State) (pipe : Nat) : Option (Nat × Nat × CamFrame × Nat) :=
  (Run.slotHolders s pipe).foldl (fun best x =>
    match x.2.2.slots with
    | [] => best
    | t :: _ => match best with
      | none => some (x.1, x.2.1, x.2.2, t)
      | some b =>
        if t < b.2.2.2 || (t = b.2.2.2 && decide ((CamCfg.of x.2.2.cfg).stream < (CamCfg.of b.2.2.1.cfg).stream)) then
          some (x.1, x.2.1, x.2.2, t)
        else best) none

/-- When a pipe starts to read a line that completed at t, and when it has read it: ceil(AW / 2) + 8 cycles of 480 MHz. -/
def readFrom (s : State) (pipe t : Nat) : Nat := max t (SMap.get 0 s.cam.pipeFree pipe)
def readEnds (s : State) (pipe : Nat) (f : CamFrame) (t : Nat) : Nat :=
  readFrom s pipe t + cdiv ((cdiv (CamCfg.of f.cfg).aw 2 + 8) * 1000) 480

/-- Nanoseconds that a line's payload takes on its port's lanes, with 8 to 24 bits a pixel. -/
def lineTime (s : State) (port dt n : Nat) : Nat :=
  let cfg := (s.reg (camPortReg port 0)).toNat
  let bpp := if rawBits dt ≠ 0 then rawBits dt else if dt = 0x1E then 16 else 24
  cdiv (n * bpp * 1000) (2 ^ bits cfg 30 29 * max 1 (bits cfg 23 12))

namespace Run

variable {z : State}

/-- A pipe finishes its next line, when it has read it by now (R388). -/
def readLine (r : Run z) (pipe : Nat) : Run z :=
  match nextLine r.s pipe with
  | none => r
  | some (n, i, f, t) =>
    let ends := readEnds r.s pipe f t
    if r.s.now < ends then r
    else
      let x := camStream r.s n
      let r := r.setStream n { x with frames := x.frames.set i { f with slots := f.slots.drop 1 } }
      r.setCam { r.s.cam with pipeFree := SMap.set 0 r.s.cam.pipeFree pipe ends }

/-- A frame is dropped on a pipe's overflow, and counted on its card; a line of it that the pipe is reading is stopped (R389). -/
def dropOverflow (r : Run z) (n i : Nat) (f : CamFrame) : Run z :=
  let pipe := (CamCfg.of f.cfg).pipe
  let r := match nextLine r.s pipe with
    | some (m, j, _, t) =>
      r.when (m = n && j = i && decide (readFrom r.s pipe t ≤ r.s.now)) fun r =>
        r.setCam { r.s.cam with pipeFree := SMap.set 0 r.s.cam.pipeFree pipe r.s.now }
    | none => r
  let r := r.removeFrame n i f
  let x := camStream r.s n
  (r.setStream n { x with dropOvf := x.dropOvf + 1 }).countDrop n 17 true f

/-- A line of the Aperture that begins to arrive takes a slot and completes at `t`; the fourth slot, or a fifth line, drops a frame
(R388, R389). The lines that the pipe has read by now have left their slots. -/
def takeSlot (r : Run z) (n t : Nat) : Run z :=
  match openFrame r.s n with
  | none => r
  | some f =>
    let pipe := (CamCfg.of f.cfg).pipe
    let r := r.each (List.range 32) fun _ r => r.readLine pipe
    let x := camStream r.s n
    let f := (openFrame r.s n).getD f
    let held := x.frames.foldl (fun m g => m + g.slots.length) 0
    if held ≥ 4 then r.dropOverflow n (x.frames.length - 1) f
    else
      let r := r.setFrame n { f with slots := f.slots ++ [t] }
      if held < 3 then r
      else match overflowVictim r.s pipe with
        | some v => r.dropOverflow v.1 v.2.1 v.2.2
        | none => r

end Run

/-! ## Packets (R380 to R385, R395) -/

/-- CSI_LINE: a long packet of image data begins to arrive, as the pixels it holds (R380, R384, R388, R389). Its line is complete once
the payload has passed on the port's lanes. -/
def execCsiLine (port vc dt : Nat) (px : List Nat) (crcOk ecc1 : Bool) (s : State) : Host.Outcome State Fault Refusal :=
  let r := Run.start s
  if !camReceives s port then done r
  else
    let r := r.countEcc1 port ecc1
    if !imageType dt then done (r.countCsi port 3)
    else match camOf s port vc with
      | none => done (r.countCsi port 4)
      | some n =>
        let r := r.when (!crcOk) fun r => r.countCsi port 2
        match openFrame r.s n with
        | none => if (camCard s n).dt ≠ dt then done (r.countCsi port 4) else done (r.countCsi port 5)
        | some f =>
          let c := CamCfg.of f.cfg
          if c.dt ≠ dt then done (r.countCsi port 4)
          else if camNow s > frameExpiry f then done ((r.closeFrame n (frameExpiry f) true false false).countCsi port 5)
          else if f.dropped then done r
          else if f.lines.length ≥ c.height then
            done (r.setFrame n { f with cutN := f.cutN + 1, crcN := f.crcN + b2n (!crcOk) })
          else
            let y := f.lines.length
            let inAp := decide (c.y0 ≤ y) && decide (y < c.y0 + c.ah)
            let (f, ok, r) := if inAp then r.chooseKeyed n (cardCtx r.s n) f else (f, true, r)
            let line := sizeLine c (px.map (unpackPixel dt))
            let f := { f with
              lines := f.lines ++ [line], shortN := f.shortN + b2n (px.length < c.width)
              longN := f.longN + b2n (px.length > c.width), crcN := f.crcN + b2n (!crcOk) }
            let r := r.setFrame n f
            if !ok then
              let x := camStream r.s n
              let r := r.removeFrame n (x.frames.length - 1) f
              let x := camStream r.s n
              done ((r.setStream n { x with dropUe := x.dropUe + 1 }).countDrop n 18 true f)
            else done (r.when inAp fun r => r.takeSlot n (s.now + lineTime s port dt px.length))

/-- EMBEDDED_DATA_PACKET: kept up to 4,096 bytes, and read for the sensor counter (R386, R387, R395); a payload whose CRC fails is
counted (R380). -/
def execEmbeddedDataPacket (port vc : Nat) (data : List Byte) (found : PacketCheck) (s : State) :
    Host.Outcome State Fault Refusal :=
  let r := Run.start s
  if !camReceives s port then done r
  else
    let r := r.countEcc1 port found.ecc1
    match camOf s port vc with
    | none => done (r.countCsi port 4)
    | some n =>
      let r := r.when (!found.crcOk) fun r => r.countCsi port 2
      match openFrame s n with
      | none => done (r.countCsi port 5)
      | some f =>
        if camNow s > frameExpiry f then done ((r.closeFrame n (frameExpiry f) true false false).countCsi port 5)
        else if f.dropped then done r
        else
          let all := f.emb ++ data
          done (r.setFrame n { f with emb := all.take 4096, embCut := f.embCut || decide (all.length > 4096) })

/-- CAMERA_FRAME_END: closes the open frame; one after the watchdog expired is an orphan (R380, R385). -/
def execCameraFrameEnd (port vc : Nat) (ecc1 : Bool) (s : State) : Host.Outcome State Fault Refusal :=
  let r := Run.start s
  if !camReceives s port then done r
  else
    let r := r.countEcc1 port ecc1
    match camOf s port vc with
    | none => done (r.countCsi port 4)
    | some n =>
      match openFrame s n with
      | none => done (r.countCsi port 5)
      | some f =>
        if camNow s > frameExpiry f then done ((r.closeFrame n (frameExpiry f) true false false).countCsi port 5)
        else done (r.closeFrame n (camNow s) false false false)

/-- FRAME_WATCHDOG_EXPIRY: no Frame End was stamped at or before the expiry (R385). -/
def execFrameWatchdogExpiry (n : Nat) (s : State) : Host.Outcome State Fault Refusal :=
  let r := Run.start s
  match openFrame s n with
  | none => done r
  | some f => if camRuns s && decide (camNow s > frameExpiry f) then done (r.closeFrame n (frameExpiry f) true false false) else done r

/-- CSI_PACKET_DISCARD: an uncorrectable header (0), an unsupported data type (1), or no enabled stream (2) (R380). -/
def execCsiPacketDiscard (port cause : Nat) (s : State) : Host.Outcome State Fault Refusal :=
  let r := Run.start s
  if !camReceives s port then done r
  else match cause with
    | 0 => done (r.countCsi port 1)
    | 1 => done (r.countCsi port 3)
    | _ => done (r.countCsi port 4)

/-- CSI_LINK_STATE_CHANGE: an enabled port's lanes move to DOWN, STOP, ACTIVE or ULPS, and deskew calibration may have
completed, which applies from 1,500 Mb/s (R378, R379). -/
def execCsiLinkStateChange (port link : Nat) (deskewed : Bool) (s : State) : Host.Outcome State Fault Refusal :=
  let r := Run.start s
  if port ≥ 8 || link ≥ 4 || !camRuns s || s.fld (camPortReg port 0) 31 31 = 0 then done r
  else
    let r := r.setFld (camPortReg port 4) 31 30 link
    if deskewed && decide (s.fld (camPortReg port 0) 23 12 ≥ 1500) then done (r.setFld (camPortReg port 4) 29 29 1)
    else done r

/-- ISP_LINE_PROCESS: a pipe finishes reading its next line (R388). -/
def execIspLineProcess (pipe : Nat) (s : State) : Host.Outcome State Fault Refusal :=
  let r := Run.start s
  if camRuns s then done (r.readLine pipe) else done r

/-! ## Delivery (R386, R387) -/

/-- The descriptor of a closed frame. -/
def frameDesc (x : CamStream) (f : CamFrame) : List Byte :=
  let c := CamCfg.of f.cfg
  let flag := fun (b : Bool) i => b2n b * 2 ^ i
  let flags := flag (f.shortN > 0) 0 + flag (f.longN > 0) 1 + flag (f.padN > 0 || f.short || f.cut) 2 + flag (f.cutN > 0) 3 +
    flag f.late 4 + flag (f.crcN > 0) 5 + flag f.embMissing 6 + flag f.unkeyed 7 + flag f.cut 8 + flag f.embCut 9
  let h := fun n => min n 0xFFFF
  let o0 := outFolios (c.outs.getD 0 0)
  let first0 := if outEn (c.outs.getD 0 0) then 8 else 0
  let first1 := if outEn (c.outs.getD 1 0) then 8 + o0 else 0
  leBytes 4 flags ++ leBytes 4 (h f.shortN * 2 ^ 16 + h f.longN) ++ leBytes 4 (h f.padN * 2 ^ 16 + h f.cutN) ++
    leBytes 4 (h f.crcN * 2 ^ 16 + f.emb.length) ++ leBytes 8 f.fs ++ leBytes 8 (f.fe.getD 0) ++
    leBytes 4 (f.fnum % 2 ^ 16) ++ leBytes 4 f.sfcnt ++ leBytes 4 f.seq ++ leBytes 4 f.pgen ++
    leBytes 4 (min 255 x.dropOvf * 2 ^ 24 + min 255 x.dropFull * 2 ^ 16 + min 255 x.dropUe * 2 ^ 8) ++
    leBytes 4 (first1 * 2 ^ 16 + first0) ++ leBytes 8 0

namespace Run

variable {z : State}

/-- Deliver the oldest closed frame of a stream whose lines have all been read: outputs, statistics and embedded data,
then the descriptor, then the produced index and EVT_TALLY (R387). The frame and its tap-1 statistics, if it was. -/
def frameDeliver (r : Run z) (n : Nat) : Option (CamFrame × List Byte) × Run z :=
  let x := camStream r.s n
  match x.frames with
  | [] => (none, r)
  | f :: rest =>
    if f.fe.isNone || f.slots ≠ [] then (none, r)
    else
      let c := CamCfg.of f.cfg
      let (w, r) := r.draw
      let p := pipeFrame f w.toNat
      let outs := c.outs.flatMap fun o => outputBytes c o p.rgb p.ycc
      let emb := f.emb ++ List.replicate (4096 - f.emb.length) 0
      let idx := cardW r.s n 16
      let prod := bits idx 15 0
      let va := c.ring + prod % 2 ^ c.log2n * (c.slotf * 4096)
      let ctx := ctxX r.s (cardCtx r.s n)
      let lost := fun (r : Run z) =>
        (none, (r.setStream n { x with frames := rest, dropUe := x.dropUe + 1 }).countDrop n 18 true f)
      match r.writeVirtBytes ctx (va + 4096) (p.tap0 ++ p.tap1 ++ emb ++ outs) with
      | .error _ => lost r
      | .ok r => match r.writeVirtBytes ctx va (frameDesc x f ++ List.replicate 4032 0) with
        | .error _ => lost r
        | .ok r =>
          let r := r.setStream n { x with frames := rest, dropOvf := 0, dropFull := 0, dropUe := 0 }
          let r := r.setHw n 16 (bits idx 31 16 * 2 ^ 16 + (prod + 1) % 65536)
          let r := (r.bumpHw n 19).trace 0x21 0x0201 (c.stream * 2 ^ 16 + f.fnum % 2 ^ 16)
          (some (f, p.tap1), r.cardEvent n)

/-- A consumed index for a camera stream: accepted up to the produced one (R383). -/
def csiConsume (r : Run z) (n v : Nat) : Run z :=
  let idx := cardW r.s n 16
  let cons := bits idx 31 16
  let prod := bits idx 15 0
  if (v + 65536 - cons) % 65536 ≤ (prod + 65536 - cons) % 65536 then r.setHw n 16 (v * 2 ^ 16 + prod)
  else r.bump (schedReg 0x030)

/-- A write of CSI_RING_DB (R383). -/
def csiRingDb (r : Run z) (v : Nat) : Run z :=
  let n := bits v 29 16
  if bit v 30 && cardEn r.s n && cardKind r.s n = 2 then r.csiConsume n (bits v 15 0) else r.bump (schedReg 0x030)

/-- A write of CSI_Pn_CFG: LANES or RATE may not change while EN is 1 (R379). DESKEWED counts from the setting of EN. -/
def writeCamPort (r : Run z) (port v : Nat) : Run z :=
  let k := camPortReg port 0
  let old := (r.s.reg k).toNat
  if bit old 31 && (bits v 30 29 ≠ bits old 30 29 || bits v 23 12 ≠ bits old 23 12) then r
  else
    let r := r.setRegN k (v &&& 0xF0FFF000)
    let r := r.when (bit v 31 && !bit old 31) fun r => r.setFld (camPortReg port 4) 29 29 0
    r.when (!bit v 31) fun r => r.setFld (camPortReg port 4) 31 30 0

end Run

/-- A camera card holds a value that does not occur, a misaligned ring or a set RSV bit (R276, R381). -/
def cameraBad (ws : List Nat) : Bool :=
  let w := fun i => ws.getD i 0
  let c := CamCfg.of (ws.map (BitVec.ofNat 32 ·))
  bits (w 4) 15 14 > 1 || bits (w 4) 13 12 > 1 || bits (w 4) 11 0 ≠ 0 ||
    bits (w 5) 31 28 ≠ 0 || bits (w 5) 15 12 ≠ 0 ||
    bits (w 6) 31 28 ≠ 0 || bits (w 6) 15 12 ≠ 0 || c.x0 % 2 ≠ 0 || c.y0 % 2 ≠ 0 ||
    bits (w 7) 31 28 ≠ 0 || bits (w 7) 15 12 ≠ 0 || c.aw % 2 ≠ 0 || c.ah % 2 ≠ 0 || c.aw < 16 ||
    bits (w 8) 31 16 ≠ 0 || (rawBits c.dt ≠ 0 && c.padVal ≥ 2 ^ rawBits c.dt) || c.fperiod < 1000 ||
    bits (w 9) 7 5 ≠ 0 || (1 ≤ bits (w 9) 4 0 && bits (w 9) 4 0 ≤ 8) || bits (w 10) 27 12 ≠ 0 ||
    c.outs.any (fun o => bit o 24) || w 13 % 4096 ≠ 0 || bits (w 15) 31 28 ≠ 0 || bits (w 15) 23 20 ≠ 0 ||
    c.log2n < 1 || c.log2n > 8 || (ws.drop 20).any (· ≠ 0)

/-- The body check of a camera card at its take-up (R381, R401). -/
def cameraBody (s : State) (n : Nat) (ws : List Nat) (x : XCtx) : Nat :=
  let c := CamCfg.of (ws.map (BitVec.ofNat 32 ·))
  let en := bit (ws.getD 0 0) 27
  let others := s.sched.cards.filter fun o => o.1 ≠ n && cardKind s o.1 = 2 && cardEn s o.1
  let size := 2 ^ c.log2n * c.slotf * 4096
  let badRing := en && !(mapped s x .store c.ring size && mapped s x .load c.ring size)
  let badOut := fun o => outEn o && (decide (outW o * 16 < c.aw) || decide (outW o > c.aw) || decide (outH o * 16 < c.ah) ||
    decide (outH o > c.ah) || (outKind o = 0 && (outW o % 2 ≠ 0 || outH o % 2 ≠ 0)) ||
    (if outKind o = 2 then !([8, 1, 2].contains (outFmt o)) else outFmt o ≠ 0))
  let badStream := en && others.any (fun o => (camCard s o.1).stream = c.stream ||
      ((camCard s o.1).port = c.port && (camCard s o.1).vc = c.vc)) || c.dt = 0x12 ||
    c.width % 2 ≠ 0 || c.width < 16 || c.height < 2 ||
    c.x0 + c.aw > c.width || c.y0 + c.ah > c.height || c.outs.any badOut || c.fcntOfs + c.fcntLen > 4096 ||
    (c.keyed && !c.fcntEn) || c.slotf < slotFolios c
  let full := en && decide ((others.filter fun o => (camCard s o.1).pipe = c.pipe).length ≥ 8)
  if badRing then stBounds
  else if badStream then stCamBadStream
  else if full then stCamNoContext
  else stOk

/-! ## FSYNC and I3C (R397 to R399) -/

/-- An FSYNC output is high: in its pulse level for WIDTH from each leading edge, or all the time where WIDTH is at or above PERIOD,
and at its idle level while EN is 0 or the camera blocks are stopped (R397, R400). -/
def fsyncHigh (s : State) (k : Nat) : Bool :=
  let ctrl := (s.reg (csiReg (0x2000 + 0x20 * k))).toNat
  let f := SMap.get {} s.cam.fsync k
  let width := bits ctrl 15 0 * 1000
  let pulse := bit ctrl 31 && camRuns s && (match f.last with
    | some t => decide (f.period ≤ width) || decide (s.now < t + width)
    | none => false)
  pulse ≠ bit ctrl 30

/-- First edge of a train at or after a time. -/
def edgeFrom (phase period t : Nat) : Nat := if t ≤ phase then phase else phase + cdiv (t - phase) period * period

namespace Run

variable {z : State}

/-- A new PERIOD or PHASE waits for the first edge of its train at least 1 µs after the write (R397). -/
def fsyncWritten (r : Run z) (k : Nat) : Run z :=
  let f := SMap.get {} r.s.cam.fsync k
  let period := (r.s.reg (csiReg (0x2004 + 0x20 * k))).toNat
  let phase := r.s.reg64 (csiReg (0x2008 + 0x20 * k))
  r.setCam { r.s.cam with fsync := SMap.set {} r.s.cam.fsync k { f with pend := some (period, phase, r.s.now + 1000) } }

/-- GO of an I3C transfer; ignored while BUSY. DONE and NACK clear (R398). -/
def i3cGo (r : Run z) (k xfer : Nat) : Run z :=
  let st := csiReg (0x3010 + 0x100 * k)
  if r.s.fld st 31 31 = 1 then r
  else
    let r := r.setRegN st ((r.s.reg st).toNat &&& 2 ||| 2 ^ 31)
    let r := r.setFld (csiReg (0x3004 + 0x100 * k)) 31 31 1
    r.setCam { r.s.cam with i3c := SMap.insert r.s.cam.i3c k { xfer := xfer, at_ := r.s.reg64 (csiReg (0x3008 + 0x100 * k)) } }

end Run

/-- FSYNC_EDGE: a leading edge of the train in force, or the first of a new one (R397). -/
def execFsyncEdge (k : Nat) (s : State) : Host.Outcome State Fault Refusal :=
  let r := Run.start s
  let f := SMap.get {} s.cam.fsync k
  let set := fun (f : Fsync) => r.setCam { s.cam with fsync := SMap.set {} s.cam.fsync k f }
  if k ≥ 8 || !camRuns s || s.fld (csiReg (0x2000 + 0x20 * k)) 31 31 = 0 then done r
  else
    let after := match f.last with | some t => t + 1 | none => 0
    let switch := match f.pend with
      | some (p, ph, t0) => if p ≥ 1000 && edgeFrom ph p (max t0 after) ≤ s.now then some (p, ph, edgeFrom ph p (max t0 after)) else none
      | none => none
    match switch with
    | some (p, ph, e) => done (set { period := p, phase := ph, pend := none, last := some e })
    | none =>
      if f.period ≥ 1000 && edgeFrom f.phase f.period after ≤ s.now then
        done (set { f with last := some (edgeFrom f.phase f.period after) })
      else done r

/-- I3C_XFER_START: the START is driven at the first SCL boundary at or after AT; one more than 10 µs after it sets LATE
(R399). -/
def execI3cXferStart (k : Nat) (s : State) : Host.Outcome State Fault Refusal :=
  let r := Run.start s
  match SMap.find? s.cam.i3c k with
  | none => done r
  | some x =>
    if x.started || !fwRuns s 2 || !camRuns s || s.fld (csiReg (0x3000 + 0x100 * k)) 31 31 = 0 || s.now < x.at_ then done r
    else
      let r := r.setCam { s.cam with i3c := SMap.insert s.cam.i3c k { x with started := true } }
      done (r.when (x.at_ ≠ 0 && decide (s.now > x.at_ + 10000)) fun r => r.setFld (csiReg (0x3010 + 0x100 * k)) 1 1 1)

/-- I3C_XFER_DONE: the transfer ends with DONE or NACK; a read leaves its LEN bytes in DATA (R398). -/
def execI3cXferDone (k : Nat) (nack : Bool) (data : List Byte) (s : State) : Host.Outcome State Fault Refusal :=
  let r := Run.start s
  match SMap.find? s.cam.i3c k with
  | none => done r
  | some x =>
    if !x.started || !fwRuns s 2 || !camRuns s then done r
    else
      let r := r.setCam { s.cam with i3c := SMap.erase s.cam.i3c k }
      let st := csiReg (0x3010 + 0x100 * k)
      let r := r.setFld st 31 31 0
      let r := if nack then r.setFld st 2 2 1 else r.setFld st 0 0 1
      let r := r.setFld (csiReg (0x3004 + 0x100 * k)) 31 31 0
      if bit x.xfer 30 && !nack then
        done (r.each (List.range (bits x.xfer 13 8)) fun i r =>
          r.setFld (csiReg (0x3020 + 0x100 * k + 4 * (i / 4))) (8 * (i % 4) + 7) (8 * (i % 4)) (data.getD i 0).toNat)
      else done r

end Sys2Proof.Machine
end

