-- ==== Sys2Proof/Machine/Ladder.lean ====
section
/-! DEFINITION. The ladders (R403 to R421), Loupe and Lens (R371 to R373, R377), the mute path (R354, R355), and the
delivery of frames to the looking ladders. -/

namespace Sys2Proof.Machine

/-! ## The table and its ladders -/

/-- Key of an AUD_LAD register. -/
def ladReg (off : Nat) : Nat := audReg (0x600 + off)

/-- Fields of an entry's CTL. -/
def ladThresh (s : State) (e : Nat) : Nat := bits (ladW s e 0) 31 24
def ladHyst (s : State) (e : Nat) : Nat := bits (ladW s e 0) 23 16
def ladMinrun (s : State) (e : Nat) : Nat := bits (ladW s e 0) 15 12

/-- A pair of words of an entry as an address. -/
def ladAddr (s : State) (e i : Nat) : Nat := ladW s e i + 2 ^ 32 * ladW s e (i + 1)

/-- The base rung of a ladder. -/
def baseRung (key : Nat) : Nat := if key < 16 then 0 else 0x10

/-- A ladder's rung is ONCE: the island rungs and V0 are not. -/
def onceRung (s : State) (rung : Nat) : Bool := !([0, 1, 0x10].contains rung) && ladMode s (ladEntry rung) = 0

/-- The power state a rung needs: 0 RUN, 1 IDLE, none for the others (R403). -/
def rungNeeds (rung : Nat) : Option Nat :=
  match rung with
  | 2 => some 1
  | 3 => some 0
  | 4 => some 0
  | 0x11 => some 1
  | 0x12 => some 0
  | 0x13 => some 0
  | _ => none

/-- The ladder of a key. -/
def ladder? (s : State) (k : Nat) : Option Ladder := SMap.find? s.lad.ladders k

/-- A listening ladder on A3 or A4 links a stream: the stream's bit is set in LINK of that rung (R407, R411). -/
def linkedBy (s : State) (rung stream : Nat) : Bool :=
  (s.lad.ladders.any fun kl => kl.1 < 16 && kl.2.rung = rung) && bit (ladW s rung 10) stream
def streamLinked (s : State) (stream : Nat) : Bool := linkedBy s 3 stream || linkedBy s 4 stream

/-- A SERVICE parcel of a rung is still in flight, so that the rung is not entered again (R410). -/
def rungBusy (l : Ladder) (rung : Nat) : Bool := l.subs.any fun b => b.service && b.rung = rung

/-- The highest lower rung that is not ONCE, and that can be entered (R408). -/
def lowerRung (s : State) (k : Nat) (l : Ladder) : Nat :=
  let base := baseRung k
  ((List.range (l.rung - base)).reverse.map (base + ·)).find? (fun r => r = base || (!onceRung s r && !rungBusy l r))
    |>.getD base

/-- When a ladder's demotion timer expires, if it keeps one (R408). A linked stream's V2 keeps none (R411); DEMOTE 0 comes
down at an evaluation instead (R422), and A1's timer is Loupe's. -/
def demotionAt (s : State) (k : Nat) (l : Ladder) : Option Nat :=
  let demote := ladW s (ladEntry l.rung) 1
  if l.rung = baseRung k || l.rung = 1 || onceRung s l.rung || demote = 0 || (l.rung = 0x12 && streamLinked s (k % 16)) then none
  else some (l.hold + demote * 1000000)

/-- The oldest archive index that a copy still accepts (R362). -/
def oldestIndex (s : State) : Nat := 512 * (archNewest s / 512 - 1 - min (archRows s - 1) 248)

/-- Loupe activity continues on an array. -/
def loupeActive (s : State) (n : Nat) : Bool :=
  match SMap.find? s.aud.loupe n with
  | some l => l.active
  | none => false

namespace Run

variable {z : State}

/-- Replace ladder state, or one ladder. -/
def setLad (r : Run z) (x : Lad) : Run z := r.put (.lad x)
def setLadder (r : Run z) (k : Nat) (l : Ladder) : Run z :=
  r.setLad { r.s.lad with ladders := SMap.insert r.s.lad.ladders k l }

/-- Show a ladder's rung code (R403). -/
def showRung (r : Run z) (k code : Nat) : Run z :=
  let n := k % 16
  let reg := if k < 16 then ladReg 0x28 else ladReg (0x2C + 4 * (n / 4))
  r.setFld reg (8 * (n % 4) + 7) (8 * (n % 4)) code

/-! ## Tickets (R412 to R414) -/

/-- Show the tickets waiting in the island. -/
def showQueue (r : Run z) : Run z := r.setFld (ladReg 0x20) 4 0 r.s.lad.queue.length

/-- The sensor processor can move a ticket: EN, and room in the ring. -/
def ringRoom (s : State) : Bool :=
  let idx := (s.reg (ladReg 0x18)).toNat
  fwRuns s 2 && s.fld (ladReg 0) 31 31 = 1 &&
  decide ((bits idx 15 0 + 65536 - bits idx 31 16) % 65536 < 2 ^ s.fld (ladReg 0) 3 0)

/-- Write a ticket into the ring, its header last, then the produced index and the tally (R413). One whose slot cannot be
written is lost. -/
def ringTicket (r : Run z) (w : List W32) : Run z :=
  let idx := (r.s.reg (ladReg 0x18)).toNat
  let prod := bits idx 15 0
  let va := r.s.reg64 (ladReg 0xC) + 64 * (prod % 2 ^ r.s.fld (ladReg 0) 3 0)
  let body := (w.drop 1).flatMap fun x => leBytes 4 x.toNat
  match r.writeVirtBytes (ladX r.s) (va + 4) body with
  | .error _ => (r.bump (ladReg 0x24)).setLad { r.s.lad with lostBefore := true }
  | .ok r =>
    let r := r.tryWrite (ladX r.s) va 4 (w.headD 0).toNat
    let r := r.setRegN (ladReg 0x18) (bits idx 31 16 * 2 ^ 16 + (prod + 1) % 65536)
    let src := bits (w.headD 0).toNat 11 8
    let key := if bits (w.headD 0).toNat 31 24 < 16 && bits (w.headD 0).toNat 23 16 < 16 then src else 16 + src
    let r := r.setLad { r.s.lad with ringed := r.s.lad.ringed ++ [(key, (w.getD 10 0).toNat)] }
    r.deviceAdd (r.s.reg (ladReg 0x14)).toNat

/-- Queue a ticket in the island, or lose it (R413). -/
def queueTicket (r : Run z) (w : List W32) : Run z :=
  if r.s.lad.queue.length ≥ 16 then (r.bump (ladReg 0x24)).setLad { r.s.lad with lostBefore := true }
  else (r.setLad { r.s.lad with queue := r.s.lad.queue ++ [w] }).showQueue

/-- Write a ticket: Lens into the island queue, the sensor processor straight to the ring while nothing waits. -/
def writeTicket (r : Run z) (lens : Bool) (w : List W32) : Run z :=
  if !lens && r.s.lad.queue.isEmpty && ringRoom r.s then r.ringTicket w else r.queueTicket w

/-- The ticket of a ladder's move from a rung: its words, numbered (R412). `flags` are bits 2 to 5 and 7 of FLAGS. -/
def makeTicket (r : Run z) (k frm : Nat) (l : Ladder) (ev : LEval) (flags : Nat) : List W32 × Run z :=
  let promote := decide (l.rung > frm)
  let x := r.s.lad
  let a := k < 16
  let lo := fun n => n % 2 ^ 32
  let hi := fun n => n / 2 ^ 32
  let fl := b2n ev.clamped + 2 * b2n l.deep + flags + 64 * b2n x.lostBefore + 2 ^ 8 * (min 3 (powerState r.s)) + 2 ^ 12 * ev.beam
  let ws : List Nat := [
    l.rung * 2 ^ 24 + frm * 2 ^ 16 + (if promote then 0 else 2 ^ 12) + k % 16 * 2 ^ 8 + ev.score, x.tseq,
    lo ev.stamp, hi ev.stamp, if a then lo l.start else 0, if a then hi l.start else 0,
    if a then lo l.stop else 0, if a then hi l.stop else 0, fl,
    if a then 0 else ev.fseq, if a then 0 else ev.fslot, ev.aux, ev.box0, ev.box1, 0, 0]
  (ws.map (BitVec.ofNat 32 ·), r.setLad { x with tseq := x.tseq + 1, lostBefore := false })

/-! ## Submission (R410, R415) -/

/-- An evaluation joins those that wait for the sensor processor. -/
def queueEval (r : Run z) (ev : LEval) : Run z := r.setLad { r.s.lad with todo := r.s.lad.todo ++ [ev] }

/-- A parcel of a rung could not be submitted, or its copy was refused: an evaluation of score 0 (R406, R415). -/
def failSubmit (r : Run z) (k : Nat) (l : Ladder) : Run z :=
  let r := r.setLadder k { l with waiting := false }
  r.queueEval { key := k, entry := ladEntry l.rung, stamp := r.s.now, score := 0, failed := true, fseq := l.fseq, fslot := l.fslot.getD 0 }

/-- Write a parcel's descriptor into a queue's ring and ring its doorbell, as SUBMIT does (R326): the free-running index it
took, or none where the checks fail. -/
def submitTo (r : Run z) (card : Nat) (desc : List Byte) : Option Nat × Run z :=
  let head := bits (cardW r.s card 9) 15 0
  let tail := bits (cardW r.s card 10) 15 0
  let lg := bits (cardW r.s card 8) 3 0
  let va := cardAddr r.s card 4 + 64 * (tail % 2 ^ lg)
  if cardKind r.s card ≠ 1 || !cardEn r.s card || (tail + 1 + 65536 - head) % 65536 > 2 ^ lg then (none, r)
  else match r.writeVirtBytes (ctxX r.s (cardCtx r.s card)) va desc with
    | .error _ => (none, r)
    | .ok r => (some tail, r.queueDoorbell card ((tail + 1) % 65536) r.s.now)

/-- The archive copy of an audio rung (R415): the first index and the samples copied and whether the range was cut; none
where the copy is refused. -/
def ladCopy (r : Run z) (k : Nat) (l : Ladder) : Option (Nat × Nat × Bool) × Run z :=
  if k ≥ 16 || !(l.rung = 2 || l.rung = 3) then (some (0, 0, false), r)
  else
    let e := ladEntry l.rung
    let stop := if l.rung = 2 then l.stop else archNewest r.s
    let room := ladW r.s e 8
    let first := if stop - l.start > room then stop - room else l.start
    let c : ACopy := {
      ctx := r.s.fld (ladReg 0) 27 16, whole := false, first := first, count := stop - first, dst := ladAddr r.s e 6
      mask := bits ((r.s.lad.table.getD 1 0).toNat) (8 * k + 7) (8 * k), tally := 0 }
    if copyStatus r.s c ≠ stOk then (none, r)
    else (some (first, c.count, decide (first ≠ l.start)), r.copyRows c (c.count + 1))

/-- Submit the parcel of the rung a ladder stands on (R410). -/
def ladSubmit (r : Run z) (k : Nat) : Run z :=
  match ladder? r.s k with
  | none => r
  | some l =>
    let e := ladEntry l.rung
    let x := ladX r.s
    match r.readBlock x (ladAddr r.s e 4) 64 with
    | (.error _, r) => r.failSubmit k l
    | (.ok d, r) =>
      let args := (d / 2 ^ 128) % 2 ^ 64
      match r.ladCopy k l with
      | (none, r) => r.failSubmit k l
      | (some (first, count, cut), r) =>
        let tk := (List.range 16).map fun i => let w := (l.arrival.getD i 0).toNat; if i = 8 && cut then w ||| 1 else w
        let slot := if k < 16 then 0 else l.fslot.getD 0
        let block := (tk ++ [first % 2 ^ 32, first / 2 ^ 32, count, slot] ++ List.replicate 11 0).flatMap (leBytes 4 ·)
        match r.writeVirtBytes x args block with
        | .error _ => r.failSubmit k l
        | .ok r => match r.submitTo (ladW r.s e 3 % 2 ^ 14) (leBytes 64 d) with
          | (none, r) => r.failSubmit k l
          | (some idx, r) =>
            let sub : LSub := {
              rung := l.rung, card := ladW r.s e 3 % 2 ^ 14, idx := idx, args := args, at_ := r.s.now, fseq := l.fseq
              fslot := if k < 16 then none else l.fslot, service := ladMode r.s e = 2 }
            r.setLadder k { l with waiting := false, subs := l.subs ++ [sub] }

/-- The power processor raises the cluster that a climb asked for: a dormant one wakes at its BASE, and one below the point
is moved to it. What was asked for is granted once the cluster is at the point or above (R417, R424). -/
def raiseAsked (r : Run z) (k : Nat) (l : Ladder) (c freq : Nat) : Run z :=
  if !fwRuns r.s 3 || !awake r.s then r
  else
    let r := r.when (r.s.fld (dvfsReg c) 29 29 = 1) fun r =>
      let base := r.s.fld (dvfsReg c) 25 24
      ((r.setFld (dvfsReg c) 29 29 0).setFld (dvfsReg c) 21 20 base).atPoint c base
    if r.s.fld (dvfsReg c) 17 16 ≤ freq then r.setLadder k { l with asks := none }
    else if r.s.fld (dvfsReg c) 31 31 = 1 || pinned r.s c then r
    else r.startMove c freq

/-- Ask for what the climbs of the ladders need, and submit the parcels for which the power state and the cluster have been
granted (R417). -/
def ladPump (r : Run z) : Run z :=
  if !fwRuns r.s 2 then r
  else r.each r.s.lad.ladders fun kl r =>
    let r := match (ladder? r.s kl.1).bind fun l => l.asks.map fun a => (l, a) with
      | some (l, c, freq) => r.raiseAsked kl.1 l c freq
      | none => r
    match ladder? r.s kl.1 with
    | none => r
    | some l =>
      let granted := match rungNeeds l.rung with
        | some st => decide (powerState r.s ≤ st)
        | none => true
      if l.waiting && l.asks.isNone && granted then r.ladSubmit kl.1 else r

/-! ## Moving between rungs (R407 to R411, R417) -/

/-- Write 1 to the STOP word of the SERVICE parcels of the rung a ladder stands on (R408, R410). -/
def stopServices (r : Run z) (l : Ladder) : Run z :=
  r.each (l.subs.filter fun b => b.service && b.rung = l.rung) fun b r => r.tryWrite (ladX r.s) (b.args + 0x7C) 4 1

/-- A stream that a listening ladder linked and links no longer is governed by its own timers from now (R411). -/
def unlinked (r : Run z) (before : List Nat) (t : Nat) : Run z :=
  r.each (before.filter fun st => !streamLinked r.s st) fun st r =>
    match ladder? r.s (16 + st) with
    | some l => if l.rung = 0x12 then r.setLadder (16 + st) { l with hold := max l.hold t } else r
    | none => r

/-- Move a ladder to a rung at a stamp: its claim and its pin follow, a SERVICE parcel of the rung it leaves is told to
stop, and a ticket is written where R412 asks for one. A parcel rung's parcel waits to be submitted, and a PERIODIC rung that
submits on arrival submits again PERIOD ms later (R410). A climb that needs a higher power state asks for the home cluster
too (R417). -/
def moveRung (r : Run z) (k new : Nat) (ev : LEval) (flags : Nat) : Run z :=
  match ladder? r.s k with
  | none => r
  | some l =>
    let old := l.rung
    let linkedNow := (List.range 16).filter fun st => streamLinked r.s st
    let r := r.stopServices l
    let base := baseRung k
    let l := { l with
      rung := new, run := 0, since := ev.stamp, hold := ev.stamp, due := ev.stamp, waiting := false, asks := none
      deep := l.deep && new ≠ base }
    let needs := rungNeeds new
    let behind := match needs with
      | some st => decide (powerState r.s > st)
      | none => false
    let r := r.setLadder k l
    let r := (r.showRung k new).trace 0x12 0x0030 (new * 2 ^ 8 + k % 16)
    let low := fun c => if k < 16 then c ≤ 1 else c = 0x10
    let ticketed := !(low new && low old)
    let (w, r) := if ticketed then r.makeTicket k old l ev (flags + (if behind && new > old then 128 else 0)) else ([], r)
    let l := { l with arrival := w }
    let parcel := !low new
    let mode := ladMode r.s (ladEntry new)
    let onFrame := ev.entry = 5 && old = 0x10
    let l := if k ≥ 16 && parcel then { l with fseq := ev.fseq, fslot := some ev.fslot } else l
    let at_ := mode ≠ 1 || onFrame || decide (k < 16)
    let c := bits (ladW r.s (ladEntry new) 0) 7 4
    let freq := bits (ladW r.s (ladEntry new) 0) 1 0
    let pin := bit (ladW r.s (ladEntry new) 0) 8
    let per := ladW r.s (ladEntry new) 2 * 1000000
    let r := r.setLadder k { l with
      waiting := parcel && at_, due := if parcel && mode = 1 && at_ then ev.stamp + per else l.due
      asks := if parcel && !pin && behind && decide (new > old) then some (c, freq) else none }
    let r := r.when ticketed fun r => r.writeTicket (new = 2 && old ≤ 1) w
    let r := match needs with
      | some st => r.addClaim k st
      | none => r.dropClaim k
    let r := r.dropPin k
    let r := r.when (parcel && pin) fun r => r.addPin c k freq
    r.unlinked linkedNow ev.stamp

/-- The arrival of a listening ladder at A3 raises the streams it links that stand on V0 or V1 (R411). -/
def raiseLinked (r : Run z) (ev : LEval) : Run z :=
  r.each (List.range 16) fun st r =>
    match ladder? r.s (16 + st) with
    | some l =>
      if bit (ladW r.s 3 10) st && (l.rung = 0x10 || l.rung = 0x11) && !rungBusy l 0x12 then
        r.moveRung (16 + st) 0x12
          { ev with key := 16 + st, entry := 9, fseq := l.fseq, fslot := l.fslot.getD 0, beam := 0, clamped := false } 32
      else r
    | none => r

/-- Move a ladder as `moveRung` does; a listening ladder that arrives at A3, from below or from above, raises the streams it
links (R411). -/
def arrive (r : Run z) (k new : Nat) (ev : LEval) (flags : Nat) : Run z :=
  let r := r.moveRung k new ev flags
  if k < 16 && new = 3 then r.raiseLinked ev else r

/-- A ladder comes down to the highest lower rung that is not ONCE; from A1 it goes on to A0 when no activity continues
(R408). -/
def descend (r : Run z) (k : Nat) (ev : LEval) (flags : Nat) : Run z :=
  match ladder? r.s k with
  | none => r
  | some l =>
    let dest := lowerRung r.s k l
    let r := r.arrive k dest ev flags
    if dest = 1 && !loupeActive r.s k then r.moveRung k 0 { ev with score := 0 } 0 else r

/-- Whether a ladder may climb from its rung (R407, R410, R420). -/
def mayClimb (s : State) (k : Nat) (l : Ladder) : Bool :=
  l.rung ≠ 4 && l.rung ≠ 0x13 && (l.rung ≠ 0x12 || linkedBy s 4 (k % 16)) && !(k < 16 && muted s) &&
  !rungBusy l (l.rung + 1)

/-- The expiries before a stamp come first, each from the rung the last one came down to (R408): a ladder has at most three
rungs with a timer. -/
def expireBefore (k t : Nat) : Nat → Run z → Run z
  | 0, r => r
  | fuel + 1, r =>
    match (ladder? r.s k).bind fun l => (demotionAt r.s k l).map fun x => (l, x) with
    | none => r
    | some (l, x) =>
      if t ≤ x then r
      else expireBefore k t fuel
        (r.descend k { key := k, entry := ladEntry l.rung, stamp := x, score := 0, fseq := l.fseq, fslot := l.fslot.getD 0 } 4)

/-- One evaluation is judged: an expiry before its stamp comes first, and an evaluation at the expiry's stamp or before it
restarts the timer. An evaluation of another rung than the one the ladder stands on, or made before the arrival there, changes
nothing (R407 to R409). -/
def judge (r : Run z) (ev : LEval) : Run z :=
  let r := expireBefore ev.key ev.stamp 3 r
  match ladder? r.s ev.key with
  | none => r
  | some l =>
      if ladEntry l.rung ≠ ev.entry || ev.stamp < l.since then r
      else
        let e := ev.entry
        let pass := decide (ev.score ≥ ladThresh r.s e)
        let held := decide (ev.score + ladHyst r.s e ≥ ladThresh r.s e)
        let run := if pass then l.run + 1 else 0
        let r := r.setLadder ev.key { l with run := run, hold := if held then ev.stamp else l.hold }
        let once := onceRung r.s l.rung
        let fl := if ev.failed then 16 else 0
        let enough := pass && (once || decide (run ≥ max 1 (ladMinrun r.s e)))
        if enough && mayClimb r.s ev.key l then
          r.arrive ev.key (l.rung + 1) ev fl
        else if once || l.rung = 0x13 then r.descend ev.key ev fl
        else if !held && ladW r.s e 1 = 0 && l.rung ≠ baseRung ev.key && !(l.rung = 0x12 && streamLinked r.s (ev.key % 16)) then
          r.descend ev.key ev fl
        else r

/-- The sensor processor judges the evaluations that wait, oldest first, and submits what power allows. -/
def ladFlush (r : Run z) : Run z :=
  if !fwRuns r.s 2 then r
  else
    let l := r.s.lad.todo
    let r := r.setLad { r.s.lad with todo := [] }
    (r.each l fun ev r => r.judge ev).ladPump

/-! ## Frames held and released (R416) -/

/-- A slot of a member stream is still needed: by a parcel in flight or to be submitted, or an unacknowledged ticket. -/
def slotNeeded (s : State) (k slot : Nat) : Bool :=
  (match ladder? s k with
    | some l => l.subs.any (fun b => b.fslot = some slot) || (l.waiting && l.fslot = some slot)
    | none => false) ||
  s.lad.ringed.contains (k, slot) ||
  (s.lad.todo.any fun ev => ev.key = k && ev.fslot = slot) ||
  (s.lad.queue.any fun w => (w.getD 10 0).toNat = slot && bits (w.headD 0).toNat 11 8 + 16 = k &&
    decide (bits (w.headD 0).toNat 31 24 ≥ 16))

/-- The enabled camera card of a stream. -/
def cameraOf (s : State) (stream : Nat) : Option Nat :=
  (List.find? (fun c => cardKind s c.1 = 2 && cardEn s c.1 && (camCard s c.1).stream = stream) s.sched.cards).map (·.1)

/-- Advance a stream's consumed index past the slots that nothing needs. -/
def releaseSlots (k n : Nat) : Nat → Run z → Run z
  | 0, r => r
  | fuel + 1, r =>
    let idx := cardW r.s n 16
    let cons := bits idx 31 16
    if cons = bits idx 15 0 || slotNeeded r.s k cons then r
    else releaseSlots k n fuel (r.csiConsume n ((cons + 1) % 65536))

/-- Release the frames of every member stream. -/
def ladRelease (r : Run z) : Run z :=
  if !fwRuns r.s 2 then r
  else r.each (r.s.lad.ladders.filter fun kl => decide (16 ≤ kl.1)) fun kl r =>
    match cameraOf r.s (kl.1 - 16) with
    | some n => releaseSlots kl.1 n 256 r
    | none => r

/-- What the sensor processor does at once: judge, submit, release. -/
def ladRun (r : Run z) : Run z := r.ladFlush.ladRelease

/-! ## Taking the table up, and leaving it (R404, R405) -/

/-- Whether a table of 160 words holds only values that occur (R404, R422). -/
def tableOk (t : List Nat) : Bool :=
  let w := fun e i => t.getD (16 + 16 * e + i) 0
  let rest := fun e l => (List.range 16).all fun i => l.contains i || w e i = 0
  let island := fun e => bits (w e 0) 23 16 = 0 && bits (w e 0) 11 0 = 0 && rest e [0, 1, 2]
  let a0 := island 0 && decide (bits (w 0 0) 31 24 ≤ 63) && w 0 1 = 0 && w 0 2 = 0
  let a1 := island 1 && decide (1 ≤ bits (w 1 0) 15 12) && w 1 1 % 10 = 0 && decide (10 ≤ w 1 1) && decide (w 1 1 ≤ 2550) &&
    w 1 2 % 10 = 0 && decide (w 1 2 ≤ 300)
  let v0 := island 5 && decide (1 ≤ bits (w 5 0) 31 24) && decide (1 ≤ bits (w 5 0) 15 12) && w 5 1 = 0 &&
    decide (1 ≤ w 5 2) && decide (w 5 2 ≤ 255)
  let parcel := fun e => bits (w e 0) 11 10 ≠ 3 && bits (w e 0) 9 9 = 0 && bits (w e 0) 3 2 = 0 &&
    decide (bits (w e 0) 23 16 ≤ bits (w e 0) 31 24) && decide (1 ≤ bits (w e 0) 15 12) && decide (w e 2 ≤ 65535) &&
    w e 3 < 2 ^ 14 && w e 4 % 64 = 0 && w e 6 % 4096 = 0 && decide (w e 8 ≤ 128000) && w e 10 < 2 ^ 16 &&
    decide (1 ≤ w e 11) && decide (w e 11 ≤ 65535) && w e 12 = 0 && w e 13 = 0 && w e 14 = 0 && w e 15 = 0
  bits (t.getD 0 0) 15 4 = 0 && ((t.take 16).drop 2).all (· = 0) && a0 && a1 && v0 && [2, 3, 4, 6, 7, 8].all parcel

/-- The status of a take-up of a table (R405). -/
def tableStatus (s : State) (t : List Nat) : Nat :=
  let x := ladX s
  let w := fun e i => t.getD (16 + 16 * e + i) 0
  let arrays := (List.range 4).filter fun n => bit (t.getD 0 0) n
  let streams := (List.range 16).filter fun st => bit (t.getD 0 0) (16 + st)
  let planes := arrays.foldl (fun m n => max m ((List.range 8).filter fun b => bit (t.getD 1 0) (8 * n + b)).length) 0
  let ring := s.reg64 (ladReg 0xC)
  let size := 64 * 2 ^ s.fld (ladReg 0) 3 0
  let entryOk := fun e =>
    let tmpl := w e 4 + 2 ^ 32 * w e 5
    mapped s x .load tmpl 64 &&
    (match readVirt s x (tmpl + 16) 8 with
      | .ok a => mapped s x .load a 0x90 && mapped s x .store a 0x90
      | .error _ => false) &&
    (!(e = 2 || e = 3) || mapped s x .store (w e 6 + 2 ^ 32 * w e 7) (2 * w e 8 * planes))
  let ctx := s.fld (ladReg 0) 27 16
  let cardOk := fun e => let n := w e 3 % 2 ^ 14; cardKind s n = 1 && cardCtx s n = ctx
  let streamOk := fun st => match cameraOf s st with
    | some n => cardCtx s n = ctx
    | none => true
  if !tableOk t || !mapped s x .store ring size || !mapped s x .load ring size || ! [2, 3, 4, 6, 7, 8].all entryOk then stBounds
  else if ! [2, 3, 4, 6, 7, 8].all cardOk || !streams.all streamOk then stDenied
  else stOk

/-- Every ladder is left: 0xFF, STOP in its SERVICE parcels, its claim and pin released; no ticket (R405). Its parcels in
flight are settled and kept, for the rungs they occupy (R410). -/
def ladLeave (r : Run z) : Run z :=
  let r := r.setLad { r.s.lad with todo := [] }
  r.each r.s.lad.ladders fun kl r =>
    let r := ((r.stopServices kl.2).showRung kl.1 0xFF).dropClaim kl.1
    let r := r.dropPin kl.1
    r.setLad { r.s.lad with
      ladders := SMap.erase r.s.lad.ladders kl.1
      gone := r.s.lad.gone ++ kl.2.subs.map fun b => (kl.1, { b with settled := true }) }

/-- The sensor processor takes the table up: its checks, the island's programs, and every member ladder at its base
(R404, R405). -/
def ladTakeUp (r : Run z) : Run z :=
  if !fwRuns r.s 2 then r.setLad { r.s.lad with want := true }
  else
    let r := r.setLad { r.s.lad with want := false }
    let r := r.setFld (ladReg 0) 30 30 0
    let tbl := r.s.reg64 (ladReg 4)
    match r.readBlock (ladX r.s) tbl 640 with
    | (.error _, r) => r.setFld (ladReg 0x20) 31 16 stBounds
    | (.ok v, r) =>
      let t := words32 160 v
      let r := r.each [2, 3, 4, 6, 7, 8] fun e r =>
        r.markRange (ladX r.s) .load (t.getD (16 + 16 * e + 4) 0 + 2 ^ 32 * t.getD (16 + 16 * e + 5) 0) 64
      let st := tableStatus r.s t
      let r := r.setFld (ladReg 0x20) 31 16 st
      if st ≠ stOk then r
      else
        let r := r.ladLeave
        let w := fun e i => t.getD (16 + 16 * e + i) 0
        let c := (r.s.mir (audReg 0x200)).toNat
        let loupe := bits (w 0 0) 29 24 * 2 ^ 26 + bits (w 0 0) 15 12 * 2 ^ 22 + w 1 1 / 10 * 2 ^ 14 + bits c 13 10 * 2 ^ 10
        let lens := bits (w 1 0) 31 24 * 2 ^ 24 + bits (w 1 0) 15 12 * 2 ^ 20 + w 1 2 / 10 * 2 ^ 15
        let r := (r.setMirror (audReg 0x200) (BitVec.ofNat 32 loupe)).setMirror (audReg 0x204) (BitVec.ofNat 32 lens)
        let keys := (List.range 4).filter (fun n => bit (t.getD 0 0) n) ++
          ((List.range 16).filter fun s => bit (t.getD 0 0) (16 + s)).map (16 + ·)
        let r := r.setLad { r.s.lad with table := t.map (BitVec.ofNat 32 ·) }
        let back := r.s.lad.gone
        let r := r.setLad { r.s.lad with gone := back.filter fun b => !keys.contains b.1 }
        r.each keys fun k r =>
          let subs := (back.filter fun b => b.1 = k).map (·.2)
          (r.setLadder k { rung := baseRung k, since := r.s.now, hold := r.s.now, subs := subs }).showRung k (baseRung k)

/-- A write of AUD_LAD_CFG: TBL, RING, CTX and LOG2N do not change while EN is 1 (R405). -/
def writeLadCfg (r : Run z) (v : Nat) : Run z :=
  let old := (r.s.reg (ladReg 0)).toNat
  if bit old 31 && (bits v 27 16 ≠ bits old 27 16 || bits v 3 0 ≠ bits old 3 0) then r
  else
    let en := bit v 31
    let reload := bit v 30 && en && bit old 31
    let r := r.setRegN (ladReg 0) (b2n en * 2 ^ 31 + b2n reload * 2 ^ 30 + bits v 27 16 * 2 ^ 16 + bits v 3 0)
    if !en then (if bit old 31 then (r.setLad { r.s.lad with want := false }).ladLeave else r)
    else if !bit old 31 || reload then r.ladTakeUp
    else r

/-- A write of AUD_LAD_ACK (R414). -/
def ladAck (r : Run z) (v : Nat) : Run z :=
  let idx := (r.s.reg (ladReg 0x18)).toNat
  let ack := bits idx 31 16
  let prod := bits idx 15 0
  let d := (v + 65536 - ack) % 65536
  if d ≤ (prod + 65536 - ack) % 65536 then
    let r := r.setRegN (ladReg 0x18) (v * 2 ^ 16 + prod)
    (r.setLad { r.s.lad with ringed := r.s.lad.ringed.drop d }).ladRelease
  else r.bump (schedReg 0x030)

/-! ## Completions, entries and the mute path -/

/-- A parcel of a queue has completed: the evaluation of the rung of the ladder that submitted it, unless VDL settled it
(R406). -/
def ladCompleted (r : Run z) (card idx status : Nat) : Run z :=
  let mine := fun (b : LSub) => b.card = card && b.idx = idx
  let r := r.when (r.s.lad.gone.any fun b => mine b.2) fun r =>
    r.setLad { r.s.lad with gone := r.s.lad.gone.filter fun b => !mine b.2 }
  r.each r.s.lad.ladders fun kl r =>
    match ladder? r.s kl.1 with
    | none => r
    | some l =>
      match l.subs.find? mine with
      | none => r
      | some b =>
        let e := ladEntry b.rung
        let r := r.setLadder kl.1 { l with subs := l.subs.erase b }
        let t := r.s.timeAt tbSched
        let late := decide (t > b.at_ + ladW r.s e 11 * 1000000)
        if b.settled || b.service then r
        else if late then
          r.queueEval { key := kl.1, entry := e, stamp := b.at_ + ladW r.s e 11 * 1000000, score := 0, failed := true, fseq := b.fseq, fslot := b.fslot.getD 0 }
        else if isSuccess status then r.queueEval (readVerdict r.s kl.1 e b t)
        else r.queueEval { key := kl.1, entry := e, stamp := t, score := 0, failed := true, fseq := b.fseq, fslot := b.fslot.getD 0 }

/-- A forced descent of a ladder to a rung, with flags; verdicts still owed count as settled (R406, R419, R420). -/
def forceDown (r : Run z) (k dest flags : Nat) : Run z :=
  match ladder? r.s k with
  | none => r
  | some l =>
    let owed := onceRung r.s l.rung && l.subs.any fun b => !b.settled && !b.service && b.rung = l.rung
    let r := r.setLadder k { l with subs := l.subs.map fun b => { b with settled := true } }
    r.moveRung k dest { key := k, entry := ladEntry l.rung, stamp := r.s.now, score := 0, fseq := l.fseq, fslot := l.fslot.getD 0 }
      (flags + (if owed then 16 else 0))

/-- The start of an entry into SLEEP or DEEP_SLEEP (R419). -/
def ladEntryDown (r : Run z) : Run z :=
  let r := r.setLad { r.s.lad with todo := [] }
  r.each r.s.lad.ladders fun kl r =>
    match ladder? r.s kl.1 with
    | none => r
    | some l =>
      if kl.1 < 16 then
        if l.rung < 2 then r else r.forceDown kl.1 (if loupeActive r.s kl.1 then 1 else 0) 0
      else if l.rung = 0x10 then r.setLadder kl.1 { l with run := 0 } else r.forceDown kl.1 0x10 0

/-- Every listening ladder comes down when the mute path engages, and its tickets in the island are discarded (R420). -/
def ladMuted (r : Run z) : Run z :=
  let mine := fun (w : List W32) =>
    decide (bits (w.headD 0).toNat 31 24 < 16) && r.s.lad.ladders.any fun kl => kl.1 = bits (w.headD 0).toNat 11 8
  let n := (r.s.lad.queue.filter mine).length
  let r := r.setLad { r.s.lad with
    queue := r.s.lad.queue.filter fun w => !mine w, todo := r.s.lad.todo.filter fun ev => decide (16 ≤ ev.key)
    lostBefore := r.s.lad.lostBefore || decide (n ≠ 0) }
  let r := ((r.when (n ≠ 0) fun r => r.bump (ladReg 0x24) n).showQueue)
  r.each (r.s.lad.ladders.filter fun kl => kl.1 < 16) fun kl r =>
    match ladder? r.s kl.1 with
    | none => r
    | some l => if l.rung = 0 then r else r.forceDown kl.1 0 8

end Run

/-! ## Loupe (R371) -/

/-- Bits of a binary logarithm's fraction by repeated squaring of a mantissa with 62 fractional bits. -/
def log2Bits : Nat → Nat → Nat → Nat
  | 0, _, acc => acc
  | n + 1, m, acc =>
    let sq := m * m / 2 ^ 62
    if sq ≥ 2 ^ 63 then log2Bits n (sq / 2) (2 * acc + 1) else log2Bits n sq (2 * acc)

/-- Binary logarithm of a positive number with 24 fractional bits. -/
def log2Fix (n : Nat) : Nat :=
  let k := Nat.log2 n
  log2Bits 24 (n * 2 ^ 62 / 2 ^ k) k

/-- The level of a sum of squares over a frame in units of 1 / 3,603,600 dB: 10 log10(max(e, 1) / 160), within 0.25 dB. -/
def loupeE (e : Nat) : Int :=
  let exact : Int := ((log2Fix (max e 1) : Int) - log2Fix 160) * 10847917 / 16777216
  let offer := Config.loupeLevel e
  if (offer - exact).natAbs ≤ 900910 then offer else exact

/-- Loupe after a frame: floor, activity, and whether the frame completes a trigger or ends the activity. -/
def loupeStep (cfg : Nat) (l : Loupe) (e : Int) : Loupe × Bool × Bool :=
  let tc := max 1 (bits cfg 13 10)
  let floor : Int := match l.floor with
    | none => e
    | some n => if e < n then e else n + min (e - n) (360360 / tc : Nat)
  let active := decide (e - floor ≥ (1801800 * bits cfg 31 26 : Nat))
  let onset := bits cfg 25 22 + 1
  let next := l.next + 1
  if active then
    let run := l.run + 1
    let trig := !l.active && decide (run ≥ onset)
    let acts := if trig then ((160 * (next - run), none) :: l.acts).take 16 else l.acts
    ({ floor := some floor, next := next, run := run, active := l.active || trig, quiet := 0, acts := acts }, trig, false)
  else
    let quiet := if l.active then l.quiet + 1 else 0
    let ends := l.active && decide (quiet ≥ bits cfg 21 14)
    let acts := if ends then (match l.acts with
      | a :: rest => (a.1, some (160 * next)) :: rest
      | [] => []) else l.acts
    ({ floor := some floor, next := next, run := 0, active := l.active && !ends, quiet := if ends then 0 else quiet, acts := acts }, false, ends)

namespace Run

variable {z : State}

/-- Lens starts with cleared state 8,000 indices before a trigger's stamp (R377). -/
def lensRestart (r : Run z) (s0 : Nat) : Run z :=
  r.each [0, 1, 2, 3] fun n r =>
    if micArm r.s n && micEn r.s n && !muted r.s then
      r.setAud { r.s.aud with lens := SMap.insert r.s.aud.lens n { next := (s0 - 8000) / 160 } }
    else r

/-- A trigger: in DEEP_SLEEP it brings the device to SLEEP, at once or after the entry under way (R371, R377, R418). -/
def loupeTrigger (r : Run z) (n s0 : Nat) : Run z :=
  let deepEntry := match r.s.power.entering with
    | some e => e.target = 3
    | none => false
  let deep := deepEntry || (powerState r.s = 3 && r.s.power.entering.isNone)
  let r := match ladder? r.s n with
    | some l => r.when deep fun r => r.setLadder n { l with deep := true }
    | none => r
  if deepEntry then
    (r.setPower { r.s.power with wakePending := some (3 * 8 + 2) }).setLad { r.s.lad with wakeS := s0 }
  else if deep then ((r.reachState 2).setFld (pwrReg 4) 23 16 3).lensRestart s0
  else r

end Run

/-- LOUPE_FRAME: Loupe judges one frame of 160 samples of an armed array's LOUPE_MIC (R371). A ladder on A0 climbs to A1
after ONSET active frames, and one on A1 comes down when the activity ends (R407, R408). -/
def execLoupeFrame (n : Nat) (xs : List (BitVec 16)) (s : State) : Host.Outcome State Fault Refusal :=
  let r := Run.start s
  match SMap.find? s.aud.loupe n with
  | none => done r
  | some l =>
    if muted s || s.now < stampOf s (160 * (l.next + 1)) then done r
    else
      let e := ((xs ++ List.replicate 160 0).take 160).foldl (fun m (x : BitVec 16) => m + x.toInt.natAbs ^ 2) 0
      let cfg := (s.reg (audReg 0x200)).toNat
      let (l', trig, ends) := loupeStep cfg l (loupeE e)
      let r := r.setAud { s.aud with loupe := SMap.insert s.aud.loupe n l' }
      let at_ := 160 * l'.next
      let r := r.when trig fun r => r.loupeTrigger n at_
      let ev : LEval := { key := n, entry := 0, stamp := stampOf s at_, score := 0 }
      match ladder? r.s n with
      | none => done r.ladRun
      | some d =>
        let run := if l'.run = 0 then 0 else d.run + 1
        if d.rung = 0 then
          if l'.active && decide (run ≥ bits cfg 25 22 + 1) || trig then done (r.moveRung n 1 ev 0).ladRun
          else done (r.setLadder n { d with run := run }).ladRun
        else if d.rung = 1 && ends then done (r.moveRung n 0 ev 0).ladRun
        else done r.ladRun

/-! ## Lens (R372) -/

/-- LENS_HOP: Lens scores its next hop of an array, one score for each island beam, once every sample of the hop lies in a complete
row; `k` numbers the hop, and no other than the next is scored. It may decide and write a wake ticket (R372, R377, R409, R418). The keyword model sees nothing but its state since Lens started
and the beams that the archive gives, so its scores depend on the archive alone. -/
def execLensHop (n k : Nat) (s : State) : Host.Outcome State Fault Refusal :=
  let r := Run.start s
  match SMap.find? s.aud.lens n with
  | none => done r
  | some l =>
    let hop := 160 * l.next
    if k ≠ l.next || muted s || hop + 160 > archNewest s then done r
    else
      let cfg := (s.reg (audReg 0x204)).toNat
      let out := (List.range 4).map fun b =>
        Config.lensModel (l.state.getD b 0) ((List.range 160).map fun i => islandBeam s n b (hop + i))
      let state := out.map (·.1)
      let score := fun b => ((out.getD b (0, 0)).2).toNat
      let runs := (List.range 4).map fun b => if score b ≥ bits cfg 31 24 then l.runs.getD b 0 + 1 else 0
      let act := match SMap.find? s.aud.loupe n with
        | some u => List.find? (fun (a : Nat × Option Nat) => decide (a.1 ≤ hop) && (match a.2 with | some t => decide (hop + 160 ≤ t) | none => true)) u.acts
        | none => none
      let beam := (List.range 4).find? fun b => decide (runs.getD b 0 ≥ bits cfg 23 20)
      match act, beam with
      | some a, some b =>
        let r := r.setAud { s.aud with lens := SMap.insert s.aud.lens n { next := l.next + 1, runs := [0, 0, 0, 0], state := state } }
        let r := r.wakeTo 4 1
        match ladder? r.s n with
        | none => done r.ladRun
        | some d =>
          if d.rung ≥ 2 || rungBusy d 2 then done r.ladRun
          else
            let want := a.1 - bits cfg 19 15 * 160
            let start := max want (oldestIndex s)
            let stop := hop + 160
            let cut := decide (stop - start > ladW r.s 2 8)
            let r := r.setLadder n { d with start := start, stop := stop }
            let ev : LEval := {
              key := n, entry := 1, stamp := s.timeAt tbAud, score := score b, beam := b, clamped := decide (start ≠ want) || cut }
            done (r.moveRung n 2 ev 0).ladRun
      | _, _ => done (r.setAud { s.aud with lens := SMap.insert s.aud.lens n { next := l.next + 1, runs := runs, state := state } }).ladRun

/-! ## Looking (R387, R406, R410) -/

/-- The score of V0: the zones whose G changed by more than ZDIFF / 256 of the previous frame's (R406). -/
def zoneScore (zdiff : Nat) (old new : List Nat) : Nat :=
  min 255 ((old.zip new).filter fun x => decide ((max x.1 x.2 - min x.1 x.2) * 256 > zdiff * x.1)).length

/-- The first due time after now of a PERIODIC rung; every frame is due with PERIOD 0 (R410). -/
def nextDue (due per now : Nat) : Nat := if per = 0 then due else due + ((now - due) / per + 1) * per

/-- FRAME_DELIVER: the oldest finished frame of a camera card is delivered; a member stream's ladder scores it on V0, and a
PERIODIC rung that is due submits with it (R387, R406, R410). -/
def execFrameDeliver (n : Nat) (s : State) : Host.Outcome State Fault Refusal :=
  let r := Run.start s
  if cardKind s n ≠ 2 || !awake s then done r
  else
    let slot := bits (cardW s n 16) 15 0
    match r.frameDeliver n with
    | (none, r) => done r
    | (some (f, tap), r) =>
      let k := 16 + (CamCfg.of f.cfg).stream
      match ladder? r.s k with
      | none => done r.ladRun
      | some l =>
        let g := (List.range 256).map (zoneGreen tap)
        let score := if l.zones.isEmpty then 0 else zoneScore (ladW r.s 5 2) l.zones g
        let due := ladMode r.s (ladEntry l.rung) = 1 && l.rung ≠ 0x10 && !l.waiting && decide (r.s.now ≥ l.due)
        let per := ladW r.s (ladEntry l.rung) 2 * 1000000
        let l := { l with zones := g, fseq := f.seq, fslot := some slot }
        let l := if due then { l with waiting := true, due := nextDue l.due per r.s.now } else l
        let r := r.setLadder k l
        let r := r.when (l.rung = 0x10) fun r =>
          r.queueEval { key := k, entry := 5, stamp := f.fe.getD r.s.now, score := score, fseq := f.seq, fslot := slot }
        done r.ladRun

/-- VERDICT_DEADLINE: a parcel's completion has not come VDL ms after its submission (R406). -/
def execVerdictDeadline (k : Nat) (s : State) : Host.Outcome State Fault Refusal :=
  let r := Run.start s
  match ladder? s k with
  | none => done r
  | some l =>
    let vdl := fun (b : LSub) => ladW s (ladEntry b.rung) 11 * 1000000
    let late := fun (b : LSub) => !b.settled && !b.service && decide (s.now > b.at_ + vdl b)
    let r := r.setLadder k { l with subs := l.subs.map fun b => if late b then { b with settled := true } else b }
    let r := r.each (l.subs.filter late) fun b r =>
      r.queueEval { key := k, entry := ladEntry b.rung, stamp := b.at_ + vdl b, score := 0, failed := true, fseq := b.fseq, fslot := b.fslot.getD 0 }
    done r.ladRun

/-- DEMOTION_EXPIRY: a ladder's demotion timer has expired (R408). -/
def execDemotionExpiry (k : Nat) (s : State) : Host.Outcome State Fault Refusal :=
  let r := (Run.start s).ladFlush
  match ladder? r.s k with
  | none => done r
  | some l =>
    match demotionAt r.s k l with
    | some t =>
      if fwRuns r.s 2 && decide (r.s.now > t) then
        done (r.descend k { key := k, entry := ladEntry l.rung, stamp := t, score := 0, fseq := l.fseq, fslot := l.fslot.getD 0 } 4).ladRun
      else done r.ladRun
    | none => done r.ladRun

/-- PERIODIC_SUBMIT: a listening ladder's PERIODIC rung, which no frame triggers, submits at its due time; parcels that wait
for power are submitted once it is granted (R410, R417). A looking ladder submits with a delivered frame. -/
def execPeriodicSubmit (k : Nat) (s : State) : Host.Outcome State Fault Refusal :=
  let r := (Run.start s).ladFlush
  match ladder? r.s k with
  | none => done r
  | some l =>
    let per := max 1 (ladW r.s (ladEntry l.rung) 2) * 1000000
    if k < 16 && decide (l.rung ≥ 2) && ladMode r.s (ladEntry l.rung) = 1 && !l.waiting && decide (r.s.now ≥ l.due) then
      done (r.setLadder k { l with waiting := true, due := nextDue l.due per r.s.now }).ladRun
    else done r.ladRun

/-- TICKET_MOVE: the oldest ticket of the island queue enters the ring (R413). -/
def execTicketMove (s : State) : Host.Outcome State Fault Refusal :=
  let r := Run.start s
  match s.lad.queue with
  | [] => done r.ladRun
  | w :: rest =>
    if Run.ringRoom s then done ((r.setLad { s.lad with queue := rest }).showQueue.ringTicket w).ladRun else done r.ladRun

/-! ## The mute path (R354, R355, R420) -/

/-- MUTE_ENGAGE: five low samples of MUTE_SW_N, at least 4 ms apart. The microphones stop, Loupe and Lens stop, and the
archive is zeroed. A copy in progress ends AUD_ARCHIVE_GONE with the rows it had moved, a free number (R357). -/
def execMuteEngage (s : State) : Host.Outcome State Fault Refusal :=
  let r := Run.start s
  if muted s then done r
  else
    let r := (r.setFld (audReg 0x300) 31 31 1).setFld (audReg 0x300) 15 0 (min 0xFFFF (s.fld (audReg 0x300) 15 0 + 1))
    let r := r.setReg64 (audReg 0x304) (s.timeAt tbAud)
    let r := r.trace 0x22 0x0300 (r.s.fld (audReg 0x300) 15 0)
    let r := match s.aud.copy with
      | some c =>
        let (w, r) := r.draw
        (r.copyRows c (w.toNat % 250)).copyEnd c stAudArchiveGone
      | none => r
    let r := r.put (.wipe archBase (archBase + 524288))
    let r := r.setFld (audReg 0x110) 7 0 0
    let r := r.setAud { r.s.aud with led := true, loupe := [], lens := [], cut := true }
    done r.settlePorts.ladMuted

/-- MUTE_RELEASE: five high samples; AUD_MUTE_TIME is the time of the release (R355, R357). -/
def execMuteRelease (s : State) : Host.Outcome State Fault Refusal :=
  let r := Run.start s
  if !muted s then done r
  else
    let r := (r.setFld (audReg 0x300) 31 31 0).setReg64 (audReg 0x304) (s.timeAt tbAud)
    let r := r.trace 0x22 0x0301 (r.s.fld (audReg 0x300) 15 0)
    done r.settlePorts.settleLed

end Sys2Proof.Machine
end

