-- ==== Sys2Proof/Machine/Deferred.lean ====
section
/-! DEFINITION. What a signal brings about beyond its tally: replies of watches and PACE messages, which the scheduler sends
when it runs (R327, R329), and the verdicts of SERVICE rungs (R406); with the commands that signal or send: TSIG and TADD
(R109), ETH_FRAME_TX_START (R343), MAILBOX_DELIVER (R292) and PACE_RESEND (R329). -/

namespace Sys2Proof.Machine

namespace Run

variable {z : State}

/-- Send one PACE of a job to package k, with the SEQ the device counts for that session (R322, R329),
in traffic class 6 (R347). -/
def sendPace (r : Run z) (j : Job) (k epoch seq : Nat) : Run z :=
  match sess? r.s (j.peerSess.getD k 0) with
  | none => r
  | some x =>
    let payload := leBytes 4 (j.job * 2 ^ 16 + j.self_) ++ leBytes 4 epoch
    let h : Hdr := {
      minor := x.minor, nocrc := x.nocrc, opcode := 0x0411, session := j.peerSess.getD k 0, length := 8, token := x.token
      seq := seq, time := r.s.now }
    r.mhySend x.peer (h.message payload) 6

/-- Send a new epoch of a job to every other package, and keep it until it is answered (R329). -/
def startPace (r : Run z) (job epoch : Nat) : Run z :=
  match r.s.mhy.jobs.find? fun j => j.job = job with
  | none => r
  | some j =>
    r.each ((List.range j.n).filter fun k => k ≠ j.self_) fun k r =>
      match sess? r.s (j.peerSess.getD k 0), r.s.mhy.jobs.find? fun j => j.job = job with
      | some x, some j =>
        let out : PaceOut := ⟨k, epoch, x.paceSeq, r.s.now⟩
        let r := r.setMhy { r.s.mhy with jobs := r.s.mhy.jobs.map fun i =>
          if i.job = job then { i with epoch := epoch, out := i.out ++ [out] } else i }
        let r := r.setSess (j.peerSess.getD k 0) { x with paceSeq := (x.paceSeq + 1) % 2 ^ 32 }
        r.sendPace j k epoch x.paceSeq
      | _, _ => r

/-- The scheduler sends what signals have made it owe, in their order. -/
def mhyFlush (r : Run z) : Run z :=
  if !fwRuns r.s 0 then r
  else
    let l := r.s.mhy.owed
    let r := r.setMhy { r.s.mhy with owed := [] }
    r.each l fun o r =>
      match o with
      | .reply n q st => r.mhyReply n q st []
      | .pace j e => r.startPace j e

/-- What follows a command that signals. -/
def settleSignals (r : Run z) : Run z := r.mhyFlush.ladRun

end Run

/-- TSIG (R109). -/
def execTsig (ag : Agent) (scope : BitVec 3) (f : R3) (s : State) : Host.Outcome State Fault Refusal :=
  let w := wordsOf (.tsig ag scope f)
  let r := Run.start s
  done <| Run.settleSignals <| match ag with
  | .host n => tallyHart r (hostKey n) w (scopeOk scope && f.guard = 0) f .storeAccess
      fun h => .sig ((h.rg f.b).truncate 32)
  | .fw p => tallyHart r (fwKey p) w (scopeOk scope && f.guard = 0) f .storeAccess
      fun h => .sig ((h.rg f.b).truncate 32)
  | .lane c g => tallyLanes r c g w (scopeOk scope) f [f.d.toNat, f.a.toNat, f.b.toNat] .storeAccess
      fun _ t => .sig (t.rg f.b.toNat)

/-- TADD (R109). -/
def execTadd (ag : Agent) (scope : BitVec 3) (f : R3) (s : State) : Host.Outcome State Fault Refusal :=
  let w := wordsOf (.tadd ag scope f)
  let r := Run.start s
  done <| Run.settleSignals <| match ag with
  | .host n => tallyHart r (hostKey n) w (scopeOk scope && f.guard = 0) f .storeAccess
      fun h => .add ((h.rg f.b).truncate 32)
  | .fw p => tallyHart r (fwKey p) w (scopeOk scope && f.guard = 0) f .storeAccess
      fun h => .add ((h.rg f.b).truncate 32)
  | .lane c g => tallyLanes r c g w (scopeOk scope) f [f.d.toNat, f.a.toNat, f.b.toNat] .storeAccess
      fun _ t => .add (t.rg f.b.toNat)

/-- ETH_FRAME_TX_START: the next frame starts on a free line, an express frame preempts a preemptable one, or the remainder
of a preempted frame goes on (R343). -/
def execEthFrameTxStart (n : Nat) (s : State) : Host.Outcome State Fault Refusal :=
  done ((Run.start s).mhyFlush.ethTxStart n)

/-- MAILBOX_DELIVER: the oldest message for a mailbox enters a free receive slot, cut to fit (R292, R317). -/
def execMailboxDeliver (n : Nat) (s : State) : Host.Outcome State Fault Refusal :=
  let r := (Run.start s).mhyFlush
  let s := r.s
  let idx := cardW s n 9
  let prod := bits idx 15 0
  let cons := bits idx 31 16
  let cfg := cardW s n 8
  match s.mhy.outbox.find? fun o => o.1 = n with
  | none => done r
  | some o =>
    if cardKind s n ≠ 7 || !cardActive s n || !awake s || (prod + 65536 - cons) % 65536 ≥ 2 ^ bits cfg 7 4 then done r
    else
      let slot := 2 ^ bits cfg 11 8
      let bs := o.2.take (slot - 16)
      let cut := o.2.length > slot - 16
      let va := cardAddr s n 4 + slot * (prod % 2 ^ bits cfg 7 4)
      let pre := leBytes 4 ((if cut then stTruncated else stOk) * 2 ^ 16 + bs.length) ++ leBytes 4 0 ++ leBytes 8 s.now
      let r := r.setMhy { s.mhy with outbox := s.mhy.outbox.erase o }
      match r.writeVirtBytes (ctxX s (cardCtx s n)) va (pre ++ bs) with
      | .error _ => done r
      | .ok r =>
        let err := cardW s n 11
        let r := r.when cut fun r => r.setHw n 11 (setBits err 31 16 (min 0xFFFF (bits err 31 16 + 1)))
        let r := r.setHw n 9 (cons * 65536 + (prod + 1) % 65536)
        let r := r.when (bit cfg 3) fun r => r.raiseMbx (bits cfg 2 0)
        done (r.cardEvent n)

/-- PACE_RESEND: every PACE that has had no answer for 100 µs is sent again (R329). -/
def execPaceResend (s : State) : Host.Outcome State Fault Refusal :=
  let r := (Run.start s).mhyFlush
  if !fwRuns s 0 then done r
  else done (r.each r.s.mhy.jobs fun j r =>
    r.each (j.out.filter fun o => decide (r.s.now ≥ o.sent + 100000)) fun o r =>
      let r := r.setMhy { r.s.mhy with jobs := r.s.mhy.jobs.map fun i =>
        if i.job = j.job then { i with out := i.out.map fun p => if p = o then { o with sent := r.s.now } else p } else i }
      r.sendPace j o.to_ o.epoch o.seq)

end Sys2Proof.Machine
end

