-- ==== Sys2Proof/Machine/PowerEntry.lean ====
section
/-! DEFINITION. Entries into SLEEP, DEEP_SLEEP and OFF, and the return (R400, R419, R425 to R432). -/

namespace Sys2Proof.Machine

/-- Drain is complete (R428): no gang, no parcel whose dispatch has started, and every released host core in SNOOZE with
csr_irqen 0. -/
def drained (s : State) : Bool :=
  s.gangs.isEmpty && !s.sched.parcels.any (fun p => p.2.stage ≠ .waiting) &&
  (List.range 8).all fun n => !(s.hart n).running || ((s.hart n).snoozing && (s.hart n).irqen = 0)

/-- A host core whose registers SLEEP has lost: every CSR at its reset value, every register a free value (R425, R431). -/
def lostHart (n : Nat) : Hart :=
  let h := (List.range 32).foldl (fun (h : Hart) i => h.wg (BitVec.ofNat 5 i) (Config.lostRegister n i)) {}
  (List.range 32).foldl (fun h i => h.wf (BitVec.ofNat 5 i) ((Config.lostRegister n (32 + i)).setWidth 32)) h

namespace Run

variable {z : State}

/-- Deliver every closed frame of a card, its lines all read. -/
def deliverAll (n : Nat) : Nat → Run z → Run z
  | 0, r => r
  | fuel + 1, r =>
    let x := camStream r.s n
    match x.frames with
    | [] => r
    | f :: rest => deliverAll n fuel ((r.setStream n { x with frames := { f with slots := [] } :: rest }).frameDeliver n).2

/-- Open frames are closed and cut, and delivered; ports enter ULPS (R400). -/
def stopCameras (r : Run z) : Run z :=
  let r := r.each r.s.cam.streams fun st r => deliverAll st.1 (st.2.frames.length) (r.closeFrame st.1 r.s.now false true true)
  r.each (List.range 8) fun p r =>
    if r.s.fld (camPortReg p 0) 31 31 = 1 then r.setFld (camPortReg p 4) 31 30 3 else r

/-- The effects of an entry's start on the blocks that stop (R400, R419, R425, R487). -/
def stopBlocks (r : Run z) : Run z :=
  let r := (r.snapDisarm.stopCameras).ladEntryDown
  r.each (List.range 4) fun n r => if linkUp r.s n then r.linkLost n 0 else r

/-- The MACsec associations are lost; MKA negotiates afresh after the return (R425, R431). -/
def loseSas (r : Run z) : Run z :=
  r.each (List.range 4) fun n r =>
    let r := r.setPort n { ethPort r.s n with sak := none, server := false, pn := 1, rxPn := 0 }
    r.when (r.s.fld (ethReg (0x3000 + 0x40 * n)) 31 30 = 2) fun r => r.mkaState n 1

/-- What SLEEP loses (R425): carrels and Stacks, the statistics sets, the Prism stores, learned forwarding entries, the MACsec
associations, and the registers of the host cores, which hold free values from then on. -/
def loseState (r : Run z) : Run z :=
  let r := r.put .lose
  let r := r.each r.s.cores fun c r => r.setCore c.1 { c.2 with prism := [], banks := [] }
  let r := r.setEth { r.s.eth with fdb := r.s.eth.fdb.filter fun e => e.2.static_ }
  let up := (List.range 8).filter fun n => (r.s.hart n).running
  let r := r.setPower { r.s.power with statsLost := List.range 768, released := up }
  r.loseSas.each (List.range 8) fun n r => (r.put .draw).setHart n (lostHart r.s.free)

/-- A wake takes effect: its source, and the state it leads to (R429 to R431). -/
def applyWake (r : Run z) (source target : Nat) : Run z :=
  let r := r.setFld (pwrReg 4) 23 16 source
  if target = 2 then (r.reachState 2).lensRestart r.s.lad.wakeS
  else r.setPower { r.s.power with ret := some target, last := target }

end Run

/-- POWER_ENTRY_BEGIN: drain is complete within its bound, and the entry begins (R428). A request for DEEP_SLEEP enters
SLEEP first. -/
def execPowerEntryBegin (s : State) : Host.Outcome State Fault Refusal :=
  let r := Run.start s
  match s.power.req with
  | none => done r
  | some q =>
    if !fwRuns s 3 || !drained s || s.now > q.deadline then done r
    else
      let first := if q.target = 3 then 2 else q.target
      let r := r.setPower { s.power with req := none, entering := some { q with target := first }, last := q.target }
      let r := ((r.setFld (pwrReg 4) 28 28 0).setFld (pwrReg 4) 27 27 1).setReg64 (pwrReg 0x20) s.now
      let r := r.trace 0x24 0x0500 first
      let r := r.stopBlocks
      done (r.endRequest q.asker stOk)

/-- DEEP_SLEEP_ENTRY_BEGIN: in SLEEP, on the way to DEEP_SLEEP, no armed array has activity (R428, R377). -/
def execDeepSleepEntryBegin (s : State) : Host.Outcome State Fault Refusal :=
  let r := Run.start s
  if powerState s ≠ 2 || s.power.last ≠ 3 || s.power.entering.isSome || s.power.ret.isSome ||
      s.aud.loupe.any (fun l => l.2.active) then done r
  else
    let r := r.setPower { s.power with entering := some ⟨3, s.now, none⟩ }
    let r := (r.setFld (pwrReg 4) 27 27 1).trace 0x24 0x0500 3
    done (r.setAud { r.s.aud with lens := [] })

/-- POWER_ENTRY_COMPLETE: the state is reached, once the microphones run at its clock rates; a wake that came meanwhile
takes effect at once (R376, R377, R425, R429). -/
def execPowerEntryComplete (s : State) : Host.Outcome State Fault Refusal :=
  let r := Run.start s
  match s.power.entering with
  | none => done r
  | some e =>
    if e.target ≤ 3 && s.aud.fast then done r
    else
      let wake := s.power.wakePending
      let r := r.when (awake s) fun r => r.loseState
      let r := r.setPower { r.s.power with entering := none, wakePending := none }
      let r := (r.setFld (pwrReg 4) 27 27 0).reachState e.target
      let r := if e.target = 4 then r.audOff else r.audStop
      match wake with
      | some w => if e.target = 4 then done r else done (r.applyWake (w / 8) (w % 8))
      | none => done r

/-- POWER_RETURN: the device returns to IDLE or RUN: every copy of fabric time reloads from the master (R28), the exit is stamped,
leases are extended by the interval, and the host cores that had been released start in Monitor mode (R431). -/
def execPowerReturn (s : State) : Host.Outcome State Fault Refusal :=
  let r := Run.start s
  match s.power.ret with
  | none => done r
  | some t =>
    let r := (r.setPower { s.power with ret := none }).realign fun _ => 0
    let r := r.setReg64 (pwrReg 0x28) s.now
    let slept := s.now - s.reg64 (pwrReg 0x20)
    let r := r.each (s.mhy.sess.filter fun x => sessState s x.1 = 1 || sessState s x.1 = 2) fun x r =>
      let r := r.setReg64 (sessReg x.1 4) (r.s.reg64 (sessReg x.1 4) + slept)
      r.setSess x.1 { x.2 with expired := x.2.expired.map (· + slept) }
    let r := r.reachState t
    let r := r.each s.power.released fun n r =>
      r.setHart n { r.s.hart n with running := true, pc := BitVec.ofNat 64 (s.reg64 (pwrReg 0x18)) }
    let r := r.setPower { r.s.power with released := [] }
    let r := r.put (.fw { r.s.fw with kicks := (List.range 5).map fun p => (p, s.now) })
    done r.audStart.settleState.ladRun

end Sys2Proof.Machine
end

