-- ==== Sys2Proof/Machine/Cards.lean ====
section
/-! DEFINITION. Taking a card up from the Catalogue: CARD_SYNC and its checks, boundary and SYNC word (R273 to R276, R279,
R345, R520). -/

namespace Sys2Proof.Machine

/-- Words from a place on are 0. -/
def zeroFrom (ws : List Nat) (i : Nat) : Bool := (ws.drop i).all (· = 0)

/-- A card as read holds a value that does not occur, a misaligned address or a set RSV bit (R276). -/
def cardBad (ws : List Nat) : Bool :=
  let w := fun i => ws.getD i 0
  let head := bits (w 0) 31 28 > 7 || bits (w 0) 25 12 ≠ 0 || bits (w 1) 31 16 ≠ 0 || bits (w 1) 15 8 = 0
  head || match bits (w 0) 31 28 with
    | 0 => false
    | 1 => w 4 % 4096 ≠ 0 || w 6 % 4096 ≠ 0 || decide (w 8 < 4) || decide (w 8 > 15) || !zeroFrom ws 13
    | 2 => cameraBad ws
    | 3 => audioBad ws
    | 4 => audioBad ws
    | 5 => bits (w 4) 31 16 ≠ 0 || bits (w 5) 31 8 ≠ 0 || decide (bits (w 5) 7 2 > 50) || !zeroFrom ws 8
    | 6 => w 4 % 4096 ≠ 0 || w 6 % 4096 ≠ 0 || bits (w 8) 15 14 = 3 || bits (w 8) 13 10 ≠ 0 || bits (w 9) 31 12 ≠ 0 ||
        decide (bits (w 9) 11 8 < 6) || decide (bits (w 9) 11 8 > 14) || decide (bits (w 9) 7 4 < 2) ||
        decide (bits (w 9) 7 4 > 12) || bits (w 9) 3 2 ≠ 0 || !zeroFrom ws 13
    | _ => w 4 % 4096 ≠ 0 || w 6 % 4096 ≠ 0 || bits (w 8) 31 12 ≠ 0 || decide (bits (w 8) 11 8 < 6) ||
        decide (bits (w 8) 11 8 > 14) || decide (bits (w 8) 7 4 < 2) || decide (bits (w 8) 7 4 > 12) || !zeroFrom ws 12

/-- The body check of a queue (R279). -/
def queueBody (s : State) (ws : List Nat) (x : XCtx) : Nat :=
  let w := fun i => ws.getD i 0
  let size := 64 * 2 ^ w 8
  if bit (w 0) 27 && !(mapped s x .load (w 4 + 2 ^ 32 * w 5) size && mapped s x .store (w 6 + 2 ^ 32 * w 7) size) then
    stBounds
  else stOk

/-- The body check of a network flow (R345). DEDUCED, log 146: the cases are read on the card's FILTER and ETYPE fields whatever its MODE and
EN; another flow names a filter under MODE 0 and an ETYPE under MODE 1. -/
def flowBody (s : State) (n : Nat) (ws : List Nat) (x : XCtx) : Nat :=
  let w := fun i => ws.getD i 0
  let mode := bits (w 8) 15 14
  let filter := bits (w 8) 9 0
  let etype := bits (w 8) 31 16
  let en := bit (w 0) 27
  let twin := s.sched.cards.any fun o => o.1 ≠ n && cardKind s o.1 = 6 && cardEn s o.1 &&
    (match bits (cardW s o.1 8) 15 14 with
      | 0 => bits (cardW s o.1 8) 9 0 = filter
      | 1 => bits (cardW s o.1 8) 31 16 = etype
      | _ => false)
  let group := s.rfx.groups.any fun g => g.2.cards.any fun c => bits (c.getD 0 0).toNat 9 0 = filter
  let slots := 2 ^ bits (w 9) 7 4 * 2 ^ bits (w 9) 11 8
  let rights := mapped s x .store (w 4 + 2 ^ 32 * w 5) slots && mapped s x .load (w 6 + 2 ^ 32 * w 7) slots
  if (mode = 0 && !filterValid s filter) || group || twin || [0x88B5, 0x88F7, 0x888E].contains etype then
    stEthBadFlow
  else if en && !rights then stBounds
  else stOk

/-- The body check of a card's kind. -/
def cardBody (s : State) (n : Nat) (ws : List Nat) : Nat :=
  let x := ctxX s (bits (ws.getD 0 0) 11 0)
  match bits (ws.getD 0 0) 31 28 with
  | 1 => queueBody s ws x
  | 2 => cameraBody s n ws x
  | 3 => audioBody s n ws x
  | 4 => audioBody s n ws x
  | 6 => flowBody s n ws x
  | _ => stOk

/-- A card as read would be held (R274). -/
def wouldHold (ws : List Nat) : Bool :=
  match bits (ws.getD 0 0) 31 28 with
  | 1 => bit (ws.getD 0 0) 26
  | 6 => bit (ws.getD 0 0) 26
  | 0 => false
  | 5 => false
  | _ => bit (ws.getD 0 0) 27

/-- The status of a take-up of card n, as read (R276). -/
def takeStatus (s : State) (n : Nat) (ws : List Nat) : Nat :=
  let w0 := ws.getD 0 0
  let others := (s.sched.cards.filter fun c => c.1 ≠ n && cardHeld s c.1).length
  if (List.range 32).any (fun i => s.isUe (catAddr s n i)) then stUncorrectable
  else if cardBad ws then stBounds
  else if cardEn s n && bits w0 31 28 ≠ cardKind s n then stDenied
  else if bit w0 27 && !ctxEn s (bits w0 11 0) then stDenied
  else if wouldHold ws && decide (others ≥ 256) then stBounds
  else cardBody s n ws

/-- The kind's boundary has come (R274): of the previous copy while it is enabled. -/
def atBoundary (s : State) (n : Nat) : Bool :=
  if !cardEn s n then true
  else match cardKind s n with
    | 2 => (openFrame s n).isNone
    | 3 => archNow s % (16 * blkMs s n) = 0
    | 4 => decide ((s.now - s.aud.rowStart) % (blkMs s n * 1000000) < 62500)
    | 5 => !s.rfx.groups.any fun g => g.2.cardNums.contains n
    | _ => true

namespace Run

variable {z : State}

/-- A take-up of a card is asked for (R276), by a message or not. -/
def cardSync (r : Run z) (n : Nat) (asker : Option (Nat × Nat)) : Run z :=
  let c := cardOf r.s n
  r.setCard n { c with syncs := c.syncs + 1, askers := c.askers ++ asker.toList }

/-- The card is taken up: its SW words replace the copy's; HW words start at 0 when no copy was held or the kind is new, and
a queue's TAIL becomes HEAD with QERR clear (R279, R520). A stream or audio channel begins afresh. -/
def install (r : Run z) (n : Nat) (ws : List Nat) : Run z :=
  let c := cardOf r.s n
  let kind := bits (ws.getD 0 0) 31 28
  let same := c.taken && kind = cardKind r.s n
  let hw := hwWords kind
  let word := fun i => if i = 3 then SMap.get 0 c.words 3
    else if hw.contains i then (if same then SMap.get 0 c.words i else 0) else BitVec.ofNat 32 (ws.getD i 0)
  let words := (List.range 32).foldl (fun m i => SMap.set 0 m i (word i)) ([] : SMap W32)
  let r := r.setCard n { c with words := words }
  let r := if kind = 1 then
      let head := cardW r.s n 9 % 2 ^ 16
      (r.setHw n 9 head).setHw n 10 head
    else r
  let r := r.writeBack n
  match kind with
  | 2 => r.setStream n { camStream r.s n with seq := 0 }
  | 3 =>
    let per := 16 * blkMs r.s n
    r.setAud { r.s.aud with mic := SMap.insert r.s.aud.mic n (cdiv (archNow r.s) per * per, 0) }
  | 4 => r.setAud { r.s.aud with out := SMap.erase r.s.aud.out n, tails := SMap.erase r.s.aud.tails n }
  | _ => r

end Run

/-- At the kind's boundary the scheduler takes a card up; one take-up serves every sync asked for since the last, and answers the
messages among them (R276, R301, R325). -/
def Run.takeUp {z : State} (r : Run z) (n : Nat) : Run z :=
  let c := cardOf r.s n
  if n ≥ 16384 || c.syncs = 0 || !fwRuns r.s 0 || !atBoundary r.s n then r
  else
    let r := if c.taken then r.writeBack n else r
    let ws := (List.range 32).map fun i => r.s.load (catAddr r.s n i) 4
    let st := takeStatus r.s n ws
    let r := r.when (st = stUncorrectable) fun r =>
      match (List.range 32).find? fun i => r.s.isUe (catAddr r.s n i) with
      | some i => r.countUe (catAddr r.s n i)
      | none => r
    let r := if st = stOk then r.install n ws else r
    let r := r.setCard n { cardOf r.s n with taken := true, syncs := 0, askers := [] }
    let sync := st * 2 ^ 16 + (cardW r.s n 3 + c.syncs) % 2 ^ 16
    let r := (r.setHw n 3 sync).touchCard n
    (r.each c.askers fun a r => r.mhyReply a.1 a.2 st (leBytes 4 sync)).settleSignals

/-- CARD_TAKE_UP: a card is taken up at its boundary (R276). -/
def execCardTakeUp (n : Nat) (s : State) : Host.Outcome State Fault Refusal := done ((Run.start s).takeUp n)

/-- CAMERA_FRAME_START: a Frame Start packet closes a frame still open, and is the boundary at which a synced card is taken up; then
it opens a frame, or drops it when the ring has no free slot (R380, R382, R387, R393). -/
def execCameraFrameStart (port vc fnum : Nat) (ecc1 : Bool) (s : State) : Host.Outcome State Fault Refusal :=
  let r := Run.start s
  if !camReceives s port then done r
  else
    let t := camNow s
    let r := r.countEcc1 port ecc1
    match camOf s port vc with
    | none => done (r.countCsi port 4)
    | some n =>
      let r := match openFrame s n with
        | some f =>
          if t > frameExpiry f then r.closeFrame n (frameExpiry f) true false false
          else (r.countCsi port 5).closeFrame n t false false true
        | none => r
      let r := r.takeUp n
      if camOf r.s port vc ≠ some n || !cardActive r.s n then done r
      else
        let c := camCard r.s n
        let x := camStream r.s n
        let r := if !c.keyed && Run.mirrorDiffers r.s c.stream then r.applySet c.stream (paramsMirror r.s c.stream) else r
        let f : CamFrame := {
          cfg := (List.range 32).map fun i => BitVec.ofNat 32 (cardW r.s n i), seq := x.seq, fnum := fnum, fs := t }
        let idx := cardW r.s n 16
        let waiting := (x.frames.filter fun g => !g.dropped).length
        let full := (bits idx 15 0 + 65536 - bits idx 31 16) % 65536 + waiting ≥ 2 ^ c.log2n
        let (f, ok, r) := if c.keyed then (f, true, r) else r.takeParams (cardCtx r.s n) f
        let x := camStream r.s n
        let r := r.setStream n { x with frames := x.frames ++ [{ f with dropped := full || !ok }], seq := x.seq + 1 }
        let r := r.trace 0x21 0x0200 (c.stream * 2 ^ 16 + fnum % 2 ^ 16)
        let x := camStream r.s n
        if full then done ((r.setStream n { x with dropFull := x.dropFull + 1 }).countDrop n 17 false f)
        else if !ok then done ((r.setStream n { x with dropUe := x.dropUe + 1 }).countDrop n 18 true f)
        else done r

end Sys2Proof.Machine
end

