-- ==== Sys2Proof/Machine/Firmware.lean ====
section
/-! DEFINITION. Restarts and updates of the firmware processors: the end of a restart (R300 to R303), the watchdog (R304), the
flash write of an update and its take-up (R305 to R307), and the log (R312, R313). -/

namespace Sys2Proof.Machine

/-- Where the boot flash lies: the xSPI flash window (R36). -/
def flashBase : Nat := 0x017100000000

/-- Entry point of a component: the model takes the start of the private SRAM, where it is loaded. -/
def fwEntry : Nat := 0x017500000000

/-- Field k of a firmware image at a physical address. -/
def imgWord (s : State) (base off : Nat) : Nat := s.load (base + off) 4

/-- NCOMP and MINPREV of an image. -/
def imgNcomp (s : State) (base : Nat) : Nat := imgWord s base 0xC % 2 ^ 16
def imgMinprev (s : State) (base : Nat) : Nat := imgWord s base 0xC / 2 ^ 16

/-- A component entry of an image: its words and digest. -/
structure Comp where
  id : Nat
  svn : Nat
  version : Nat
  offset : Nat
  size : Nat
  digest : List Byte
  rsv : Bool
  deriving DecidableEq, Repr

/-- Component entry c of an image. -/
def imgComp (s : State) (base c : Nat) : Comp :=
  let e := 0x10 + 0x60 * c
  { id := imgWord s base e, svn := imgWord s base (e + 4) / 2 ^ 16, version := imgWord s base (e + 4) % 2 ^ 16
    offset := imgWord s base (e + 8), size := imgWord s base (e + 0xC), digest := s.bytes (base + e + 0x10) 64
    rsv := s.load (base + e + 0x50) 16 ≠ 0 }

/-- The component entries of an image. -/
def imgComps (s : State) (base : Nat) : List Comp := (List.range (imgNcomp s base)).map fun c => imgComp s base c

/-- The bytes of a component. -/
def compBytes (s : State) (base : Nat) (c : Comp) : List Byte := s.bytes (base + c.offset) c.size

/-- A component's bytes match the digest of the manifest. -/
def compOk (s : State) (base : Nat) (c : Comp) : Bool := Config.shake256 (compBytes s base c) == c.digest

/-- The component of processor p in an image. -/
def compOf (s : State) (base p : Nat) : Option Comp := (imgComps s base).find? fun c => c.id = 0x10 + p

/-- Length of an image: the extent of its components (R305). -/
def imgExtent (s : State) (base : Nat) : Nat := (imgComps s base).foldl (fun m c => max m (c.offset + c.size)) 0x800

/-- A field of an image's manifest that does not occur (R305). -/
def imgBad (s : State) (base : Nat) : Bool :=
  let cs := imgComps s base
  let n := imgNcomp s base
  imgWord s base 0 ≠ 0x4A584657 || imgWord s base 4 ≠ 1 || n = 0 || decide (n > 5) ||
  cs.any (fun c => decide (c.id < 0x10) || decide (c.id > 0x14) || c.offset % 4096 ≠ 0 || decide (c.size < 4) ||
    decide (c.size > 229376) || c.rsv) ||
  (cs.map (·.id)).eraseDups ≠ cs.map (·.id) ||
  imgWord s base 0x1F0 = 0 || decide (imgWord s base 0x1F0 > 1536) || s.load (base + 0x1F4) 12 ≠ 0

/-- The signature by Stopirum over the digest of the manifest (R305). -/
def imgSigned (s : State) (base : Nat) : Bool :=
  Config.falconVerify Config.stopirumKey (Config.shake256 (s.bytes base 0x1F0)) (s.bytes (base + 0x200) (imgWord s base 0x1F0))

/-- Octets as the memory that starts at address 0, so that the fields of an image staged elsewhere read alike. -/
def imgView (bs : List Byte) : State :=
  { mem := ((List.range bs.length).zip bs).foldl (fun m c => SMap.set 0 m c.1 c.2) [] }

/-- The octets of a range under a context, up to the first that cannot be read. -/
def readPrefix (s : State) (c : XCtx) (va : Nat) : Nat → List Byte
  | 0 => []
  | n + 1 =>
    match lookupBytes s c .load va 1 with
    | .error _ => []
    | .ok as => as.map s.byte ++ readPrefix s c (va + 1) n

/-- The staged image of an update, as the security processor reads it: under its context, or physical memory in network
recovery. -/
def stageBytes (s : State) (ctx : Option Nat) (a n : Nat) : List Byte :=
  match ctx with
  | some c => readPrefix s (ctxX s c) a n
  | none => s.bytes a n

/-- Reading the staged image sets USED in the leaves it goes through (R98). -/
def Run.markStage {z : State} (r : Run z) (ctx : Option Nat) (a n : Nat) : Run z :=
  match ctx with
  | some c => r.markRange (ctxX r.s c) .load a n
  | none => r

/-- SHAKE256 digest of the running component of a processor. -/
def runningDigest (s : State) (p : Nat) : List Byte := SMap.get [] s.fw.digests p

namespace Run

variable {z : State}

/-- Replace firmware control state. -/
def setFw (r : Run z) (x : Fw) : Run z := r.put (.fw x)

/-- A processor writes a log record when its LEVEL is at or below LOGLVL (R312, R313). -/
def fwLog (r : Run z) (p level code : Nat) (args : List Nat) : Run z :=
  if level > r.s.fld (fwReg p 0) 1 0 then r
  else
    let n := SMap.get 0 r.s.fw.logSeq p
    let rec_ := leBytes 8 r.s.now ++ leBytes 4 n ++ leBytes 4 ((0x10 + p) * 2 ^ 24 + level * 2 ^ 22 + code) ++
      (List.range 4).flatMap fun i => leBytes 4 (args.getD i 0)
    (r.setBytes (sramBase p + 0x38000 + 32 * (n % 1024)) rec_).setFw
      { r.s.fw with logSeq := SMap.set 0 r.s.fw.logSeq p ((n + 1) % 2 ^ 32) }

/-- Four free words, as the arguments of a log code that the spec names none for. -/
def drawArgs (r : Run z) : List Nat × Run z :=
  (List.range 4).foldl (fun a _ => let (w, r) := a.2.draw; (a.1 ++ [w.toNat % 2 ^ 32], r)) ([], r)

/-- Write a component into a processor's private SRAM below the log region, with its digest and version (R300). -/
def fwLoad (r : Run z) (base p : Nat) (c : Comp) : Run z :=
  let bs := compBytes r.s base c
  let r := r.setBytes (sramBase p) bs
  let r := r.setFw { r.s.fw with
    digests := SMap.set [] r.s.fw.digests p (Config.shake256 bs)
    parity := r.s.fw.parity.filter fun w => !(decide (sramBase p / 8 ≤ w.1) && decide (w.1 * 8 < sramBase p + bs.length)) }
  r.setRegN (fwReg p 8) (c.svn * 2 ^ 16 + c.version)

/-- Release a processor in Monitor mode at its entry point; its watchdog period starts (R300, R304). -/
def fwRelease (r : Run z) (p : Nat) : Run z :=
  let r := r.setHart (fwKey p) { running := true, pc := BitVec.ofNat 64 fwEntry }
  let r := r.setFld (fwReg p 4) 31 30 0
  r.setFw { r.s.fw with kicks := SMap.insert r.s.fw.kicks p r.s.now }

/-- The take-up of an update goes on: the next processor whose component differs from the running one restarts, or the
update completes OK (R307). -/
def updateNext (r : Run z) : Run z :=
  match r.s.fw.update with
  | none => r
  | some u =>
    if !u.written || u.order.any (fun p => fwState r.s p = 1 || r.s.fw.queue.any fun q => q.p = p) then r
    else
      let differs := fun p => match compOf r.s flashBase p with
        | some c => c.digest ≠ runningDigest r.s p
        | none => false
      match u.order.filter differs with
      | [] =>
        let r := r.setFw { r.s.fw with update := none, imgver := imgWord r.s flashBase 8 }
        let r := r.put (.sec { r.s.sec with
          gen := r.s.sec.gen + 1, svn := (List.range 5).map fun p => (p, r.s.fld (fwReg p 8) 31 16) })
        r.mhyReply u.session u.seq stOk []
      | p :: rest => (r.setFw { r.s.fw with update := some { u with order := p :: rest } }).fwRestart p 4

/-- What firmware does when its processor returns: it decides what waits (R301). -/
def fwResume (r : Run z) (p : Nat) : Run z :=
  match p with
  | 0 => r.mhyFlush
  | 1 => r.put (.kv { r.s.kv with awake := true })
  | 3 => r.powerResume
  | 2 => (if r.s.lad.want then r.ladTakeUp else r).ladRun
  | _ => r

end Run

/-- FWP_RESTART_END: the component has been read, checked against the manifest and loaded, and the processor is released;
then the next restart in the order of request begins (R300 to R302, R307). A component that fails its check is not
released. -/
def execFwpRestartEnd (p : Nat) (s : State) : Host.Outcome State Fault Refusal :=
  let r := Run.start s
  if p > 4 || fwState s p ≠ 1 || (p ≠ 4 && fwState s 4 ≠ 0) then done r
  else match compOf s flashBase p with
    | none => done r
    | some c =>
      if !compOk s flashBase c then done r
      else
        let r := (r.fwLoad flashBase p c).fwRelease p
        let r := (r.setFld (fwReg p 0) 31 31 0).setReg64 (fwReg p 0xC) s.now
        let (args, r) := r.drawArgs
        let r := r.fwLog p (Config.restartLevel % 4) 0x0001 args
        let r := r.trace (0x10 + p) 0x0001 (s.fld (fwReg p 4) 23 16 * 2 ^ 16 + s.fld (fwReg p 4) 15 0)
        let mine := s.fw.askers.filter fun a => a.1 = p
        let r := r.setFw { r.s.fw with askers := r.s.fw.askers.filter fun a => a.1 ≠ p }
        let r := r.each mine fun a r => r.mhyReply a.2.1 a.2.2 stOk []
        let r := r.fwNext (r.s.fw.queue.length + 1)
        done ((r.fwResume p).updateNext)

/-- WATCHDOG_EXPIRY: a running processor has not kicked for 2^WDOG ms (R304). -/
def execWatchdogExpiry (p : Nat) (s : State) : Host.Outcome State Fault Refusal :=
  let r := Run.start s
  if p ≤ 4 && fwRuns s p &&
      decide (s.now ≥ SMap.get 0 s.fw.kicks p + 2 ^ s.fld (fwReg p 0) 7 4 * 1000000) then done (r.fwRestart p 2)
  else done r

/-- FW_FLASH_WRITE_END: the image has been read a second time and written to the boot flash. When its digest differs from the
first the update completes DENIED, else the take-up begins, in the order sensor, memory, power, scheduler, security
(R306, R307). -/
def execFwFlashWriteEnd (s : State) : Host.Outcome State Fault Refusal :=
  let r := Run.start s
  match s.fw.update with
  | none => done r
  | some u =>
    if u.written || !(fwRuns s 4 || s.sec.recovery) then done r
    else
      let bs := stageBytes s u.ctx u.image u.len
      let r := (r.markStage u.ctx u.image u.len).setBytes flashBase bs
      if Config.shake256 bs ≠ u.digest then
        done ((r.setFw { r.s.fw with update := none, flashBad := true }).mhyReply u.session u.seq stDenied [])
      else if s.sec.recovery then
        done ((r.setFw { r.s.fw with update := none, flashBad := false }).mhyReply u.session u.seq stOk [])
      else
        let u := { u with written := true, order := [2, 1, 3, 0, 4] }
        done (r.setFw { r.s.fw with update := some u, flashBad := false }).updateNext

namespace Run

variable {z : State}

/-- FW_UPDATE: the checks of R305 on the staged image, and the flash write begins. In network recovery the SVN floors of the
protection store take the place of the running components, and no image is taken while the store cannot be read (R468, R469). -/
def fwUpdate (r : Run z) (ctx : Option Nat) (addr len session seq : Nat) : Run z :=
  let s := r.s
  let bs := stageBytes s ctx addr len
  let v := imgView bs
  let rec_ := s.sec.recovery
  let floor := fun (p : Nat) => if rec_ then SMap.get 0 s.sec.svn p else s.fld (fwReg p 8) 31 16
  let st :=
    if bs.length < len then stBounds
    else if len ≠ imgExtent v 0 then stBadLength
    else if imgBad v 0 then stBounds
    else if !imgSigned v 0 || (imgComps v 0).any (fun c => !compOk v 0 c || decide (c.svn < floor (c.id - 0x10))) ||
        (!rec_ && decide (s.fw.imgver < imgMinprev v 0)) || (rec_ && !s.sec.env.storeOk) || s.fw.update.isSome then stDenied
    else stOk
  let r := r.markStage ctx addr len
  if st ≠ stOk then r.mhyReply session seq st []
  else r.setFw { r.s.fw with update := some {
    image := addr, ctx := ctx, len := len, session := session, seq := seq, digest := Config.shake256 bs } }

end Run

end Sys2Proof.Machine
end

