-- ==== Sys2Proof/Machine/Sessions.lean ====
section
/-! DEFINITION. Sessions at their end: completion of parcels (R287), lease expiry and the orphan policies (R309), and release
(R311). -/

namespace Sys2Proof.Machine

/-- Contexts whose SESSION names a session. -/
def ctxsOf (s : State) (n : Nat) : List Nat := (List.range 4096).filter fun c => ctxSession s c = n

/-- Running reflex groups with AUTO = 1 whose parcels belong to some contexts. -/
def autoGroups (s : State) (cs : List Nat) : List RGroup :=
  (s.rfx.groups.map (·.2)).filter fun g => RGroup.auto g.desc && (match s.parcel? g.parcel with
    | some p => cs.contains p.ctx
    | none => false)

/-- The cards that running AUTO groups keep: the queue card whose completion ring takes the record, and the reflex channel
cards (R311). -/
def keptCards (s : State) (gs : List RGroup) : List Nat :=
  gs.flatMap fun g => g.cardNums ++ (match s.parcel? g.parcel with
    | some p => (match p.origin with | .queue n _ => [n] | .recompute _ => [])
    | none => [])

/-- The handles that running AUTO groups and the cards they keep name (R309, R311). -/
def keptHandles (s : State) (gs : List RGroup) : List Nat :=
  (gs.flatMap fun g => [RGroup.w g.desc 19, RGroup.w g.desc 20] ++ (match s.parcel? g.parcel with
    | some p => [10, 12, 14, 15].map fun i => (p.desc.getD i 0).toNat
    | none => [])) ++ (keptCards s gs).map (cardEvt s)

/-- A parcel is waiting in the sense of R311: from its take until its first gang is admitted. -/
def notAdmitted (s : State) (p : Parcel) : Bool :=
  p.stage = .waiting || (p.stage = .running && !isReflex p && p.next = 0 && p.again.isEmpty && !p.stop &&
    (p.desc.getD 8 0) ≠ 0 && !rerunDue s p && !p.rerun)

/-- Parcels of some contexts in flight, but for those of running AUTO groups. -/
def openParcels (s : State) (cs : List Nat) : SMap Parcel :=
  let auto := (s.rfx.groups.filter fun g => RGroup.auto g.2.desc).map fun g => g.2.parcel
  s.sched.parcels.filter fun p => cs.contains p.2.ctx && !auto.contains p.1

/-- A recompute parcel of some contexts waits to enter flight (R286). -/
def owesRecompute (s : State) (cs : List Nat) : Bool := s.kv.owed.any fun q => cs.contains (bits (seqW s q 0x30) 11 0)

namespace Run

variable {z : State}

/-- Write a card as 0 in the Catalogue and drop the device's copy, with what its channel holds (R311). -/
def zeroCard (r : Run z) (n : Nat) : Run z :=
  let r := r.each (List.range 32) fun i r => r.storeMem (catAddr r.s n i) 4 0
  let r := r.setCard n {}
  let r := r.put (.sched { r.s.sched with bells := SMap.erase r.s.sched.bells n })
  let r := r.put (.cam { r.s.cam with streams := SMap.erase r.s.cam.streams n })
  let r := r.setAud { r.s.aud with
    mic := SMap.erase r.s.aud.mic n, out := SMap.erase r.s.aud.out n, tails := SMap.erase r.s.aud.tails n }
  r.setMhy { r.s.mhy with outbox := r.s.mhy.outbox.filter fun o => o.1 ≠ n }

/-- Free the tallies of some contexts, but for those that some handles name (R112, R311). -/
def freeTallies (r : Run z) (cs keep : List Nat) : Run z :=
  r.each (r.s.tallies.filter fun t => t.2.allocated && cs.contains t.2.ctx && !keep.contains (tallyHandle r.s t.1)) fun t r =>
    r.freeTally t.1

/-- When the last AUTO group of a released context has completed: its kept cards and tallies go (R311). -/
def orphanEnd (r : Run z) (ctx : Nat) : Run z :=
  if !r.s.mhy.orphans.contains ctx || !(autoGroups r.s [ctx]).isEmpty ||
      r.s.sched.parcels.any (fun p => p.2.ctx = ctx) then r
  else
    let r := r.each (r.s.sched.cards.filter fun c => cardCtx r.s c.1 = ctx) fun c r => r.zeroCard c.1
    let r := r.freeTallies [ctx] []
    r.setMhy { r.s.mhy with orphans := r.s.mhy.orphans.filter (· ≠ ctx) }

/-- The waiting parcels of some contexts end with LEASE_LOST (R309, R311). -/
def dropWaiting (r : Run z) (cs : List Nat) : Run z :=
  r.each ((openParcels r.s cs).filter fun p => notAdmitted r.s p.2) fun p r =>
    let r := r.withdraw fun q => q.parcel = p.1
    let slot := match p.2.origin with | .queue _ x => x | _ => 0
    let r := r.when (p.2.stage = .waiting) fun r => r.trace 0x10 0x0011 (stLeaseLost * 2 ^ 16 + slot)
    r.endParcel p.1 stLeaseLost

/-- The camera channels of some contexts stop at once: no frame of theirs goes on (R309). -/
def dropFrames (r : Run z) (cs : List Nat) : Run z :=
  r.put (.cam { r.s.cam with streams := r.s.cam.streams.filter fun c => !cs.contains (cardCtx r.s c.1) })

/-- The release of a session begins: its contexts take no more work and its waiting parcels end (steps 1 and 2 of R311). The
reflex groups that do not outlast it stop, at once under ABORT. -/
def beginRelease (r : Run z) (n : Nat) (bye : Option Nat) : Run z :=
  match sess? r.s n with
  | none => r
  | some x =>
    if x.releasing then r
    else
      let r := r.setSess n { x with releasing := true, bye := bye }
      let cs := ctxsOf r.s n
      let r := r.each cs fun c r => r.writeCtxCfg c (r.s.fld (schedReg (0x10000 + 0x10 * c)) 30 0)
      let r := r.rfxOrphan n (if r.s.fld (sessReg n 0) 29 28 = 2 then 2 else 1)
      r.dropWaiting cs

/-- Steps 3 to 6 of R311, once every parcel of the contexts has its record but those of running AUTO groups. -/
def finishRelease (r : Run z) (n : Nat) : Run z :=
  match sess? r.s n with
  | none => r
  | some x =>
    let cs := ctxsOf r.s n
    let gs := autoGroups r.s cs
    let cards := keptCards r.s gs
    let handles := keptHandles r.s gs
    let auto := (cs.filter fun c => !(autoGroups r.s [c]).isEmpty)
    let r := r.each (r.s.sched.cards.filter fun c => cs.contains (cardCtx r.s c.1) && !cards.contains c.1) fun c r =>
      r.zeroCard c.1
    let r := r.freeTallies cs handles
    let r := r.each ((List.range 4096).filter fun q => seqState r.s q ≠ 0 && cs.contains (bits (seqW r.s q 0x30) 11 0))
      fun q r => (r.setSeqPins q 0).closeSeq q
    let r := r.setMhy { r.s.mhy with watches := r.s.mhy.watches.filter fun w => w.session ≠ n, orphans := r.s.mhy.orphans ++ auto }
    let r := match x.bye with
      | some q => r.mhyReply n q stOk []
      | none => r
    let r := r.setMhy { r.s.mhy with
      sess := SMap.erase r.s.mhy.sess n
      execs := r.s.mhy.execs.filter fun e => e.session ≠ n || e.opcode = 1
      owed := r.s.mhy.owed.filter fun o => match o with | .reply m _ _ => m ≠ n | .pace _ _ => true }
    let policy := r.s.fld (sessReg n 0) 29 28
    (r.setFld (sessReg n 0) 31 30 0).trace 0x10 0x0013 (policy * 2 ^ 30 + 2 ^ 28 + n)

end Run

/-- PARCEL_COMPLETE: the completion record is written and the tallies are signalled once the parcel's work has ended (R287).
A ladder's parcel brings its verdict (R406), and the last AUTO group of a released context ends what it kept (R311). -/
def execParcelComplete (i : Nat) (s : State) : Host.Outcome State Fault Refusal :=
  let r := Run.start s
  match s.parcel? i with
  | none => done r
  | some p =>
    match p.origin with
    | .recompute _ => done r
    | .queue card idx =>
      if !fwRuns s 0 || !workEnded s p then done r
      else
        let r := (r.completeQueue i p card idx).owedRecompute
        done (((r.ladCompleted card idx (finalStatus p)).orphanEnd p.ctx).settleSignals)

/-- A message of a session's mailbox whose doorbell is stamped at or before E is still to be taken, and may renew the lease
(R308). -/
def bellPending (s : State) (n : Nat) (x : Sess) : Bool :=
  match x.peer.bind with
  | .mailbox card => (SMap.get [] s.sched.bells card).any fun b => decide (b.2 ≤ leaseEnd s n)
  | _ => false

/-- LEASE_EXPIRY: a LIVE session's lease has expired, and its orphan policy is applied (R309, R242). -/
def execLeaseExpiry (n : Nat) (s : State) : Host.Outcome State Fault Refusal :=
  let r := Run.start s
  match sess? s n with
  | none => done r
  | some x =>
    if !fwRuns s 0 || sessState s n ≠ 1 || x.releasing || s.now ≤ leaseEnd s n || bellPending s n x then done r
    else
      let policy := s.fld (sessReg n 0) 29 28
      let r := r.trace 0x10 0x0013 (policy * 2 ^ 30 + n)
      let r := r.setSess n { x with expired := some (leaseEnd s n) }
      done <| Run.settleSignals <| match policy with
        | 0 => (r.setFld (sessReg n 0) 31 30 2).rfxOrphan n 0
        | 1 => (r.setFld (sessReg n 0) 31 30 3).rfxOrphan n 1
        | _ =>
          let cs := ctxsOf s n
          let r := (r.beginRelease n none).dropFrames cs
          r.each ((openParcels r.s cs).filter fun p => p.2.stage = .running && !isReflex p.2) fun p r =>
            (r.stopParcel p.1 stLeaseLost).closeStopped p.1

/-- HOLD_EXPIRY: a HELD session has not been reclaimed within 60 s of its expiry, and its release begins (R310, R311). -/
def execHoldExpiry (n : Nat) (s : State) : Host.Outcome State Fault Refusal :=
  let r := Run.start s
  if fwRuns s 0 && sessState s n = 2 && decide (s.now > leaseEnd s n + 60000000000) then
    done (r.beginRelease n none).settleSignals
  else done r

/-- A DRAINING session has drained: its queues' entries are taken, and no parcel of its contexts is in flight but those of
AUTO groups (R309). -/
def drainDone (s : State) (n : Nat) : Bool :=
  let cs := ctxsOf s n
  (openParcels s cs).isEmpty && s.sched.cards.all fun c =>
    !(cardKind s c.1 = 1 && cardEn s c.1 && cs.contains (cardCtx s c.1) && ctxEn s (cardCtx s c.1)) ||
      bit (cardW s c.1 9) 16 || bits (cardW s c.1 9) 15 0 = bits (cardW s c.1 10) 15 0

/-- SESSION_RELEASE: a DRAINING session that has drained begins its release, and a release whose parcels have their records
ends: cards, tallies and sequences go, and the session is CLOSED (R309, R311). -/
def execSessionRelease (n : Nat) (s : State) : Host.Outcome State Fault Refusal :=
  let r := Run.start s
  match sess? s n with
  | none => done r
  | some x =>
    if !fwRuns s 0 then done r
    else
      let r := if !x.releasing && sessState s n = 3 && drainDone s n then r.beginRelease n none else r
      let releasing := match sess? r.s n with | some x => x.releasing | none => false
      if releasing && fwRuns s 1 && (openParcels r.s (ctxsOf r.s n)).isEmpty && !owesRecompute r.s (ctxsOf r.s n) then done (r.finishRelease n).settleSignals
      else done r

end Sys2Proof.Machine
end

