-- ==== Sys2Proof/Machine/Repair.lean ====
section
/-! DEFINITION. Repair and service while running: fences (R458, R289, R243), the spare swap (R456, R459, R461), BIST
(R462, R464), rolling swaps (R463), the Fence Ledger (R460, R465, R466), row sparing (R268) and vault timeouts (R266). -/

namespace Sys2Proof.Machine

/-- Key of FIX_Pn_STAT and of FIX_Ll_MAP. -/
def fixCoreReg (c : Nat) : Nat := fixReg (0x100 + 4 * c)
def fixMapReg (l : Nat) : Nat := fixReg (0x400 + 4 * l)

/-- Home cluster of a logical number, and mesh links between two clusters of the 4 by 4 grid (R455, R456). -/
def homeCluster (l : Nat) : Nat := l / 11
def meshLinks (a b : Nat) : Nat :=
  (max (a / 4) (b / 4) - min (a / 4) (b / 4)) + (max (a % 4) (b % 4) - min (a % 4) (b % 4))

/-- The core of least rank among those of a list. -/
def leastCore (f : Nat → Nat) : List Nat → Option Nat
  | [] => none
  | x :: xs => some (xs.foldl (fun m y => if f y < f m then y else m) x)

/-- The core that a number takes (R456): a SPARE of its home cluster, then of the nearest one when BORROW is 1, then a
TESTING one in the same order. -/
def pickCore (s : State) (l : Nat) : Option Nat :=
  let borrow := s.fld (fixReg 4) 1 1 = 1
  let rank := fun c => (meshLinks (homeCluster l) (c / 12) * 16 + c / 12) * 256 + c
  let among := fun st => leastCore rank ((List.range 192).filter fun c => fixState s c = st &&
    (borrow || c / 12 = homeCluster l))
  match among 1 with
  | some c => some c
  | none => among 2

/-- The unbacked number that a core which became SPARE or entered TESTING backs (R461). -/
def pickNumber (s : State) (core : Nat) : Option Nat :=
  let borrow := s.fld (fixReg 4) 1 1 = 1
  let open_ := s.fix.unbacked.filter fun u => !(s.fix.checks.any fun k => k.logical = u.1) &&
    (borrow || homeCluster u.1 = core / 12)
  let before := fun (a b : Nat × Nat) =>
    let da := meshLinks (core / 12) (homeCluster a.1) * 16 + homeCluster a.1
    let db := meshLinks (core / 12) (homeCluster b.1) * 16 + homeCluster b.1
    decide (da < db) || (da = db && (decide (a.2 < b.2) || (a.2 = b.2 && decide (a.1 < b.1))))
  match open_ with
  | [] => none
  | x :: xs => some (xs.foldl (fun m y => if before y m then y else m) x).1

/-- A fenced gang is dispatched again: RESTART = 1 and REDISP below 3 (R289). -/
def mayRedispatch (p : Parcel) : Bool := bit (p.desc.getD 0 0).toNat 28 && decide (p.redisp < 3)

namespace Run

variable {z : State}

/-- Replace repair state. -/
def setFix (r : Run z) (x : Fix) : Run z := r.put (.fix x)

/-- A core enters a state, with the logical number it shows. -/
def setCoreState (r : Run z) (c st l : Nat) : Run z :=
  (r.setFld (fixCoreReg c) 31 29 st).setFld (fixCoreReg c) 23 16 l

/-- FIX_STAT's counts, with the DEGRADED event when it sets (R461, R492). -/
def fixCounts (r : Run z) : Run z :=
  let was := r.s.fld (fixReg 0) 31 31
  let n := r.s.fix.unbacked.length
  let spares := ((List.range 192).filter fun c => fixState r.s c = 1 || fixState r.s c = 2).length
  let retired := ((List.range 192).filter fun c => fixState r.s c = 5).length
  let r := ((r.setFld (fixReg 0) 31 31 (b2n (n ≠ 0))).setFld (fixReg 0) 23 16 spares).setFld (fixReg 0) 15 8 retired
  let r := r.setFld (fixReg 0) 7 0 n
  r.when (n ≠ 0 && was = 0) fun r => r.errEvent 4

/-- A record is owed to the Fence Ledger. -/
def owe (r : Run z) (kind arg0 : Nat) : Run z :=
  r.setFix { r.s.fix with owed := r.s.fix.owed ++ [{ kind := kind, arg0 := arg0, time := r.s.now, boot := r.s.fix.boots }] }

/-- A core is retired: its record is owed, and any test or check of it ends. -/
def retire (r : Run z) (c : Nat) : Run z :=
  let r := r.setFix { r.s.fix with
    tests := r.s.fix.tests.filter fun t => t.core ≠ c, checks := r.s.fix.checks.filter fun k => k.core ≠ c }
  ((r.setCoreState c 5 0xFF).owe 2 c).fixCounts

/-- Zero a core: carrel, accumulators and statistics sets, with nothing of the old work left (R459). -/
def zeroCore (r : Run z) (c : Nat) : Run z :=
  let r := r.setBytes (carrelBase c) (List.replicate 0x40000 0)
  let r := r.setCore c {}
  r.each [0, 1, 2, 3] fun b r => r.freshBank c b

/-- A core enters CHECKING for a number (R459); a test of it is abandoned. -/
def startCheck (r : Run z) (l c : Nat) : Run z :=
  let r := r.setFix { r.s.fix with
    tests := r.s.fix.tests.filter fun t => t.core ≠ c, checks := r.s.fix.checks ++ [⟨c, l, r.s.now⟩] }
  ((r.setCoreState c 3 0xFF).zeroCore c).fixCounts

/-- A number takes a core under R456; a reflex parcel whose number finds none completes FENCED_RETRY (R461). -/
def takeCore (r : Run z) (l : Nat) : Run z :=
  match pickCore r.s l with
  | some c => r.startCheck l c
  | none => r.each (r.s.rfx.groups.filter fun g => RGroup.lcore g.2.desc = l) fun g r => r.rfxEnd g.1 g.2 stFencedRetry

/-- A core that became SPARE or entered TESTING backs an unbacked number (R461). -/
def offerCore (r : Run z) (c : Nat) : Run z :=
  match pickNumber r.s c with
  | some l => r.startCheck l c
  | none => r.fixCounts

/-- A core becomes SPARE. -/
def toSpare (r : Run z) (c : Nat) : Run z := (r.setCoreState c 1 0xFF).offerCore c

/-- A core enters TESTING (R462, R463). -/
def toTesting (r : Run z) (c : Nat) (rolled : Bool) : Run z :=
  let r := r.setFix { r.s.fix with tests := r.s.fix.tests ++ [{ core := c, start := r.s.now, rolled := rolled }] }
  (r.setCoreState c 2 0xFF).offerCore c

/-- The gangs of a core that have ended retire first: a retirement at the fence stamp stands (R84, R289). -/
def retireEnded (r : Run z) (core : Nat) : Run z :=
  let c := r.s.core core
  r.each ((gangsOf r.s core).filter fun kg => !kg.2.stopped && kg.2.allExited &&
    !(c.queue ++ c.running).any fun t => t.gang = kg.1 % 128) fun kg r => r.retireGang core (kg.1 % 128) kg.2

/-- The parcels with gangs on a fenced core (R289): its unretired gangs are dispatched again, or the parcel stops. The core holds no
gang then, the boundary of CORE_PARK_CFG (R13). -/
def fenceParcels (r : Run z) (core l : Nat) : Run z :=
  let gone := gangsOf r.s core
  let r := r.each gone fun kg r => (r.dropGangWaits core (kg.1 % 128)).dropGang core (kg.1 % 128)
  let r := r.takeMirror (coreReg core 4)
  r.each r.s.sched.parcels fun ip r =>
    let mine := gone.filter fun kg => kg.2.parcel = ip.1
    match r.s.parcel? ip.1 with
    | none => r
    | some p =>
      let p := { p with permits := p.permits.filter (· ≠ core) }
      if mine.isEmpty then (if p = ip.2 then r else r.setParcel ip.1 p)
      else if p.stop then (r.setParcel ip.1 p).closeStopped ip.1
      else if mayRedispatch p then
        let idx := (mine.map fun kg => kg.2.gridIdx).mergeSort (· ≤ ·)
        r.setParcel ip.1 { p with again := p.again ++ idx, redisp := p.redisp + 1, fcore := l, ftime := r.s.now }
      else
        let st := if bit (p.desc.getD 0 0).toNat 28 then stFencedRetry else stNotRestartable
        ((r.setParcel ip.1 { p with fcore := l, ftime := r.s.now }).stopParcel ip.1 st).closeStopped ip.1

/-- The state and number of a fenced core, its work, and its test (R458, R464). -/
def fenceRest (r : Run z) (core l cause : Nat) : Run z :=
  let r := r.retireEnded core
  let r := r.setCoreState core 4 0xFF
  let r := r.setFld (coreReg core 0) 31 24 0xFF
  let r := r.owe 1 (cause * 2 ^ 16 + l * 2 ^ 8 + core)
  let r := r.setFix { r.s.fix with
    tests := (r.s.fix.tests.filter fun t => t.core ≠ core) ++ [{ core := core, start := r.s.now }]
    passed := SMap.erase r.s.fix.passed core }
  let r := (r.setCore core {}).withdraw fun q => q.core = core
  let r := r.fenceParcels core l
  let r := if l ≥ 176 then r
    else
      let r := (r.setRegN (fixMapReg l) 0xFF).setFix { r.s.fix with unbacked := r.s.fix.unbacked ++ [(l, r.s.now)] }
      r.rfxFence l
  r.fixCounts

/-- A core is fenced with a cause (R458); its number, if it carried one, is unbacked and then takes another core. A core of a
rolling swap also settles the swap (R463). -/
def fenceCore (r : Run z) (core cause : Nat) : Run z :=
  let st := fixState r.s core
  if core ≥ 192 || st = 4 || st = 5 then r
  else
    let l := logicalOf r.s core
    let r := (r.bump (fixReg 0x010)).errEvent 3
    let r := (r.trace 0x23 0x0400 (cause * 2 ^ 16 + l * 2 ^ 8 + core)).setFld (fixCoreReg core) 15 8 cause
    let swap := r.s.fix.swap
    match swap with
    | some w =>
      if w.new = core then (r.setFix { r.s.fix with swap := none }).retire core
      else
        let r := r.when (w.old = core) fun r => r.setFix { r.s.fix with swap := none }
        r.fenceRest core l cause
    | none => r.fenceRest core l cause

/-- Fence some cores; then their numbers take cores, a number whose swap was under way taking the spare of its swap, and a
number whose check was broken off the next one. Numbers fenced at one stamp choose together, the lower first, so those whose
core began its check at this stamp choose again (R459, R463). -/
def fenceAll (r : Run z) (cores : List Nat) (cause : Nat) : Run z :=
  let swap := r.s.fix.swap
  let had := r.s.fix.unbacked.map (·.1)
  let broken := (r.s.fix.checks.filter fun k => cores.contains k.core).map (·.logical)
  let r := r.each cores fun c r => r.fenceCore c cause
  let equal := r.s.fix.checks.filter fun k => !cores.contains k.core && k.start = r.s.now &&
    r.s.fix.unbacked.contains (k.logical, r.s.now)
  let r := r.setFix { r.s.fix with
    checks := r.s.fix.checks.filter fun k => !cores.contains k.core && !equal.contains k }
  let r := r.each equal fun k r => r.setCoreState k.core 1 0xFF
  let need := ((r.s.fix.unbacked.map (·.1)).filter fun l => !had.contains l || broken.contains l ||
    equal.any fun k => k.logical = l).mergeSort (· ≤ ·)
  let r := r.each need fun l r =>
    match swap with
    | some w => if w.logical = l && fixState r.s w.new = 3 then r.startCheck l w.new else r.takeCore l
    | none => r.takeCore l
  r.noteDegraded

/-- A core becomes LIVE for a number, once the carrel mapping points at it (R251, R459). -/
def backNumber (r : Run z) (l c : Nat) : Run z :=
  let r := (r.setFld (coreReg c 0) 31 24 l).setCoreState c 0 l
  let r := r.setRegN (fixMapReg l) (2 ^ 31 + b2n (homeCluster l ≠ c / 12) * 2 ^ 30 + c)
  let r := r.when (r.s.reg64 (vltReg 0x028) ≠ 0) fun r => r.mapLogical l
  let r := r.setFix { r.s.fix with unbacked := r.s.fix.unbacked.filter fun u => u.1 ≠ l }
  (r.noteReady c).fixCounts.noteDegraded

end Run

/-- CORE_FENCE: a parity error (cause 1) or a failing test (cause 2) of a core is detected, and the core is fenced
(*Fault coverage*, R458). -/
def execCoreFence (core cause : Nat) (s : State) : Host.Outcome State Fault Refusal :=
  let r := Run.start s
  if cause = 1 || cause = 2 then done (r.fenceAll [core] cause).settleSignals else done r

/-- HANG_DETECT: a LIVE core with a ready gang that has issued nothing for 1 ms is fenced with cause 3 (R458). -/
def execHangDetect (core : Nat) (s : State) : Host.Outcome State Fault Refusal :=
  let r := Run.start s
  let ready := s.gangs.any fun kg => kg.1 / 128 = core && gangReady s core (kg.1 % 128)
  if core < 192 && fixState s core = 0 && ready && decide (s.now ≥ (s.core core).quiet + 1000000) then
    done (r.fenceAll [core] 3).settleSignals
  else done r

/-- SUPPLY_MONITOR_FENCE: a cluster regulator has been out of its range for 10 µs, and every LIVE core of the cluster is
fenced with cause 4 (R506, *Fault coverage*). -/
def execSupplyMonitorFence (cl : Nat) (s : State) : Host.Outcome State Fault Refusal :=
  let r := Run.start s
  if cl < 16 then
    done (r.fenceAll (((List.range 12).map (12 * cl + ·)).filter fun c => fixState s c = 0) 4).settleSignals
  else done r

/-- The check of a core that is to back an unbacked number. -/
def Run.checkEnd {z : State} (r : Run z) (core : Nat) (pass : Bool) : Run z :=
  match r.s.fix.checks.find? fun k => k.core = core with
  | none => r
  | some k =>
    if r.s.now < k.start + 40000 then r
    else if pass then
      if !fwRuns r.s 1 then r
      else (r.setFix { r.s.fix with checks := r.s.fix.checks.filter fun x => x ≠ k }).backNumber k.logical core
    else (r.retire core).takeCore k.logical

/-- ENTRY_CHECK_END: the 40 µs entry check of a core ends. It becomes LIVE for its number, or is retired and the next core is
chosen (R459); in a rolling swap the number stops taking gangs, or stays where it is (R463). -/
def execEntryCheckEnd (core : Nat) (pass : Bool) (s : State) : Host.Outcome State Fault Refusal :=
  let r := Run.start s
  match s.fix.swap with
  | some w =>
    if w.new = core && w.drain.isNone then
      if s.now < w.start + 40000 then done r
      else if pass then done (r.setFix { s.fix with swap := some { w with drain := some s.now } })
      else done ((r.setFix { s.fix with swap := none }).retire core)
    else done (r.checkEnd core pass)
  | none => done (r.checkEnd core pass)

/-- DEGRADED_TIMEOUT: a parcel has waited DEG_MS ms for a backed core of its placement, and completes FENCED_RETRY; FCORE names
the lowest unbacked number of its range (R461). -/
def execDegradedTimeout (i : Nat) (s : State) : Host.Outcome State Fault Refusal :=
  let r := Run.start s
  match s.parcel? i with
  | none => done r
  | some p =>
    if !fwRuns s 0 || p.stage ≠ .running || !degradedOver s p then done r
      else
        let low := ((List.range 176).find? fun l => placed p l && (coreOfLogical s l).isNone).getD 0xFF
        let r := r.withdraw fun q => q.parcel = i
        done ((r.setParcel i { p with fcore := low, degradedAt := none }).endParcel i stFencedRetry)

/-! ## Built-in self-test (R462, R464) -/

/-- SPARE_BIST_START: a SPARE's periodic full BIST is due; an unbacked number takes the core when it enters TESTING
(R461, R462). -/
def execSpareBistStart (core : Nat) (s : State) : Host.Outcome State Fault Refusal :=
  let r := Run.start s
  let hours := s.fld (fixReg 8) 15 8
  if core < 192 && fixState s core = 1 && hours ≠ 0 &&
      decide (s.now ≥ SMap.get 0 s.fix.tested core + hours * 3600000000000) then
    done ((r.setFix { s.fix with tested := SMap.insert s.fix.tested core s.now }).toTesting core false)
  else done r

/-- The test of a core ends: it leaves the carrel's bytes free (R462). -/
def Run.scanned {z : State} (r : Run z) (core : Nat) : Run z :=
  let r := r.setFix { r.s.fix with tests := r.s.fix.tests.filter fun x => x.core ≠ core }
  let n := r.s.free
  (r.put .draw).setBytes (carrelBase core) ((List.range 0x40000).map fun i => Config.bistByte n i)

/-- BIST_END: a full BIST of 40 ms ends. `fails` is 0 for a pass, 1 for a failure in exactly one column, whose record is given,
and 2 for any other failure (R462 to R464). -/
def execBistEnd (core fails : Nat) (column : W32) (s : State) : Host.Outcome State Fault Refusal :=
  let r := Run.start s
  match s.fix.tests.find? fun t => t.core = core with
  | none => done r
  | some t =>
    if s.now < t.start + 40000000 then done r
    else
      let r := r.scanned core
      if fixState s core = 2 then
        if fails = 0 then done (r.toSpare core)
        else if t.rolled then done (r.retire core)
        else done ((r.fenceAll [core] 2).settleSignals)
      else if fixState s core ≠ 4 then done r
      else if fails = 1 then done (r.owe 5 column.toNat)
      else if fails ≠ 0 || s.fld (fixReg 4) 0 0 = 0 then done (r.retire core)
      else if t.second then
        let r := r.setFix { r.s.fix with passed := SMap.erase r.s.fix.passed core }
        done ((r.toSpare core).owe 3 core)
      else done (r.setFix { r.s.fix with passed := SMap.insert r.s.fix.passed core s.now })

/-- REINSTATE_BIST: 1 h after its first pass a fenced core runs full BIST again (R464). -/
def execReinstateBist (core : Nat) (s : State) : Host.Outcome State Fault Refusal :=
  let r := Run.start s
  match SMap.find? s.fix.passed core with
  | none => done r
  | some t =>
    if fixState s core ≠ 4 || s.now < t + 3600000000000 || s.fix.tests.any fun x => x.core = core then done r
    else done (r.setFix { s.fix with tests := s.fix.tests ++ [{ core := core, start := s.now, second := true }] })

/-! ## Rolling swaps (R462, R463) -/

/-- The SPARE of a number's home cluster that a rolling swap uses, unless the number is passed over (R462). -/
def swapSpare (s : State) (l : Nat) : Option Nat :=
  match coreOfLogical s l with
  | none => none
  | some p =>
    if reflexReserved s l || pinned s (p / 12) then none
    else ((List.range 12).map (12 * homeCluster l + ·)).find? fun c => fixState s c = 1

/-- ROLLING_SWAP_START: the schedule reaches the next number, and its swap begins or it is passed over (R462, R463). -/
def execRollingSwapStart (s : State) : Host.Outcome State Fault Refusal :=
  let r := Run.start s
  let days := s.fld (fixReg 8) 7 0
  if s.fld (fixReg 4) 2 2 = 0 || days = 0 || !awake s || s.fix.swap.isSome ||
      s.now < s.fix.rollAt + days * 86400000000000 / 176 then done r
  else
    let l := s.fix.rollNext
    let r := match s.sec.policyNext with
      | some p => if l = 0 then (r.setRegN (fixReg 4) p).put (.sec { s.sec with policyNext := none }) else r
      | none => r
    let r := r.setFix { s.fix with rollNext := (l + 1) % 176, rollAt := s.now }
    match swapSpare s l, coreOfLogical s l with
    | some c, some p =>
      let r := r.setFix { r.s.fix with swap := some { logical := l, old := p, new := c, start := s.now } }
      done ((r.setCoreState c 3 0xFF).zeroCore c).fixCounts
    | _, _ => done r

/-- ROLLING_SWAP_TIMEOUT: the old core still holds gangs after 10 ms, and the swap is abandoned (R463). -/
def execRollingSwapTimeout (s : State) : Host.Outcome State Fault Refusal :=
  let r := Run.start s
  match s.fix.swap with
  | none => done r
  | some w =>
    match w.drain with
    | none => done r
    | some t =>
      if s.now < t + 10000000 || (gangsOf s w.old).isEmpty then done r
      else done ((r.setFix { s.fix with swap := none }).toSpare w.new)

/-- ROLLING_SWAP_COPY_END: the 64 folios have been copied and the number is remapped; the old core enters TESTING (R463). -/
def execRollingSwapCopyEnd (s : State) : Host.Outcome State Fault Refusal :=
  let r := Run.start s
  match s.fix.swap with
  | none => done r
  | some w =>
    if w.drain.isNone || !(gangsOf s w.old).isEmpty || !fwRuns s 1 then done r
    else
      let r := r.setFix { s.fix with swap := none }
      let r := r.setBytes (carrelBase w.new) (s.bytes (carrelBase w.old) 0x40000)
      let r := r.setFld (coreReg w.old 0) 31 24 0xFF
      let r := r.backNumber w.logical w.new
      done (r.toTesting w.old true).noteDegraded

/-! ## The Fence Ledger (R460, R465, R466) -/

/-- Address of a half of the ledger, and of record n of it. -/
def ledgerHalf (half : Nat) : Nat := if half = 0 then 0x017200100000 else 0x017200280000
def ledgerAt (half n : Nat) : Nat := ledgerHalf half + 64 * n

/-- The octets of a record, after the TAG of its predecessor. -/
def ledgerBytes (x : LedgerRec) (seq : Nat) (prev : List Byte) : List Byte :=
  let body := leBytes 4 (x.kind * 2 ^ 24) ++ leBytes 4 seq ++ leBytes 8 x.time ++ leBytes 4 x.boot ++ leBytes 4 x.arg0 ++
    leBytes 4 x.arg1 ++ leBytes 4 0
  body ++ (Config.shake256 (Config.ledgerKey ++ prev ++ body)).take 32

/-- The TAG that record n of a half follows. -/
def prevTag (s : State) (half n : Nat) : List Byte :=
  if n = 0 then List.replicate 32 0 else s.bytes (ledgerAt half (n - 1) + 0x20) 32

/-- The record at place n of a half, when its TAG and SEQ verify. -/
def ledgerRead (s : State) (half n : Nat) : Option LedgerRec :=
  let a := ledgerAt half n
  let w := fun i => s.load (a + 4 * i) 4
  let x : LedgerRec := { kind := w 0 / 2 ^ 24, arg0 := w 5, arg1 := w 6, time := s.load (a + 8) 8, boot := w 4 }
  if s.bytes a 64 = ledgerBytes x n (prevTag s half n) && w 1 = n then some x else none

/-- The records of a half up to the first that does not verify. -/
def ledgerReplay (s : State) (half : Nat) : Nat → Nat → List LedgerRec
  | 0, _ => []
  | fuel + 1, n =>
    match ledgerRead s half n with
    | none => []
    | some x => x :: ledgerReplay s half fuel (n + 1)

/-- The records a compaction keeps, oldest first: repairs, retirements and moved numbers in force (R466). -/
def ledgerKeep (s : State) (xs : List LedgerRec) : List LedgerRec :=
  let n := xs.length
  let at_ := fun i => xs.getD i { kind := 0xFF, arg0 := 0 }
  let later := fun i (f : LedgerRec → Bool) => (xs.drop (i + 1)).any f
  ((List.range n).filter fun i =>
    let x := at_ i
    let l := bits x.arg0 15 8
    let c := bits x.arg0 7 0
    match x.kind with
    | 1 => (decide (l < 176) && !later i fun y => y.kind = 1 && bits y.arg0 15 8 = l) ||
        (fixState s c = 4 && !later i fun y => y.kind = 1 && bits y.arg0 7 0 = c)
    | 2 => fixState s x.arg0 = 5 && !later i fun y => y = x
    | 3 => !later i fun y => (y.kind = 3 && y.arg0 = x.arg0) || (y.kind = 1 && bits y.arg0 7 0 = x.arg0)
    | 4 => !later i fun y => y.kind = 4 && y.arg0 = x.arg0
    | 5 => !later i fun y => y.kind = 5 && y.arg0 = x.arg0
    | _ => false).map at_

/-- The number's core now, as ARG1 of a FENCE record shows it. -/
def nowBacking (s : State) (arg0 : Nat) : Nat := (coreOfLogical s (bits arg0 15 8)).getD 0xFF

namespace Run

variable {z : State}

/-- Write a record at the end of the active half. -/
def ledgerPut (r : Run z) (x : LedgerRec) : Run z :=
  let f := r.s.fix
  let r := r.setBytes (ledgerAt f.half f.seq) (ledgerBytes x f.seq (prevTag r.s f.half f.seq))
  r.setFix { r.s.fix with seq := f.seq + 1 }

/-- The OPEN record of the active half, when it holds none yet. -/
def ledgerOpen (r : Run z) : Run z :=
  if r.s.fix.seq ≠ 0 then r
  else r.ledgerPut { kind := 0, arg0 := r.s.fix.gen, time := r.s.now, boot := r.s.fix.boots }

/-- Compact the ledger: the other half is erased and written, then the old half is erased (R466). -/
def ledgerCompact (r : Run z) : Run z :=
  let f := r.s.fix
  let keep := ledgerKeep r.s (ledgerReplay r.s f.half 24576 0)
  let other := 1 - f.half
  let r := r.put (.wipe (ledgerHalf other) (ledgerHalf other + 0x180000))
  let r := r.setFix { f with half := other, seq := 0, gen := f.gen + 1 }
  let r := r.ledgerOpen
  let r := r.each keep fun x r => r.ledgerPut (if x.kind = 1 then { x with arg1 := nowBacking r.s x.arg0 } else x)
  let r := r.ledgerPut { kind := 8, arg0 := keep.length, time := r.s.now, boot := f.boots }
  r.put (.wipe (ledgerHalf f.half) (ledgerHalf f.half + 0x180000))

end Run

/-- LEDGER_APPEND: the security processor appends the oldest record owed (R460). -/
def execLedgerAppend (s : State) : Host.Outcome State Fault Refusal :=
  let r := Run.start s
  match s.fix.owed with
  | [] => done r
  | x :: rest =>
    if !fwRuns s 4 || s.fix.seq ≥ 24576 then done r
    else
      let r := (r.setFix { s.fix with owed := rest }).ledgerOpen
      done (r.ledgerPut (if x.kind = 1 then { x with arg1 := nowBacking s x.arg0 } else x))

/-- LEDGER_COMPACT: the security processor compacts the ledger into its other half (R466). -/
def execLedgerCompact (s : State) : Host.Outcome State Fault Refusal :=
  let r := Run.start s
  if fwRuns s 4 && s.fix.seq ≠ 0 then done r.ledgerCompact else done r

/-! ## Vault rows and timeouts (R266, R268) -/

/-- ROW_SPARING: the memory processor copies a row that is due into a free spare row of its bank and remaps it; `waited` is
how long accesses waited, at most 2 µs (R268, R466). -/
def execRowSparing (pa waited : Nat) (s : State) : Host.Outcome State Fault Refusal :=
  let r := Run.start s
  let v := (vaultOf s pa).1
  let row := rowOf s pa
  let bank := v * 64 + row % 64
  let used := SMap.get 0 s.vault.spares bank
  let due := decide (SMap.get 0 s.vault.rowCe row ≥ s.fld (vltReg 0x010) 7 0) || (SMap.find? s.vault.rowUe row).isSome
  if pa ≥ 2 ^ 35 || !fwRuns s 1 || !due || used ≥ 64 || s.fix.rows ≥ 16384 || vaultState s v = 2 then done r
  else
    let r := r.put (.vault { s.vault with
      spares := SMap.insert s.vault.spares bank (used + 1)
      rowCe := SMap.erase s.vault.rowCe row, rowUe := SMap.erase s.vault.rowUe row })
    let k := vltReg (0x100 + 0x20 * v)
    let r := r.setFld (k + 0xC) 15 0 (min 0xFFFF (s.fld (k + 0xC) 15 0 + 1))
    let r := r.when (used + 1 = 64) fun r => r.setFld (k + 0xC) 23 16 (min 0xFF (s.fld (k + 0xC) 23 16 + 1))
    let r := r.bump (k + 0x1C) (min waited 2000)
    let r := r.setFix { r.s.fix with rows := s.fix.rows + 1 }
    done (r.owe 4 (v * 2 ^ 28 + row % 64 * 2 ^ 22 + used * 2 ^ 16 + row % 2 ^ 19 / 64))

/-- The outcome of an uncorrectable word for an agent's load or fetch (R267). -/
def Run.agentUe {z : State} (r : Run z) (ag : Agent) (c : Cause) (va pa : Nat) : Run z :=
  match ag with
  | .host n => if n < 8 && (r.s.hart n).running then r.hartTrap n (r.s.hart n) c va false else r
  | .fw p => if p ≤ 4 && fwRuns r.s p then r.hartTrap (fwKey p) (r.s.hart (fwKey p)) c pa false else r
  | .lane core g => match r.s.gang? core g with
    | some x => r.laneFault core g c va ((x.minPc).getD 0) (laneMask x.active) stUncorrectable
    | none => r

/-- VAULT_ACCESS_TIMEOUT: an access to a word of a vault has had no answer for 20 µs. It is retired as uncorrectable, for its
reader the outcome of R267, TIMEOUT counts, and the vault retrains (R266). A move stops at the folio that holds the word. The word
of a block's access reads as uncorrectable until the retraining ends, so the block's command that reads it meets it (DESIGN CHOICE,
log 131). -/
def execVaultAccessTimeout (rd : VaultReader) (va pa : Nat) (fetch : Bool) (s : State) : Host.Outcome State Fault Refusal :=
  let r := Run.start s
  let v := (vaultOf s pa).1
  if pa ≥ 2 ^ 35 || vaultState s v ≠ 0 then done r
  else
    let k := vltReg (0x100 + 0x20 * v)
    let r := (r.countErr (k + 0x18) 1).setFld k 31 30 1
    done <| match rd with
      | .agent ag => (r.countUe pa).agentUe ag (if fetch then .fetchAccess else .loadAccess) va pa
      | .move core seq => match (s.core core).running.find? fun e => e.seq = seq && e.op = .fmove && e.reads.contains (pa / 4096) with
        | some t => ((r.countUe pa).finished core t).moveStop core t (pa / 4096)
        | none => r.countUe pa
      | .window n => match SMap.find? s.vault.windows n with
        | some w => (r.countUe pa).when (!w.inflight.isEmpty) fun r => r.endWindow n stUncorrectable
        | none => r.countUe pa
      | .block => r.put (.vault { r.s.vault with unanswered := SMap.insert r.s.vault.unanswered (pa / 32) 1 })

end Sys2Proof.Machine
end

