-- ==== Sys2Proof/Machine/Secure.lean ====
section
/-! DEFINITION. Protection (R470 to R482): the SEC registers, the rights of the tenancy in force (R476, R477), the checks and
effects of two-party changes (R473 to R475), model measurements and attestation (R480, R481), and the TAP (R482). -/

namespace Sys2Proof.Machine

def stSecBadSignature : Nat := 0x0A00
def stSecStaleCounter : Nat := 0x0A01
def stSecExpired : Nat := 0x0A02
def stSecNotEnrolled : Nat := 0x0A03

/-- Key of a SEC register. -/
def secReg (off : Nat) : Nat := regKey 3 off

/-- SERIAL, the enrolment key and the device certificate of the Accession Record. -/
def serial (s : State) : List Byte := s.bytes (accBase + 0x8) 16
def enrolKey (s : State) : List Byte := s.bytes (accBase + 0x7008) 1793
def deviceCert (s : State) : List Byte := s.bytes (accBase + 0x8004) (s.load (accBase + 0x8000) 4)

/-- A Falcon-1024 signature over the SHAKE256 digest of some bytes (R473). -/
def signedBy (key bytes sig : List Byte) : Bool := Config.falconVerify key (Config.shake256 bytes) sig

namespace Run

variable {z : State}

/-- Show the protection state in SEC_STAT, SEC_CTR and SEC_TENANT. -/
def secShow (r : Run z) : Run z :=
  let x := r.s.sec
  let stat := b2n x.enrolled * 2 ^ 31 + b2n (x.tenancy ≠ []) * 2 ^ 30 + b2n x.switch.isSome * 2 ^ 29 + b2n x.debug * 2 ^ 28 +
    b2n x.held.isSome * 2 ^ 27 + b2n x.settleTo * 2 ^ 26 + b2n x.hostBad * 2 ^ 25 + b2n x.linkKey * 2 ^ 24
  ((r.setRegN (secReg 0) stat).setReg64 (secReg 4) x.ctr).setRegN (secReg 0xC) (le x.tenancy 0 4)

/-- Replace the protection state. -/
def setSec (r : Run z) (x : Sec) : Run z := (r.put (.sec x)).secShow

end Run

/-! ## The tenancy record and its rights (R476, R477) -/

/-- An admission entry whose RSV bits are 0. -/
def admitOk (e : List Byte) : Bool := bits (le e 0 4) 27 12 = 0 && bits (le e 8 4) 31 16 = 0 && le e 12 4 = 0

/-- A tenancy record whose values occur. -/
def tenancyOk (t : List Byte) : Bool :=
  let flags := le t 4 4
  let grant := le t 8 4
  let len := le t 0x110 4
  let src := le t 0x114 8
  let pa := le t 0x11C 8
  t.length = 512 && le t 0 4 ≠ 0 && bits flags 29 16 = 0 && decide (30 ≤ bits flags 15 8) && decide (bits flags 15 8 ≤ 100) &&
  bits flags 7 0 ≠ 0 && bits grant 31 16 = 0 && bits grant 4 3 = 0 && le t 0xC 4 = 0 &&
  ((List.range 16).all fun i => admitOk (slice t (0x10 + 16 * i) 16)) && decide (len ≤ 67108864) &&
  decide (src + len ≤ 0x10000000) && pa % 4096 = 0 && decide (pa + len ≤ 2 ^ 35) && le t 0x164 156 = 0

/-- Whether an admission entry matches a binding (R476). -/
def admits (b : Bind) (e : List Byte) : Bool :=
  let w0 := le e 0 4
  match bits w0 31 30, b with
  | 1, .eth mac vlan => le e 4 4 + 2 ^ 32 * bits (le e 8 4) 15 0 = mac && bits w0 11 0 = vlan
  | 2, .udp false addr _ => le e 4 4 = addr
  | 3, .mailbox _ => true
  | _, _ => false

/-- The first admission entry of the tenancy in force that matches a binding. -/
def admission (s : State) (b : Bind) : Option (List Byte) :=
  if s.sec.tenancy = [] then none
  else ((List.range 16).map fun i => slice s.sec.tenancy (0x10 + 16 * i) 16).find? (admits b)

/-- UPD and REG of an admission entry. -/
def admitUpd (e : List Byte) : Bool := bit (le e 0 4) 29
def admitReg (e : List Byte) : Bool := bit (le e 0 4) 28

/-- OPEN_ADMIT. -/
def openAdmit (s : State) : Bool := bit (le s.sec.tenancy 4 4) 31

/-- GRANT: 0 while no tenancy is in force. -/
def grantWord (s : State) : Nat := le s.sec.tenancy 8 4

/-- Whether the tenant's agents may reach a register of the control register space (R477). -/
def granted (s : State) (off : Nat) (write : Bool) : Bool :=
  let w := off / 2 ^ 20
  if w = 0 then !write || bit (grantWord s) 0
  else if w = 3 then decide (off % 2 ^ 20 < 0x100)
  else if w = 4 then false
  else if w < 0xF then bit (grantWord s) w
  else decide (0x10 ≤ w) && decide (w ≤ 0xCF) && bit (grantWord s) 15

/-- Whether a session's binding may use an opcode: a tenant session may use each, a restricted one CORE, ATTEST, PROPOSE and
COUNTERSIGN, with FW_UPDATE while no tenant is in force (R476). -/
def mayUse (s : State) (b : Bind) (op : Nat) : Bool :=
  match admission s b with
  | some e => if op = 0x0503 then admitUpd e else if op = 0x0301 || op = 0x0302 then admitReg e else true
  | none => decide (op < 0x0100) || op = 0x0500 || op = 0x0501 || op = 0x0502 || (op = 0x0503 && s.sec.tenancy = [])

/-! ## Proposals (R473, R474) -/

/-- Length of a public key. -/
def keyLen : Nat := 1793

/-- The check of a body by its kind (*Change kinds*). -/
def bodyOk (s : State) (kind : Nat) (b : List Byte) : Bool :=
  match kind with
  | 1 =>
    let n := le b 0 4
    b.length = 4 + 2 * keyLen + n && signedBy (enrolKey s) (serial s ++ slice b 4 (2 * keyLen)) (b.drop (4 + 2 * keyLen))
  | 2 => b.length = 2 * keyLen
  | 3 => b = [] || (tenancyOk b && !s.sec.debug)
  | 4 =>
    b.length = 68 && decide (le b 0 4 ≤ 4) &&
      (List.range 8).all fun i =>
        let lo := le b (4 + 8 * i) 4
        let hi := le b (8 + 8 * i) 4
        decide (12 ≤ bits lo 5 0) && decide (bits lo 5 0 ≤ 47) && bits lo 11 6 = 0 && bits hi 30 27 = 0 && bits hi 23 16 = 0
  | 5 => b.length = 4 && decide (le b 0 4 ≤ 1)
  | 6 => b.length = 4 && decide (le b 0 4 ≤ 1) && s.fld (topReg 8) 15 8 ≠ 0
  | 7 => b.length = 4 && decide (le b 0 4 ≤ 7)
  | _ => b = []

/-- The key that verifies a party's signature on a change: of an ENROL, that of its body. -/
def partyKey (s : State) (kind party : Nat) (body : List Byte) : List Byte :=
  if kind = 1 then slice body (4 + keyLen * (party - 1)) keyLen
  else if party = 1 then s.sec.ownerKey else s.sec.operatorKey

/-- The status of a PROPOSE: the checks of R474 in order. -/
def proposeStatus (s : State) (p : List Byte) : Nat :=
  let w := le p 0 4
  let kind := bits w 31 24
  let party := bits w 23 16
  let blen := le p 4 4
  let slen := le p 0x20 4
  let body := slice p 0x40 blen
  if decide (p.length < 0x40) || p.length ≠ 0x40 + blen + slen then stBadLength
  else if kind = 0 || decide (kind > 8) || bits w 15 0 ≠ 0 || party = 0 || decide (party > 2) || decide (blen > 8192) ||
      slen = 0 || decide (slen > 1536) || le p 0x24 28 ≠ 0 then stBounds
  else if slice p 8 16 ≠ serial s then stDenied
  else if kind ≠ 1 && !s.sec.enrolled then stSecNotEnrolled
  else if kind = 1 && s.sec.enrolled then stDenied
  else if le p 0x18 8 ≠ s.sec.ctr + 1 then stSecStaleCounter
  else if !signedBy (partyKey s kind party body) (p.take (0x40 + blen)) (p.drop (0x40 + blen)) then stSecBadSignature
  else if !bodyOk s kind body then stBounds
  else stNeedCountersign

/-- The status of a COUNTERSIGN stamped at `stamp`: the checks of R475 in order. -/
def countersignStatus (s : State) (p : List Byte) (stamp : Nat) : Nat :=
  let w := le p 0 4
  let party := bits w 23 16
  let slen := le p 0x20 4
  if decide (p.length < 0x80) || p.length ≠ 0x80 + slen then stBadLength
  else if bits w 31 24 ≠ 0 || bits w 15 0 ≠ 0 || party = 0 || decide (party > 2) || le p 4 4 ≠ 0 || slen = 0 ||
      decide (slen > 1536) || le p 0x64 28 ≠ 0 then stBounds
  else if slice p 8 16 ≠ serial s then stDenied
  else match s.sec.held with
    | none => stSecStaleCounter
    | some h =>
      if le p 0x18 8 ≠ h.ctr then stSecStaleCounter
      else if stamp > h.at_ + 600000000000 then stSecExpired
      else if party = h.party || slice p 0x24 64 ≠ Config.shake256 h.head then stDenied
      else if !signedBy (partyKey s h.kind party h.body) (p.take 0x80) (p.drop 0x80) then stSecBadSignature
      else stOk

namespace Run

variable {z : State}

/-- PROPOSE: a proposal that passes is held, in place of any other (R474). -/
def propose (r : Run z) (p : List Byte) (stamp : Nat) : Nat × Run z :=
  if r.s.sec.switch.isSome then (stDenied, r)
  else
    let st := proposeStatus r.s p
    if st ≠ stNeedCountersign then (st, r)
    else
      let blen := le p 4 4
      let h : Proposal := {
        kind := bits (le p 0 4) 31 24, party := bits (le p 0 4) 23 16, ctr := le p 0x18 8, head := p.take (0x40 + blen)
        body := slice p 0x40 blen, at_ := stamp }
      (st, r.setSec { r.s.sec with held := some h })

/-- The change is written to the protection store: the next generation, and the counter it creates (R472, R473). -/
def secCommit (r : Run z) (ctr : Nat) : Run z :=
  r.setSec { r.s.sec with gen := r.s.sec.gen + 1, ctr := ctr, held := none }

/-- FW_WINDOW: the windows of a processor are written, each whose BASE is aligned to its size (R296), and it restarts; the reply
waits for its release (R297, R300). -/
def fwWindow (r : Run z) (body : List Byte) (session seq : Nat) : Run z :=
  let p := le body 0 4
  let r := r.each (List.range 8) fun i r =>
    let k := fwReg p (0x100 + 8 * i)
    let w := le body (4 + 8 * i) 8
    if windowAligned w then r.setReg64 k w else r
  let r := r.each (List.range 16) fun i r =>
    let k := fwReg p (0x100 + 4 * i)
    r.put (.sec { r.s.sec with mwins := SMap.insert r.s.sec.mwins k (r.s.reg k) })
  let r := r.put (.fw { r.s.fw with askers := r.s.fw.askers ++ [(p, session, seq)] })
  r.fwRestart p 6 true

/-- LINK_KEY: MACSEC ports with a link begin to negotiate, or lose their association (R344). -/
def linkKeyUse (r : Run z) (on : Bool) : Run z :=
  let r := r.setSec { r.s.sec with linkKey := on }
  let r := r.setEth { r.s.eth with linkKey := on }
  r.each (List.range 4) fun n r =>
    if r.s.fld (portReg n 0) 25 25 = 0 || r.s.fld (portReg n 4) 31 30 ≠ 1 then r
    else if on then (if r.s.fld (ethReg (0x3000 + 0x40 * n)) 31 30 = 0 then r.mkaState n 1 else r)
    else (r.setPort n { ethPort r.s n with sak := none }).mkaState n 0

/-- REPAIR_POLICY takes effect at the next round of R462: at once when none is under way. -/
def repairPolicy (r : Run z) (v : Nat) : Run z :=
  let rolling := r.s.fld (fixReg 8) 7 0 ≠ 0 && r.s.fld (fixReg 4) 2 2 = 1
  let r := r.setSec { r.s.sec with policy := v, policyNext := if rolling then some v else none }
  if rolling then r else r.setRegN (fixReg 4) v

end Run

/-- The bits of an ETH register that belong to the network baseline: its settings, counters excepted. -/
def baselineMask (k : Nat) : Nat :=
  match regDesc k with
  | some d => d.maskOf [.rw]
  | none => 0

/-- The network baseline as the ETH window now stands (*Change kinds*, BASELINE). -/
def baselineRegs (s : State) : SMap W32 :=
  (s.regs.filter fun c => c.1 / 2 ^ 20 = 8).map fun c => (c.1, BitVec.ofNat 32 (c.2.toNat &&& baselineMask c.1))

/-- The tables of the baseline: static entries and gate lists, with no frame and no association. -/
def baselineTables (s : State) : Eth :=
  { s.eth with
    ports := s.eth.ports.map fun p => (p.1, { oper := p.2.oper })
    fdb := s.eth.fdb.filter fun e => e.2.static_
    cbState := [] }

/-! ## Measurements (R481) -/

namespace Run

variable {z : State}

/-- MM_STAT: BUSY, entries and status. -/
def mmStat (r : Run z) (busy : Bool) (st : Nat) : Run z :=
  r.setRegN (secReg 0x24) (b2n busy * 2 ^ 31 + r.s.sec.meas.length * 2 ^ 16 + st)

/-- A write of SEC_MM_CTRL: GO starts a measurement, and is ignored while one runs. -/
def mmWrite (r : Run z) (v : Nat) : Run z :=
  let r := r.setRegN (secReg 0x20) ((r.s.fld (secReg 0x20) 31 31) * 2 ^ 31 + v % 2 ^ 28)
  if !bit v 31 || r.s.sec.mm.isSome then r
  else
    let m : Measure := { ctx := bits v 27 16, tag := bits v 15 0, addr := r.s.reg64 (secReg 0x10), len := r.s.reg64 (secReg 0x18) }
    if decide (r.s.sec.meas.length ≥ 64) || !mapped r.s (ctxX r.s m.ctx) .load m.addr m.len then r.mmStat false stBounds
    else ((r.setSec { r.s.sec with mm := some m }).setFld (secReg 0x20) 31 31 1).setFld (secReg 0x24) 31 31 1

end Run

/-- MODEL_MEASURE_END: the range has been read, and its digest joins the list (R481). -/
def execModelMeasureEnd (s : State) : Host.Outcome State Fault Refusal :=
  let r := Run.start s
  match s.sec.mm with
  | none => done r
  | some m =>
    if !fwRuns s 4 then done r
    else
      let r := (r.setSec { s.sec with mm := none }).setFld (secReg 0x20) 31 31 0
      let c := ctxX s m.ctx
      if !mapped s c .load m.addr m.len then done (r.mmStat false stBounds)
      else match r.readBlock c m.addr m.len with
        | (.error _, r) => done (r.mmStat false stUncorrectable)
        | (.ok v, r) =>
          let e := (m.tag, m.len, Config.shake256 (leBytes m.len v))
          done ((r.setSec { r.s.sec with meas := r.s.sec.meas ++ [e] }).mmStat false stOk)

/-! ## Attestation (R480) -/

/-- The fewest big-endian bytes of a number, at least one. -/
def minBe (fuel : Nat) (n : Nat) : List Byte :=
  match fuel with
  | 0 => []
  | fuel + 1 => if n < 256 then [BitVec.ofNat 8 n] else minBe fuel (n / 256) ++ [BitVec.ofNat 8 n]

/-- The octets of a length in DER. -/
def derLen (n : Nat) : List Byte :=
  if n < 128 then [BitVec.ofNat 8 n]
  else
    let b := minBe 8 n
    BitVec.ofNat 8 (128 + b.length) :: b

/-- A DER value of a tag and content octets. -/
def der (tag : Nat) (content : List Byte) : List Byte := BitVec.ofNat 8 tag :: (derLen content.length ++ content)

/-- An INTEGER that is not negative. -/
def derInt (n : Nat) : List Byte :=
  let b := minBe 16 n
  der 0x02 (if (b.headD 0).getLsbD 7 then 0 :: b else b)

/-- The octets of an ASCII string. -/
def ascii (t : String) : List Byte := t.toList.map fun c => BitVec.ofNat 8 c.toNat

/-- A number's digits in a base up to 16, upper case. -/
def digits (base : Nat) : Nat → Nat → List Byte
  | 0, _ => []
  | fuel + 1, n =>
    let d := n % base
    (if n < base then [] else digits base fuel (n / base)) ++ [BitVec.ofNat 8 (if d < 10 then 48 + d else 55 + d)]

/-- Two upper-case hexadecimal digits of each byte. -/
def hexOf (bs : List Byte) : List Byte := bs.flatMap fun b => digits 16 1 (b.toNat / 16) ++ digits 16 1 (b.toNat % 16)

/-- An extension: its identifier's content octets, critical or not, and its value. -/
def derExt (oid : List Byte) (critical : Bool) (value : List Byte) : List Byte :=
  der 0x30 (der 0x06 oid ++ (if critical then der 0x01 [255] else []) ++ der 0x04 value)

/-- The flags of P.4: debug, degraded, settleTimeout, hostBad, notEnrolled, the first in the highest bit. -/
def attestFlags (s : State) : Nat :=
  b2n s.sec.debug * 128 + s.fld (fixReg 0) 31 31 * 64 + b2n s.sec.settleTo * 32 + b2n s.sec.hostBad * 16 +
    b2n (!s.sec.enrolled) * 8

/-- The TBSCertificate of an attestation certificate for a session and a nonce. -/
def tbsCertificate (s : State) (session : Nat) (nonce : List Byte) : List Byte :=
  let cert := deviceCert s
  let alg := Config.certPart cert 0
  let p := Config.certPart cert 3
  let subject := der 0x30 (der 0x31 (der 0x30 (der 0x06 [0x55, 0x04, 0x05] ++
    der 0x13 (hexOf (serial s) ++ ascii "-" ++ digits 10 8 session))))
  let comps := (List.range 5).flatMap fun i =>
    let ver := s.reg (fwReg i 8)
    der 0x30 (derInt (0x10 + i) ++ derInt (ver.toNat % 2 ^ 16) ++ derInt (ver.toNat / 2 ^ 16) ++ der 0x04 (runningDigest s i))
  let models := s.sec.meas.flatMap fun m => der 0x30 (derInt m.1 ++ derInt m.2.1 ++ der 0x04 m.2.2)
  let state := derInt (le s.sec.tenancy 0 4) ++ derInt session ++ derInt s.sec.ctr ++
    der 0x03 [3, BitVec.ofNat 8 (attestFlags s)] ++ derInt s.now ++ derInt s.sec.tenantStart ++
    derInt (s.fld (topReg 8) 15 8) ++ der 0x04 s.sec.hostDigest
  der 0x30 (der 0xA0 (derInt 2) ++ derInt (s.sec.issued + 1) ++ alg ++ Config.certPart cert 1 ++
    der 0x30 (der 0x18 (ascii "19700101000000Z") ++ der 0x18 (ascii "99991231235959Z")) ++ subject ++ Config.certPart cert 2 ++
    der 0xA3 (der 0x30 (derExt [0x55, 0x1D, 0x13] true (der 0x30 []) ++ derExt (p ++ [1]) false (der 0x04 nonce) ++
      derExt (p ++ [2]) false (der 0x30 comps) ++ derExt (p ++ [3]) false (der 0x30 models) ++
      derExt (p ++ [4]) false (der 0x30 state))))

/-- The attestation certificate: signed by the device attestation key over the digest of its TBSCertificate. -/
def attestation (s : State) (session : Nat) (nonce : List Byte) : List Byte :=
  let tbs := tbsCertificate s session nonce
  der 0x30 (tbs ++ Config.certPart (deviceCert s) 0 ++ der 0x03 (0 :: Config.falconSign (Config.shake256 tbs)))

/-! ## The TAP (R482) -/

/-- The next state of the TAP controller by TMS (IEEE 1149.1). -/
def Tap.next (t : Tap) (tms : Bool) : Tap :=
  match t with
  | .reset => if tms then .reset else .idle
  | .idle => if tms then .selDr else .idle
  | .selDr => if tms then .selIr else .capDr
  | .capDr => if tms then .ex1Dr else .shDr
  | .shDr => if tms then .ex1Dr else .shDr
  | .ex1Dr => if tms then .updDr else .pauseDr
  | .pauseDr => if tms then .ex2Dr else .pauseDr
  | .ex2Dr => if tms then .updDr else .shDr
  | .updDr => if tms then .selDr else .idle
  | .selIr => if tms then .reset else .capIr
  | .capIr => if tms then .ex1Ir else .shIr
  | .shIr => if tms then .ex1Ir else .shIr
  | .ex1Ir => if tms then .updIr else .pauseIr
  | .pauseIr => if tms then .ex2Ir else .pauseIr
  | .ex2Ir => if tms then .updIr else .shIr
  | .updIr => if tms then .selDr else .idle

/-- What lies between TDI and TDO in the DR states: IDCODE, one BYPASS bit, or, with debug unlocked, a register that the spec
names and does not give. -/
inductive TapReg where
  | idcode | bypass | unstated
  deriving DecidableEq, Repr

/-- The register an instruction selects; IDCODE is in force after reset, and every instruction but it acts as BYPASS while
debug is locked. -/
def tapReg (inst : Option Nat) (unlocked : Bool) : TapReg :=
  match inst with
  | none => .idcode
  | some n =>
    if n = Config.jtagIdcode then .idcode
    else if !unlocked || n = 2 ^ Config.jtagIrLen - 1 then .bypass
    else .unstated

/-- The number that bits spell, the lowest first. -/
def ofBits : List Bool → Nat
  | [] => 0
  | b :: bs => b2n b + 2 * ofBits bs

/-- JTAG_TCK_EDGE: a rising edge of TCK with TMS and TDI, and the falling edge that follows it; TRST_N low holds the TAP in
reset (R482). TDO is driven in the shift states alone. A register the spec does not give shifts free values. -/
def execJtagTckEdge (tms tdi trstN : Bool) (s : State) : Host.Outcome State Fault Refusal :=
  let r := Run.start s
  let j := s.sec.jtag
  if !trstN then done (r.setSec { s.sec with jtag := {} })
  else
    let (w, r) := r.draw
    let sel := tapReg j.inst s.sec.debug
    let shift := match j.tap with
      | .capDr => (match sel with
        | .idcode => (List.range 32).map fun i => (0x01760021#32).getLsbD i
        | .bypass => [false]
        | .unstated => [])
      | .capIr => [true, false] ++ (List.range (Config.jtagIrLen - 2)).map fun i => w.getLsbD (i + 1)
      | .shDr | .shIr => if j.shift = [] then [] else j.shift.drop 1 ++ [tdi]
      | _ => j.shift
    let next := j.tap.next tms
    let inst := match next with
      | .reset => none
      | .updIr => some (ofBits shift)
      | _ => j.inst
    let tdo := match next with
      | .shDr | .shIr => some (shift.headD (w.getLsbD 0))
      | _ => none
    done (r.setSec { s.sec with jtag := { tap := next, inst := inst, shift := shift, tdo := tdo } })

end Sys2Proof.Machine
end

