-- ==== Sys2Proof/Machine/Switch.lean ====
section
/-! DEFINITION. The tenant switch (R478), which scrubs the device between two tenants, and the COUNTERSIGN that starts it or
applies another change (R475). -/

namespace Sys2Proof.Machine

/-- A register after step 6 of *Tenant switch steps*: its reset value, but for what the step and *Observables after a switch*
keep: of PWR_STATE_STAT the state in force alone, of VLT_Vv_SPARED the rows and banks alone. The ETH window is step 7's. Of FWP,
the fields of CTRL that a party sets return to reset. -/
def switchReg (s : State) (k : Nat) : W32 :=
  let off := k % 2 ^ 20
  let cur := s.reg k
  let keep (p : Bool) : W32 := if p then cur else regReset k
  match k / 2 ^ 20 with
  | 0x00 => keep (decide (off < 0x200) || off = 0x310)
  | 0x01 => if off = 0x004 then BitVec.ofNat 32 (bits cur.toNat 31 29 * 2 ^ 29) else keep (off = 0x600 || (decide (0x610 ≤ off) && decide (off ≤ 0x660)) || off = 0x704)
  | 0x03 => keep (decide (off < 0x010))
  | 0x04 => if off % 0x200 = 0 then BitVec.ofNat 32 (bits cur.toNat 31 31 * 2 ^ 31 + (regReset k).toNat) else cur
  | 0x07 =>
    if 0x100 ≤ off && off < 0x300 && off % 0x20 = 0xC then BitVec.ofNat 32 (bits cur.toNat 23 0)
    else keep (decide (0x100 ≤ off) && decide (off < 0x300) && off % 0x20 = 0)
  | 0x08 => cur
  | 0x0B => if off = 0x300 then BitVec.ofNat 32 (bits cur.toNat 31 31 * 2 ^ 31) else keep (off = 0x108 || off = 0x10C)
  | 0x0D => keep (off ≠ 0x010 && off ≠ 0x014)
  | _ =>
    if k / 2 ^ 20 ≥ 0x10 && off = 0 then BitVec.ofNat 32 (setBits (regReset k).toNat 31 24 (bits cur.toNat 31 24))
    else regReset k

/-- A register of the ETH window after step 7: the network baseline, with counters at 0, and link and MKA states as they
are. -/
def baselineReg (base : SMap W32) (s : State) (k : Nat) : W32 :=
  let off := k % 2 ^ 20
  let m := baselineMask k
  let set := (SMap.get (regReset k) base k).toNat &&& m
  let link := decide (off < 0x400) && off % 0x100 = 4
  let mka := decide (0x3000 ≤ off) && decide (off < 0x3100) && off % 0x40 = 0
  if link then s.reg k
  else if mka then BitVec.ofNat 32 (set + bits (s.reg k).toNat 31 30 * 2 ^ 30)
  else BitVec.ofNat 32 (set + ((regReset k).toNat - ((regReset k).toNat &&& m)))

namespace Run

variable {z : State}

/-- Step 6: registers, their mirrors and latches return to reset, and each regulator's voltage is that of its reset point. -/
def switchRegs (r : Run z) : Run z :=
  let s := r.s
  let r := r.each (s.regs.map (·.1)) fun k r => r.setReg k (switchReg s k)
  let r := r.each (s.mirror.map (·.1)) fun k r => r.setMirror k (regReset k)
  let r := r.each (s.latch.map (·.1)) fun k r => r.setLatch k 0
  r.each (List.range 17) fun c r => r.setFld (dvfsReg c) 11 0 (vtabMv r.s c 1)

/-- Step 7: the ETH window returns to the network baseline. A port whose configuration changes renegotiates its link, and a
SECURED port that stays up distributes a fresh SAK. -/
def switchNet (r : Run z) : Run z :=
  let s := r.s
  let r := r.each ((s.regs.map (·.1) ++ s.sec.baseRegs.map (·.1)).filter fun k => k / 2 ^ 20 = 8) fun k r =>
    r.setReg k (baselineReg s.sec.baseRegs s k)
  let r := r.setEth { s.sec.baseEth with
    linkKey := s.sec.linkKey, good := s.eth.good, lastSync := s.eth.lastSync, gptp := s.eth.gptp, gms := s.eth.gms
    ports := (List.range 4).foldl (fun m n => SMap.set {} m n { ethPort s n with
      queues := [], tx := none, rest := none, credit := [], pend := none
      oper := (SMap.get {} s.sec.baseEth.ports n).oper }) [] }
  let r := r.gptpSelects
  r.each (List.range 4) fun n r =>
    let r := if r.s.reg (portReg n 0) ≠ s.reg (portReg n 0) && s.fld (portReg n 4) 31 30 = 1 then r.linkLost n 0 else r
    let r := r.gateApply n
    if r.s.fld (ethReg (0x3000 + 0x40 * n)) 31 30 = 2 && (ethPort r.s n).sak.isSome then
      let (k, r) := r.draw
      r.setPort n { ethPort r.s n with sak := some k, pn := 1, rxPn := 0 }
    else r

/-- Steps 1 and 2: sessions close without reply, and everything that works for the tenant stops. -/
def switchStop (r : Run z) : Run z :=
  let r := (r.snapDisarm.put (.mhy {})).failRequest
  let r := r.each (List.range 8) fun n r => r.setHart n {}
  let r := r.put (.waits (r.s.waits.filter fun w => match w.who with | .hart k => decide (k ≥ 0x10) | _ => false))
  let r := r.each r.s.gangs fun g r => r.put (.gang g.1 none)
  let r := r.put (.sched {})
  let r := r.put (.rfx {})
  let r := r.put (.ledger { us := r.s.now / 1000 })
  let r := r.put (.kv {})
  let r := r.put (.lad { tseq := r.s.lad.tseq, lostBefore := r.s.lad.lostBefore })
  let r := r.put (.cam {})
  let a := r.s.aud
  let r := r.put (.aud { led := a.led, fast := a.fast, rowStart := a.rowStart, rowSeq := a.rowSeq, rowState := a.rowState, prev := a.prev, cut := true })
  let r := r.put (.vault { r.s.vault with windows := [], tlbHi := 0 })
  r.setPower { r.s.power with
    pins := [], claims := [], capNow := 120, vstep := none, stretch := [], settle := [], statsLost := [], cooled := 0
    base := 120000, cut := 0, hot := [], released := [] }

/-- Steps 4 and 5: memory and the cores are zeroed, and every tally is freed. -/
def switchScrub (r : Run z) : Run z :=
  let r := r.each (r.s.tallies.filter fun t => t.2.allocated) fun t r => r.freeTally t.1
  let r := r.each (r.s.cores.map (·.1)) fun n r => r.setCore n {}
  let r := r.put .fresh
  let r := r.put (.wipe 0 (2 ^ 35))
  let r := r.put (.wipe archBase (archBase + 524288))
  let r := r.put (.wipe seqTableBase (seqTableBase + 0x40000))
  r.put (.vault { r.s.vault with ue := [], weak := [], stackUe := [] })

/-- Step 3: processors 0 to 3 are held in reset with CAUSE 0x01, and every log region is cleared. -/
def switchFirmware (r : Run z) : Run z :=
  let r := r.setFw { r.s.fw with queue := r.s.fw.queue.filter fun q => q.p = 4, askers := [], logBase := r.s.fw.logSeq }
  let r := r.each (List.range 5) fun p r => r.put (.wipe (sramBase p + 0x38000) (sramBase p + 0x40000))
  r.each (List.range 4) fun p r =>
    if fwState r.s p = 1 then r.setFld (fwReg p 4) 23 16 1 else r.fwBegin p 1 true

end Run

/-- SETTLE_EN, SETTLE_C and SETTLE_MAX of a tenancy record. -/
def settleEn (t : List Byte) : Bool := bit (le t 4 4) 30
def settleC (t : List Byte) : Nat := bits (le t 4 4) 15 8
def settleMax (t : List Byte) : Nat := bits (le t 4 4) 7 0

namespace Run

variable {z : State}

/-- A tenant switch begins at A: steps 1 to 7 of *Tenant switch steps*, and for a record with SETTLE_EN the state of step 8,
every cluster dormant and HOST at 640 MHz (R478). -/
def switchBegin (r : Run z) (sw : Switch) : Run z :=
  let r := ((r.switchStop.switchFirmware).switchScrub.switchRegs).switchNet
  let r := r.setSec { r.s.sec with
    tenancy := [], held := none, switch := some sw, settleTo := false, hostBad := false, meas := [], mm := none
    hostDigest := [] }
  if settleEn sw.next then
    let r := r.setFld (dvfsReg 16) 17 16 3
    r.each (List.range 16) fun c r => (r.setFld (dvfsReg c) 29 29 1).setFld (dvfsReg c) 11 0 (vtabMv r.s c 3)
  else r.settleState

/-- COUNTERSIGN: a change that passes R475 is written to the protection store and applied; its reply is sent once the effect
is complete, which for a tenant switch is step 9. -/
def countersign (r : Run z) (m : Msg) : Run z :=
  let st := countersignStatus r.s m.payload m.stamp
  if st = stSecExpired then (r.setSec { r.s.sec with held := none }).mhyReply m.session m.seq st []
  else if st ≠ stOk then r.mhyReply m.session m.seq st []
  else if !r.s.sec.env.storeWrites then r.mhyReply m.session m.seq stInternal []
  else match r.s.sec.held with
    | none => r
    | some h =>
      let r := r.secCommit h.ctr
      let b := h.body
      let minor := match sess? r.s m.session with | some x => x.minor | none => 2
      let sw (next : List Byte) (unlock : Bool) : Switch := {
        at_ := m.stamp, next := next, unlock := unlock, peer := m.peer, session := m.session, seq := m.seq, minor := minor
        nocrc := m.nocrc }
      let applied (r : Run z) : Run z := r.trace 0x14 0x0050 (h.ctr % 2 ^ 32)
      let ok (r : Run z) : Run z := (applied r).mhyReply m.session m.seq stOk []
      match h.kind with
      | 1 => ok (r.setSec { r.s.sec with
          enrolled := true, ownerKey := slice b 4 keyLen, operatorKey := slice b (4 + keyLen) keyLen })
      | 2 => ok (r.setSec { r.s.sec with ownerKey := b.take keyLen, operatorKey := b.drop keyLen })
      | 3 => (r.setSec { r.s.sec with stored := b }).switchBegin (sw b false)
      | 4 => (applied r).fwWindow b m.session m.seq
      | 5 =>
        let unlock := le b 0 4 = 1
        (r.setSec { r.s.sec with stored := [], debug := r.s.sec.debug && unlock }).switchBegin (sw [] unlock)
      | 6 => ok (r.linkKeyUse (le b 0 4 = 1))
      | 7 => ok (r.repairPolicy (le b 0 4))
      | _ => ok (r.setSec { r.s.sec with baseRegs := baselineRegs r.s, baseEth := baselineTables r.s })

/-- The tenancy comes into force: a host image is copied, measured and compared, and the host cores are released in Monitor
mode at HOSTPA, or stay held (step 9). -/
def tenancyStart (r : Run z) (t : List Byte) : Run z :=
  let len := le t 0x110 4
  let pa := le t 0x11C 8
  let r := r.setSec { r.s.sec with
    tenancy := t, stored := t, meas := [], hostDigest := [], hostBad := false, tenantStart := r.s.now }
  if len = 0 then r
  else
    let bs := r.s.bytes (flashBase + le t 0x114 8) len
    let digest := Config.shake256 bs
    let ok := slice t 0x124 64 = digest
    let r := (r.setBytes pa bs).setSec { r.s.sec with hostDigest := digest, hostBad := !ok }
    r.when ok fun r => r.each (List.range 8) fun n r => r.setHart n { running := true, pc := BitVec.ofNat 64 pa }

end Run

/-- Processors 0 to 3 have been released after a switch. -/
def switchReleased (s : State) : Bool := (List.range 4).all fun p => fwState s p = 0

/-- Fabric time at which step 8 begins: the last release of processors 0 to 3. -/
def settleStart (s : State) : Nat := (List.range 4).foldl (fun m p => max m (s.reg64 (fwReg p 0xC))) 0

/-- SETTLE_END: PWR_TEMP_MAX is at or below SETTLE_C, or SETTLE_MAX s have passed, which sets SETTLE_TO (step 8 of *Tenant
switch steps*). -/
def execSettleEnd (s : State) : Host.Outcome State Fault Refusal :=
  let r := Run.start s
  match s.sec.switch with
  | none => done r
  | some sw =>
    if !settleEn sw.next || sw.settled || !switchReleased s || !fwRuns s 4 then done r
    else
      let cool := decide (sext 8 (s.fld (pwrReg 0x660) 7 0) ≤ settleC sw.next)
      let late := decide (s.now ≥ settleStart s + settleMax sw.next * 1000000000)
      if !cool && !late then done r
      else
        let r := r.setSec { s.sec with switch := some { sw with settled := true }, settleTo := !cool }
        done (r.reachState (powerState s))

/-- TENANT_SWITCH_END: step 9 of *Tenant switch steps*, no earlier than A + 60 ms. The reply goes to the binding of the
countersigning session, with TOKEN 0, unless that was a mailbox (R478). -/
def execTenantSwitchEnd (s : State) : Host.Outcome State Fault Refusal :=
  let r := Run.start s
  match s.sec.switch with
  | none => done r
  | some sw =>
    if !switchReleased s || !fwRuns s 4 || (settleEn sw.next && !sw.settled) || s.now < sw.at_ + 60000000 then done r
    else
      let r := r.setSec { s.sec with switch := none, debug := s.sec.debug || sw.unlock }
      let r := (r.tenancyStart sw.next).trace 0x14 0x0050 (s.sec.ctr % 2 ^ 32)
      match sw.peer.bind with
      | .mailbox _ => done r
      | _ => done (r.mhyAnswer sw.peer sw.minor sw.nocrc 0x0501 sw.session 0 sw.seq stOk [])

end Sys2Proof.Machine
end

