-- ==== Sys2Proof/Machine/RegAccess.lean ====
section
/-! DEFINITION. Access to the control register space (R9 to R14, R37, R38, R297, R477, R488, R517): what a read returns and does,
and what a write does, register by register, for agents and for Mehryen messages alike. -/

namespace Sys2Proof.Machine

/-- Index of an offset in a register array of a base, a stride and a count. -/
def arrIdx (off base stride count : Nat) : Option Nat :=
  if decide (base ≤ off) && (off - base) % stride = 0 && decide ((off - base) / stride < count) then some ((off - base) / stride)
  else none

/-- An offset lies in a register array. -/
def inArr (off base stride count : Nat) : Bool := (arrIdx off base stride count).isSome

/-- Whether the register at a key is the _HI half of a pair, whose low half lies just below it (R9). -/
def isHi (k : Nat) : Bool :=
  let off := k % 2 ^ 20
  match k / 2 ^ 20 with
  | 0x00 => [0x004, 0x104, 0x208].contains off
  | 0x01 => [0x014, 0x01C, 0x024, 0x02C, 0x31C].contains off
  | 0x03 => [0x008, 0x014, 0x01C].contains off
  | 0x04 => decide (off < 0xA00) && (off % 0x200 = 0x010 || inArr (off % 0x200) 0x104 8 8)
  | 0x05 => [0x014, 0x024].contains off || inArr off 0x10008 0x10 4096 || inArr off 0x20008 0x10 4096 ||
      (decide (0xF0000 ≤ off) && inArr (off % 0x100) 0x2C 0x20 4)
  | 0x06 => [0x004, 0x01C].contains off || inArr off 0x044 0x10 4 || inArr off 0x10004 8 32768
  | 0x07 => [0x024, 0x02C].contains off || inArr off 0x114 0x20 16 || inArr off 0x804 0x20 16 || inArr off 0x814 0x20 16
  | 0x08 => inArr off 0x00C 0x100 4 || inArr off 0x044 0x100 4
  | 0x09 => inArr off 0x200C 0x20 8 || inArr off 0x300C 0x100 4
  | 0x0A => inArr off 0x10028 0x1000 16
  | 0x0B => [0x10C, 0x124, 0x130, 0x308, 0x608, 0x610].contains off
  | 0x0C => [0x110, 0x218].contains off
  | w => decide (0x10 ≤ w) && decide (w ≤ 0xCF) && [0x018, 0x020, 0x028, 0x030, 0x0C4, 0x0CC].contains off

/-- CORE_STAT: LOGICAL as held, and gangs and free banks as they stand. -/
def coreStat (s : State) (c : Nat) : Nat :=
  let gs := gangsOf s c
  logicalOf s c * 2 ^ 24 + gs.length * 2 ^ 16 + (gs.filter fun g => !g.2.parked).length * 2 ^ 8 +
    (4 - gs.foldl (fun m g => m + g.2.banks.length) 0)

/-- CORE_TQ_STAT: bank formats, busy ports and queued entries. While a reflex group runs on the core every bank is in format
A40 (R227). -/
def tqStat (s : State) (c : Nat) : Nat :=
  let x := s.core c
  let rfx := s.rfx.groups.any fun g => rfxPhys s (g.1 / 4) = some c
  let fmt := fun (b : Nat) => if rfx then 2 else match (x.bank b).fmt with | .clear => 0 | .int32 => 1 | .a40 => 2
  (fmt 0 + 4 * fmt 1 + 16 * fmt 2 + 64 * fmt 3) * 2 ^ 16 + b2n (x.running.any fun t => t.op.port = 1) * 2 ^ 9 +
    b2n (x.running.any fun t => t.op.port = 0) * 2 ^ 8 + x.queue.length

/-- What a register holds, as a read returns it: registers that show the state of a unit, or a table of the Accession Record,
and otherwise the word held, with the mirror bank's word in RWM fields (R11). -/
def regValue (s : State) (k : Nat) : Nat :=
  match regDesc k with
  | none => 0
  | some d =>
    let off := k % 2 ^ 20
    let m := d.maskOf [.rwm]
    let held := (((s.reg k).toNat - ((s.reg k).toNat &&& m)) + ((s.mir k).toNat &&& m)) &&& d.readMask
    match k / 2 ^ 20 with
    | 0x00 => if off = 0x100 then s.timeAt tbSoc % 2 ^ 32 else if off = 0x104 then s.timeAt tbSoc / 2 ^ 32 % 2 ^ 32 else held
    | 0x01 => (match arrIdx off 0x400 4 68 with | some n => vtabMv s (n / 4) (n % 4) | none => held)
    | 0x08 => (match arrIdx off 0x008 0x100 4, arrIdx off 0x00C 0x100 4 with
      | some n, _ => portMac s n % 2 ^ 32
      | _, some n => portMac s n / 2 ^ 32
      | _, _ => held)
    | w => if w < 0x10 then held else if off = 0x000 then coreStat s (w - 0x10) else if off = 0x040 then tqStat s (w - 0x10)
      else held

/-- Whether a requester reaches a register: firmware processors are bound by their windows alone, the tenant's agents and
messages by GRANT (R296, R477). -/
def reaches (s : State) (who : Option Agent) (off : Nat) (write : Bool) : Bool :=
  match who with
  | some (.fw _) => true
  | _ => granted s off write

/-- A word of the shadow aperture (R488). -/
def shadowWord (s : State) (who : Option Agent) (i : Nat) : Nat :=
  let base := (s.reg (obsReg 0)).toNat
  let k := base + 4 * i
  if !inShadowSet k || k / 2 ^ 20 ≠ base / 2 ^ 20 || !reaches s who k false then 0
  else (SMap.get 0 s.obs.shadows k).toNat

namespace Run

variable {z : State}

/-- A read of the register at a key: the word, with what the read does. A _LO register latches its _HI, and a _HI register
returns its latch (R9). -/
def regRead (r : Run z) (who : Option Agent) (k : Nat) : Nat × Run z :=
  let off := k % 2 ^ 20
  let w := k / 2 ^ 20
  if (regDesc k).isNone then (0, r)
  else if isHi k then ((SMap.get 0 r.s.latch k).toNat, r)
  else if k = topReg 0x320 then r.uartRead
  else if k = topReg 0x308 then gpioIn r
  else if k = schedReg 0x020 then r.readTallyAlloc
  else if w = 0x0C && inArr off 0x1000 4 256 then (shadowWord r.s who ((off - 0x1000) / 4), r)
  else if w ≥ 0x10 && decide (0x200 ≤ off) && r.s.power.statsLost.contains (4 * (w - 0x10) + (off - 0x200) / 0x200) then
    let (v, r) := r.draw
    (v.toNat % 2 ^ 32, r)
  else
    let v := regValue r.s k
    (v, if isHi (k + 4) then r.setLatch (k + 4) (BitVec.ofNat 32 (regValue r.s (k + 4))) else r)

/-! ## Writes -/

/-- A write under the access types of R11: fields in effect and the mirror bank. -/
def regStore (r : Run z) (k v : Nat) : Run z :=
  match regDesc k with
  | none => r
  | some d =>
    let m := d.maskOf [.rwm]
    let r := r.setRegN k (d.written (r.s.reg k).toNat v)
    if m = 0 then r
    else r.setMirror k (BitVec.ofNat 32 (d.mirrored v + ((regReset k).toNat - ((regReset k).toNat &&& m))))

/-- A write of TOP_FT_CTRL: SRC makes the keeper acquire a gPTP domain, or run free (R35), as it does where the device itself is the
grandmaster of the domain (R339). -/
def ftCtrl (r : Run z) (v : Nat) : Run z :=
  let r := (r.regStore (topReg 0x108) v).setEth { r.s.eth with good := 0, lastSync := r.s.now }
  let itself := match gptpBest r.s (bits v 1 0 - 1) with | some (_, none) => true | _ => false
  if bits v 1 0 = 0 || itself then (r.setRegN (topReg 0x110) 0).ftState 0 else r.ftState 1

/-- A write of TOP_SNAP_CTRL: CANCEL, then ARM (R485). -/
def snapCtrl (r : Run z) (v : Nat) : Run z :=
  let r := if bit v 30 then r.snapCancel else r
  if bit v 31 then (r.snapArm (r.s.reg64 (topReg 0x204)) r.s.now).2.2 else r

/-- A write of PWR_STATE_CTRL: GO asks for TARGET, and reads 1 until the request completes (R427). -/
def stateCtrl (r : Run z) (v : Nat) : Run z :=
  let r := r.setFld (pwrReg 0) 2 0 v
  if !bit v 31 then r
  else
    let was := r.s.fld (pwrReg 0) 31 31
    let had := r.s.power.req.isSome || r.s.power.asked.isSome || r.s.power.entering.isSome
    let r := r.requestState (bits v 2 0) none
    if had then r.setFld (pwrReg 0) 31 31 was else r.setFld (pwrReg 0) 31 31 (b2n (r.s.power.req.isSome || r.s.power.asked.isSome))

/-- A write of FWP_Pp_CTRL by the security processor: RESTART, WDOG and LOGLVL (R303, R304, R313). -/
def fwpCtrl (r : Run z) (p v : Nat) : Run z :=
  let k := fwReg p 0
  let r := r.setRegN k (r.s.fld k 31 31 * 2 ^ 31 + bits v 7 4 * 2 ^ 4 + bits v 1 0)
  if bit v 31 then r.fwRestart p 1 else r

/-- FWP_Pp_KICK: the watchdog period of a processor starts again (R304). -/
def fwpKick (r : Run z) (p : Nat) : Run z := r.setFw { r.s.fw with kicks := SMap.insert r.s.fw.kicks p r.s.now }

/-- A write of PIDX_RQ_CFG: LOG2N does not change while EN is 1; enabled, the sequence table is mapped at PIDX_SEQ_BASE
(R209, R210). -/
def rqCfg (r : Run z) (v : Nat) : Run z :=
  let k := pidxReg 8
  if r.s.fld k 31 31 = 1 && bits v 3 0 ≠ r.s.fld k 3 0 then r
  else
    let r := r.regStore k v
    r.when (bit v 31) fun r => r.setReg64 (pidxReg 0x018) (Config.seqPage % 2 ^ 36 * 4096)

/-- A write of ETH_Pn_CFG: ignored when it changes SPEED, MACSEC or PREEMPT while EN is 1; a port that is disabled loses its
link (R332). -/
def ethCfg (r : Run z) (n v : Nat) : Run z :=
  let k := portReg n 0
  let old := (r.s.reg k).toNat
  if bit old 31 && (bits v 27 24 ≠ bits old 27 24) then r
  else
    let r := r.regStore k v
    r.when (bit old 31 && !bit v 31) fun r => r.linkLost n 0

/-- A write of a window's CTRL: START, with the rights of its agent, and STOP (R261, R264). -/
def windowCtrl (r : Run z) (who : Option Agent) (n v : Nat) : Run z :=
  let c : Option XCtx := match who with
    | some (.host h) => some (r.s.hart (hostKey h)).xctx
    | some (.fw _) => some { en := false, root := 0, mode := .mon }
    | some (.lane core g) => (r.s.gang? core g).map (gangX r.s)
    | none => none
  let r := if bit v 31 then (match c with
      | some c => r.windowStart c n
      | none => if (SMap.find? r.s.vault.windows n).isSome then r else r.windowRefuse n stWinBadDesc) else r
  if bit v 30 then r.windowStop n else r

/-- A write of OBS_TRC_CTRL: CTX and LOG2N do not change while EN is 1. -/
def trcCtrl (r : Run z) (v : Nat) : Run z :=
  let k := obsReg 0x100
  let old := (r.s.reg k).toNat
  if bit old 31 && (bits v 27 16 ≠ bits old 27 16 || bits v 3 0 ≠ bits old 3 0) then r else r.regStore k v

/-- A write of CORE_FLT_CAUSE: a 1 to VALID clears the record, and GANG, CAUSE and CORE_FLT_TVAL to CORE_FLT_TIME return to 0
(R93). -/
def fltClear (r : Run z) (k v : Nat) : Run z :=
  if bit v 31 then r.each (List.range 9) fun i r => r.setRegN (k + 4 * i) 0 else r

/-- A write of CSI_I3Ck_XFER: GO starts the transfer that the word names (R398). -/
def i3cXfer (r : Run z) (k v : Nat) : Run z :=
  let x := csiReg (0x3004 + 0x100 * k)
  let r := r.setRegN x (r.s.fld x 31 31 * 2 ^ 31 + (v &&& 0x60FF3F7F))
  if bit v 31 then r.i3cGo k v else r

end Run

/-- What the write of a word to a register does where that is more than R11 states; none for every other register. The word
holds only values that occur. -/
def Run.regSpecial {z : State} (r : Run z) (who : Option Agent) (k v : Nat) : Option (Run z) :=
  let off := k % 2 ^ 20
  match k / 2 ^ 20 with
  | 0x00 =>
    if off = 0x108 then some (r.ftCtrl v) else if off = 0x200 then some (r.snapCtrl v)
    else if off = 0x320 then some (r.uartSend (BitVec.ofNat 8 v)) else none
  | 0x01 =>
    if off = 0x000 then some (r.stateCtrl v)
    else if off = 0x300 then some (r.writeCap (bits v 7 0)).2
    else if off = 0x304 then some (r.writeMode v).2
    else if off = 0x600 && decide (bits v 23 16 ≤ bits v 31 24) then some r
    else (arrIdx off 0x100 0x10 17).map fun c => r.writeDvfs c v
  | 0x02 => (arrIdx off 0x100 4 17).map fun c => r.writeDiv c (bits v 1 0)
  | 0x03 => if off = 0x020 then some (r.mmWrite v) else none
  | 0x04 =>
    if who = some (.fw (off / 0x200)) && off % 0x200 = 0x014 then some (r.fwpKick (off / 0x200))
    else if who ≠ some (.fw 4) || off % 0x200 = 0x014 then some r
    else if off % 0x200 = 0 then some (r.fwpCtrl (off / 0x200) v)
    else if off % 0x200 ≥ 0x100 then
      (let w := if off % 8 = 0 then (r.s.reg (k + 4)).toNat * 2 ^ 32 + v else v * 2 ^ 32 + (r.s.reg (k - 4)).toNat
       if windowAligned w then none else some r)
    else none
  | 0x05 =>
    if off = 0x000 then some (if r.s.sec.switch.isSome then r else r.doorbell v r.s.now)
    else if off = 0x010 || off = 0x014 then
      (if r.s.sched.cards.any fun c => cardHeld r.s c.1 && cardEn r.s c.1 then some r else none)
    else if off = 0x018 then some (r.cardSync (bits v 13 0) none)
    else if off = 0x028 then some (r.writeTallyFree v)
    else if off = 0x034 then some (r.heartbeat (bits v 11 0) r.s.now)
    else match arrIdx off 0x10000 0x10 4096, arrIdx off 0x10004 0x10 4096, arrIdx off 0x10008 0x10 4096 with
      | some n, _, _ => some (r.writeCtxCfg n v)
      | _, some n, _ => some (r.writeCtxRoot n false v)
      | _, _, some n => some (r.writeCtxRoot n true v)
      | none, none, none =>
        if off < 0xF0000 then none
        else
          let n := (off - 0xF0000) / 0x100
          let o := off % 0x100
          if o = 0 then some (r.writeRfxCore n v)
          else if inArr o 0x20 0x20 4 then
            some (if bit v 31 then r.rfxStop (4 * n + (o / 0x20 - 1)) stReflexStopped else r)
          else if inArr o 0x24 0x20 4 then some (r.rfxMark (4 * n + (o / 0x20 - 1)) v)
          else none
  | 0x06 =>
    if off = 0x00C then some (r.put (.kv { r.s.kv with awake := true }))
    else if off = 0x008 then some (r.rqCfg v)
    else if off < 0x008 then (if r.s.fld (pidxReg 8) 31 31 = 1 then some r else none)
    else if decide (0x040 ≤ off) && decide (off < 0x080) && !poolWriteOk r.s off v then some r
    else if decide (0x040 ≤ off) && decide (off < 0x080) then some ((r.regStore k v).countFree)
    else none
  | 0x07 =>
    if off = 0x020 || off = 0x024 then some ((r.regStore k v).buildCmap)
    else if off = 0x030 || off = 0x034 then some (r.tlbInv (off = 0x034) (BitVec.ofNat 32 v))
    else if (inArr off 0x800 0x20 16 || inArr off 0x804 0x20 16) && (SMap.find? r.s.vault.windows ((off - 0x800) / 0x20)).isSome then
      some r
    else match arrIdx off 0x808 0x20 16, arrIdx off 0x1000 4 1024 with
      | some n, _ => some (r.windowCtrl who n v)
      | _, some n => some (r.writeLblk n (BitVec.ofNat 32 v))
      | none, none => none
  | 0x08 =>
    if off = 0x5000 then some (r.flowDb v)
    else if off = 0x2000 || off = 0x2040 then some (r.regStore k v).gptpSelects
    else match arrIdx off 0x000 0x100 4, arrIdx off 0x050 0x100 4 with
      | some n, _ => some (r.ethCfg n v)
      | _, some n => some (if bit v 31 then (r.regStore k v).qbvChange n else r.regStore k v)
      | none, none => none
  | 0x09 =>
    if off = 0x4000 then some (r.csiRingDb v)
    else match arrIdx off 0x000 0x100 8, arrIdx off 0x2004 0x20 8, arrIdx off 0x3004 0x100 4 with
      | some n, _, _ => some (r.writeCamPort n v)
      | _, some n, _ => some ((r.regStore k v).fsyncWritten n)
      | _, _, some n => some (r.i3cXfer n v)
      | none, none, none =>
        if inArr off 0x2008 0x20 8 || inArr off 0x200C 0x20 8 then some ((r.regStore k v).fsyncWritten ((off - 0x2000) / 0x20))
        else none
  | 0x0A => (arrIdx off 0x10004 0x1000 16).map fun n => r.ispArm n v
  | 0x0B =>
    if off = 0x134 then
      some (let r := r.setRegN k (r.s.fld k 31 31 * 2 ^ 31 + (v &&& 0x4FFF00FF)); if bit v 31 then r.copyGo else r)
    else if off = 0x500 then some (r.audRingDb v)
    else if off = 0x600 then some (r.writeLadCfg v)
    else if decide (0x604 ≤ off) && decide (off ≤ 0x610) then
      (if r.s.fld (regKey 0x0B 0x600) 31 31 = 1 then some r else none)
    else if off = 0x61C then some (r.ladAck (bits v 15 0))
    else none
  | 0x0C =>
    if off = 0x100 then some (r.trcCtrl v)
    else if off = 0x10C || off = 0x110 then (if r.s.fld (obsReg 0x100) 31 31 = 1 then some r else none)
    else if off = 0x118 then some (r.trcAck v)
    else if off = 0x200 then some (r.errClear v)
    else none
  | 0x0D => if off = 0x00C then some (r.fenceAll [bits v 7 0] 5) else none
  | w =>
    if w ≥ 0x10 && off = 0x004 then
      some (let r := r.regStore k v; if (gangsOf r.s (w - 0x10)).isEmpty then r.takeMirror k else r)
    else if w ≥ 0x10 && off = 0x010 then some (r.fltClear k v)
    else none

/-- A write of a word to the register at a key. A word with a value that does not occur is ignored whole (R14), and an unused
offset takes no write (R38). -/
def Run.regWrite {z : State} (r : Run z) (who : Option Agent) (k v : Nat) : Run z :=
  match regDesc k with
  | none => r
  | some d =>
    if !d.occurs v then r
    else match r.regSpecial who k v with
      | some r' => r'
      | none => r.regStore k v

/-! ## An agent's access at a register command -/

/-- Whether an agent can make an access now: a hart that runs, or a gang with active lanes. -/
def canAccess (s : State) (ag : Agent) : Bool :=
  match ag with
  | .host n => decide (n < 8) && awake s && (s.hart n).running && !(s.hart n).snoozing && !hartWaits s n
  | .fw p => decide (p ≤ 4) && awake s && (s.hart (fwKey p)).running && !(s.hart (fwKey p)).snoozing && !hartWaits s (fwKey p)
  | .lane c g => gangReady s c g

/-- Whether the region, GRANT or the windows of a firmware processor let an agent access a register (R38, R296, R477). -/
def accessOk (s : State) (ag : Agent) (off : Nat) (write : Bool) : Bool :=
  (region (regBase + off) == .regs) && off % 4 = 0 && reaches s (some ag) off write &&
  (match ag with
    | .fw p => (fwLookup s p (s.hart (fwKey p)) (if write then .store else .load) (regBase + off) 4).isOk
    | _ => true)

namespace Run

variable {z : State}

/-- The access fault of a refused access (R38), at the instruction its agent has reached. -/
def accessFault (r : Run z) (ag : Agent) (off : Nat) (write : Bool) : Run z :=
  let c : Cause := if write then .storeAccess else .loadAccess
  match ag with
  | .host n => r.hartTrap (hostKey n) (r.s.hart (hostKey n)) c (regBase + off) false
  | .fw p => r.hartTrap (fwKey p) (r.s.hart (fwKey p)) c (regBase + off) false
  | .lane core g => match r.s.gang? core g with
    | some x => faultLanes r core g ((x.minPc).getD 0) (x.active.map fun l => (l, c, regBase + off))
    | none => r

/-- An agent's write of a word to a register, as a register command makes it. -/
def agentWrite (r : Run z) (ag : Agent) (off v : Nat) : Run z :=
  if !canAccess r.s ag then r
  else if !accessOk r.s ag off true then r.accessFault ag off true
  else (r.regWrite (some ag) off v).settleSignals

/-- An agent's read of a register, as a register command makes it. -/
def agentRead (r : Run z) (ag : Agent) (off : Nat) : Run z :=
  if !canAccess r.s ag then r
  else if !accessOk r.s ag off false then r.accessFault ag off false
  else (r.regRead (some ag) off).2

end Run

end Sys2Proof.Machine
end

