-- ==== Sys2Proof/Machine/RegRows.lean ====
section
/-! DEFINITION. The rows of the opcode table that are one access to a register by an agent. A host core, a firmware processor
or a gang makes the access; one that its rights refuse takes the access fault (R38). The access does not move the agent past
the instruction that makes it: LDW and STW do that. -/

namespace Sys2Proof.Machine

/-- LO_HI_READ_LATCH: an agent reads the _LO register at an offset, which latches its _HI register (R9). -/
def execLoHiReadLatch (ag : Agent) (off : BitVec 28) (s : State) : Host.Outcome State Fault Refusal :=
  let r := Run.start s
  done (if isHi (off.toNat + 4) then r.agentRead ag off.toNat else r)

/-- REGISTER_WRITE: an agent writes a register under its access types (R11 to R14). -/
def execRegisterWrite (ag : Agent) (off : BitVec 28) (v : W32) (s : State) : Host.Outcome State Fault Refusal :=
  done ((Run.start s).agentWrite ag off.toNat v.toNat)

/-- TIME_TREE_REALIGN: the local copies of fabric time are brought towards the master keeper again (R27). Each stands behind it by a
free lag below 5 ns, and never goes back. -/
def execTimeTreeRealign (s : State) : Host.Outcome State Fault Refusal :=
  let r := Run.start s
  done (if awake s then r.realign fun b => Config.copyLag s.free b else r)

/-- HOLDOVER_ENTRY: three Sync intervals have passed without a measurement; the keeper keeps its last rate (R32). -/
def execHoldoverEntry (s : State) : Host.Outcome State Fault Refusal :=
  let r := Run.start s
  let st := s.fld (topReg 0x10C) 1 0
  done (if (st = 1 || st = 2) && decide (s.eth.lastSync + 3 * Config.syncInterval ≤ s.now) then r.holdover else r)

/-- TOP_FT_CTRL_WRITE: an agent chooses the source of fabric time (R35). -/
def execTopFtCtrlWrite (ag : Agent) (v : W32) (s : State) : Host.Outcome State Fault Refusal :=
  done ((Run.start s).agentWrite ag (topReg 0x108) v.toNat)

/-- CORE_FLT_CAUSE_CLEAR: an agent writes the W1C bits of CORE_FLT_CAUSE. -/
def execCoreFltCauseClear (ag : Agent) (core : Nat) (v : W32) (s : State) : Host.Outcome State Fault Refusal :=
  done ((Run.start s).agentWrite ag (coreReg core 0x010) v.toNat)

/-! ## Scheduler -/

/-- SCHED_TALLY_ALLOC: an agent reads SCHED_TALLY_ALLOC_LO (R290). -/
def execSchedTallyAlloc (ag : Agent) (s : State) : Host.Outcome State Fault Refusal :=
  done ((Run.start s).agentRead ag (schedReg 0x020))

/-- SCHED_TALLY_FREE: an agent writes a handle to SCHED_TALLY_FREE (R290). -/
def execSchedTallyFree (ag : Agent) (v : W32) (s : State) : Host.Outcome State Fault Refusal :=
  done ((Run.start s).agentWrite ag (schedReg 0x028) v.toNat)

/-- SCHED_CARD_SYNC: an agent asks for the take-up of a card (R276). -/
def execSchedCardSync (ag : Agent) (n : BitVec 14) (s : State) : Host.Outcome State Fault Refusal :=
  done ((Run.start s).agentWrite ag (schedReg 0x018) n.toNat)

/-- CONTEXT_ENABLE: an agent writes a context's CFG with EN set (R277). -/
def execContextEnable (ag : Agent) (n : BitVec 12) (v : W32) (s : State) : Host.Outcome State Fault Refusal :=
  done ((Run.start s).agentWrite ag (schedReg (0x10000 + 0x10 * n.toNat)) (setBits v.toNat 31 31 1))

/-- CONTEXT_DISABLE: an agent writes a context's CFG as it stands with EN clear (R277). -/
def execContextDisable (ag : Agent) (n : BitVec 12) (s : State) : Host.Outcome State Fault Refusal :=
  let k := schedReg (0x10000 + 0x10 * n.toNat)
  done ((Run.start s).agentWrite ag k (setBits (s.reg k).toNat 31 31 0))

/-- SCHED_DB: an agent writes SCHED_DB (R280). -/
def execSchedDb (ag : Agent) (v : W32) (s : State) : Host.Outcome State Fault Refusal :=
  done ((Run.start s).agentWrite ag (schedReg 0) v.toNat)

/-- SCHED_HEARTBEAT: an agent writes SCHED_HEARTBEAT (R308). -/
def execSchedHeartbeat (ag : Agent) (v : W32) (s : State) : Host.Outcome State Fault Refusal :=
  done ((Run.start s).agentWrite ag (schedReg 0x034) v.toNat)

/-! ## The reflex lane -/

/-- REFLEX_CORE_ENABLE: an agent sets EN of a reflex core slot for a logical core (R228). -/
def execReflexCoreEnable (ag : Agent) (n : BitVec 4) (lcore : BitVec 8) (s : State) : Host.Outcome State Fault Refusal :=
  done ((Run.start s).agentWrite ag (rfxCoreReg n.toNat) (2 ^ 31 + lcore.toNat))

/-- REFLEX_CORE_DISABLE: an agent clears EN of a reflex core slot (R228). -/
def execReflexCoreDisable (ag : Agent) (n : BitVec 4) (s : State) : Host.Outcome State Fault Refusal :=
  done ((Run.start s).agentWrite ag (rfxCoreReg n.toNat) (setBits (s.reg (rfxCoreReg n.toNat)).toNat 31 31 0))

/-- REFLEX_RESET_MARK: an agent writes the MARK bits of a reflex group (R237). -/
def execReflexResetMark (ag : Agent) (group : BitVec 6) (v : W32) (s : State) : Host.Outcome State Fault Refusal :=
  done ((Run.start s).agentWrite ag (rfxReg group.toNat 0x24) v.toNat)

/-- REFLEX_STOP: an agent writes STOP of a reflex group (R241). -/
def execReflexStop (ag : Agent) (group : BitVec 6) (s : State) : Host.Outcome State Fault Refusal :=
  done ((Run.start s).agentWrite ag (rfxReg group.toNat 0x20) (2 ^ 31))

/-! ## Memory -/

/-- PIDX_RQ_DB: an agent writes the Page Index doorbell (R210). -/
def execPidxRqDb (ag : Agent) (v : W32) (s : State) : Host.Outcome State Fault Refusal :=
  done ((Run.start s).agentWrite ag (pidxReg 0x00C) v.toNat)

/-- VLT_CMAP_WRITE: an agent writes a half of VLT_CMAP (R250). -/
def execVltCmapWrite (ag : Agent) (hi : Bool) (v : W32) (s : State) : Host.Outcome State Fault Refusal :=
  done ((Run.start s).agentWrite ag (vltReg (0x020 + 4 * b2n hi)) v.toNat)

/-- VLT_TLBINV: an agent writes a half of VLT_TLBINV; the low half starts the invalidation (R253). -/
def execVltTlbinv (ag : Agent) (hi : Bool) (v : W32) (s : State) : Host.Outcome State Fault Refusal :=
  done ((Run.start s).agentWrite ag (vltReg (0x030 + 4 * b2n hi)) v.toNat)

/-- VLT_LBLK_WRITE: an agent writes a word of the local block map (R257). -/
def execVltLblkWrite (ag : Agent) (n : BitVec 10) (v : W32) (s : State) : Host.Outcome State Fault Refusal :=
  done ((Run.start s).agentWrite ag (vltReg (0x1000 + 4 * n.toNat)) v.toNat)

/-- WINDOW_START: an agent sets START of a window (R261). -/
def execWindowStart (ag : Agent) (n : BitVec 4) (s : State) : Host.Outcome State Fault Refusal :=
  done ((Run.start s).agentWrite ag (vltReg (0x808 + 0x20 * n.toNat)) (2 ^ 31))

/-- WINDOW_STOP: an agent sets STOP of a window (R264). -/
def execWindowStop (ag : Agent) (n : BitVec 4) (s : State) : Host.Outcome State Fault Refusal :=
  done ((Run.start s).agentWrite ag (vltReg (0x808 + 0x20 * n.toNat)) (2 ^ 30))

/-! ## Firmware processors -/

/-- FWP_RESTART_REQUEST: an agent writes RESTART to a processor's CTRL, its other fields as they stand (R300). -/
def execFwpRestartRequest (ag : Agent) (p : Nat) (s : State) : Host.Outcome State Fault Refusal :=
  done ((Run.start s).agentWrite ag (fwReg p 0) (setBits (s.reg (fwReg p 0)).toNat 31 31 1))

/-- FWP_KICK: a processor writes its own KICK register (R304). -/
def execFwpKick (p : Nat) (s : State) : Host.Outcome State Fault Refusal :=
  done ((Run.start s).agentWrite (.fw p) (fwReg p 0x014) 1)

/-! ## Ethernet, audio and cameras -/

/-- QBV_CHANGE: an agent writes ETH_Pn_QBV_CTRL with CHANGE set (R342). -/
def execQbvChange (ag : Agent) (n : BitVec 2) (v : W32) (s : State) : Host.Outcome State Fault Refusal :=
  done ((Run.start s).agentWrite ag (portReg n.toNat 0x050) (setBits v.toNat 31 31 1))

/-- ETH_FLOW_DB: an agent writes the flow doorbell (R346). -/
def execEthFlowDb (ag : Agent) (v : W32) (s : State) : Host.Outcome State Fault Refusal :=
  done ((Run.start s).agentWrite ag (ethReg 0x5000) v.toNat)

/-- ARCHIVE_COPY: an agent writes AUD_CPY_CTRL with GO set (R362). -/
def execArchiveCopy (ag : Agent) (v : W32) (s : State) : Host.Outcome State Fault Refusal :=
  done ((Run.start s).agentWrite ag (audReg 0x134) (setBits v.toNat 31 31 1))

/-- AUD_RING_DB: an agent writes the audio ring doorbell (R369). -/
def execAudRingDb (ag : Agent) (v : W32) (s : State) : Host.Outcome State Fault Refusal :=
  done ((Run.start s).agentWrite ag (audReg 0x500) v.toNat)

/-- CSI_RING_DB: an agent writes the camera ring doorbell (R383). -/
def execCsiRingDb (ag : Agent) (v : W32) (s : State) : Host.Outcome State Fault Refusal :=
  done ((Run.start s).agentWrite ag (csiReg 0x4000) v.toNat)

/-- ISP_ARM: an agent writes ISP_ARM of a stream (R394). -/
def execIspArm (ag : Agent) (stream : BitVec 4) (v : W32) (s : State) : Host.Outcome State Fault Refusal :=
  done ((Run.start s).agentWrite ag (ispReg stream.toNat 0x004) v.toNat)

/-- I3C_XFER: an agent writes CSI_I3Ck_XFER with GO set (R398). -/
def execI3cXfer (ag : Agent) (bus : BitVec 2) (v : W32) (s : State) : Host.Outcome State Fault Refusal :=
  done ((Run.start s).agentWrite ag (csiReg (0x3004 + 0x100 * bus.toNat)) (setBits v.toNat 31 31 1))

/-! ## The cascade ladder -/

/-- LADDER_ENABLE: an agent writes AUD_LAD_CFG with EN set (R405). -/
def execLadderEnable (ag : Agent) (v : W32) (s : State) : Host.Outcome State Fault Refusal :=
  done ((Run.start s).agentWrite ag (audReg 0x600) (setBits v.toNat 31 31 1))

/-- LADDER_DISABLE: an agent writes AUD_LAD_CFG as it stands with EN clear (R405). -/
def execLadderDisable (ag : Agent) (s : State) : Host.Outcome State Fault Refusal :=
  done ((Run.start s).agentWrite ag (audReg 0x600) (setBits (s.reg (audReg 0x600)).toNat 31 31 0))

/-- LADDER_RELOAD: an agent writes AUD_LAD_CFG as it stands with RELOAD set (R405). -/
def execLadderReload (ag : Agent) (s : State) : Host.Outcome State Fault Refusal :=
  done ((Run.start s).agentWrite ag (audReg 0x600) (setBits (s.reg (audReg 0x600)).toNat 30 30 1))

/-- AUD_LAD_ACK: an agent acknowledges tickets (R414). -/
def execAudLadAck (ag : Agent) (v : W32) (s : State) : Host.Outcome State Fault Refusal :=
  done ((Run.start s).agentWrite ag (audReg 0x61C) v.toNat)

/-! ## Power -/

/-- PWR_STATE_REQUEST: an agent writes PWR_STATE_CTRL with GO set (R427). -/
def execPwrStateRequest (ag : Agent) (target : BitVec 3) (s : State) : Host.Outcome State Fault Refusal :=
  done ((Run.start s).agentWrite ag (pwrReg 0) (2 ^ 31 + target.toNat))

/-- DVFS_TARGET_WRITE: an agent writes TARGET of a cluster or HOST, the other fields as they stand (R434). -/
def execDvfsTargetWrite (ag : Agent) (c : Nat) (v : BitVec 2) (s : State) : Host.Outcome State Fault Refusal :=
  done ((Run.start s).agentWrite ag (dvfsReg c) (setBits (s.reg (dvfsReg c)).toNat 21 20 v.toNat))

/-- DVFS_VSEL_WRITE: an agent writes VSEL of a cluster or HOST, the other fields as they stand (R434). -/
def execDvfsVselWrite (ag : Agent) (c : Nat) (v : BitVec 2) (s : State) : Host.Outcome State Fault Refusal :=
  done ((Run.start s).agentWrite ag (dvfsReg c) (setBits (s.reg (dvfsReg c)).toNat 13 12 v.toNat))

/-- CLK_DIV_WRITE: an agent writes CLK_CLc_DIV (R434). -/
def execClkDivWrite (ag : Agent) (c : Nat) (v : BitVec 2) (s : State) : Host.Outcome State Fault Refusal :=
  done ((Run.start s).agentWrite ag (regKey 2 (0x100 + 4 * c)) v.toNat)

/-- PWR_CAP_WRITE: an agent writes PWR_CAP (R443). -/
def execPwrCapWrite (ag : Agent) (v : W32) (s : State) : Host.Outcome State Fault Refusal :=
  done ((Run.start s).agentWrite ag (pwrReg 0x300) v.toNat)

/-- PWR_MODE_WRITE: an agent writes PWR_MODE (R445). -/
def execPwrModeWrite (ag : Agent) (v : W32) (s : State) : Host.Outcome State Fault Refusal :=
  done ((Run.start s).agentWrite ag (pwrReg 0x304) v.toNat)

/-! ## Repair, security and observation -/

/-- FIX_FENCE: an agent names a physical core to fence (R458). -/
def execFixFence (ag : Agent) (v : W32) (s : State) : Host.Outcome State Fault Refusal :=
  done ((Run.start s).agentWrite ag (fixReg 0x00C) v.toNat)

/-- MODEL_MEASURE: an agent writes SEC_MM_CTRL (R481). -/
def execModelMeasure (ag : Agent) (v : W32) (s : State) : Host.Outcome State Fault Refusal :=
  done ((Run.start s).agentWrite ag (secReg 0x020) v.toNat)

/-- TOP_SNAP_ARM: an agent writes ARM of TOP_SNAP_CTRL (R485). -/
def execTopSnapArm (ag : Agent) (s : State) : Host.Outcome State Fault Refusal :=
  done ((Run.start s).agentWrite ag (topReg 0x200) (2 ^ 31))

/-- TOP_SNAP_CANCEL: an agent writes CANCEL of TOP_SNAP_CTRL (R485). -/
def execTopSnapCancel (ag : Agent) (s : State) : Host.Outcome State Fault Refusal :=
  done ((Run.start s).agentWrite ag (topReg 0x200) (2 ^ 30))

/-- OBS_TRC_ACK: an agent acknowledges trace records (R490). -/
def execObsTrcAck (ag : Agent) (v : W32) (s : State) : Host.Outcome State Fault Refusal :=
  done ((Run.start s).agentWrite ag (obsReg 0x118) v.toNat)

/-- ERR_SUM_CLEAR: an agent writes the W1C bits of OBS_ERR_SUM (R492). -/
def execErrSumClear (ag : Agent) (v : W32) (s : State) : Host.Outcome State Fault Refusal :=
  done ((Run.start s).agentWrite ag (obsReg 0x200) v.toNat)

/-- UART1_SEND: an agent writes a byte to TOP_UART1_DATA (R501). -/
def execUart1Send (ag : Agent) (b : Byte) (s : State) : Host.Outcome State Fault Refusal :=
  done ((Run.start s).agentWrite ag (topReg 0x320) b.toNat)

/-- UART1_RECEIVE_READ: an agent reads TOP_UART1_DATA (R501). -/
def execUart1ReceiveRead (ag : Agent) (s : State) : Host.Outcome State Fault Refusal :=
  done ((Run.start s).agentRead ag (topReg 0x320))

end Sys2Proof.Machine
end

