-- ==== Sys2Proof/Machine/Mem.lean ====
section
/-! DEFINITION. Loads and stores, ordered loads and stores, and atomics (R58 to R60), in memory and in the control register
space (R38, R517). Accesses take effect in one order, the order of the commands, so an acquire or a release adds nothing to
the order that every access has (R100 to R103). -/

namespace Sys2Proof.Machine

/-- Where an access lands. -/
inductive Place where
  | mem (pa : Nat)
  | reg (key : Nat)
  deriving DecidableEq, Repr

/-- Where the access of an agent lands: memory, or a register where the access is a word of R517 and its rights reach it; none
when it is refused (R38, R517). -/
def place (s : State) (ag : Agent) (write regs : Bool) (pa : Nat) : Option Place :=
  if region pa = .regs then
    (if regs && reaches s (some ag) (pa - regBase) write then some (.reg (pa - regBase)) else none)
  else if (region pa).isMem then some (.mem pa) else none

/-- What a scalar load or store does: its size in bytes, the sign extension of a load, and whether it is one of the word
accesses that may touch a register (R517). -/
structure MemOp where
  size : Nat
  signed : Bool := true
  regs : Bool := false

/-- A loaded value in a register of w bits (R58). -/
def MemOp.extend (m : MemOp) (w v : Nat) : BitVec w :=
  if m.signed then BitVec.ofInt w (sext (8 * m.size) v) else BitVec.ofNat w v

/-! ## Harts -/

/-- A load by a hart from an effective address into a register (R58). -/
def hartLoad {z : State} (r : Run z) (ag : Agent) (key : Nat) (w : Words) (legal : Bool) (m : MemOp) (d : BitVec 5)
    (ea : Hart → W64) : Run z :=
  hartIssue r key w legal fun h r =>
    let a := (ea h).toNat
    if a % m.size ≠ 0 then (r, .trap .loadMisaligned a)
    else match r.hartAddr key h .load a m.size with
      | .error e => (r, .trap (loadCause e) a)
      | .ok (pa, r) => match place r.s ag false m.regs pa with
        | none => (r, .trap .loadAccess a)
        | some (.reg k) =>
          let (v, r) := r.regRead (some ag) k
          (r, .next (h.wg d (m.extend 64 v)))
        | some (.mem pa) =>
          if r.s.isUe pa then (r, .trap .loadAccess a) else (r, .next (h.wg d (m.extend 64 (r.s.load pa m.size))))

/-- A store by a hart of the low bytes of a register (R58). -/
def hartStore {z : State} (r : Run z) (ag : Agent) (key : Nat) (w : Words) (legal : Bool) (m : MemOp) (b : BitVec 5)
    (ea : Hart → W64) : Run z :=
  hartIssue r key w legal fun h r =>
    let a := (ea h).toNat
    let v := (h.rg b).toNat
    if a % m.size ≠ 0 then (r, .trap .storeMisaligned a)
    else match r.hartAddr key h .store a m.size with
      | .error e => (r, .trap (storeCause e) a)
      | .ok (pa, r) => match place r.s ag true m.regs pa with
        | none => (r, .trap .storeAccess a)
        | some (.reg k) =>
          let r := ((r.setHart key h).regWrite (some ag) k (v % 2 ^ 32)).settleSignals
          (r, .next (r.s.hart key))
        | some (.mem pa) => (r.storeMem pa m.size v, .next h)

/-! ## Lanes -/

/-- The effective address of a lane's access: the 48 low bits of the pair plus the offset, of 48 bits (R58). -/
def laneEa (t : Thread) (a : Nat) (off : Int) : Nat := ((t.rgPair a + off) % (2 ^ 48 : Int)).toNat

/-- Where one thread's access lands, or its cause: alignment, then translation, then access (R58, R77). -/
def laneAt {z : State} (r : Run z) (ag : Agent) (c : XCtx) (k : Access) (m : MemOp) (t : Thread) (a : Nat) (off : Int) :
    Except Cause (Place × Run z) :=
  let ea := laneEa t a off
  let load := k == .load
  if ea % m.size ≠ 0 then .error (if load then .loadMisaligned else .storeMisaligned)
  else match (r.scrubWalk c ea).translate c k ea with
    | .error e => .error (if load then loadCause e else storeCause e)
    | .ok (pa, r) =>
      let refused : Cause := if load then .loadAccess else .storeAccess
      if t.rgPair a ≥ 2 ^ 48 || laneBarred r.s pa || (k != .store && (region pa).isMem && r.s.isUe pa) then .error refused
      else match place r.s ag (!load) m.regs pa with
        | none => .error refused
        | some p => .ok (p, r.scrubRead k pa m.size)

/-- Where every enabled thread's access lands, and the causes of the threads that raise one. -/
def lanesAt {z : State} (r : Run z) (ag : Agent) (c : XCtx) (k : Access) (m : MemOp) (x : Gang) (lanes : List Nat)
    (a : Nat) (off : Int) : Run z × List (Nat × Place) × List (Nat × Cause × Nat) :=
  let p := lanes.foldl (fun (p : Run z × List (Nat × Place) × List (Nat × Cause × Nat)) l =>
    match laneAt p.1 ag c k m (x.thread l) a off with
    | .ok (pl, r) => (r, p.2.1 ++ [(l, pl)], p.2.2)
    | .error e => (p.1, p.2.1, p.2.2 ++ [(l, e, laneEa (x.thread l) a off)])) (r, [], [])
  (p.1.put .draw, inLaneOrder p.1.s.free p.2.1, p.2.2)

/-- The registers that hold a value of a size in the lane profile (R42). -/
def sizedRegs (size : Nat) (n : BitVec 5) : List Nat := if size = 8 then pairRegs n else [n.toNat]

/-- Whether a register may hold a value of a size in the lane profile (R42). -/
def sizedOk (size : Nat) (n : BitVec 5) : Bool := size ≠ 8 || pairOk n

/-- A value of a size from a thread's registers. -/
def sizedGet (t : Thread) (size : Nat) (n : BitVec 5) : Nat := if size = 8 then t.rgPair n.toNat else (t.rg n.toNat).toNat

/-- A value of a size into a thread's registers, extended to 32 bits (R58). -/
def sizedPut (t : Thread) (m : MemOp) (n : BitVec 5) (v : Nat) : Thread :=
  if m.size = 8 then t.wgPair n.toNat v else t.wg n.toNat (m.extend 32 v)

/-- A load by a gang (R58). -/
def lanesLoad {z : State} (r : Run z) (core g : Nat) (w : Words) (legal : Bool) (guard : BitVec 4) (m : MemOp)
    (d a : BitVec 5) (off : Int) : Run z :=
  laneIssue r core g w (legal && pairOk a && sizedOk m.size d) guard (sizedRegs m.size d ++ pairRegs a) [] fun cx x r =>
    match lanesAt r (.lane core g) (gangX r.s x) .load m x cx.enabled a.toNat off with
    | (r, places, []) =>
      let (r, x) := places.foldl (fun (p : Run z × Gang) lp =>
        let (v, r) := match lp.2 with
          | .mem pa => (p.1.s.load pa m.size, p.1)
          | .reg k => p.1.regRead (some (.lane core g)) k
        (r, p.2.setThread lp.1 (sizedPut (p.2.thread lp.1) m d v))) (r, x)
      (r, .next x)
    | (r, _, fs) => (r, .fault fs)

/-- A store by a gang: no thread stores when any raises a cause (R78); the homes take the stores in an order
that no rule gives. -/
def lanesStore {z : State} (r : Run z) (core g : Nat) (w : Words) (legal : Bool) (guard : BitVec 4) (m : MemOp)
    (b a : BitVec 5) (off : Int) : Run z :=
  laneIssue r core g w (legal && pairOk a && sizedOk m.size b) guard (sizedRegs m.size b ++ pairRegs a) [] fun cx x r =>
    match lanesAt r (.lane core g) (gangX r.s x) .store m x cx.enabled a.toNat off with
    | (r, places, []) =>
      let r := (r.setGang core g x).each places fun lp r =>
        let v := sizedGet (x.thread lp.1) m.size b
        match lp.2 with
        | .mem pa => r.storeMem pa m.size v
        | .reg k => r.regWrite (some (.lane core g)) k v
      (r.when (places.any fun lp => match lp.2 with
        | .reg _ => true
        | .mem _ => false) Run.settleSignals, .set)
    | (r, _, fs) => (r, .fault fs)

/-! ## Both profiles -/

/-- A load from A plus an offset into D. `lane` says whether the lane profile has it. -/
def loadOp {z : State} (r : Run z) (i : Instr) (ag : Agent) (m : MemOp) (legal lane : Bool) (guard : BitVec 4) (d a : BitVec 5)
    (off : Int) : Run z :=
  let w := wordsOf i
  let ea := fun (h : Hart) => h.rg a + BitVec.ofInt 64 off
  match ag with
  | .host n => hartLoad r ag (hostKey n) w (legal && guard = 0) m d ea
  | .fw p => hartLoad r ag (fwKey p) w (legal && guard = 0) m d ea
  | .lane c g => lanesLoad r c g w (legal && lane) guard m d a off

/-- A store of B to A plus an offset. -/
def storeOp {z : State} (r : Run z) (i : Instr) (ag : Agent) (m : MemOp) (legal : Bool) (guard : BitVec 4) (b a : BitVec 5)
    (off : Int) : Run z :=
  let w := wordsOf i
  let ea := fun (h : Hart) => h.rg a + BitVec.ofInt 64 off
  match ag with
  | .host n => hartStore r ag (hostKey n) w (legal && guard = 0) m b ea
  | .fw p => hartStore r ag (fwKey p) w (legal && guard = 0) m b ea
  | .lane c g => lanesStore r c g w legal guard m b a off

/-! ## Loads and stores (R58) -/

/-- LDB: a byte, sign-extended (R58). -/
def execLdb (ag : Agent) (f : I3) (s : State) : Host.Outcome State Fault Refusal :=
  done (loadOp (Run.start s) (.ldb ag f) ag { size := 1 } true true f.guard f.d f.a f.imm.toInt)

/-- LDBU: a byte, zero-extended (R58). -/
def execLdbu (ag : Agent) (f : I3) (s : State) : Host.Outcome State Fault Refusal :=
  done (loadOp (Run.start s) (.ldbu ag f) ag { size := 1, signed := false } true true f.guard f.d f.a f.imm.toInt)

/-- LDH: a halfword, sign-extended (R58). -/
def execLdh (ag : Agent) (f : I3) (s : State) : Host.Outcome State Fault Refusal :=
  done (loadOp (Run.start s) (.ldh ag f) ag { size := 2 } true true f.guard f.d f.a f.imm.toInt)

/-- LDHU: a halfword, zero-extended (R58). -/
def execLdhu (ag : Agent) (f : I3) (s : State) : Host.Outcome State Fault Refusal :=
  done (loadOp (Run.start s) (.ldhu ag f) ag { size := 2, signed := false } true true f.guard f.d f.a f.imm.toInt)

/-- LDW: a word, sign-extended; in the lane profile it fills gD (R58). -/
def execLdw (ag : Agent) (f : I3) (s : State) : Host.Outcome State Fault Refusal :=
  done (loadOp (Run.start s) (.ldw ag f) ag { size := 4, regs := true } true true f.guard f.d f.a f.imm.toInt)

/-- LDWU: a word, zero-extended; in the host profile alone (R49) (R58). -/
def execLdwu (ag : Agent) (f : I3) (s : State) : Host.Outcome State Fault Refusal :=
  done (loadOp (Run.start s) (.ldwu ag f) ag { size := 4, signed := false, regs := true } true false f.guard f.d f.a f.imm.toInt)

/-- LDD: a doubleword; in the lane profile into a pair (R58). -/
def execLdd (ag : Agent) (f : I3) (s : State) : Host.Outcome State Fault Refusal :=
  done (loadOp (Run.start s) (.ldd ag f) ag { size := 8 } true true f.guard f.d f.a f.imm.toInt)

/-- STB: the low byte of gB (R58). -/
def execStb (ag : Agent) (f : I3) (s : State) : Host.Outcome State Fault Refusal :=
  done (storeOp (Run.start s) (.stb ag f) ag { size := 1 } true f.guard f.d f.a f.imm.toInt)

/-- STH: the low halfword of gB (R58). -/
def execSth (ag : Agent) (f : I3) (s : State) : Host.Outcome State Fault Refusal :=
  done (storeOp (Run.start s) (.sth ag f) ag { size := 2 } true f.guard f.d f.a f.imm.toInt)

/-- STW: the low word of gB (R58). -/
def execStw (ag : Agent) (f : I3) (s : State) : Host.Outcome State Fault Refusal :=
  done (storeOp (Run.start s) (.stw ag f) ag { size := 4, regs := true } true f.guard f.d f.a f.imm.toInt)

/-- STD: gB; in the lane profile a pair (R58). -/
def execStd (ag : Agent) (f : I3) (s : State) : Host.Outcome State Fault Refusal :=
  done (storeOp (Run.start s) (.std ag f) ag { size := 8 } true f.guard f.d f.a f.imm.toInt)

/-! ## Ordered loads and stores (R59) -/

/-- LDW_ACQ: a load that acquires at its scope; B must be 0 (R59). -/
def execLdwAcq (ag : Agent) (scope : BitVec 3) (f : R3) (s : State) : Host.Outcome State Fault Refusal :=
  done (loadOp (Run.start s) (.ldwAcq ag scope f) ag { size := 4, regs := true } (scopeOk scope && f.b = 0) true f.guard f.d f.a 0)

/-- LDD_ACQ: a load that acquires at its scope; B must be 0 (R59). -/
def execLddAcq (ag : Agent) (scope : BitVec 3) (f : R3) (s : State) : Host.Outcome State Fault Refusal :=
  done (loadOp (Run.start s) (.lddAcq ag scope f) ag { size := 8 } (scopeOk scope && f.b = 0) true f.guard f.d f.a 0)

/-- STW_REL: a store that releases at its scope; D must be 0 (R59). -/
def execStwRel (ag : Agent) (scope : BitVec 3) (f : R3) (s : State) : Host.Outcome State Fault Refusal :=
  done (storeOp (Run.start s) (.stwRel ag scope f) ag { size := 4, regs := true } (scopeOk scope && f.d = 0) f.guard f.b f.a 0)

/-- STD_REL: a store that releases at its scope; D must be 0 (R59). -/
def execStdRel (ag : Agent) (scope : BitVec 3) (f : R3) (s : State) : Host.Outcome State Fault Refusal :=
  done (storeOp (Run.start s) (.stdRel ag scope f) ag { size := 8 } (scopeOk scope && f.d = 0) f.guard f.b f.a 0)

/-! ## Fences (R59, R102) -/

/-- A fence names no register, so D, A and B must be 0 (R59). It only advances: every access already keeps the order of the
commands (R102). -/
def fenceOp {z : State} (r : Run z) (i : Instr) (ag : Agent) (scope : BitVec 3) (f : R3) : Run z :=
  compute r i ag .both (scopeOk scope && f.d = 0 && f.a = 0 && f.b = 0) f.guard [] (fun _ h => .next h) fun _ t => t

/-- FENCE_ACQ: an acquire of the relaxed loads before it (R59, R102). -/
def execFenceAcq (ag : Agent) (scope : BitVec 3) (f : R3) (s : State) : Host.Outcome State Fault Refusal :=
  done (fenceOp (Run.start s) (.fenceAcq ag scope f) ag scope f)

/-- FENCE_REL: a release by the relaxed stores after it (R59, R102). -/
def execFenceRel (ag : Agent) (scope : BitVec 3) (f : R3) (s : State) : Host.Outcome State Fault Refusal :=
  done (fenceOp (Run.start s) (.fenceRel ag scope f) ag scope f)

/-- FENCE_AR: both, and earlier stores before later loads (R59, R102). -/
def execFenceAr (ag : Agent) (scope : BitVec 3) (f : R3) (s : State) : Host.Outcome State Fault Refusal :=
  done (fenceOp (Run.start s) (.fenceAr ag scope f) ag scope f)

/-! ## Atomics (R60) -/

/-- The operations of an atomic (R60). -/
inductive AtomOp where
  | add | min | max | and | or | xor | swap | cas
  deriving DecidableEq, Repr

/-- What an atomic of a size stores, from the old value, the operand and the incoming gD; none when CAS finds another value. -/
def AtomOp.stored (op : AtomOp) (size old b d : Nat) : Option Nat :=
  let w := 8 * size
  match op with
  | .add => some (old + b)
  | .min => some (if sext w b < sext w old then b else old)
  | .max => some (if sext w old < sext w b then b else old)
  | .and => some (old &&& b)
  | .or => some (old ||| b)
  | .xor => some (old ^^^ b)
  | .swap => some b
  | .cas => if old % 2 ^ w = d % 2 ^ w then some b else none

/-- Perform an atomic at a physical address: the old value (R60, R103). -/
def Run.atomAt {z : State} (r : Run z) (op : AtomOp) (size pa b d : Nat) : Nat × Run z :=
  let old := r.s.load pa size
  (old, match op.stored size old b d with
    | some v => r.storeMem pa size v
    | none => r)

/-- An atomic by a hart (R60). -/
def hartAtom {z : State} (r : Run z) (ag : Agent) (key : Nat) (w : Words) (op : AtomOp) (m : MemOp) (f : R3) : Run z :=
  hartIssue r key w (f.guard = 0) fun h r =>
    let a := (h.rg f.a).toNat
    if a % m.size ≠ 0 then (r, .trap .storeMisaligned a)
    else match r.hartAddr key h .atomic a m.size with
      | .error e => (r, .trap (storeCause e) a)
      | .ok (pa, r) => match place r.s ag true false pa with
        | some (.mem pa) =>
          if r.s.isUe pa then (r, .trap .storeAccess a)
          else
            let (old, r) := r.atomAt op m.size pa (h.rg f.b).toNat (h.rg f.d).toNat
            (r, .next (h.wg f.d (m.extend 64 old)))
        | _ => (r, .trap .storeAccess a)

/-- An atomic by a gang, its enabled threads in lane order (R60, R103). -/
def lanesAtom {z : State} (r : Run z) (core g : Nat) (w : Words) (op : AtomOp) (m : MemOp) (f : R3) : Run z :=
  laneIssue r core g w (pairOk f.a && sizedOk m.size f.b && sizedOk m.size f.d) f.guard
    (sizedRegs m.size f.d ++ pairRegs f.a ++ sizedRegs m.size f.b) [] fun cx x r =>
    match lanesAt r (.lane core g) (gangX r.s x) .atomic m x cx.enabled f.a.toNat 0 with
    | (r, places, []) =>
      let (r, x) := places.foldl (fun (p : Run z × Gang) lp =>
        match lp.2 with
        | .reg _ => p
        | .mem pa =>
          let t := p.2.thread lp.1
          let (old, r) := p.1.atomAt op m.size pa (sizedGet t m.size f.b) (sizedGet t m.size f.d)
          (r, p.2.setThread lp.1 (sizedPut t m f.d old))) (r, x)
      (r, .next x)
    | (r, _, fs) => (r, .fault fs)

/-- An atomic on a word or a doubleword. -/
def atomOp {z : State} (r : Run z) (i : Instr) (ag : Agent) (op : AtomOp) (dw : Bool) (f : R3) : Run z :=
  let w := wordsOf i
  let m : MemOp := { size := if dw then 8 else 4 }
  match ag with
  | .host n => hartAtom r ag (hostKey n) w op m f
  | .fw p => hartAtom r ag (fwKey p) w op m f
  | .lane c g => lanesAtom r c g w op m f

/-- ATOM_ADD: relaxed (R60). -/
def execAtomAdd (ag : Agent) (dw : Bool) (scope : BitVec 2) (f : R3) (s : State) : Host.Outcome State Fault Refusal :=
  done (atomOp (Run.start s) (.atomAdd ag dw scope f) ag .add dw f)

/-- ATOM_MIN: relaxed (R60). -/
def execAtomMin (ag : Agent) (dw : Bool) (scope : BitVec 2) (f : R3) (s : State) : Host.Outcome State Fault Refusal :=
  done (atomOp (Run.start s) (.atomMin ag dw scope f) ag .min dw f)

/-- ATOM_MAX: relaxed (R60). -/
def execAtomMax (ag : Agent) (dw : Bool) (scope : BitVec 2) (f : R3) (s : State) : Host.Outcome State Fault Refusal :=
  done (atomOp (Run.start s) (.atomMax ag dw scope f) ag .max dw f)

/-- ATOM_AND: relaxed (R60). -/
def execAtomAnd (ag : Agent) (dw : Bool) (scope : BitVec 2) (f : R3) (s : State) : Host.Outcome State Fault Refusal :=
  done (atomOp (Run.start s) (.atomAnd ag dw scope f) ag .and dw f)

/-- ATOM_OR: relaxed (R60). -/
def execAtomOr (ag : Agent) (dw : Bool) (scope : BitVec 2) (f : R3) (s : State) : Host.Outcome State Fault Refusal :=
  done (atomOp (Run.start s) (.atomOr ag dw scope f) ag .or dw f)

/-- ATOM_XOR: relaxed (R60). -/
def execAtomXor (ag : Agent) (dw : Bool) (scope : BitVec 2) (f : R3) (s : State) : Host.Outcome State Fault Refusal :=
  done (atomOp (Run.start s) (.atomXor ag dw scope f) ag .xor dw f)

/-- ATOM_SWAP: relaxed (R60). -/
def execAtomSwap (ag : Agent) (dw : Bool) (scope : BitVec 2) (f : R3) (s : State) : Host.Outcome State Fault Refusal :=
  done (atomOp (Run.start s) (.atomSwap ag dw scope f) ag .swap dw f)

/-- ATOM_CAS: relaxed (R60). -/
def execAtomCas (ag : Agent) (dw : Bool) (scope : BitVec 2) (f : R3) (s : State) : Host.Outcome State Fault Refusal :=
  done (atomOp (Run.start s) (.atomCas ag dw scope f) ag .cas dw f)

/-- ATOM_AR_ADD: an acquire and a release (R60). -/
def execAtomArAdd (ag : Agent) (dw : Bool) (scope : BitVec 2) (f : R3) (s : State) : Host.Outcome State Fault Refusal :=
  done (atomOp (Run.start s) (.atomArAdd ag dw scope f) ag .add dw f)

/-- ATOM_AR_MIN: an acquire and a release (R60). -/
def execAtomArMin (ag : Agent) (dw : Bool) (scope : BitVec 2) (f : R3) (s : State) : Host.Outcome State Fault Refusal :=
  done (atomOp (Run.start s) (.atomArMin ag dw scope f) ag .min dw f)

/-- ATOM_AR_MAX: an acquire and a release (R60). -/
def execAtomArMax (ag : Agent) (dw : Bool) (scope : BitVec 2) (f : R3) (s : State) : Host.Outcome State Fault Refusal :=
  done (atomOp (Run.start s) (.atomArMax ag dw scope f) ag .max dw f)

/-- ATOM_AR_AND: an acquire and a release (R60). -/
def execAtomArAnd (ag : Agent) (dw : Bool) (scope : BitVec 2) (f : R3) (s : State) : Host.Outcome State Fault Refusal :=
  done (atomOp (Run.start s) (.atomArAnd ag dw scope f) ag .and dw f)

/-- ATOM_AR_OR: an acquire and a release (R60). -/
def execAtomArOr (ag : Agent) (dw : Bool) (scope : BitVec 2) (f : R3) (s : State) : Host.Outcome State Fault Refusal :=
  done (atomOp (Run.start s) (.atomArOr ag dw scope f) ag .or dw f)

/-- ATOM_AR_XOR: an acquire and a release (R60). -/
def execAtomArXor (ag : Agent) (dw : Bool) (scope : BitVec 2) (f : R3) (s : State) : Host.Outcome State Fault Refusal :=
  done (atomOp (Run.start s) (.atomArXor ag dw scope f) ag .xor dw f)

/-- ATOM_AR_SWAP: an acquire and a release (R60). -/
def execAtomArSwap (ag : Agent) (dw : Bool) (scope : BitVec 2) (f : R3) (s : State) : Host.Outcome State Fault Refusal :=
  done (atomOp (Run.start s) (.atomArSwap ag dw scope f) ag .swap dw f)

/-- ATOM_AR_CAS: an acquire and a release (R60). -/
def execAtomArCas (ag : Agent) (dw : Bool) (scope : BitVec 2) (f : R3) (s : State) : Host.Outcome State Fault Refusal :=
  done (atomOp (Run.start s) (.atomArCas ag dw scope f) ag .cas dw f)

end Sys2Proof.Machine
end

