-- ==== Sys2Proof/Machine/Message.lean ====
section
/-! DEFINITION. The messages of the Mehryen catalogue as their owners execute them (R320 to R329, R522). A message row takes the
message at the front of its owner's queue, when that message has the row's opcode and its owner runs. -/

namespace Sys2Proof.Machine

/-- Messages that wait in owners' queues. -/
def waitingMsgs (s : State) : List Msg := s.mhy.queues.flatMap (·.2)

/-- Whether an earlier request of a message's session waits unexecuted: requests of one session run in the order of their
acceptance (R322). -/
def notItsTurn (s : State) (m : Msg) : Bool :=
  m.opcode ≠ 1 &&
    ((s.mhy.execs.takeWhile fun e => !(e.session = m.session && e.seq = m.seq && e.opcode ≠ 1)).any fun e =>
      e.session = m.session && e.opcode ≠ 1 && (waitingMsgs s).any fun w => w.session = e.session && w.seq = e.seq && w.opcode ≠ 1)

/-- Whether an owner's queue is served now: its processor runs, or the boot ROM serves network recovery or the restart of a halted
security processor (R303, R321, R469). Unknown opcodes are answered while the device is awake. -/
def served (s : State) (q op : Nat) : Bool :=
  awake s && (s.sec.recovery || q = 5 || fwState s q = 0 || (op = 0x0504 && fwState s 4 = 2))

/-- The security processor is HALTED, and the boot ROM answers only restart requests (R303). -/
def romAnswers (s : State) (q : Nat) : Bool := q = 4 && !s.sec.recovery && fwState s 4 = 2

/-- The message of an owner's queue that is next: its oldest, or where the boot ROM answers the oldest restart request. -/
def nextMsg (s : State) (q : Nat) : Option Msg :=
  let l := SMap.get [] s.mhy.queues q
  if romAnswers s q then l.find? fun m => m.opcode = 0x0504 else l.head?

/-- The message that an owner's queue has next, when it can execute now and passes a test. A restart request that the boot ROM
answers waits for no other request (R303). -/
def frontMsg (s : State) (q : Nat) (test : Msg → Bool) : Option Msg :=
  match nextMsg s q with
  | some m => if test m && served s q m.opcode && (romAnswers s q || !notItsTurn s m) then some m else none
  | none => none

/-- Whether a reply of n octets fits its transport: in parts, or in one message (R323). -/
def replyFits (s : State) (x : Sess) (m : Msg) (n : Nat) : Bool := hasFeat x 7 || decide (32 + n ≤ maxMsg s m.peer)

/-- A 32-bit word of a payload. -/
def Msg.w (m : Msg) (i : Nat) : Nat := le m.payload (4 * i) 4

/-- A LEASE word whose fields occur (R324). -/
def leaseOk (w : Nat) : Bool :=
  bits w 31 30 ≠ 3 && bits w 29 20 = 0 && bits w 19 16 ≠ 0 && decide (10 ≤ bits w 15 0)

/-- The LEASE word in force for a session. -/
def leaseWord (s : State) (n : Nat) : Nat :=
  let c := (s.reg (sessReg n 0)).toNat
  bits c 29 28 * 2 ^ 30 + bits c 27 24 * 2 ^ 16 + bits c 15 0

namespace Run

variable {z : State}

/-- Set the lease of a session from a LEASE word. -/
def setLease (r : Run z) (n w : Nat) : Run z :=
  r.setRegN (sessReg n 0) (r.s.fld (sessReg n 0) 31 30 * 2 ^ 30 + bits w 31 30 * 2 ^ 28 + bits w 19 16 * 2 ^ 24 + bits w 15 0)

/-- Take the next message of an owner's queue. -/
def popMsg (r : Run z) (q : Nat) : Run z :=
  match nextMsg r.s q with
  | some m => r.setMhy { r.s.mhy with queues := SMap.set [] r.s.mhy.queues q ((SMap.get [] r.s.mhy.queues q).erase m) }
  | none => r

/-- Steps 8 and 9 of R320, then the operation. A request whose session is being released meanwhile is refused. -/
def serve (r : Run z) (q : Nat) (test : Msg → Bool) (len : Msg → Bool) (body : Sess → Msg → Run z → Run z) : Run z :=
  match frontMsg r.s q test with
  | none => r
  | some m =>
    let r := r.popMsg q
    let no (st : Nat) : Run z := r.mhyReply m.session m.seq st []
    match sess? r.s m.session with
    | none => r.mhyAnswer m.peer m.minor m.nocrc m.opcode m.session m.token m.seq stLeaseLost []
    | some x =>
      if x.releasing then no stLeaseLost
      else if !r.s.sec.recovery && !mayUse r.s x.peer.bind m.opcode then no stDenied
      else if !len m then no stBadLength
      else body x m r

/-- Reply to a request. -/
def reply (r : Run z) (m : Msg) (st : Nat) (payload : List Byte := []) : Run z := r.mhyReply m.session m.seq st payload

end Run

/-- Test for an opcode. -/
def isOp (op : Nat) (m : Msg) : Bool := m.opcode = op

/-- A payload of exactly n octets. -/
def lenIs (n : Nat) (m : Msg) : Bool := m.payload.length = n

/-! ## Sessions (R324, R325) -/

/-- Feature words that the device offers: words 0 and 1, or CORE and PARTS in network recovery (R324, R469). -/
def deviceFeats (s : State) : List Nat := if s.sec.recovery then [0x81] else [0xFF, 0x01]

/-- Sessions that are CLOSED. -/
def closedSess (s : State) : Option Nat := (List.range 4096).find? fun n => sessState s n = 0 && (sess? s n).isNone

/-- The status of a HELLO: the source's right first, then its length and its fields (R324, R476). -/
def helloStatus (s : State) (m : Msg) : Nat :=
  let nw := bits (m.w 1) 3 0
  if s.sec.switch.isSome || (s.sec.tenancy ≠ [] && !openAdmit s && (admission s m.peer.bind).isNone) then stDenied
  else if m.payload.length ≠ 24 then stBadLength
  else if m.session ≠ 0 || m.token ≠ 0 || !leaseOk (m.w 0) || bits (m.w 1) 31 4 ≠ 0 || nw = 0 || decide (nw > 8) ||
      (List.range 8).any (fun i => decide (nw ≤ i) && le m.payload (8 + 2 * i) 2 ≠ 0) || (closedSess s).isNone then stBounds
  else stOk

/-- A HELLO that has been taken from its queue: refused with its status, or the lowest CLOSED session opens with a fresh token,
the lease asked for and the features both sides offer, and ACCEPT is sent (R324), with a copy for each repeat of the HELLO received
meanwhile (R322). -/
def Run.helloTaken {z : State} (r : Run z) (m : Msg) : Run z :=
  let same (e : MExec) : Bool := e.opcode = 1 && e.seq = m.seq && e.peer.bind = m.peer.bind
  let repeats := match r.s.mhy.execs.find? same with | some e => e.repeats | none => 0
  let r := r.setMhy { r.s.mhy with execs := r.s.mhy.execs.filter fun e => !same e }
  let st := helloStatus r.s m
  let minor := min m.minor 2
  let answer (r : Run z) (n token : Nat) (payload : List Byte) : Run z :=
    let r := (r.badLength st).mhyAnswer m.peer minor m.nocrc 1 n token m.seq st payload
    r.each (List.range repeats) fun _ r => r.mhyAnswer m.peer minor m.nocrc 1 n token m.seq st payload true
  match closedSess r.s with
  | none => answer r m.session m.token []
  | some n =>
    if st ≠ stOk then answer r m.session m.token []
    else
      let (w, r) := r.draw
      let token := w.toNat % (2 ^ 32 - 1) + 1
      let feats := (List.range 8).map fun i =>
        (le m.payload (8 + 2 * i) 2 &&& (deviceFeats r.s).getD i 0) ||| (if i = 0 then 1 else 0)
      let r := r.setSess n { token := token, peer := m.peer, feats := feats, minor := minor, nocrc := m.nocrc }
      let r := ((r.setLease n (m.w 0)).setFld (sessReg n 0) 31 30 1).setReg64 (sessReg n 4) m.stamp
      let payload := leBytes 4 (leaseWord r.s n) ++ leBytes 4 8 ++ feats.flatMap (leBytes 2)
      answer r n token payload

/-- HELLO: opens the lowest CLOSED session for its source and replies ACCEPT, or refuses (R324). RENEW takes the HELLO's stamp. -/
def execHello (s : State) : Host.Outcome State Fault Refusal :=
  let r := Run.start s
  match frontMsg s 4 (isOp 1) with
  | none => done r
  | some m => done ((r.popMsg 4).helloTaken m)

/-- BYE: the release of the session begins, and its end sends the reply (R311, R325). -/
def execBye (s : State) : Host.Outcome State Fault Refusal :=
  done ((Run.start s).serve 0 (isOp 0x0003) (lenIs 0) fun _ m r => (r.beginRelease m.session (some m.seq)).settleSignals)

/-- HEARTBEAT: its acceptance has renewed the lease (R308, R325). -/
def execHeartbeat (s : State) : Host.Outcome State Fault Refusal :=
  done ((Run.start s).serve 0 (isOp 0x0004) (lenIs 0) fun _ m r => r.reply m stOk)

/-- LEASE_CFG: POLICY, MISSES and HBMS, and the lease in force as the reply (R325). -/
def execLeaseCfg (s : State) : Host.Outcome State Fault Refusal :=
  done ((Run.start s).serve 0 (isOp 0x0005) (lenIs 4) fun _ m r =>
    if !leaseOk (m.w 0) then r.reply m stBounds
    else
      let r := r.setLease m.session (m.w 0)
      r.reply m stOk (leBytes 4 (leaseWord r.s m.session)))

/-! ## Work (R276, R280, R290, R325 to R327) -/

/-- SUBMIT's LENGTH: 8 + 64 N. -/
def submitLen (m : Msg) : Bool := decide (8 ≤ m.payload.length) && m.payload.length = 8 + 64 * bits (m.w 0) 7 0

/-- Addresses of the slots that a SUBMIT of n descriptors fills. -/
def submitSlots (s : State) (card n : Nat) : List Nat :=
  let tail := bits (cardW s card 10) 15 0
  (List.range n).map fun i => cardAddr s card 4 + 64 * ((tail + i) % 65536 % 2 ^ bits (cardW s card 8) 3 0)

/-- The status of a SUBMIT before it writes (R326). -/
def submitStatus (s : State) (m : Msg) : Nat :=
  let card := bits (m.w 0) 29 16
  let n := bits (m.w 0) 7 0
  let head := bits (cardW s card 9) 15 0
  let tail := bits (cardW s card 10) 15 0
  if bits (m.w 0) 31 30 ≠ 0 || bits (m.w 0) 15 8 ≠ 0 || m.w 1 ≠ 0 then stBounds
  else if !(cardKind s card = 1 && cardEn s card) then stBounds
  else if ctxSession s (cardCtx s card) ≠ m.session then stDenied
  else if (tail + n + 65536 - head) % 65536 > 2 ^ bits (cardW s card 8) 3 0 then stBounds
  else if !(submitSlots s card n).all fun va => mapped s (ctxX s (cardCtx s card)) .store va 64 then stBounds
  else stOk

/-- SUBMIT: writes its descriptors into the queue's ring and acts as its doorbell (R326, R522). -/
def execSubmit (s : State) : Host.Outcome State Fault Refusal :=
  done ((Run.start s).serve 0 (isOp 0x0100) submitLen fun _ m r =>
    let st := submitStatus r.s m
    if st ≠ stOk then r.reply m st
    else
      let card := bits (m.w 0) 29 16
      let n := bits (m.w 0) 7 0
      let first := bits (cardW r.s card 10) 15 0
      let c := ctxX r.s (cardCtx r.s card)
      let r := r.each ((List.range n).zip (submitSlots r.s card n)) fun iv r =>
        match r.writeVirtBytes c iv.2 (slice m.payload (8 + 64 * iv.1) 64) with
        | .ok r => r
        | .error _ => r
      let tail := (first + n) % 65536
      let r := r.when (n ≠ 0) fun r => r.setHw card 10 tail
      r.reply m stOk (leBytes 4 (tail * 2 ^ 16 + first)))

/-- CARD_SYNC: asks for the take-up of a card; the take-up sends the reply (R276, R325). -/
def execCardSync (s : State) : Host.Outcome State Fault Refusal :=
  done ((Run.start s).serve 0 (isOp 0x0101) (lenIs 4) fun _ m r =>
    if bits (m.w 0) 31 14 ≠ 0 then r.reply m stBounds else r.cardSync (bits (m.w 0) 13 0) (some (m.session, m.seq)))

/-- DOORBELL: as a write of SCHED_DB at the message's stamp; an ignored one replies BOUNDS (R321, R325). -/
def execDoorbell (s : State) : Host.Outcome State Fault Refusal :=
  done ((Run.start s).serve 0 (isOp 0x0102) (lenIs 4) fun _ m r =>
    if bit (m.w 0) 31 then r.reply m stBounds
    else
      let ok := bellOk r.s (m.w 0) m.stamp
      (r.doorbell (m.w 0) m.stamp).reply m (if ok then stOk else stBounds))

/-- Allocate n tallies for a context and a request. -/
def Run.allocTallies {z : State} (r : Run z) (ctx : Nat) (by_ : Nat × Nat) : Nat → Run z × List Nat
  | 0 => (r, [])
  | n + 1 =>
    match r.allocTally ctx with
    | (none, r) => (r, [])
    | (some i, r) =>
      let r := r.setTally i { r.s.tally i with by_ := some by_ }
      let (r, is) := r.allocTallies ctx by_ n
      (r, i :: is)

/-- TALLY_ALLOC: all or none, the handles in increasing INDEX (R290, R325). -/
def execTallyAlloc (s : State) : Host.Outcome State Fault Refusal :=
  done ((Run.start s).serve 0 (isOp 0x0103) (lenIs 4) fun x m r =>
    let n := bits (m.w 0) 7 0
    if bits (m.w 0) 31 28 ≠ 0 || bits (m.w 0) 15 8 ≠ 0 || decide (n > 64) || !replyFits r.s x m (4 * n) then r.reply m stBounds
    else if (r.s.tallies.filter fun t => t.2.allocated).length + n > 16384 then r.reply m stTallyExhausted
    else
      let (r, is) := r.allocTallies (bits (m.w 0) 27 16) (m.session, m.seq) n
      let sorted := (List.range 16384).filter fun i => is.contains i
      r.reply m stOk (sorted.flatMap fun i => leBytes 4 (tallyHandle r.s i)))

/-- The handles of a TALLY_FREE. -/
def freeHandles (m : Msg) : List Nat := (List.range (m.payload.length / 4)).map m.w

/-- TALLY_FREE: frees every handle, or none when one names no allocated tally or is named twice (R325). -/
def execTallyFree (s : State) : Host.Outcome State Fault Refusal :=
  done ((Run.start s).serve 0 (isOp 0x0104) (fun m => m.payload.length % 4 = 0 && decide (m.payload.length ≤ 256)) fun _ m r =>
    let hs := freeHandles m
    if hs.any (fun h => (tallyOf r.s h).isNone) || hs.eraseDups.length ≠ hs.length then r.reply m stBounds
    else ((r.each hs fun h r => r.writeTallyFree h).reply m stOk).settleSignals)

/-- A TALLY_OP message with an OP. -/
def isTallyOp (ops : List Nat) (m : Msg) : Bool := m.opcode = 0x0105 && ops.contains (bits (m.w 0) 1 0)

/-- A TALLY_OP at the home: the value before it, or BOUNDS (R109, R325). -/
def Run.tallyMsg {z : State} (r : Run z) (ops : List Nat) (act : Run z → Nat → W32 → Run z) : Run z :=
  r.serve 0 (isTallyOp ops) (lenIs 12) fun _ m r =>
    if bits (m.w 0) 31 2 ≠ 0 || bits (m.w 0) 1 0 = 3 then r.reply m stBounds
    else match tallyOf r.s (m.w 1) with
      | none => r.reply m stBounds
      | some i =>
        let old := (r.s.tally i).value.toNat
        ((act r i (BitVec.ofNat 32 (m.w 2))).reply m stOk (leBytes 4 old)).settleSignals

/-- TALLY_OP with OP 0: TSIG at system scope (R325). -/
def execTallyOpTsig (s : State) : Host.Outcome State Fault Refusal :=
  done ((Run.start s).tallyMsg [0] fun r i v => r.tsigAt i v)

/-- TALLY_OP with OP 1: TADD at system scope (R325). -/
def execTallyOpTadd (s : State) : Host.Outcome State Fault Refusal :=
  done ((Run.start s).tallyMsg [1] fun r i v => r.taddAt i v)

/-- TALLY_OP with OP 2: TREAD at system scope; an OP of 3 does not occur (R325). -/
def execTallyOpTread (s : State) : Host.Outcome State Fault Refusal :=
  done ((Run.start s).tallyMsg [2, 3] fun r _ _ => r)

/-- TALLY_WATCH: ends at once under R111, or is held at the home (R327). Its stamp is what a deadline is compared with, so that one
held during a restart ends as without the restart (R301, R321). -/
def execTallyWatch (s : State) : Host.Outcome State Fault Refusal :=
  done ((Run.start s).serve 0 (isOp 0x0106) (lenIs 16) fun _ m r =>
    match tallyOf r.s (m.w 0) with
    | none => r.reply m stBounds
    | some i =>
      let deadline := m.w 2 + 2 ^ 32 * m.w 3
      if (r.s.mhy.watches.filter fun w => w.session = m.session).length ≥ 64 then r.reply m stBounds
      else if m.w 1 ≤ (r.s.tally i).value.toNat then r.reply m stOk
      else if m.stamp > deadline then r.reply m stTimeout
      else r.setMhy { r.s.mhy with watches := r.s.mhy.watches ++ [⟨m.session, m.seq, i, m.w 1, deadline⟩] })

/-- TALLY_WATCH_TIMEOUT: fabric time has passed the deadline of a watch that no signal met (R110, R327). -/
def execTallyWatchTimeout (session seq : Nat) (s : State) : Host.Outcome State Fault Refusal :=
  let r := Run.start s
  match s.mhy.watches.find? fun w => w.session = session && w.seq = seq with
  | none => done r
  | some w =>
    if s.timeAt (tbHome w.tally) ≤ w.deadline then done r
    else
      let r := r.setMhy { s.mhy with
        watches := s.mhy.watches.filter fun v => !(v.session = session && v.seq = seq)
        owed := s.mhy.owed ++ [Owed.reply session seq stTimeout] }
      done r.mhyFlush

/-! ## Memory (R328) -/

/-- The context, length and address of a READ or WRITE. -/
def memCtx (m : Msg) : Nat := bits (m.w 0) 27 16
def memLen (m : Msg) : Nat := bits (m.w 0) 15 0
def memAddr (m : Msg) : Nat := m.w 1 + 2 ^ 32 * m.w 2

/-- RSV bits of a READ or WRITE. -/
def memRsv (m : Msg) : Bool := bits (m.w 0) 31 28 ≠ 0 || bits (m.w 2) 31 16 ≠ 0

/-- The status of a READ before anything moves (R328). -/
def readStatus (s : State) (x : Sess) (m : Msg) : Nat :=
  let c := ctxX s (memCtx m)
  if memRsv m then stBounds
  else if ctxSession s (memCtx m) ≠ m.session then stDenied
  else if memLen m > (if hasFeat x 7 then 16384 else maxMsg s m.peer - 32) then stBounds
  else if !mapped s c .load (memAddr m) (memLen m) then stBounds
  else if (List.range (memLen m)).any fun i => (uePa s c .load (memAddr m + i)).isSome then stUncorrectable
  else stOk

/-- READ: LEN octets under a context (R328). -/
def execRead (s : State) : Host.Outcome State Fault Refusal :=
  done ((Run.start s).serve 1 (isOp 0x0200) (lenIs 12) fun x m r =>
    let st := readStatus r.s x m
    let c := ctxX r.s (memCtx m)
    if st = stUncorrectable then (r.noteUe c (memAddr m) (memLen m)).reply m st
    else if st ≠ stOk then r.reply m st
    else
      match r.readIn c (memAddr m) (memLen m) with
      | (.ok v, r) => r.reply m stOk (leBytes (memLen m) v)
      | (.error _, r) => r.reply m stBounds)

/-- WRITE's LENGTH: 12 + LEN. -/
def writeLen (m : Msg) : Bool := decide (12 ≤ m.payload.length) && m.payload.length = 12 + memLen m

/-- WRITE: LEN octets under a context, or into the staging region in network recovery (R328, R469). -/
def execWrite (s : State) : Host.Outcome State Fault Refusal :=
  done ((Run.start s).serve 1 (isOp 0x0201) writeLen fun _ m r =>
    let bs := m.payload.drop 12
    if memRsv m then r.reply m stBounds
    else if r.s.sec.recovery then
      (if memAddr m + memLen m > 0x200000 then r.reply m stBounds
        else (r.storePhys (((List.range (memLen m)).map fun i => memAddr m + i).zip bs)).reply m stOk)
    else
      let c := ctxX r.s (memCtx m)
      if ctxSession r.s (memCtx m) ≠ m.session then r.reply m stDenied
      else if !mapped r.s c .store (memAddr m) (memLen m) then r.reply m stBounds
      else match r.writeVirtBytes c (memAddr m) bs with
        | .ok r => r.reply m stOk
        | .error _ => r.reply m stBounds)

/-! ## Observation (R325, R485, R491) -/

/-- SNAPSHOT: arms a snapshot at T; its number is the reply (R485). -/
def execSnapshot (s : State) : Host.Outcome State Fault Refusal :=
  done ((Run.start s).serve 0 (isOp 0x0300) (lenIs 8) fun _ m r =>
    let (st, n, r) := r.snapArm (m.w 0 + 2 ^ 32 * m.w 1) m.stamp
    r.reply m st (if st = stOk then leBytes 4 n else []))

/-- The register that an address word names. -/
def addrKey (w : Nat) : Nat := bits w 27 0

/-- REG_READ: COUNT registers in increasing offset, with the latching of R9 (R325, R477). -/
def execRegRead (s : State) : Host.Outcome State Fault Refusal :=
  done ((Run.start s).serve 0 (isOp 0x0301) (lenIs 8) fun x m r =>
    let n := m.w 1
    let k := addrKey (m.w 0)
    if bits (m.w 0) 31 28 ≠ 0 || k % 4 ≠ 0 || decide (n > 256) || decide (k % 2 ^ 20 + 4 * n > 2 ^ 20) ||
        !replyFits r.s x m (4 * n) then r.reply m stBounds
    else
      let ks := (List.range n).map fun i => k + 4 * i
      if !reaches r.s none k false || ks.any (fun k => !reaches r.s none k false) then r.reply m stDenied
      else
        let (bs, r) := ks.foldl (fun (p : List Byte × Run s) k =>
          let (v, r) := p.2.regRead none k
          (p.1 ++ leBytes 4 v, r)) (([] : List Byte), r)
        r.reply m stOk bs)

/-- REG_WRITE: N registers in order, or none (R325, R477). -/
def execRegWrite (s : State) : Host.Outcome State Fault Refusal :=
  done ((Run.start s).serve 0 (isOp 0x0302)
    (fun m => m.payload.length % 8 = 0 && decide (m.payload.length ≤ 1024)) fun _ m r =>
    let ps := (List.range (m.payload.length / 8)).map fun i => (m.w (2 * i), m.w (2 * i + 1))
    if ps.any fun p => bits p.1 31 28 ≠ 0 || p.1 % 4 ≠ 0 then r.reply m stBounds
    else if ps.any fun p => !reaches r.s none (addrKey p.1) true then r.reply m stDenied
    else
      let r := r.each ps fun p r => r.regWrite none (addrKey p.1) p.2
      (r.reply m stOk).settleSignals)

/-- Records of a processor's log from a SEQ on, at most a number (R491). -/
def logRecords (s : State) (p first n : Nat) : List Byte :=
  let next := SMap.get 0 s.fw.logSeq p
  let oldest := max (SMap.get 0 s.fw.logBase p) (next - 1024)
  let from_ := max first oldest
  (List.range (min n (next - from_))).flatMap fun i => s.bytes (sramBase p + 0x38000 + 32 * ((from_ + i) % 1024)) 32

/-- LOG_READ: records of a processor's log (R491). -/
def execLogRead (s : State) : Host.Outcome State Fault Refusal :=
  done ((Run.start s).serve 0 (isOp 0x0303) (lenIs 12) fun x m r =>
    let p := bits (m.w 0) 2 0
    if bits (m.w 0) 31 3 ≠ 0 || decide (p > 4) || decide (m.w 2 > 40) then r.reply m stBounds
    else if fwState r.s p ≠ 0 then r.reply m stInternal
    else
      let bs := logRecords r.s p (m.w 1) (m.w 2)
      if !replyFits r.s x m bs.length then r.reply m stBounds else r.reply m stOk bs)

/-! ## Power and pace (R329, R428, R443) -/

/-- POWER_STATE: requests a power state; the request's end sends the reply (R428). -/
def execPowerState (s : State) : Host.Outcome State Fault Refusal :=
  done ((Run.start s).serve 3 (isOp 0x0400) (lenIs 4) fun _ m r =>
    if m.w 0 > 4 then r.reply m stBounds else r.requestState (m.w 0) (some (m.session, m.seq)))

/-- POWER_CAP: as a write of PWR_CAP; the cap held is the reply (R443). -/
def execPowerCap (s : State) : Host.Outcome State Fault Refusal :=
  done ((Run.start s).serve 3 (isOp 0x0401) (lenIs 4) fun _ m r =>
    if decide (m.w 0 < 20) || decide (m.w 0 > 120) then r.reply m stBounds
    else
      let (st, r) := r.writeCap (m.w 0)
      r.reply m st (leBytes 4 (r.s.fld (pwrReg 0x300) 7 0)))

/-- The job that a PACE_BIND spells. -/
def paceJob (m : Msg) : Job := {
  job := bits (m.w 0) 31 16, n := bits (m.w 0) 11 8 + 1, self_ := bits (m.w 0) 2 0, arrive := m.w 1
  peerTally := (List.range 8).map fun i => m.w (2 + i), peerSess := (List.range 8).map fun i => le m.payload (0x28 + 2 * i) 2 }

/-- Whether the fields of a PACE_BIND occur (R329). -/
def paceOk (m : Msg) : Bool :=
  let j := paceJob m
  bits (m.w 0) 15 12 = 0 && bits (m.w 0) 7 3 = 0 && decide (2 ≤ j.n) && decide (j.n ≤ 8) && decide (j.self_ < j.n) &&
    (List.range 8).all fun i =>
      decide (j.peerSess.getD i 0 < 4096) &&
        ((decide (i < j.n) && i ≠ j.self_) || (j.peerTally.getD i 0 = 0 && j.peerSess.getD i 0 = 0))

/-- PACE_BIND: binds a job, at most 16, and at most two packages in fixed-frequency mode (R329, R445). A bind of a bound JOB takes
the place of the old one. -/
def execPaceBind (s : State) : Host.Outcome State Fault Refusal :=
  done ((Run.start s).serve 0 (isOp 0x0410) (lenIs 56) fun _ m r =>
    let j := paceJob m
    let rest := r.s.mhy.jobs.filter fun i => i.job ≠ j.job
    if !paceOk m || decide (rest.length ≥ 16) then r.reply m stBounds
    else if r.s.fld (pwrReg 0x304) 31 31 = 1 && decide (j.n > 2) then r.reply m stPwrBadState
    else
      let now := match tallyOf r.s j.arrive with
        | some i => (r.s.tally i).value.toNat
        | none => 0
      (r.setMhy { r.s.mhy with jobs := rest ++ [{ j with epoch := now }] }).reply m stOk)

/-- PACE: TSIG of EPOCH at system scope on the tally of the package it comes from (R329). -/
def execPace (s : State) : Host.Outcome State Fault Refusal :=
  done ((Run.start s).serve 0 (isOp 0x0411) (lenIs 8) fun _ m r =>
    let from_ := bits (m.w 0) 2 0
    match r.s.mhy.jobs.find? fun j => j.job = bits (m.w 0) 31 16 with
    | none => r.reply m stBounds
    | some j =>
      if bits (m.w 0) 15 3 ≠ 0 || from_ = j.self_ || decide (from_ ≥ j.n) then r.reply m stBounds
      else
        let r := match tallyOf r.s (j.peerTally.getD from_ 0) with
          | some i => r.tsigAt i (BitVec.ofNat 32 (m.w 1))
          | none => r
        (r.reply m stOk).settleSignals)

/-! ## Security (R305, R474, R475, R480) -/

/-- PROPOSE: the first signature of a change (R474). -/
def execPropose (s : State) : Host.Outcome State Fault Refusal :=
  done ((Run.start s).serve 4 (isOp 0x0500) (fun _ => true) fun _ m r =>
    let (st, r) := r.propose m.payload m.stamp
    r.reply m st)

/-- COUNTERSIGN: the second signature, which applies the change (R475). It waits while a power state is entered. -/
def execCountersign (s : State) : Host.Outcome State Fault Refusal :=
  if s.power.entering.isSome then done (Run.start s)
  else done ((Run.start s).serve 4 (isOp 0x0501) (fun _ => true) fun _ m r => (r.countersign m).settleSignals)

/-- ATTEST: a fresh attestation certificate for the session and a nonce (R480). -/
def execAttest (s : State) : Host.Outcome State Fault Refusal :=
  done ((Run.start s).serve 4 (isOp 0x0502) (lenIs 32) fun x m r =>
    let cert := attestation r.s m.session m.payload
    if !replyFits r.s x m cert.length then r.reply m stBounds
    else (r.setSec { r.s.sec with issued := r.s.sec.issued + 1 }).reply m stOk cert)

/-- FW_UPDATE: the checks of a staged image; the end of the update sends the reply (R305). In network recovery the image lies in the
staging region (R469). -/
def execFwUpdate (s : State) : Host.Outcome State Fault Refusal :=
  done ((Run.start s).serve 4 (isOp 0x0503) (lenIs 16) fun _ m r =>
    let addr := m.w 1 + 2 ^ 32 * m.w 2
    let len := m.w 3
    if bits (m.w 0) 31 28 ≠ 0 || bits (m.w 0) 15 0 ≠ 0 || bits (m.w 2) 31 16 ≠ 0 then r.reply m stBounds
    else if r.s.sec.recovery then
      (if addr + len > 0x200000 then r.reply m stBounds else r.fwUpdate none addr len m.session m.seq)
    else if ctxSession r.s (memCtx m) ≠ m.session then r.reply m stDenied
    else r.fwUpdate (some (memCtx m)) addr len m.session m.seq)

/-- MESSAGE_UNKNOWN_OPCODE: an opcode that is unknown, not negotiated or not executed in network recovery gives FEATURE (R320, R325,
R469). -/
def execMessageUnknownOpcode (s : State) : Host.Outcome State Fault Refusal :=
  let r := Run.start s
  match frontMsg s 5 (fun _ => true) with
  | none => done r
  | some m => done ((r.popMsg 5).reply m stFeature)

end Sys2Proof.Machine
end

