-- ==== Sys2Proof/Machine/Boot.lean ====
section
/-! DEFINITION. Reset and boot: PORST_N (R509), the boot steps (R468), the Accession Record (R454), repair at boot (R457), network
recovery (R469), and the restarts that a message asks for (R325). A boot is one command; what its environment decides is its
operand. -/

namespace Sys2Proof.Machine

/-- Memory that keeps its contents through PORST_N: the boot ROM and the flashes (R36). -/
def nonvolatile (a : Nat) : Bool := readOnly a

/-- What the protection store holds (R471); nothing when neither half verifies (R472). -/
def storeOf (s : State) (env : BootEnv) : Sec :=
  let x := s.sec
  let debug := x.debug || (match x.switch with | some w => w.unlock | none => false)
  if env.storeOk then {
    enrolled := x.enrolled, ownerKey := x.ownerKey, operatorKey := x.operatorKey, ctr := x.ctr, gen := x.gen, stored := x.stored
    baseRegs := x.baseRegs, baseEth := x.baseEth, policy := x.policy, linkKey := x.linkKey, mwins := x.mwins, debug := debug
    svn := x.svn, env := env }
  else { env := env }

/-- The device as a reset leaves it: every register at its reset value, memory but the ROM and flashes at zero, and what the
protection store holds, with the errors that the memories show. A boot flash whose write was broken off holds no image (R307).
Where the boot is no reset by PORST_N, the island keeps its mute path and the archive's count of rows (R356, R361). -/
def bootBase (s : State) (env : BootEnv) (now : Nat) (island : Bool := false) : State :=
  let broken := match s.fw.update with
    | some u => if u.written then 0 else u.len
    | none => 0
  { pending := s.pending, now := now, free := s.free
    mem := s.mem.filter fun c => (nonvolatile c.1 && !(decide (flashBase ≤ c.1) && decide (c.1 < flashBase + broken))) ||
      (island && decide (archBase ≤ c.1) && decide (c.1 < archBase + 524288))
    aud := if island then { led := s.aud.led, fast := s.aud.fast, rowStart := s.aud.rowStart, rowSeq := s.aud.rowSeq
                            rowState := s.aud.rowState, prev := s.aud.prev, cut := true }
      else { led := env.muted }
    lad := if island then { tseq := s.lad.tseq, lostBefore := s.lad.lostBefore } else {}
    fw := { flashBad := s.fw.flashBad, parity := env.parity.foldl (fun m w =>
      if w.1 < 5 && w.2 < 0x8000 then SMap.insert m (sramBase w.1 / 8 + w.2) 1 else m) [] }
    vault := {
      stackUe := (env.stackBad.filter (· < 2 ^ 21)).foldl (fun m w => SMap.insert m (0x010000000000 / 8 + w) 1) []
      weak := (env.weak.filter (· < 2 ^ 30)).foldl (fun m w => SMap.insert m w 1) [] }
    sec := storeOf s env, fix := { boots := s.fix.boots + 1 } }

/-! ## The Accession Record (R454) -/

/-- A range of the record is 0. -/
def accZero (s : State) (off n : Nat) : Bool := (s.bytes (accBase + off) n).all (· = 0)

/-- A word of the record. -/
def accW (s : State) (off : Nat) : Nat := s.load (accBase + off) 4

/-- The check of R454: MAGIC and FORMAT, every count and length, every RSV field, and the signature. -/
def accessionOk (s : State) : Bool :=
  let ncol := accW s 0x200
  let nrow := accW s 0x1000
  let cert := accW s 0x8000
  let sig := accW s 0xF000
  accW s 0 = 0x4A584152 && accW s 4 = 1 && bits (accW s 0x18) 31 16 = 0 && bits (accW s 0x18) 7 2 = 0 &&
  bits (accW s 0x1C) 31 8 = 0 && decide (4 ≤ accW s 0x1C) && decide (accW s 0x1C ≤ 16) &&
  accZero s 0xC8 0x38 && accZero s 0x1C8 0x38 && decide (ncol ≤ 895) && decide (nrow ≤ 4095) &&
  ((List.range ncol).all fun i => bits (accW s (0x204 + 4 * i)) 7 2 = 0) &&
  ((List.range nrow).all fun i => bits (accW s (0x1004 + 4 * i)) 15 13 = 0) &&
  accW s 0x7000 = 0x4A584247 && accW s 0x7004 = 1793 && decide (1 ≤ cert) && decide (cert ≤ 14332) && accZero s 0xB800 0x3800 &&
  decide (1 ≤ sig) && decide (sig ≤ 1536) && accZero s 0xF004 12 && accZero s 0xF610 0x9F0 &&
  signedBy Config.stopirumKey (s.bytes accBase 0xF000) (s.bytes (accBase + 0xF010) sig)

/-- Physical core that a byte of CMAP names, and a core's bit of DEFECT. -/
def accCmap (s : State) (l : Nat) : Nat := s.load (accBase + 0x100 + l) 1
def accDefect (s : State) (c : Nat) : Bool := bit (s.load (accBase + 0x1B0 + c / 8) 1) (c % 8)

/-! ## Repair at boot (R457, R465) -/

/-- The record that a half begins with, when it is an OPEN record that verifies: its generation (R465). -/
def ledgerGen (s : State) (half : Nat) : Option Nat :=
  match ledgerRead s half 0 with
  | some x => if x.kind = 0 then some x.arg0 else none
  | none => none

/-- The active half of the ledger; the first one when neither verifies. Of two that verify it is the one of the higher generation,
unless its compaction was cut off before SUMMARY_END (R465, R466). -/
def ledgerActive (s : State) : Nat :=
  match ledgerGen s 0, ledgerGen s 1 with
  | some a, some b =>
    let hi := if b > a then 1 else 0
    if (ledgerReplay s hi 24576 0).any fun x => x.kind = 8 then hi else 1 - hi
  | none, some _ => 1
  | _, none => 0

/-- Whether the replay of n records stopped before erased flash. -/
def ledgerStopped (s : State) (half n : Nat) : Bool :=
  decide (n < 24576) && !(s.bytes (ledgerAt half n) 64).all (· = 0xFF)

/-- The last record of a list that concerns a core: kind and cores as *Ledger record kinds* gives them. -/
def lastRecord (xs : List LedgerRec) (c : Nat) : Option LedgerRec :=
  xs.reverse.find? fun x => match x.kind with
    | 1 => bits x.arg0 7 0 = c
    | 2 => x.arg0 = c
    | 3 => x.arg0 = c
    | 5 => Config.macroCore (bits x.arg0 31 20) = some c
    | _ => false

namespace Run

variable {z : State}

/-- A number's place in the core map at boot: the core that backs it, or none. -/
def bootMap (r : Run z) (l : Nat) (c : Option Nat) : Run z :=
  match c with
  | some c =>
    let r := (r.setFld (coreReg c 0) 31 24 l).setCoreState c 0 l
    let r := r.setRegN (fixMapReg l) (2 ^ 31 + b2n (homeCluster l ≠ c / 12) * 2 ^ 30 + c)
    r.setFix { r.s.fix with unbacked := r.s.fix.unbacked.filter fun u => u.1 ≠ l }
  | none =>
    let r := r.setRegN (fixMapReg l) 0xFF
    r.setFix { r.s.fix with unbacked := (r.s.fix.unbacked.filter fun u => u.1 ≠ l) ++ [(l, r.s.now)] }

/-- A ledger record is applied: a FENCE moves its number, a RETIRE retires, a REINSTATE makes a core SPARE (step 6). -/
def replay (r : Run z) (x : LedgerRec) : Run z :=
  match x.kind with
  | 1 =>
    let c := bits x.arg0 7 0
    let l := bits x.arg0 15 8
    let r := if c < 192 then
        ((r.setFld (coreReg c 0) 31 24 0xFF).setCoreState c 4 0xFF).setFld (fixCoreReg c) 15 8 (bits x.arg0 23 16)
      else r
    if l ≥ 176 then r else r.bootMap l (if bits x.arg1 7 0 < 192 then some (bits x.arg1 7 0) else none)
  | 2 => if x.arg0 < 192 then r.setCoreState x.arg0 5 0xFF else r
  | 3 => if x.arg0 < 192 then r.setCoreState x.arg0 1 0xFF else r
  | _ => r

/-- Row repairs take spare rows of their banks (step 5). -/
def loadRow (r : Run z) (rec_ : Nat) : Run z :=
  let bank := bits rec_ 31 28 * 64 + bits rec_ 27 22
  r.put (.vault { r.s.vault with
    spares := SMap.insert r.s.vault.spares bank (max (SMap.get 0 r.s.vault.spares bank) (bits rec_ 21 16 + 1)) })

/-- A FENCED core's full BIST at boot (step 8, R464). -/
def bootBist (r : Run z) (env : BootEnv) (last : Option LedgerRec) (c : Nat) : Run z :=
  let column : Bool := match last with | some x => x.kind = 5 | none => false
  if !env.failing.contains c then
    (if column then (r.owe 3 c).toSpare c
      else if r.s.fld (fixReg 4) 0 0 = 1 then
        r.setFix { r.s.fix with passed := SMap.insert r.s.fix.passed c r.s.now }
      else r.retire c)
  else match env.columns.find? fun p => p.1 = c with
    | some p => r.owe 5 p.2
    | none => r.retire c

/-- Steps 3 to 9 of R457. -/
def bootRepair (r : Run z) (env : BootEnv) : Run z :=
  let s := r.s
  let half := ledgerActive s
  let xs := ledgerReplay s half 24576 0
  let bad := ledgerStopped s half xs.length
  let r := r.setFix { s.fix with
    half := half, seq := xs.length, gen := (ledgerGen s half).getD 0, rows := (xs.filter fun x => x.kind = 4).length }
  let r := r.setRegN (fixReg 4) s.sec.policy
  let r := r.each (List.range (accW s 0x1000)) fun i r => r.loadRow (accW s (0x1004 + 4 * i))
  let r := r.each (xs.filter fun x => x.kind = 4) fun x r => r.loadRow x.arg0
  let r := r.each (List.range 192) fun c r => r.setCoreState c (if accDefect s c then 5 else 1) 0xFF
  let r := r.each (List.range 176) fun l r => r.bootMap l (some (accCmap s l))
  let r := r.each xs fun x r => r.replay x
  let r := r.setFld (fixReg 0) 30 30 (b2n bad)
  let r := r.when bad fun r => (r.errEvent 5).ledgerCompact
  let r := r.fixCounts
  let live := (List.range 192).filter fun c => fixState r.s c = 0
  let spare := (List.range 192).filter fun c => fixState r.s c = 1
  let fenced := (List.range 192).filter fun c => fixState r.s c = 4
  let r := r.each (spare.filter env.failing.contains) fun c r => r.retire c
  let r := r.fenceAll (live.filter env.failing.contains) 2
  let r := r.each fenced fun c r => r.bootBist env (lastRecord xs c) c
  let again := ((xs.filter fun x => x.kind = 3).map (·.arg0)).eraseDups
  let r := r.each again fun c r => if c < 192 && fixState r.s c = 1 then r.offerCore c else r
  r.setRegN (topReg 0x008) (bits (accW s 0x18) 15 8 * 2 ^ 8 + bits (accW s 0x18) 1 0)

end Run

/-! ## Firmware at boot -/

/-- The image of the boot flash passes the checks of R305 with the floors of the protection store (step 7). -/
def bootImageOk (s : State) : Bool :=
  !s.fw.flashBad && !imgBad s flashBase && imgSigned s flashBase && (compOf s flashBase 4).isSome &&
    (imgComps s flashBase).all fun c => compOk s flashBase c && decide (SMap.get 0 s.sec.svn (c.id - 0x10) ≤ c.svn)

namespace Run

variable {z : State}

/-- Network recovery: the boot ROM enables ports 0 and 1 and serves its opcodes (R469). -/
def recover (r : Run z) : Run z :=
  let r := r.setSec { r.s.sec with recovery := true }
  r.each [0, 1] fun n r => r.setFld (portReg n 0) 31 31 1

/-- Boot stops: no processor is released (R468). -/
def bootStop (r : Run z) : Run z := r.put (.sec { r.s.sec with stopped := true })

/-- A processor is loaded from the boot flash and released, when the image holds its component (steps 8 and 10). -/
def bootLoad (r : Run z) (p : Nat) : Run z :=
  match compOf r.s flashBase p with
  | some c => (r.fwLoad flashBase p c).fwRelease p
  | none => r

/-- HOST starts at the fastest point whose table voltage does not exceed the regulator's reading, or at point 3 (R513). -/
def bootHost (r : Run z) (env : BootEnv) : Run z :=
  let p := match env.vout with
    | some mv => ((List.range 4).find? fun p => decide (vtabMv r.s 16 p ≤ mv)).getD 3
    | none => 3
  let r := r.setRegN (pwrReg 0x704) (match env.vout with | some mv => 2 ^ 31 + mv % 2 ^ 12 | none => 0)
  let r := r.each (List.range 16) fun c r => r.setFld (dvfsReg c) 11 0 (vtabMv r.s c 1)
  let k := dvfsReg 16
  let r := (((r.setFld k 21 20 p).setFld k 17 16 p).setFld k 13 12 p).setFld k 11 0 (vtabMv r.s 16 p)
  r.setRegN (regKey 2 (0x100 + 4 * 16)) p

/-- A Monitor-mode window: BASE, the logarithm of its size, and whether stores are allowed beside loads (R296). -/
def mwinWord (base sz : Nat) (store : Bool) : Nat := 2 ^ 63 + b2n store * 2 ^ 57 + 2 ^ 56 + base + sz

/-- A run of block windows of the control register space, 2^n of them. -/
def mwinBlocks (w n : Nat) : Nat := mwinWord (0x018000000000 + w * 0x100000) (20 + n) true

/-- The windows that the security processor writes for each processor where the protection store holds none (R294, R297): vault
DRAM, the Stacks, the block windows and the memories of the table. The eight registers of the scheduler cannot also hold its per-core
windows, which `fwMonOk` gives it beside them; a window is at least 4 KiB, and some windows take in unmapped addresses as well
(DESIGN CHOICE, log 134). -/
def mwinTable : Nat → List Nat
  | 0 => [mwinWord 0 35 true, mwinWord 0x010000000000 24 true, mwinWord 0x018000300000 12 false, mwinBlocks 0 1, mwinBlocks 2 0,
      mwinBlocks 5 0, mwinBlocks 6 1, mwinBlocks 8 3]
  | 1 => [mwinWord 0 35 true, mwinWord 0x010000000000 24 true, mwinWord 0x011000000000 25 true, mwinWord 0x011002000000 24 true,
      mwinBlocks 6 1, mwinWord 0x018000500000 12 true]
  | 2 => [mwinWord 0 35 true, mwinBlocks 9 0, mwinBlocks 10 1, mwinWord 0x018000500000 12 true]
  | 3 => [mwinBlocks 0 1, mwinBlocks 2 0]
  | _ => [mwinWord 0 35 true, mwinWord 0x010000000000 37 true, mwinWord 0x017000000000 34 true, mwinBlocks 0 0, mwinBlocks 3 0,
      mwinBlocks 4 0, mwinBlocks 13 0]

/-- The windows of every processor are set before it is released (R297). -/
def bootWindows (r : Run z) : Run z :=
  let r := r.each (List.range 5) fun p r =>
    r.each ((List.range 8).zip (mwinTable p)) fun w r => r.setReg64 (fwReg p (0x100 + 8 * w.1)) w.2
  r.each r.s.sec.mwins fun m r => r.setReg m.1 m.2

/-- Steps 8 to 11: firmware, vaults, processors, the network baseline and the tenancy of the store. -/
def bootRun (r : Run z) (env : BootEnv) : Run z :=
  let r := r.bootWindows
  let r := (r.bootLoad 4).setFw { (r.bootLoad 4).s.fw with imgver := imgWord r.s flashBase 8 }
  let r := r.each [3, 1, 0, 2] fun p r => r.bootLoad p
  let r := (r.bootHost env).switchNet
  r.tenancyStart r.s.sec.stored

/-- The boot steps in order (R468). `again` is a boot that network recovery was asked for: where the store cannot be read, a right
image in the flash then boots without a tenancy (R469). -/
def boot (r : Run z) (env : BootEnv) (gpio0 again : Bool) : Run z :=
  if !env.sramOk || !accessionOk r.s || !env.pufOk then r.bootStop
  else
    let r := (r.bootRepair env).secShow
    if !env.storeOk && !again then r.recover
    else if gpio0 || !bootImageOk r.s then r.recover
    else r.bootRun env

end Run

/-- POWER_ON_RESET: PORST_N is pulsed low and released. Fabric time restarts at 0, the straps are sampled, and the device boots
(R26, R468, R500, R509). -/
def execPowerOnReset (env : BootEnv) (s : State) : Host.Outcome State Fault Refusal :=
  let r := Run.start (bootBase s env 0)
  let r := r.setNow (min env.took 536000000)
  let r := r.setRegN (topReg 0x310) (b2n env.gpio1 * 2 + b2n env.gpio0)
  let r := r.setFld (audReg 0x300) 31 31 (b2n env.muted)
  .next (r.boot env env.gpio0 false).s

/-- SUPPLY_BELOW_RANGE: a monitored rail falls below its range, and the device holds itself in reset until PORST_N (R509). -/
def execSupplyBelowRange (s : State) : Host.Outcome State Fault Refusal :=
  .next { bootBase s s.sec.env s.now with power := { held := true } }

/-- The FW_RESTART of a boot ROM in network recovery: p must be 4 (R469). -/
def isReboot (s : State) : Bool :=
  s.sec.recovery && (match frontMsg s 4 (isOp 0x0504) with
    | some m => m.payload.length = 4 && m.w 0 = 4 && (match sess? s m.session with | some x => !x.releasing | none => false)
    | none => false)

/-- FW_RESTART: a processor restarts, also one that is HALTED, and its release sends the reply (R303, R325). In network recovery
p = 4 boots again from step 1, with the straps and fabric time as they stand (R469). -/
def execFwRestart (s : State) : Host.Outcome State Fault Refusal :=
  if s.halted then .next s
  else if isReboot s then
    let b := { bootBase s s.sec.env s.now true with fix := { boots := s.fix.boots } }
    let r := (Run.start b).setReg (topReg 0x310) (s.reg (topReg 0x310))
    let r := r.each ([0x108, 0x10C, 0x110, 0x300, 0x304, 0x308].map audReg) fun k r => r.setReg k (s.reg k)
    .next (r.boot s.sec.env (s.fld (topReg 0x310) 0 0 = 1) true).s
  else done ((Run.start s).serve 4 (isOp 0x0504) (lenIs 4) fun _ m r =>
    if m.w 0 > 4 then r.reply m stBounds
    else if r.s.sec.recovery then r.reply m stFeature
    else (r.put (.fw { r.s.fw with askers := r.s.fw.askers ++ [(m.w 0, m.session, m.seq)] })).fwRestart (m.w 0) 1 true)

end Sys2Proof.Machine
end

