-- ==== Sys2Proof/Machine/Fpu.lean ====
section
/-! DEFINITION. Floating point: the FPU group (R54, R55), the SFU group (R55), CVT (R56, R149 to R155) and the PK group
(R57). -/

namespace Sys2Proof.Machine

/-- A floating instruction: f registers and csr_fpctl on a hart whose FPEN is 1, else FP_DISABLED; g registers as bit
patterns, to nearest-even, in a lane (R54, R75, R79). -/
def fpGroup (i : Instr) (ag : Agent) (legal : Bool) (f : R3)
    (op : Fp.Rnd → W32 → W32 → W32 → W32 × Fp.Flags) (s : State) : Host.Outcome State Fault Refusal :=
  done <| compute (Run.start s) i ag .both legal f.guard [f.d.toNat, f.a.toNat, f.b.toNat]
    (fun fw h =>
      if fw || !h.fpen then .trap .fpDisabled (wordsOf i).w0.toNat
      else .next (h.withFp f.d (op h.rnd (h.rf f.a) (h.rf f.b) (h.rf f.d))))
    (fun _ t => t.wg f.d.toNat (op .nearest (t.rg f.a.toNat) (t.rg f.b.toNat) (t.rg f.d.toNat)).1)

/-- FADD (R55). -/
def execFadd (ag : Agent) (f : R3) (s : State) : Host.Outcome State Fault Refusal :=
  fpGroup (.fadd ag f) ag (true) f (fun rnd a b _ => Fp.fadd rnd a b) s

/-- FSUB (R55). -/
def execFsub (ag : Agent) (f : R3) (s : State) : Host.Outcome State Fault Refusal :=
  fpGroup (.fsub ag f) ag (true) f (fun rnd a b _ => Fp.fsub rnd a b) s

/-- FMUL (R55). -/
def execFmul (ag : Agent) (f : R3) (s : State) : Host.Outcome State Fault Refusal :=
  fpGroup (.fmul ag f) ag (true) f (fun rnd a b _ => Fp.fmul rnd a b) s

/-- FFMA (R55). -/
def execFfma (ag : Agent) (f : R3) (s : State) : Host.Outcome State Fault Refusal :=
  fpGroup (.ffma ag f) ag (true) f (fun rnd a b d => Fp.ffma rnd a b d) s

/-- FMIN (R55). -/
def execFmin (ag : Agent) (f : R3) (s : State) : Host.Outcome State Fault Refusal :=
  fpGroup (.fmin ag f) ag (true) f (fun _ a b _ => Fp.fminmax false a b) s

/-- FMAX (R55). -/
def execFmax (ag : Agent) (f : R3) (s : State) : Host.Outcome State Fault Refusal :=
  fpGroup (.fmax ag f) ag (true) f (fun _ a b _ => Fp.fminmax true a b) s

/-- FABS (R55). -/
def execFabs (ag : Agent) (f : R3) (s : State) : Host.Outcome State Fault Refusal :=
  fpGroup (.fabs ag f) ag (f.b = 0) f (fun _ a _ _ => (a &&& 0x7FFFFFFF#32, {})) s

/-- FNEG (R55). -/
def execFneg (ag : Agent) (f : R3) (s : State) : Host.Outcome State Fault Refusal :=
  fpGroup (.fneg ag f) ag (f.b = 0) f (fun _ a _ _ => (a ^^^ 0x80000000#32, {})) s

/-- FEXP2 (R55). -/
def execFexp2 (ag : Agent) (f : R3) (s : State) : Host.Outcome State Fault Refusal :=
  fpGroup (.fexp2 ag f) ag (f.b = 0) f (fun _ a _ _ => Fp.sfu 0 a) s

/-- FLOG2 (R55). -/
def execFlog2 (ag : Agent) (f : R3) (s : State) : Host.Outcome State Fault Refusal :=
  fpGroup (.flog2 ag f) ag (f.b = 0) f (fun _ a _ _ => Fp.sfu 1 a) s

/-- FRCP (R55). -/
def execFrcp (ag : Agent) (f : R3) (s : State) : Host.Outcome State Fault Refusal :=
  fpGroup (.frcp ag f) ag (f.b = 0) f (fun _ a _ _ => Fp.sfu 2 a) s

/-- FRSQ (R55). -/
def execFrsq (ag : Agent) (f : R3) (s : State) : Host.Outcome State Fault Refusal :=
  fpGroup (.frsq ag f) ag (f.b = 0) f (fun _ a _ _ => Fp.sfu 3 a) s

/-- FSIG (R55). -/
def execFsig (ag : Agent) (f : R3) (s : State) : Host.Outcome State Fault Refusal :=
  fpGroup (.fsig ag f) ag (f.b = 0) f (fun _ a _ _ => Fp.sfu 4 a) s

/-- FTANH (R55). -/
def execFtanh (ag : Agent) (f : R3) (s : State) : Host.Outcome State Fault Refusal :=
  fpGroup (.ftanh ag f) ag (f.b = 0) f (fun _ a _ _ => Fp.sfu 5 a) s

/-- FMV.GF, host only: fD takes bits 31:0 of gA (R55). -/
def execFmvGf (ag : Agent) (f : R3) (s : State) : Host.Outcome State Fault Refusal :=
  done <| compute (Run.start s) (.fmvGf ag f) ag .host (f.b = 0) f.guard []
    (fun fw h =>
      if fw || !h.fpen then .trap .fpDisabled (wordsOf (.fmvGf ag f)).w0.toNat
      else .next (h.wf f.d ((h.rg f.a).truncate 32)))
    (fun _ t => t)

/-- FMV.FG, host only: gD takes the bits of fA, zero-extended (R55). -/
def execFmvFg (ag : Agent) (f : R3) (s : State) : Host.Outcome State Fault Refusal :=
  done <| compute (Run.start s) (.fmvFg ag f) ag .host (f.b = 0) f.guard []
    (fun fw h =>
      if fw || !h.fpen then .trap .fpDisabled (wordsOf (.fmvFg ag f)).w0.toNat
      else .next (h.wg f.d ((h.rf f.a).zeroExtend 64)))
    (fun _ t => t)

/-- One draw of a rounding generator: the stepped generator and r (R151). -/
def drawRng (x : W32) : W32 × Nat :=
  let x := x ^^^ (x <<< 13)
  let x := x ^^^ (x >>> 17)
  let x := x ^^^ (x <<< 5)
  (x, (x >>> 16).toNat)

/-- CVT on one value: source bits, block-scale register, rounding; the conversion of R56 and R153. -/
def cvtValue (src dst : Nat) (rnd : Fp.Rnd) (v : Nat) (scale : Nat) : Fp.Conv :=
  let x := Fp.scaledValue src (v % 2 ^ Fp.widthOf src) scale
  let y := if Fp.isBlock dst then (if scale = 255 then .nan else x.scale (127 - (scale : Int))) else x
  Fp.convert dst true rnd y

/-- The register image of a CVT result: integers sign-extended, float patterns zero-extended (R56). -/
def cvtImage (dst w bits : Nat) : BitVec w :=
  if Fp.isInt dst then BitVec.ofInt w (Fp.toSigned (Fp.widthOf dst) bits) else BitVec.ofNat w bits

/-- CVT on a hart (R56, R155). -/
def cvtHart (fw : Bool) (w0 : Nat) (key : Nat) (func : BitVec 6) (f : R3) (h : Hart) : HEnd :=
  let src := bits func.toNat 5 2
  let dst := bits f.b.toNat 3 0
  if (src = 0 || dst = 0) && (fw || !h.fpen) then .trap .fpDisabled w0
  else
    let v := if src = 0 then (h.rf f.a).toNat else (h.rg f.a).toNat
    let scale := (h.rg (f.a + 1)).toNat % 256
    let (h, rnd) : Hart × Fp.Rnd :=
      match bits func.toNat 1 0 with
      | 0 => (h, .nearest)
      | 1 => (h, .zero)
      | 2 =>
        let (x, d) := drawRng (h.rng.getD (BitVec.ofNat 32 (key + 1)))
        ({ h with rng := some x }, .stochastic d)
      | _ => (h, h.rnd)
    let c := cvtValue src dst rnd v scale
    let h := h.addFlags c.flags
    .next (if dst = 0 then h.wf f.d (BitVec.ofNat 32 c.bits) else h.wg f.d (cvtImage dst 64 c.bits))

/-- CVT in a gang: a stochastic CVT draws once for each enabled thread in lane order (R152). -/
def cvtLanes (func : BitVec 6) (f : R3) (enabled : List Nat) (x : Gang) : Gang :=
  let src := bits func.toNat 5 2
  let dst := bits f.b.toNat 3 0
  enabled.foldl (fun x lane =>
    let t := x.thread lane
    let (rng, rnd) : W32 × Fp.Rnd :=
      match bits func.toNat 1 0 with
      | 0 => (x.vecRng, .nearest)
      | 1 => (x.vecRng, .zero)
      | _ => let (y, d) := drawRng x.vecRng; (y, .stochastic d)
    let c := cvtValue src dst rnd (t.rg f.a.toNat).toNat ((t.rg (f.a.toNat + 1)).toNat % 256)
    { x.setThread lane (t.wg f.d.toNat (cvtImage dst 32 c.bits)) with vecRng := rng }) x

/-- CVT (R56). -/
def execCvt (ag : Agent) (func : BitVec 6) (f : R3) (s : State) : Host.Outcome State Fault Refusal :=
  let i := Instr.cvt ag func f
  let w := wordsOf i
  let src := bits func.toNat 5 2
  let dst := bits f.b.toNat 3 0
  let block := Fp.isBlock src || Fp.isBlock dst
  let legal := src ≤ 9 && dst ≤ 9 && f.b.toNat < 16 && (!block || pairOk f.a)
  let r := Run.start s
  match ag with
  | .host n => done <| hartIssue r (hostKey n) w (legal && f.guard = 0) fun h r =>
      (r, cvtHart false w.w0.toNat n func f h)
  | .fw p => done <| hartIssue r (fwKey p) w (legal && f.guard = 0) fun h r =>
      (r, cvtHart true w.w0.toNat (fwKey p) func f h)
  | .lane c g =>
    done <| laneIssue r c g w (legal && bits func.toNat 1 0 ≠ 3) f.guard
      ([f.d.toNat, f.a.toNat] ++ (if block then [f.a.toNat + 1] else [])) []
      fun cx x r => (r, .next (cvtLanes func f cx.enabled x))

/-- A packed instruction, lane profile only (R57). -/
def pkGroup (i : Instr) (ag : Agent) (fp16 : Bool) (func : Nat) (f : R3) (s : State) :
    Host.Outcome State Fault Refusal :=
  done <| compute (Run.start s) i ag .lane true f.guard [f.d.toNat, f.a.toNat, f.b.toNat] (fun _ _ => .stall)
    (fun _ t => t.wg f.d.toNat (Fp.pk fp16 func (t.rg f.a.toNat) (t.rg f.b.toNat) (t.rg f.d.toNat)))

/-- ADD2 (R57). -/
def execAdd2 (ag : Agent) (fp16 : Bool) (f : R3) (s : State) : Host.Outcome State Fault Refusal :=
  pkGroup (.add2 ag fp16 f) ag fp16 0 f s

/-- MUL2 (R57). -/
def execMul2 (ag : Agent) (fp16 : Bool) (f : R3) (s : State) : Host.Outcome State Fault Refusal :=
  pkGroup (.mul2 ag fp16 f) ag fp16 1 f s

/-- FMA2 (R57). -/
def execFma2 (ag : Agent) (fp16 : Bool) (f : R3) (s : State) : Host.Outcome State Fault Refusal :=
  pkGroup (.fma2 ag fp16 f) ag fp16 2 f s

/-- MIN2 (R57). -/
def execMin2 (ag : Agent) (fp16 : Bool) (f : R3) (s : State) : Host.Outcome State Fault Refusal :=
  pkGroup (.min2 ag fp16 f) ag fp16 3 f s

/-- MAX2 (R57). -/
def execMax2 (ag : Agent) (fp16 : Bool) (f : R3) (s : State) : Host.Outcome State Fault Refusal :=
  pkGroup (.max2 ag fp16 f) ag fp16 4 f s

end Sys2Proof.Machine
end

