-- ==== Sys2Proof/Machine/Dispatch.lean ====
section
/-! DEFINITION. The dispatch: one arm per command of the opcode table, each one direct call of its meaning. -/

namespace Sys2Proof.Machine

-- the command's effect on everything but the queue
def exec (i : Instr) (s : State) : Host.Outcome State Fault Refusal :=
  match i with
  | .powerOnReset env => Sys2Proof.Machine.execPowerOnReset env s
  | .loHiReadLatch ag off => Sys2Proof.Machine.execLoHiReadLatch ag off s
  | .registerWrite ag off v => Sys2Proof.Machine.execRegisterWrite ag off v s
  | .timeTreeRealign => Sys2Proof.Machine.execTimeTreeRealign s
  | .holdoverEntry => Sys2Proof.Machine.execHoldoverEntry s
  | .topFtCtrlWrite ag v => Sys2Proof.Machine.execTopFtCtrlWrite ag v s
  | .add ag w32 f => Sys2Proof.Machine.execAdd ag w32 f s
  | .sub ag w32 f => Sys2Proof.Machine.execSub ag w32 f s
  | .mul ag w32 f => Sys2Proof.Machine.execMul ag w32 f s
  | .mulh ag w32 f => Sys2Proof.Machine.execMulh ag w32 f s
  | .mulhu ag w32 f => Sys2Proof.Machine.execMulhu ag w32 f s
  | .div ag w32 f => Sys2Proof.Machine.execDiv ag w32 f s
  | .divu ag w32 f => Sys2Proof.Machine.execDivu ag w32 f s
  | .rem ag w32 f => Sys2Proof.Machine.execRem ag w32 f s
  | .remu ag w32 f => Sys2Proof.Machine.execRemu ag w32 f s
  | .and ag w32 f => Sys2Proof.Machine.execAnd ag w32 f s
  | .or ag w32 f => Sys2Proof.Machine.execOr ag w32 f s
  | .xor ag w32 f => Sys2Proof.Machine.execXor ag w32 f s
  | .shl ag w32 f => Sys2Proof.Machine.execShl ag w32 f s
  | .shr ag w32 f => Sys2Proof.Machine.execShr ag w32 f s
  | .sra ag w32 f => Sys2Proof.Machine.execSra ag w32 f s
  | .min ag w32 f => Sys2Proof.Machine.execMin ag w32 f s
  | .minu ag w32 f => Sys2Proof.Machine.execMinu ag w32 f s
  | .max ag w32 f => Sys2Proof.Machine.execMax ag w32 f s
  | .maxu ag w32 f => Sys2Proof.Machine.execMaxu ag w32 f s
  | .clz ag w32 f => Sys2Proof.Machine.execClz ag w32 f s
  | .popc ag w32 f => Sys2Proof.Machine.execPopc ag w32 f s
  | .addp ag w32 f => Sys2Proof.Machine.execAddp ag w32 f s
  | .addi ag f => Sys2Proof.Machine.execAddi ag f s
  | .andi ag f => Sys2Proof.Machine.execAndi ag f s
  | .ori ag f => Sys2Proof.Machine.execOri ag f s
  | .xori ag f => Sys2Proof.Machine.execXori ag f s
  | .shi ag f => Sys2Proof.Machine.execShi ag f s
  | .li ag f => Sys2Proof.Machine.execLi ag f s
  | .addx ag f => Sys2Proof.Machine.execAddx ag f s
  | .cmp ag func f => Sys2Proof.Machine.execCmp ag func f s
  | .pand ag f => Sys2Proof.Machine.execPand ag f s
  | .por ag f => Sys2Proof.Machine.execPor ag f s
  | .pxor ag f => Sys2Proof.Machine.execPxor ag f s
  | .pandn ag f => Sys2Proof.Machine.execPandn ag f s
  | .pnot ag f => Sys2Proof.Machine.execPnot ag f s
  | .p2g ag f => Sys2Proof.Machine.execP2g ag f s
  | .g2p ag f => Sys2Proof.Machine.execG2p ag f s
  | .fadd ag f => Sys2Proof.Machine.execFadd ag f s
  | .fsub ag f => Sys2Proof.Machine.execFsub ag f s
  | .fmul ag f => Sys2Proof.Machine.execFmul ag f s
  | .ffma ag f => Sys2Proof.Machine.execFfma ag f s
  | .fmin ag f => Sys2Proof.Machine.execFmin ag f s
  | .fmax ag f => Sys2Proof.Machine.execFmax ag f s
  | .fabs ag f => Sys2Proof.Machine.execFabs ag f s
  | .fneg ag f => Sys2Proof.Machine.execFneg ag f s
  | .fmvGf ag f => Sys2Proof.Machine.execFmvGf ag f s
  | .fmvFg ag f => Sys2Proof.Machine.execFmvFg ag f s
  | .fexp2 ag f => Sys2Proof.Machine.execFexp2 ag f s
  | .flog2 ag f => Sys2Proof.Machine.execFlog2 ag f s
  | .frcp ag f => Sys2Proof.Machine.execFrcp ag f s
  | .frsq ag f => Sys2Proof.Machine.execFrsq ag f s
  | .fsig ag f => Sys2Proof.Machine.execFsig ag f s
  | .ftanh ag f => Sys2Proof.Machine.execFtanh ag f s
  | .cvt ag func f => Sys2Proof.Machine.execCvt ag func f s
  | .add2 ag fp16 f => Sys2Proof.Machine.execAdd2 ag fp16 f s
  | .mul2 ag fp16 f => Sys2Proof.Machine.execMul2 ag fp16 f s
  | .fma2 ag fp16 f => Sys2Proof.Machine.execFma2 ag fp16 f s
  | .min2 ag fp16 f => Sys2Proof.Machine.execMin2 ag fp16 f s
  | .max2 ag fp16 f => Sys2Proof.Machine.execMax2 ag fp16 f s
  | .ldb ag f => Sys2Proof.Machine.execLdb ag f s
  | .ldbu ag f => Sys2Proof.Machine.execLdbu ag f s
  | .ldh ag f => Sys2Proof.Machine.execLdh ag f s
  | .ldhu ag f => Sys2Proof.Machine.execLdhu ag f s
  | .ldw ag f => Sys2Proof.Machine.execLdw ag f s
  | .ldwu ag f => Sys2Proof.Machine.execLdwu ag f s
  | .ldd ag f => Sys2Proof.Machine.execLdd ag f s
  | .stb ag f => Sys2Proof.Machine.execStb ag f s
  | .sth ag f => Sys2Proof.Machine.execSth ag f s
  | .stw ag f => Sys2Proof.Machine.execStw ag f s
  | .std ag f => Sys2Proof.Machine.execStd ag f s
  | .ldwAcq ag scope f => Sys2Proof.Machine.execLdwAcq ag scope f s
  | .lddAcq ag scope f => Sys2Proof.Machine.execLddAcq ag scope f s
  | .stwRel ag scope f => Sys2Proof.Machine.execStwRel ag scope f s
  | .stdRel ag scope f => Sys2Proof.Machine.execStdRel ag scope f s
  | .fenceAcq ag scope f => Sys2Proof.Machine.execFenceAcq ag scope f s
  | .fenceRel ag scope f => Sys2Proof.Machine.execFenceRel ag scope f s
  | .fenceAr ag scope f => Sys2Proof.Machine.execFenceAr ag scope f s
  | .atomAdd ag dw scope f => Sys2Proof.Machine.execAtomAdd ag dw scope f s
  | .atomMin ag dw scope f => Sys2Proof.Machine.execAtomMin ag dw scope f s
  | .atomMax ag dw scope f => Sys2Proof.Machine.execAtomMax ag dw scope f s
  | .atomAnd ag dw scope f => Sys2Proof.Machine.execAtomAnd ag dw scope f s
  | .atomOr ag dw scope f => Sys2Proof.Machine.execAtomOr ag dw scope f s
  | .atomXor ag dw scope f => Sys2Proof.Machine.execAtomXor ag dw scope f s
  | .atomSwap ag dw scope f => Sys2Proof.Machine.execAtomSwap ag dw scope f s
  | .atomCas ag dw scope f => Sys2Proof.Machine.execAtomCas ag dw scope f s
  | .atomArAdd ag dw scope f => Sys2Proof.Machine.execAtomArAdd ag dw scope f s
  | .atomArMin ag dw scope f => Sys2Proof.Machine.execAtomArMin ag dw scope f s
  | .atomArMax ag dw scope f => Sys2Proof.Machine.execAtomArMax ag dw scope f s
  | .atomArAnd ag dw scope f => Sys2Proof.Machine.execAtomArAnd ag dw scope f s
  | .atomArOr ag dw scope f => Sys2Proof.Machine.execAtomArOr ag dw scope f s
  | .atomArXor ag dw scope f => Sys2Proof.Machine.execAtomArXor ag dw scope f s
  | .atomArSwap ag dw scope f => Sys2Proof.Machine.execAtomArSwap ag dw scope f s
  | .atomArCas ag dw scope f => Sys2Proof.Machine.execAtomArCas ag dw scope f s
  | .bra ag f => Sys2Proof.Machine.execBra ag f s
  | .call ag f => Sys2Proof.Machine.execCall ag f s
  | .jr ag f => Sys2Proof.Machine.execJr ag f s
  | .bral ag f => Sys2Proof.Machine.execBral ag f s
  | .nop ag f => Sys2Proof.Machine.execNop ag f s
  | .exit ag f => Sys2Proof.Machine.execExit ag f s
  | .bar ag f => Sys2Proof.Machine.execBar ag f s
  | .yield ag f => Sys2Proof.Machine.execYield ag f s
  | .yieldExpiry core gang => Sys2Proof.Machine.execYieldExpiry core gang s
  | .upcall ag f => Sys2Proof.Machine.execUpcall ag f s
  | .brk ag f => Sys2Proof.Machine.execBrk ag f s
  | .tret ag f => Sys2Proof.Machine.execTret ag f s
  | .snooze ag f => Sys2Proof.Machine.execSnooze ag f s
  | .iflush ag f => Sys2Proof.Machine.execIflush ag f s
  | .rds ag f => Sys2Proof.Machine.execRds ag f s
  | .crd ag f => Sys2Proof.Machine.execCrd ag f s
  | .cwr ag f => Sys2Proof.Machine.execCwr ag f s
  | .cmsk ag f => Sys2Proof.Machine.execCmsk ag f s
  | .timerInterruptPending ag => Sys2Proof.Machine.execTimerInterruptPending ag s
  | .interruptTake ag => Sys2Proof.Machine.execInterruptTake ag s
  | .shfl ag f => Sys2Proof.Machine.execShfl ag f s
  | .ballot ag f => Sys2Proof.Machine.execBallot ag f s
  | .any ag f => Sys2Proof.Machine.execAny ag f s
  | .all ag f => Sys2Proof.Machine.execAll ag f s
  | .radd ag f => Sys2Proof.Machine.execRadd ag f s
  | .rmin ag f => Sys2Proof.Machine.execRmin ag f s
  | .rmax ag f => Sys2Proof.Machine.execRmax ag f s
  | .fradd ag f => Sys2Proof.Machine.execFradd ag f s
  | .frmin ag f => Sys2Proof.Machine.execFrmin ag f s
  | .frmax ag f => Sys2Proof.Machine.execFrmax ag f s
  | .tsig ag scope f => Sys2Proof.Machine.execTsig ag scope f s
  | .tadd ag scope f => Sys2Proof.Machine.execTadd ag scope f s
  | .twait ag scope f => Sys2Proof.Machine.execTwait ag scope f s
  | .tread ag scope f => Sys2Proof.Machine.execTread ag scope f s
  | .twaitTimeout ag lane => Sys2Proof.Machine.execTwaitTimeout ag lane s
  | .tdld ag f => Sys2Proof.Machine.execTdld ag f s
  | .tdw ag f => Sys2Proof.Machine.execTdw ag f s
  | .tdst ag f => Sys2Proof.Machine.execTdst ag f s
  | .fmove ag f => Sys2Proof.Machine.execFmove ag f s
  | .tmma ag f => Sys2Proof.Machine.execTmma ag f s
  | .tdrain ag f => Sys2Proof.Machine.execTdrain ag f s
  | .accScale ag f => Sys2Proof.Machine.execAccScale ag f s
  | .tclr ag f => Sys2Proof.Machine.execTclr ag f s
  | .trec ag f => Sys2Proof.Machine.execTrec ag f s
  | .stateAudit ag f => Sys2Proof.Machine.execStateAudit ag f s
  | .tsync ag f => Sys2Proof.Machine.execTsync ag f s
  | .rope ag f => Sys2Proof.Machine.execRope ag f s
  | .tmask ag f => Sys2Proof.Machine.execTmask ag f s
  | .tsmaxStep ag f => Sys2Proof.Machine.execTsmaxStep ag f s
  | .tsmaxFinal ag f => Sys2Proof.Machine.execTsmaxFinal ag f s
  | .tsmaxMerge ag f => Sys2Proof.Machine.execTsmaxMerge ag f s
  | .tsmaxInit ag f => Sys2Proof.Machine.execTsmaxInit ag f s
  | .tensorInstrStart core seq => Sys2Proof.Machine.execTensorInstrStart core seq s
  | .tensorInstrFinish core seq => Sys2Proof.Machine.execTensorInstrFinish core seq s
  | .prismFeedFetch core => Sys2Proof.Machine.execPrismFeedFetch core s
  | .fmoveFinish core seq => Sys2Proof.Machine.execFmoveFinish core seq s
  | .gangAdmit core parcel gang banks => Sys2Proof.Machine.execGangAdmit core parcel gang banks s
  | .gangRetire core gang => Sys2Proof.Machine.execGangRetire core gang s
  | .gangParkSwap core => Sys2Proof.Machine.execGangParkSwap core s
  | .coreFltCauseClear ag core v => Sys2Proof.Machine.execCoreFltCauseClear ag core v s
  | .schedTallyAlloc ag => Sys2Proof.Machine.execSchedTallyAlloc ag s
  | .schedTallyFree ag v => Sys2Proof.Machine.execSchedTallyFree ag v s
  | .parcelRerun n => Sys2Proof.Machine.execParcelRerun n s
  | .pidxRqDb ag v => Sys2Proof.Machine.execPidxRqDb ag v s
  | .kvOpen => Sys2Proof.Machine.execKvOpen s
  | .close => Sys2Proof.Machine.execClose s
  | .pin => Sys2Proof.Machine.execPin s
  | .unpin => Sys2Proof.Machine.execUnpin s
  | .append => Sys2Proof.Machine.execAppend s
  | .tappend => Sys2Proof.Machine.execTappend s
  | .commit => Sys2Proof.Machine.execCommit s
  | .discard => Sys2Proof.Machine.execDiscard s
  | .kvBadRequest => Sys2Proof.Machine.execKvBadRequest s
  | .recomputeComplete n => Sys2Proof.Machine.execRecomputeComplete n s
  | .reflexCoreEnable ag n lcore => Sys2Proof.Machine.execReflexCoreEnable ag n lcore s
  | .reflexCoreDisable ag n => Sys2Proof.Machine.execReflexCoreDisable ag n s
  | .reflexCoreReady n => Sys2Proof.Machine.execReflexCoreReady n s
  | .reflexFrameLanding => Sys2Proof.Machine.execReflexFrameLanding s
  | .reflexTick n k => Sys2Proof.Machine.execReflexTick n k s
  | .reflexArriveLatch n k => Sys2Proof.Machine.execReflexArriveLatch n k s
  | .reflexStepStart n => Sys2Proof.Machine.execReflexStepStart n s
  | .reflexStepEnd n k => Sys2Proof.Machine.execReflexStepEnd n k s
  | .reflexOutputFrame n k => Sys2Proof.Machine.execReflexOutputFrame n k s
  | .reflexResetMark ag group v => Sys2Proof.Machine.execReflexResetMark ag group v s
  | .reflexStop ag group => Sys2Proof.Machine.execReflexStop ag group s
  | .reflexGroupEnd n k => Sys2Proof.Machine.execReflexGroupEnd n k s
  | .reflexHoldExpiry n k => Sys2Proof.Machine.execReflexHoldExpiry n k s
  | .reflexResume n k => Sys2Proof.Machine.execReflexResume n k s
  | .vltCmapWrite ag hi v => Sys2Proof.Machine.execVltCmapWrite ag hi v s
  | .vltTlbinv ag hi v => Sys2Proof.Machine.execVltTlbinv ag hi v s
  | .tlbinvDone => Sys2Proof.Machine.execTlbinvDone s
  | .vltLblkWrite ag n v => Sys2Proof.Machine.execVltLblkWrite ag n v s
  | .windowStart ag n => Sys2Proof.Machine.execWindowStart ag n s
  | .windowStop ag n => Sys2Proof.Machine.execWindowStop ag n s
  | .chunkStart n => Sys2Proof.Machine.execChunkStart n s
  | .chunkLanded n g => Sys2Proof.Machine.execChunkLanded n g s
  | .vaultAccessTimeout rd va pa fetch => Sys2Proof.Machine.execVaultAccessTimeout rd va pa fetch s
  | .vaultRetrainEnd v ok => Sys2Proof.Machine.execVaultRetrainEnd v ok s
  | .rowSparing pa waited => Sys2Proof.Machine.execRowSparing pa waited s
  | .patrolRead pa err => Sys2Proof.Machine.execPatrolRead pa err s
  | .vaultRefresh v waited => Sys2Proof.Machine.execVaultRefresh v waited s
  | .schedCardSync ag n => Sys2Proof.Machine.execSchedCardSync ag n s
  | .cardTakeUp n => Sys2Proof.Machine.execCardTakeUp n s
  | .cardFetch n => Sys2Proof.Machine.execCardFetch n s
  | .contextEnable ag n v => Sys2Proof.Machine.execContextEnable ag n v s
  | .contextDisable ag n => Sys2Proof.Machine.execContextDisable ag n s
  | .schedDb ag v => Sys2Proof.Machine.execSchedDb ag v s
  | .parcelTake card => Sys2Proof.Machine.execParcelTake card s
  | .parcelWaitEnd n => Sys2Proof.Machine.execParcelWaitEnd n s
  | .parcelWaitTimeout n => Sys2Proof.Machine.execParcelWaitTimeout n s
  | .permitGrant => Sys2Proof.Machine.execPermitGrant s
  | .permitTimeout n => Sys2Proof.Machine.execPermitTimeout n s
  | .parcelComplete n => Sys2Proof.Machine.execParcelComplete n s
  | .mailboxDeliver n => Sys2Proof.Machine.execMailboxDeliver n s
  | .mailboxTxTake n => Sys2Proof.Machine.execMailboxTxTake n s
  | .fwpRestartRequest ag p => Sys2Proof.Machine.execFwpRestartRequest ag p s
  | .fwpRestartEnd p => Sys2Proof.Machine.execFwpRestartEnd p s
  | .fwpKick p => Sys2Proof.Machine.execFwpKick p s
  | .watchdogExpiry p => Sys2Proof.Machine.execWatchdogExpiry p s
  | .fwFlashWriteEnd => Sys2Proof.Machine.execFwFlashWriteEnd s
  | .schedHeartbeat ag v => Sys2Proof.Machine.execSchedHeartbeat ag v s
  | .leaseExpiry n => Sys2Proof.Machine.execLeaseExpiry n s
  | .holdExpiry n => Sys2Proof.Machine.execHoldExpiry n s
  | .sessionRelease n => Sys2Proof.Machine.execSessionRelease n s
  | .hello => Sys2Proof.Machine.execHello s
  | .bye => Sys2Proof.Machine.execBye s
  | .heartbeat => Sys2Proof.Machine.execHeartbeat s
  | .leaseCfg => Sys2Proof.Machine.execLeaseCfg s
  | .submit => Sys2Proof.Machine.execSubmit s
  | .cardSync => Sys2Proof.Machine.execCardSync s
  | .doorbell => Sys2Proof.Machine.execDoorbell s
  | .tallyAlloc => Sys2Proof.Machine.execTallyAlloc s
  | .tallyFree => Sys2Proof.Machine.execTallyFree s
  | .tallyOpTsig => Sys2Proof.Machine.execTallyOpTsig s
  | .tallyOpTadd => Sys2Proof.Machine.execTallyOpTadd s
  | .tallyOpTread => Sys2Proof.Machine.execTallyOpTread s
  | .tallyWatch => Sys2Proof.Machine.execTallyWatch s
  | .tallyWatchTimeout session seq => Sys2Proof.Machine.execTallyWatchTimeout session seq s
  | .read => Sys2Proof.Machine.execRead s
  | .write => Sys2Proof.Machine.execWrite s
  | .snapshot => Sys2Proof.Machine.execSnapshot s
  | .regRead => Sys2Proof.Machine.execRegRead s
  | .regWrite => Sys2Proof.Machine.execRegWrite s
  | .logRead => Sys2Proof.Machine.execLogRead s
  | .powerState => Sys2Proof.Machine.execPowerState s
  | .powerCap => Sys2Proof.Machine.execPowerCap s
  | .paceBind => Sys2Proof.Machine.execPaceBind s
  | .pace => Sys2Proof.Machine.execPace s
  | .paceResend => Sys2Proof.Machine.execPaceResend s
  | .propose => Sys2Proof.Machine.execPropose s
  | .countersign => Sys2Proof.Machine.execCountersign s
  | .attest => Sys2Proof.Machine.execAttest s
  | .fwUpdate => Sys2Proof.Machine.execFwUpdate s
  | .fwRestart => Sys2Proof.Machine.execFwRestart s
  | .messageUnknownOpcode => Sys2Proof.Machine.execMessageUnknownOpcode s
  | .reassemblyTimeout n => Sys2Proof.Machine.execReassemblyTimeout n s
  | .ethFrameRx n raw fcsOk => Sys2Proof.Machine.execEthFrameRx n raw fcsOk s
  | .ethFrameTxStart n => Sys2Proof.Machine.execEthFrameTxStart n s
  | .gateControlEntry n => Sys2Proof.Machine.execGateControlEntry n s
  | .qbvChange ag n v => Sys2Proof.Machine.execQbvChange ag n v s
  | .qbvConfigChange n => Sys2Proof.Machine.execQbvConfigChange n s
  | .linkDown n fault => Sys2Proof.Machine.execLinkDown n fault s
  | .linkUp n verified => Sys2Proof.Machine.execLinkUp n verified s
  | .ethTblRead => Sys2Proof.Machine.execEthTblRead s
  | .ethTblWrite => Sys2Proof.Machine.execEthTblWrite s
  | .fdbAgeOut n => Sys2Proof.Machine.execFdbAgeOut n s
  | .cbHistoryReset n => Sys2Proof.Machine.execCbHistoryReset n s
  | .sakRekey n => Sys2Proof.Machine.execSakRekey n s
  | .ethFlowDb ag v => Sys2Proof.Machine.execEthFlowDb ag v s
  | .flowTxTake n => Sys2Proof.Machine.execFlowTxTake n s
  | .muteEngage => Sys2Proof.Machine.execMuteEngage s
  | .muteRelease => Sys2Proof.Machine.execMuteRelease s
  | .micClockStart n => Sys2Proof.Machine.execMicClockStart n s
  | .archiveRowComplete samples => Sys2Proof.Machine.execArchiveRowComplete samples s
  | .archiveCopy ag v => Sys2Proof.Machine.execArchiveCopy ag v s
  | .archiveCopyEnd => Sys2Proof.Machine.execArchiveCopyEnd s
  | .loupeFrame n xs => Sys2Proof.Machine.execLoupeFrame n xs s
  | .lensHop n hop => Sys2Proof.Machine.execLensHop n hop s
  | .micBlockDeliver n mics => Sys2Proof.Machine.execMicBlockDeliver n mics s
  | .outputBlockPlay n => Sys2Proof.Machine.execOutputBlockPlay n s
  | .audRingDb ag v => Sys2Proof.Machine.execAudRingDb ag v s
  | .cameraFrameStart port vc fnum ecc1 => Sys2Proof.Machine.execCameraFrameStart port vc fnum ecc1 s
  | .csiLine port vc dt px crcOk ecc1 => Sys2Proof.Machine.execCsiLine port vc dt px crcOk ecc1 s
  | .embeddedDataPacket port vc data found => Sys2Proof.Machine.execEmbeddedDataPacket port vc data found s
  | .cameraFrameEnd port vc ecc1 => Sys2Proof.Machine.execCameraFrameEnd port vc ecc1 s
  | .frameWatchdogExpiry n => Sys2Proof.Machine.execFrameWatchdogExpiry n s
  | .ispLineProcess pipe => Sys2Proof.Machine.execIspLineProcess pipe s
  | .frameDeliver n => Sys2Proof.Machine.execFrameDeliver n s
  | .csiRingDb ag v => Sys2Proof.Machine.execCsiRingDb ag v s
  | .ispArm ag stream v => Sys2Proof.Machine.execIspArm ag stream v s
  | .fsyncEdge k => Sys2Proof.Machine.execFsyncEdge k s
  | .i3cXfer ag bus v => Sys2Proof.Machine.execI3cXfer ag bus v s
  | .i3cXferStart k => Sys2Proof.Machine.execI3cXferStart k s
  | .i3cXferDone k nack data => Sys2Proof.Machine.execI3cXferDone k nack data s
  | .ladderEnable ag v => Sys2Proof.Machine.execLadderEnable ag v s
  | .ladderDisable ag => Sys2Proof.Machine.execLadderDisable ag s
  | .ladderReload ag => Sys2Proof.Machine.execLadderReload ag s
  | .verdictDeadline k => Sys2Proof.Machine.execVerdictDeadline k s
  | .demotionExpiry k => Sys2Proof.Machine.execDemotionExpiry k s
  | .periodicSubmit k => Sys2Proof.Machine.execPeriodicSubmit k s
  | .ticketMove => Sys2Proof.Machine.execTicketMove s
  | .audLadAck ag v => Sys2Proof.Machine.execAudLadAck ag v s
  | .pwrStateRequest ag target => Sys2Proof.Machine.execPwrStateRequest ag target s
  | .powerEntryBegin => Sys2Proof.Machine.execPowerEntryBegin s
  | .powerDrainTimeout => Sys2Proof.Machine.execPowerDrainTimeout s
  | .deepSleepEntryBegin => Sys2Proof.Machine.execDeepSleepEntryBegin s
  | .powerEntryComplete => Sys2Proof.Machine.execPowerEntryComplete s
  | .autoIdleEntry => Sys2Proof.Machine.execAutoIdleEntry s
  | .wakePin => Sys2Proof.Machine.execWakePin s
  | .wakeTimer => Sys2Proof.Machine.execWakeTimer s
  | .powerReturn => Sys2Proof.Machine.execPowerReturn s
  | .clusterWake c => Sys2Proof.Machine.execClusterWake c s
  | .dvfsTargetWrite ag c v => Sys2Proof.Machine.execDvfsTargetWrite ag c v s
  | .clkDivWrite ag c v => Sys2Proof.Machine.execClkDivWrite ag c v s
  | .dvfsVselWrite ag c v => Sys2Proof.Machine.execDvfsVselWrite ag c v s
  | .dvfsStepEnd c => Sys2Proof.Machine.execDvfsStepEnd c s
  | .vstepAck => Sys2Proof.Machine.execVstepAck s
  | .vstepTimeout => Sys2Proof.Machine.execVstepTimeout s
  | .ledgerRefill => Sys2Proof.Machine.execLedgerRefill s
  | .ledgerRateUpdate powerMw fixedMw hostUp hostDown => Sys2Proof.Machine.execLedgerRateUpdate powerMw fixedMw hostUp hostDown s
  | .pwrCapWrite ag v => Sys2Proof.Machine.execPwrCapWrite ag v s
  | .pwrModeWrite ag v => Sys2Proof.Machine.execPwrModeWrite ag v s
  | .droopDetect c => Sys2Proof.Machine.execDroopDetect c s
  | .droopStretchEnd c => Sys2Proof.Machine.execDroopStretchEnd c s
  | .tempSample temps => Sys2Proof.Machine.execTempSample temps s
  | .thermalTrip => Sys2Proof.Machine.execThermalTrip s
  | .coreFence core cause => Sys2Proof.Machine.execCoreFence core cause s
  | .hangDetect core => Sys2Proof.Machine.execHangDetect core s
  | .supplyMonitorFence cl => Sys2Proof.Machine.execSupplyMonitorFence cl s
  | .fixFence ag v => Sys2Proof.Machine.execFixFence ag v s
  | .entryCheckEnd core pass => Sys2Proof.Machine.execEntryCheckEnd core pass s
  | .degradedTimeout n => Sys2Proof.Machine.execDegradedTimeout n s
  | .ledgerAppend => Sys2Proof.Machine.execLedgerAppend s
  | .ledgerCompact => Sys2Proof.Machine.execLedgerCompact s
  | .spareBistStart core => Sys2Proof.Machine.execSpareBistStart core s
  | .bistEnd core fails column => Sys2Proof.Machine.execBistEnd core fails column s
  | .reinstateBist core => Sys2Proof.Machine.execReinstateBist core s
  | .rollingSwapStart => Sys2Proof.Machine.execRollingSwapStart s
  | .rollingSwapTimeout => Sys2Proof.Machine.execRollingSwapTimeout s
  | .rollingSwapCopyEnd => Sys2Proof.Machine.execRollingSwapCopyEnd s
  | .settleEnd => Sys2Proof.Machine.execSettleEnd s
  | .tenantSwitchEnd => Sys2Proof.Machine.execTenantSwitchEnd s
  | .modelMeasure ag v => Sys2Proof.Machine.execModelMeasure ag v s
  | .modelMeasureEnd => Sys2Proof.Machine.execModelMeasureEnd s
  | .topSnapArm ag => Sys2Proof.Machine.execTopSnapArm ag s
  | .topSnapCancel ag => Sys2Proof.Machine.execTopSnapCancel ag s
  | .snapshotTake => Sys2Proof.Machine.execSnapshotTake s
  | .obsTrcAck ag v => Sys2Proof.Machine.execObsTrcAck ag v s
  | .errSumClear ag v => Sys2Proof.Machine.execErrSumClear ag v s
  | .uart1Send ag b => Sys2Proof.Machine.execUart1Send ag b s
  | .uart1ReceiveRead ag => Sys2Proof.Machine.execUart1ReceiveRead ag s
  | .uart1ByteRx b => Sys2Proof.Machine.execUart1ByteRx b s
  | .supplyBelowRange => Sys2Proof.Machine.execSupplyBelowRange s
  | .illegalInstr ag w0 w1 => Sys2Proof.Machine.execIllegalInstr ag w0 w1 s
  | .gptpMessageInterval d => Sys2Proof.Machine.execGptpMessageInterval d s
  | .mkaTimer n => Sys2Proof.Machine.execMkaTimer n s
  | .csiLinkStateChange port link deskewed => Sys2Proof.Machine.execCsiLinkStateChange port link deskewed s
  | .csiPacketDiscard port cause => Sys2Proof.Machine.execCsiPacketDiscard port cause s
  | .uart1ByteSent => Sys2Proof.Machine.execUart1ByteSent s
  | .jtagTckEdge tms tdi trstN => Sys2Proof.Machine.execJtagTckEdge tms tdi trstN s

end Sys2Proof.Machine
end

