-- ==== Sys2Proof/Machine/Pins.lean ====
section
/-! DEFINITION. The balls of the package and the nets they carry (R495 to R497), and the levels that the device drives on its
output pins (R498, R499, R501). -/

namespace Sys2Proof.Machine

/-- The signals of the package; a Bool is true for the _N ball of a pair (R498). -/
inductive Signal where
  | csiClk (n : Nat) (neg : Bool) | csiData (n k : Nat) (neg : Bool)
  | i3cScl (k : Nat) | i3cSda (k : Nat) | fsync (k : Nat)
  | ethTx (n : Nat) (neg : Bool) | ethRx (n : Nat) (neg : Bool) | ethRefclk (neg : Bool)
  | gpio (k : Nat)
  | micClk (n : Nat) | micWs (n : Nat) | micDat (n k : Nat) | micPwrEn (n : Nat)
  | spkBclk (m : Nat) | spkFs (m : Nat) | spkDat (m : Nat) | muteSwN | muteLed
  | xspiClk | xspiDqs | xspiDq (k : Nat) | xspiCsN | xspiResetN
  | porstN | wake | thermTripN | testMode | pmbScl | pmbSda | pmbAlertN | vstepReq | vstepAck | vsenseHost (neg : Bool)
  | tck | tms | tdi | tdo | trstN | uartTxd (n : Nat) | uartRxd (n : Nat) | xtalIn | xtalOut
  deriving DecidableEq, Repr

/-- The supply rails (R496, R505). -/
inductive Rail where
  | vddArith | vddHost | vddSoc | vddSram | vddAon | vddDram | vppDram | vddSerdes | vdda18 | vio18
  deriving DecidableEq, Repr

/-- What a ball carries (R496). -/
inductive Net where
  | gnd
  | rail (r : Rail)
  | signal (g : Signal)
  deriving DecidableEq, Repr

/-! ## Balls (R495 to R497) -/

/-- The letters that name a row are made of, in order: I, O, Q, R, S, X and Z name none. -/
def rowLetters : List String := ["A", "B", "C", "D", "E", "F", "G", "H", "J", "K", "L", "M", "N", "P", "T", "U", "V", "W", "Y"]

/-- The letters of a row index from 1 to 55. -/
def rowName (row : Nat) : String :=
  let last := rowLetters.getD ((row - 1) % 19) ""
  if row ≤ 19 then last else if row ≤ 38 then "A" ++ last else "B" ++ last

/-- A signal group: its origin, its width in orientation R or height in orientation C, and its members, `none` for GND. -/
structure PinGroup where
  row : Nat
  col : Nat
  across : Bool
  size : Nat
  members : List (Option Signal)
  deriving DecidableEq, Repr

/-- The balls of a differential pair and the ground ball beside it. -/
def pairGnd (f : Bool → Signal) : List (Option Signal) := [some (f false), some (f true), none]

/-- *Signal group origins*. -/
def pinGroups : List PinGroup :=
  ((List.range 8).zip [4, 9, 14, 19, 24, 29, 34, 39]).map (fun n =>
    { row := n.2, col := 53, across := true, size := 3
      members := pairGnd (.csiClk n.1) ++ (List.range 4).flatMap fun k => pairGnd (.csiData n.1 k) }) ++
  [{ row := 45, col := 53, across := true, size := 3
     members := ((List.range 4).flatMap fun k => [some (.i3cScl k), some (.i3cSda k), none]) ++
       (List.range 8).map (fun k => some (.fsync k)) ++ [none] }] ++
  ((List.range 4).zip [40, 42, 44, 46]).map (fun n =>
    { row := n.2, col := 1, across := true, size := 3, members := pairGnd (.ethTx n.1) ++ pairGnd (.ethRx n.1) }) ++
  [{ row := 48, col := 1, across := true, size := 3, members := pairGnd .ethRefclk },
   { row := 52, col := 20, across := false, size := 4, members := (List.range 32).map fun k => some (.gpio k) },
   { row := 52, col := 30, across := false, size := 4
     members := ((List.range 4).flatMap fun n =>
       [some (.micClk n), some (.micWs n)] ++ (List.range 4).map fun k => some (.micDat n k)) ++
       (List.range 4).map fun n => some (.micPwrEn n) },
   { row := 52, col := 37, across := false, size := 4
     members := ((List.range 2).flatMap fun m => [some (.spkBclk m), some (.spkFs m), some (.spkDat m), none]) ++
       [some .muteSwN, some .muteLed, none, none] },
   { row := 52, col := 40, across := false, size := 4
     members := [some .xspiClk, none, some .xspiDqs, none] ++ (List.range 8).map (fun k => some (.xspiDq k)) ++
       [some .xspiCsN, some .xspiResetN, none, none] },
   { row := 52, col := 44, across := false, size := 4
     members := [some .porstN, some .wake, some .thermTripN, some .testMode, some .pmbScl, some .pmbSda, some .pmbAlertN, none,
       some .vstepReq, some .vstepAck, some (.vsenseHost false), some (.vsenseHost true)] },
   { row := 52, col := 47, across := false, size := 4
     members := [some .tck, some .tms, some .tdi, some .tdo, some .trstN, none, none, none, some (.uartTxd 0), some (.uartRxd 0),
       some (.uartTxd 1), some (.uartRxd 1)] },
   { row := 52, col := 51, across := false, size := 4, members := [none, some .xtalIn, some .xtalOut, none] }]

/-- The member that a group places at a ball, if the group holds the ball (R497). -/
def groupAt (g : PinGroup) (row col : Nat) : Option (Option Signal) :=
  if row < g.row || col < g.col then none
  else
    let dr := row - g.row
    let dc := col - g.col
    if g.across then (if dc < g.size then g.members[dr * g.size + dc]? else none)
    else if dr < g.size then g.members[dc * g.size + dr]? else none

/-- The rail of the first supply region that holds a ball (*Supply regions*). -/
def railAt (row col : Nat) : Option Rail :=
  let within := fun r0 r1 c0 c1 => decide (r0 ≤ row) && decide (row ≤ r1) && decide (c0 ≤ col) && decide (col ≤ c1)
  if within 4 43 52 52 || within 49 51 49 51 then some .vdda18
  else if within 38 49 4 6 then some .vddSerdes
  else if within 49 51 28 32 then some .vddAon
  else if within 49 51 18 48 || within 44 51 50 52 then some .vio18
  else if within 5 6 20 35 then some .vppDram
  else if within 6 30 5 8 then some .vddHost
  else if within 7 48 9 49 then
    some (match row % 6 with
      | 3 => .vddSram
      | 4 => .vddSoc
      | 5 => .vddDram
      | _ => .vddArith)
  else none

/-- The net of a ball, rows and columns from 1 to 55: the first of the three rules that applies (R496). -/
def ballNet (row col : Nat) : Net :=
  match pinGroups.findSome? fun g => groupAt g row col with
  | some (some x) => .signal x
  | some none => .gnd
  | none => match railAt row col with
    | some x => if (row + col) % 2 = 0 then .rail x else .gnd
    | none => .gnd

/-! ## Levels (R498, R499) -/

/-- What an output pin shows. -/
inductive Level where
  | low | high | hiZ
  deriving DecidableEq, Repr

/-- A level from a bit. -/
def Level.of (b : Bool) : Level := if b then .high else .low

/-- The level of an output while the device is held in reset (*Signal list*); none for an input. -/
def resetLevel (g : Signal) : Option Level :=
  match g with
  | .ethTx _ _ | .i3cScl _ | .i3cSda _ | .xspiDqs | .xspiDq _ | .thermTripN | .pmbScl | .pmbSda | .tdo | .gpio _ => some .hiZ
  | .fsync _ | .micClk _ | .micWs _ | .micPwrEn _ | .spkBclk _ | .spkFs _ | .spkDat _ | .muteLed | .xspiClk | .xspiResetN
  | .vstepReq => some .low
  | .xspiCsN | .uartTxd _ => some .high
  | _ => none

/-- The level that the device drives on an output pin whose state decides it: in reset the one of *Signal list*; in OFF high
impedance, but for the microphones' supplies, which are low, and THERM_TRIP_N, which keeps a trip (R448, R499). None for an input,
and for a pin that carries a waveform the model does not hold. -/
def pinLevel (s : State) (g : Signal) : Option Level :=
  if s.power.held then resetLevel g
  else if g = .thermTripN then some (if s.power.tripped then .low else .hiZ)
  else if powerState s = 4 then
    (match g with
      | .micPwrEn _ => some .low
      | _ => (resetLevel g).map fun _ => .hiZ)
  else match g with
    | .fsync k => some (.of (fsyncHigh s k))
    | .micPwrEn n => some (.of (micPower s n))
    | .muteLed => some (.of s.aud.led)
    | .vstepReq => some (.of s.power.vstep.isSome)
    | .tdo => some (match s.sec.jtag.tdo with
      | some b => .of b
      | none => .hiZ)
    | .gpio k => some (if s.fld (topReg 0x304) k k = 1 then .of (s.fld (topReg 0x300) k k = 1) else .hiZ)
    | .uartTxd 1 => if s.obs.uartTx = [] then some .high else none
    | .xspiResetN => some .high
    | _ => none

end Sys2Proof.Machine
end

