-- ==== Sys2Proof/WellFormed.lean ====
section
/-! DEFINITION. Well-formed commands: every operand names a thing the device has. An operand that names nothing, such as
core 200, can come from no agent and no event; the checks below refuse it. -/

namespace Sys2Proof

/-- An agent of the device: eight host cores, five firmware processors, the 128 gang numbers of 192 cores (R40, R80). -/
def Agent.wf : Agent → Bool
  | .host n => decide (n < 8)
  | .fw p => decide (p < 5)
  | .lane core gang => decide (core < 192) && decide (gang < 128)

/-- A reader of a vault: an agent of the device, a tensor instruction of a core, one of the 16 windows, or a block. -/
def VaultReader.wf : VaultReader → Bool
  | .agent ag => ag.wf
  | .move core _ => decide (core < 192)
  | .window n => decide (n < 16)
  | .block => true

/-- The operands of a command are in range, row by row of the opcode table. -/
def Instr.wf : Instr → Bool
  | .powerOnReset _ => true
  | .loHiReadLatch ag _ => ag.wf
  | .registerWrite ag _ _ => ag.wf
  | .timeTreeRealign => true
  | .holdoverEntry => true
  | .topFtCtrlWrite ag _ => ag.wf
  | .add ag _ _ => ag.wf
  | .sub ag _ _ => ag.wf
  | .mul ag _ _ => ag.wf
  | .mulh ag _ _ => ag.wf
  | .mulhu ag _ _ => ag.wf
  | .div ag _ _ => ag.wf
  | .divu ag _ _ => ag.wf
  | .rem ag _ _ => ag.wf
  | .remu ag _ _ => ag.wf
  | .and ag _ _ => ag.wf
  | .or ag _ _ => ag.wf
  | .xor ag _ _ => ag.wf
  | .shl ag _ _ => ag.wf
  | .shr ag _ _ => ag.wf
  | .sra ag _ _ => ag.wf
  | .min ag _ _ => ag.wf
  | .minu ag _ _ => ag.wf
  | .max ag _ _ => ag.wf
  | .maxu ag _ _ => ag.wf
  | .clz ag _ _ => ag.wf
  | .popc ag _ _ => ag.wf
  | .addp ag _ _ => ag.wf
  | .addi ag _ => ag.wf
  | .andi ag _ => ag.wf
  | .ori ag _ => ag.wf
  | .xori ag _ => ag.wf
  | .shi ag _ => ag.wf
  | .li ag _ => ag.wf
  | .addx ag _ => ag.wf
  | .cmp ag _ _ => ag.wf
  | .pand ag _ => ag.wf
  | .por ag _ => ag.wf
  | .pxor ag _ => ag.wf
  | .pandn ag _ => ag.wf
  | .pnot ag _ => ag.wf
  | .p2g ag _ => ag.wf
  | .g2p ag _ => ag.wf
  | .fadd ag _ => ag.wf
  | .fsub ag _ => ag.wf
  | .fmul ag _ => ag.wf
  | .ffma ag _ => ag.wf
  | .fmin ag _ => ag.wf
  | .fmax ag _ => ag.wf
  | .fabs ag _ => ag.wf
  | .fneg ag _ => ag.wf
  | .fmvGf ag _ => ag.wf
  | .fmvFg ag _ => ag.wf
  | .fexp2 ag _ => ag.wf
  | .flog2 ag _ => ag.wf
  | .frcp ag _ => ag.wf
  | .frsq ag _ => ag.wf
  | .fsig ag _ => ag.wf
  | .ftanh ag _ => ag.wf
  | .cvt ag _ _ => ag.wf
  | .add2 ag _ _ => ag.wf
  | .mul2 ag _ _ => ag.wf
  | .fma2 ag _ _ => ag.wf
  | .min2 ag _ _ => ag.wf
  | .max2 ag _ _ => ag.wf
  | .ldb ag _ => ag.wf
  | .ldbu ag _ => ag.wf
  | .ldh ag _ => ag.wf
  | .ldhu ag _ => ag.wf
  | .ldw ag _ => ag.wf
  | .ldwu ag _ => ag.wf
  | .ldd ag _ => ag.wf
  | .stb ag _ => ag.wf
  | .sth ag _ => ag.wf
  | .stw ag _ => ag.wf
  | .std ag _ => ag.wf
  | .ldwAcq ag _ _ => ag.wf
  | .lddAcq ag _ _ => ag.wf
  | .stwRel ag _ _ => ag.wf
  | .stdRel ag _ _ => ag.wf
  | .fenceAcq ag _ _ => ag.wf
  | .fenceRel ag _ _ => ag.wf
  | .fenceAr ag _ _ => ag.wf
  | .atomAdd ag _ _ _ => ag.wf
  | .atomMin ag _ _ _ => ag.wf
  | .atomMax ag _ _ _ => ag.wf
  | .atomAnd ag _ _ _ => ag.wf
  | .atomOr ag _ _ _ => ag.wf
  | .atomXor ag _ _ _ => ag.wf
  | .atomSwap ag _ _ _ => ag.wf
  | .atomCas ag _ _ _ => ag.wf
  | .atomArAdd ag _ _ _ => ag.wf
  | .atomArMin ag _ _ _ => ag.wf
  | .atomArMax ag _ _ _ => ag.wf
  | .atomArAnd ag _ _ _ => ag.wf
  | .atomArOr ag _ _ _ => ag.wf
  | .atomArXor ag _ _ _ => ag.wf
  | .atomArSwap ag _ _ _ => ag.wf
  | .atomArCas ag _ _ _ => ag.wf
  | .bra ag _ => ag.wf
  | .call ag _ => ag.wf
  | .jr ag _ => ag.wf
  | .bral ag _ => ag.wf
  | .nop ag _ => ag.wf
  | .exit ag _ => ag.wf
  | .bar ag _ => ag.wf
  | .yield ag _ => ag.wf
  | .upcall ag _ => ag.wf
  | .brk ag _ => ag.wf
  | .tret ag _ => ag.wf
  | .snooze ag _ => ag.wf
  | .iflush ag _ => ag.wf
  | .yieldExpiry core gang => decide (core < 192) && decide (gang < 128)
  | .rds ag _ => ag.wf
  | .crd ag _ => ag.wf
  | .cwr ag _ => ag.wf
  | .cmsk ag _ => ag.wf
  | .timerInterruptPending ag => ag.wf
  | .interruptTake ag => ag.wf
  | .shfl ag _ => ag.wf
  | .ballot ag _ => ag.wf
  | .any ag _ => ag.wf
  | .all ag _ => ag.wf
  | .radd ag _ => ag.wf
  | .rmin ag _ => ag.wf
  | .rmax ag _ => ag.wf
  | .fradd ag _ => ag.wf
  | .frmin ag _ => ag.wf
  | .frmax ag _ => ag.wf
  | .tsig ag _ _ => ag.wf
  | .tadd ag _ _ => ag.wf
  | .twait ag _ _ => ag.wf
  | .tread ag _ _ => ag.wf
  | .twaitTimeout ag lane => ag.wf && decide (lane < 64)
  | .tdld ag _ => ag.wf
  | .tdw ag _ => ag.wf
  | .tdst ag _ => ag.wf
  | .fmove ag _ => ag.wf
  | .tmma ag _ => ag.wf
  | .tdrain ag _ => ag.wf
  | .accScale ag _ => ag.wf
  | .tclr ag _ => ag.wf
  | .trec ag _ => ag.wf
  | .stateAudit ag _ => ag.wf
  | .tsync ag _ => ag.wf
  | .rope ag _ => ag.wf
  | .tmask ag _ => ag.wf
  | .tsmaxStep ag _ => ag.wf
  | .tsmaxFinal ag _ => ag.wf
  | .tsmaxMerge ag _ => ag.wf
  | .tsmaxInit ag _ => ag.wf
  | .tensorInstrStart core _ => decide (core < 192)
  | .tensorInstrFinish core _ => decide (core < 192)
  | .prismFeedFetch core => decide (core < 192)
  | .fmoveFinish core _ => decide (core < 192)
  | .gangAdmit core _ gang banks => decide (core < 192) && decide (gang < 128) && (banks.all fun b => decide (b < 4))
  | .gangRetire core gang => decide (core < 192) && decide (gang < 128)
  | .gangParkSwap core => decide (core < 192)
  | .coreFltCauseClear ag core _ => ag.wf && decide (core < 192)
  | .illegalInstr ag _ _ => ag.wf
  | .snapshotTake => true
  | .uart1ByteRx _ => true
  | .uart1ByteSent => true
  | .chunkStart n => decide (n < 16)
  | .chunkLanded n _ => decide (n < 16)
  | .tlbinvDone => true
  | .patrolRead pa err => decide (pa < 2 ^ 48) && decide (err < 3)
  | .vaultRefresh v waited => decide (v < 16) && decide (waited ≤ 120)
  | .vaultRetrainEnd v _ => decide (v < 16)
  | .cardFetch n => decide (n < 16384)
  | .parcelTake card => decide (card < 16384)
  | .parcelWaitTimeout _ => true
  | .permitGrant => true
  | .permitTimeout _ => true
  | .parcelRerun _ => true
  | .kvOpen => true
  | .close => true
  | .pin => true
  | .unpin => true
  | .append => true
  | .tappend => true
  | .commit => true
  | .discard => true
  | .kvBadRequest => true
  | .recomputeComplete _ => true
  | .ethFrameRx n _ _ => decide (n < 4)
  | .ethFrameTxStart n => decide (n < 5)
  | .gateControlEntry n => decide (n < 4)
  | .qbvConfigChange n => decide (n < 4)
  | .linkDown n _ => decide (n < 4)
  | .linkUp n _ => decide (n < 4)
  | .ethTblRead => true
  | .ethTblWrite => true
  | .fdbAgeOut n => decide (n < 8192)
  | .cbHistoryReset n => decide (n < 512)
  | .sakRekey n => decide (n < 4)
  | .mkaTimer n => decide (n < 4)
  | .gptpMessageInterval d => decide (d < 2)
  | .flowTxTake n => decide (n < 16384)
  | .mailboxDeliver n => decide (n < 16384)
  | .mailboxTxTake n => decide (n < 16384)
  | .reassemblyTimeout n => decide (n < 4096)
  | .powerDrainTimeout => true
  | .autoIdleEntry => true
  | .wakePin => true
  | .wakeTimer => true
  | .dvfsStepEnd c => decide (c < 17)
  | .vstepAck => true
  | .vstepTimeout => true
  | .clusterWake c => decide (c < 16)
  | .ledgerRefill => true
  | .ledgerRateUpdate _ _ _ _ => true
  | .droopDetect c => decide (c < 17)
  | .droopStretchEnd c => decide (c < 17)
  | .tempSample temps => decide (temps.length = 34)
  | .thermalTrip => true
  | .parcelWaitEnd _ => true
  | .reflexCoreReady n => decide (n < 16)
  | .reflexFrameLanding => true
  | .reflexTick n k => decide (n < 16) && decide (k < 4)
  | .reflexArriveLatch n k => decide (n < 16) && decide (k < 4)
  | .reflexStepStart n => decide (n < 16)
  | .reflexStepEnd n k => decide (n < 16) && decide (k < 4)
  | .reflexOutputFrame n k => decide (n < 16) && decide (k < 4)
  | .reflexGroupEnd n k => decide (n < 16) && decide (k < 4)
  | .reflexHoldExpiry n k => decide (n < 16) && decide (k < 4)
  | .reflexResume n k => decide (n < 16) && decide (k < 4)
  | .micClockStart n => decide (n < 4)
  | .archiveRowComplete _ => true
  | .archiveCopyEnd => true
  | .micBlockDeliver n _ => decide (n < 16384)
  | .outputBlockPlay n => decide (n < 16384)
  | .cameraFrameStart port vc fnum _ => decide (port < 8) && decide (vc < 4) && decide (fnum < 65536)
  | .csiLine port vc dt _ _ _ => decide (port < 8) && decide (vc < 4) && decide (dt < 64)
  | .embeddedDataPacket port vc _ _ => decide (port < 8) && decide (vc < 4)
  | .cameraFrameEnd port vc _ => decide (port < 8) && decide (vc < 4)
  | .frameWatchdogExpiry n => decide (n < 16384)
  | .csiPacketDiscard port cause => decide (port < 8) && decide (cause < 3)
  | .csiLinkStateChange port link _ => decide (port < 8) && decide (link < 4)
  | .ispLineProcess pipe => decide (pipe < 2)
  | .fsyncEdge k => decide (k < 8)
  | .i3cXferStart k => decide (k < 4)
  | .i3cXferDone k _ _ => decide (k < 4)
  | .muteEngage => true
  | .muteRelease => true
  | .loupeFrame n xs => decide (n < 4) && decide (xs.length = 160)
  | .lensHop n _ => decide (n < 4)
  | .frameDeliver n => decide (n < 16384)
  | .verdictDeadline k => decide (k < 32)
  | .demotionExpiry k => decide (k < 32)
  | .periodicSubmit k => decide (k < 32)
  | .ticketMove => true
  | .paceResend => true
  | .powerEntryBegin => true
  | .deepSleepEntryBegin => true
  | .powerEntryComplete => true
  | .powerReturn => true
  | .cardTakeUp n => decide (n < 16384)
  | .fwpRestartEnd p => decide (p < 5)
  | .watchdogExpiry p => decide (p < 5)
  | .fwFlashWriteEnd => true
  | .parcelComplete _ => true
  | .leaseExpiry n => decide (n < 4096)
  | .holdExpiry n => decide (n < 4096)
  | .sessionRelease n => decide (n < 4096)
  | .coreFence core cause => decide (core < 192) && decide ((cause = 1 ∨ cause = 2))
  | .hangDetect core => decide (core < 192)
  | .supplyMonitorFence cl => decide (cl < 16)
  | .entryCheckEnd core _ => decide (core < 192)
  | .degradedTimeout _ => true
  | .spareBistStart core => decide (core < 192)
  | .bistEnd core fails _ => decide (core < 192) && decide (fails < 3)
  | .reinstateBist core => decide (core < 192)
  | .rollingSwapStart => true
  | .rollingSwapTimeout => true
  | .rollingSwapCopyEnd => true
  | .ledgerAppend => true
  | .ledgerCompact => true
  | .rowSparing pa waited => decide (pa < 2 ^ 48) && decide (waited ≤ 2000)
  | .vaultAccessTimeout rd _ pa _ => rd.wf && decide (pa < 2 ^ 48)
  | .schedTallyAlloc ag => ag.wf
  | .schedTallyFree ag _ => ag.wf
  | .schedCardSync ag _ => ag.wf
  | .contextEnable ag _ _ => ag.wf
  | .contextDisable ag _ => ag.wf
  | .schedDb ag _ => ag.wf
  | .schedHeartbeat ag _ => ag.wf
  | .reflexCoreEnable ag _ _ => ag.wf
  | .reflexCoreDisable ag _ => ag.wf
  | .reflexResetMark ag _ _ => ag.wf
  | .reflexStop ag _ => ag.wf
  | .pidxRqDb ag _ => ag.wf
  | .vltCmapWrite ag _ _ => ag.wf
  | .vltTlbinv ag _ _ => ag.wf
  | .vltLblkWrite ag _ _ => ag.wf
  | .windowStart ag _ => ag.wf
  | .windowStop ag _ => ag.wf
  | .fwpRestartRequest ag p => ag.wf && decide (p < 5)
  | .fwpKick p => decide (p < 5)
  | .qbvChange ag _ _ => ag.wf
  | .ethFlowDb ag _ => ag.wf
  | .archiveCopy ag _ => ag.wf
  | .audRingDb ag _ => ag.wf
  | .csiRingDb ag _ => ag.wf
  | .ispArm ag _ _ => ag.wf
  | .i3cXfer ag _ _ => ag.wf
  | .ladderEnable ag _ => ag.wf
  | .ladderDisable ag => ag.wf
  | .ladderReload ag => ag.wf
  | .audLadAck ag _ => ag.wf
  | .pwrStateRequest ag _ => ag.wf
  | .dvfsTargetWrite ag c _ => ag.wf && decide (c < 17)
  | .dvfsVselWrite ag c _ => ag.wf && decide (c < 17)
  | .clkDivWrite ag c _ => ag.wf && decide (c < 16)
  | .pwrCapWrite ag _ => ag.wf
  | .pwrModeWrite ag _ => ag.wf
  | .fixFence ag _ => ag.wf
  | .modelMeasure ag _ => ag.wf
  | .topSnapArm ag => ag.wf
  | .topSnapCancel ag => ag.wf
  | .obsTrcAck ag _ => ag.wf
  | .errSumClear ag _ => ag.wf
  | .uart1Send ag _ => ag.wf
  | .uart1ReceiveRead ag => ag.wf
  | .settleEnd => true
  | .tenantSwitchEnd => true
  | .modelMeasureEnd => true
  | .jtagTckEdge _ _ _ => true
  | .hello => true
  | .bye => true
  | .heartbeat => true
  | .leaseCfg => true
  | .submit => true
  | .cardSync => true
  | .doorbell => true
  | .tallyAlloc => true
  | .tallyFree => true
  | .tallyOpTsig => true
  | .tallyOpTadd => true
  | .tallyOpTread => true
  | .tallyWatch => true
  | .tallyWatchTimeout session _ => decide (session < 4096)
  | .read => true
  | .write => true
  | .snapshot => true
  | .regRead => true
  | .regWrite => true
  | .logRead => true
  | .powerState => true
  | .powerCap => true
  | .paceBind => true
  | .pace => true
  | .propose => true
  | .countersign => true
  | .attest => true
  | .fwUpdate => true
  | .fwRestart => true
  | .messageUnknownOpcode => true
  | .supplyBelowRange => true

end Sys2Proof
end

