-- ==== Sys2Proof/Safety.lean ====
section
/-! DEFINITION. What counts as a sound state and a safe run, in the terms the statements use. -/

namespace Sys2Proof.Machine

/-- The memory is in its canonical form: addresses strictly rise, and no entry equals what an unlisted address reads as. -/
abbrev State.memWf (s : State) : Prop := SMap.wf (memDefault s.lost) s.mem = true

/-- The register file, the mirror bank and the latches are in canonical form: an unlisted register holds its reset value
(R11, R13). -/
abbrev State.regsWf (s : State) : Prop :=
  SMap.wf regReset s.regs = true ∧ SMap.wf regReset s.mirror = true ∧ SMap.wf (fun _ => 0) s.latch = true

/-- Harts, cores, gangs and tallies are listed once each, in rising order of their keys. -/
abbrev State.unitsWf (s : State) : Prop :=
  SMap.wf (fun _ => ({} : Hart)) s.harts = true ∧ SMap.wf (fun _ => ({} : Machine.Core)) s.cores = true ∧
    SMap.rising s.gangs = true ∧ SMap.wf (fun _ => ({} : Tally)) s.tallies = true

/-- Every local copy of fabric time stands at most 4 ns behind the master, and has read no later time (R27, R29). -/
abbrev State.timesWf (s : State) : Prop := ∀ c ∈ s.copies, c.2.1 ≤ 4 ∧ c.2.2 ≤ s.now

/-- The state invariant: every sparse map is in its one canonical form, so equal contents are equal states, and the local copies
of fabric time are close to the master. -/
structure State.Sound (s : State) : Prop where
  mem : s.memWf
  regs : s.regsWf
  units : s.unitsWf
  times : s.timesWf

/-- A step is safe when it answers a next state. -/
def Safe (s : State) : Prop := ∃ t, step s = .next t

/-- The commands whose effect is a start of the device and not a run from the present state. -/
def Reboots : Instr → Prop
  | .powerOnReset _ => True
  | .supplyBelowRange => True
  | .fwRestart => True
  | _ => False

/-- The words of an instruction that the spec encodes, and the agent that issues it; the words of no instruction, which
ILLEGAL_INSTR carries, are not among them. -/
def Spells (i : Instr) (ag : Agent) (w : Words) : Prop :=
  instrWords i = some (ag, w) ∧ ∀ a x y, i ≠ .illegalInstr a x y

/-- Everything but memory, time, the registers and one named unit is out of a command's reach: two states agree on the units
of the device that the ISA does not touch. -/
structure SameBlocks (s t : State) : Prop where
  pending : t.pending = s.pending
  kv : t.kv = s.kv
  mhy : t.mhy = s.mhy
  eth : t.eth = s.eth
  rfx : t.rfx = s.rfx
  aud : t.aud = s.aud
  cam : t.cam = s.cam
  lad : t.lad = s.lad
  fix : t.fix = s.fix
  sec : t.sec = s.sec
  power : t.power = s.power
  ledger : t.ledger = s.ledger

/-! ## Where an instruction issues -/

/-- A hart of an agent runs, and its fetch of an instruction's words succeeds, leaving the run r (R77, R94, R98). -/
structure OnHart (s : State) (ag : Agent) (key : Nat) (w : Words) (r : Run s) : Prop where
  up : s.halted = false
  agent : hartOf ag = some key
  awake : awake s = true
  running : (s.hart key).running = true
  watching : (s.hart key).snoozing = false
  free : hartWaits s key = false
  fetched : hartFetch (Run.start s) key (s.hart key) (w.at (s.hart key).pc.toNat) = .ok r

/-- The hart as its instruction's effect begins: the program counter past the instruction, which is counted (R44, R75). -/
def Hart.issued (h : Hart) (w : Words) : Hart := { h with pc := h.pc + BitVec.ofNat 64 w.len, retired := h.retired + 1 }

/-- A gang is ready and its core's turn is its, its fetch of an instruction's words succeeds, leaving the run r, and the
registers and descriptors named are ones it has (R82, R89, R94). -/
structure OnLane (s : State) (c g : Nat) (w : Words) (regs tds : List Nat) (x : Gang) (r : Run s) : Prop where
  up : s.halted = false
  gang : s.gang? c g = some x
  ready : gangReady s c g = true
  turn : issueTurn s c g = true
  fetched : laneFetch (Run.start s) (gangX s x) (w.at (x.minPc.getD 0)) = .ok r
  regs : regs.any (· ≥ x.nreg) = false
  tds : tds.any (· ≥ x.ntd) = false

/-- The gang as its instruction's effect begins: each active thread's program counter is past the instruction (R61). -/
def Gang.advanced (x : Gang) (w : Words) : Gang :=
  x.mapLanes x.active fun _ t => { t with pc := BitVec.ofNat 48 (x.minPc.getD 0 + w.len) }

/-- The active threads whose guard holds (R47). -/
def Gang.enabled (x : Gang) (guard : BitVec 4) : List Nat := x.active.filter fun l => (x.thread l).guardOk guard

/-- An instruction, made for an agent, completes on a hart as a change of the hart alone. -/
def HartResult (mk : Agent → Instr) (ok : Agent → Hart → Prop) (out : Hart → Hart) : Prop :=
  ∀ (s : State) (ag : Agent) (key : Nat) (r : Run s), OnHart s ag key (wordsOf (mk ag)) r → ok ag (s.hart key) →
    exec (mk ag) s = .next (r.setHart key (out ((s.hart key).issued (wordsOf (mk ag))))).s

/-- An instruction, made for an agent, raises an exception on a hart, which is taken at the instruction (R73, R77). -/
def HartTraps (mk : Agent → Instr) (ok : Agent → Hart → Prop) (cause : Hart → Cause) (tval : Hart → Nat) : Prop :=
  ∀ (s : State) (ag : Agent) (key : Nat) (r : Run s), OnHart s ag key (wordsOf (mk ag)) r → ok ag (s.hart key) →
    exec (mk ag) s =
      .next (r.hartTrap key (s.hart key) (cause (s.hart key)) (tval (s.hart key)) (wordsOf (mk ag)).long).s

/-- An instruction, made for an agent, completes in a gang as a change of the whole gang. -/
def GangResult (mk : Agent → Instr) (guard : BitVec 4) (regs : List Nat)
    (out : (s : State) → Nat → Nat → List Nat → Gang → Gang → Gang) : Prop :=
  ∀ (s : State) (c g : Nat) (x : Gang) (r : Run s), OnLane s c g (wordsOf (mk (.lane c g))) regs [] x r →
    exec (mk (.lane c g)) s =
      .next (noteIssue (r.setGang c g (out s c g (x.enabled guard) x (x.advanced (wordsOf (mk (.lane c g)))))) c g).s

/-- An instruction, made for an agent, completes in a gang as a change of each enabled thread. -/
def LaneResult (mk : Agent → Instr) (regs : List Nat) (guard : BitVec 4) (out : Thread → Thread) : Prop :=
  GangResult mk guard regs fun _ _ _ en _ y => y.mapLanes en fun _ t => out t

/-- An instruction that the lane profile does not have raises ILLEGAL_INSTR in every active thread (R40, R45). -/
def LaneIllegal (mk : Agent → Instr) : Prop :=
  ∀ (s : State) (c g : Nat) (x : Gang) (r : Run s), OnLane s c g (wordsOf (mk (.lane c g))) [] [] x r →
    exec (mk (.lane c g)) s =
      .next (faultLanes (Run.start s) c g (x.minPc.getD 0)
        (x.active.map fun l => (l, .illegal, (wordsOf (mk (.lane c g))).w0.toNat))).s

/-- An instruction that the host profile does not have raises ILLEGAL_INSTR with its first word (R40, R45, R77). -/
def HartIllegal (mk : Agent → Instr) : Prop :=
  ∀ (s : State) (ag : Agent) (key : Nat) (r : Run s), OnHart s ag key (wordsOf (mk ag)) r →
    exec (mk ag) s =
      .next (r.hartTrap key (s.hart key) .illegal (wordsOf (mk ag)).w0.toNat (wordsOf (mk ag)).long).s

/-- Any agent and any hart. -/
def anyHart : Agent → Hart → Prop := fun _ _ => True

/-- A host core whose FPEN is 1. -/
def fpHart : Agent → Hart → Prop := fun ag h => (∃ n, ag = .host n) ∧ h.fpen = true

/-- A firmware processor, or a host core whose FPEN is 0. -/
def noFpHart : Agent → Hart → Prop := fun ag h => (∃ p, ag = .fw p) ∨ h.fpen = false

/-- A row of the ALU group: 64-bit operands on a hart, or the low words with a sign-extended result where bit 5 of func is 1;
32-bit operands in a lane, which has no form with func bit 5 set; a row of one operand has B = 0 (R50). -/
def AluRow (mk : Agent → Bool → R3 → Instr) (unary : Bool) (op : (w : Nat) → BitVec w → BitVec w → BitVec w) : Prop :=
  (∀ (w32 : Bool) (f : R3), (unary = true → f.b = 0) →
    (f.guard = 0 → HartResult (fun ag => mk ag w32 f) anyHart fun h => h.wg f.d
      (if w32 then (op 32 ((h.rg f.a).truncate 32) ((h.rg f.b).truncate 32)).signExtend 64
        else op 64 (h.rg f.a) (h.rg f.b))) ∧
    LaneResult (fun ag => mk ag false f) [f.d.toNat, f.a.toNat, f.b.toNat] f.guard fun t =>
      t.wg f.d.toNat (op 32 (t.rg f.a.toNat) (t.rg f.b.toNat))) ∧
  (∀ f : R3, LaneIllegal (fun ag => mk ag true f)) ∧
  (∀ (w32 : Bool) (f : R3), unary = true → f.b ≠ 0 →
    HartIllegal (fun ag => mk ag w32 f) ∧ LaneIllegal (fun ag => mk ag w32 f))

/-- A row of one register operand and an immediate, at each profile's width (R51). -/
def ImmRow (mk : Agent → Instr) (guard : BitVec 4) (d a : BitVec 5) (op : (w : Nat) → BitVec w → BitVec w) : Prop :=
  (guard = 0 → HartResult mk anyHart fun h => h.wg d (op 64 (h.rg a))) ∧
    LaneResult mk [d.toNat, a.toNat] guard fun t => t.wg d.toNat (op 32 (t.rg a.toNat))

/-- An integer condition of CMP: 0 or 1 in gD of a hart, a predicate in a lane (R52). -/
def CmpRow (func : BitVec 6) (rel : (w : Nat) → BitVec w → BitVec w → Bool) : Prop :=
  ∀ f : R3,
    (f.guard = 0 → HartResult (fun ag => .cmp ag func f) anyHart fun h =>
      h.wg f.d (if rel 64 (h.rg f.a) (h.rg f.b) then 1 else 0)) ∧
    (f.d.toNat < 8 → LaneResult (fun ag => .cmp ag func f) [f.a.toNat, f.b.toNat] f.guard fun t =>
      t.wp f.d.toNat (rel 32 (t.rg f.a.toNat) (t.rg f.b.toNat)))

/-- An FP32 condition of CMP: over f registers, with flags, on a host core whose FPEN is 1; over g registers in a lane (R52). -/
def FcmpRow (func : BitVec 6) : Prop :=
  ∀ f : R3,
    (f.guard = 0 → HartResult (fun ag => .cmp ag func f) fpHart fun h =>
      (h.wg f.d (if (Fp.fcmp func.toNat (h.rf f.a) (h.rf f.b)).1 then 1 else 0)).addFlags
        (Fp.fcmp func.toNat (h.rf f.a) (h.rf f.b)).2) ∧
    (f.d.toNat < 8 → LaneResult (fun ag => .cmp ag func f) [f.a.toNat, f.b.toNat] f.guard fun t =>
      t.wp f.d.toNat (Fp.fcmp func.toNat (t.rg f.a.toNat) (t.rg f.b.toNat)).1)

/-- A row of the PRED group, lane profile only; a field that names no predicate, or that must be 0 and is not, is illegal (R53). -/
def PredRow (mk : Agent → R3 → Instr) (ok : R3 → Prop) (regs : R3 → List Nat) (op : R3 → Thread → Thread) : Prop :=
  ∀ f : R3, (ok f → LaneResult (fun ag => mk ag f) (regs f) f.guard (op f)) ∧
    (¬ ok f → LaneIllegal (fun ag => mk ag f)) ∧ HartIllegal (fun ag => mk ag f)

/-- A row of the FPU or SFU group: f registers, flags and csr_fpctl.RND on a host core, to nearest-even in a lane, FP_DISABLED
where there is no floating point (R54, R55, R79). -/
def FpRow (mk : Agent → R3 → Instr) (unary : Bool) (op : Fp.Rnd → W32 → W32 → W32 → W32 × Fp.Flags) : Prop :=
  ∀ f : R3, (unary = true → f.b = 0) →
    (f.guard = 0 →
      (HartResult (fun ag => mk ag f) fpHart fun h => h.withFp f.d (op h.rnd (h.rf f.a) (h.rf f.b) (h.rf f.d))) ∧
      HartTraps (fun ag => mk ag f) noFpHart (fun _ => .fpDisabled) fun _ => (wordsOf (mk (.host 0) f)).w0.toNat) ∧
    LaneResult (fun ag => mk ag f) [f.d.toNat, f.a.toNat, f.b.toNat] f.guard fun t =>
      t.wg f.d.toNat (op .nearest (t.rg f.a.toNat) (t.rg f.b.toNat) (t.rg f.d.toNat)).1

/-- A row of the PK group, lane profile only: two FP16 or BF16 halves (R57). -/
def PkRow (mk : Agent → Bool → R3 → Instr) (func : Nat) : Prop :=
  ∀ (fp16 : Bool) (f : R3),
    (LaneResult (fun ag => mk ag fp16 f) [f.d.toNat, f.a.toNat, f.b.toNat] f.guard fun t =>
      t.wg f.d.toNat (Fp.pk fp16 func (t.rg f.a.toNat) (t.rg f.b.toNat) (t.rg f.d.toNat))) ∧
    HartIllegal (fun ag => mk ag fp16 f)

/-- A row of the XLANE group, lane profile only: each enabled thread is changed from the gang as it stood (R65). -/
def XlaneRow (mk : Agent → R3 → Instr) (ok : R3 → Prop) (regs : R3 → List Nat)
    (write : R3 → List Nat → Gang → Thread → Thread) : Prop :=
  ∀ f : R3, ok f →
    (GangResult (fun ag => mk ag f) f.guard (regs f) fun _ _ _ en _ y => y.mapLanes en fun _ t => write f en y t) ∧
    HartIllegal (fun ag => mk ag f)

/-! ## Memory accesses -/

/-- A load on a hart (R58, R77): alignment, then translation, then access; a word from memory or from a control register. -/
def HartLoads (mk : Agent → Instr) (m : MemOp) (d : BitVec 5) (ea : Hart → W64) : Prop :=
  ∀ (s : State) (ag : Agent) (key : Nat) (r : Run s), OnHart s ag key (wordsOf (mk ag)) r →
    let h := (s.hart key).issued (wordsOf (mk ag))
    let a := (ea h).toNat
    let trap := fun (c : Cause) => Host.Outcome.next (r.hartTrap key (s.hart key) c a (wordsOf (mk ag)).long).s
    (a % m.size ≠ 0 → exec (mk ag) s = trap .loadMisaligned) ∧
    (a % m.size = 0 → (∀ e, r.hartAddr key h .load a m.size = .error e → exec (mk ag) s = trap (loadCause e)) ∧
      ∀ pa r', r.hartAddr key h .load a m.size = .ok (pa, r') →
        (place r'.s ag false m.regs pa = none → exec (mk ag) s = trap .loadAccess) ∧
        (∀ p, place r'.s ag false m.regs pa = some (.mem p) →
          (r'.s.isUe p = true → exec (mk ag) s = trap .loadAccess) ∧
          (r'.s.isUe p = false →
            exec (mk ag) s = .next (r'.setHart key (h.wg d (m.extend 64 (r'.s.load p m.size)))).s)) ∧
        (∀ k, place r'.s ag false m.regs pa = some (.reg k) → exec (mk ag) s =
          .next ((r'.regRead (some ag) k).2.setHart key (h.wg d (m.extend 64 (r'.regRead (some ag) k).1))).s))

/-- A store on a hart (R58, R77): to the bytes from the address its operands give, or to a control register. -/
def HartStores (mk : Agent → Instr) (m : MemOp) (b : BitVec 5) (ea : Hart → W64) : Prop :=
  ∀ (s : State) (ag : Agent) (key : Nat) (r : Run s), OnHart s ag key (wordsOf (mk ag)) r →
    let h := (s.hart key).issued (wordsOf (mk ag))
    let a := (ea h).toNat
    let trap := fun (c : Cause) => Host.Outcome.next (r.hartTrap key (s.hart key) c a (wordsOf (mk ag)).long).s
    (a % m.size ≠ 0 → exec (mk ag) s = trap .storeMisaligned) ∧
    (a % m.size = 0 → (∀ e, r.hartAddr key h .store a m.size = .error e → exec (mk ag) s = trap (storeCause e)) ∧
      ∀ pa r', r.hartAddr key h .store a m.size = .ok (pa, r') →
        (place r'.s ag true m.regs pa = none → exec (mk ag) s = trap .storeAccess) ∧
        (∀ p, place r'.s ag true m.regs pa = some (.mem p) →
          exec (mk ag) s = .next ((r'.storeMem p m.size (h.rg b).toNat).setHart key h).s) ∧
        (∀ k, place r'.s ag true m.regs pa = some (.reg k) → ∃ t, exec (mk ag) s = .next t ∧
          t = (let w := ((r'.setHart key h).regWrite (some ag) k ((h.rg b).toNat % 2 ^ 32)).settleSignals
            (w.setHart key (w.s.hart key)).s)))

/-- An atomic on a hart (R60): the old value in D, memory changed as its operation says. -/
def HartAtoms (mk : Agent → Instr) (op : AtomOp) (m : MemOp) (f : R3) : Prop :=
  ∀ (s : State) (ag : Agent) (key : Nat) (r : Run s), OnHart s ag key (wordsOf (mk ag)) r →
    let h := (s.hart key).issued (wordsOf (mk ag))
    let a := (h.rg f.a).toNat
    let trap := fun (c : Cause) => Host.Outcome.next (r.hartTrap key (s.hart key) c a (wordsOf (mk ag)).long).s
    (a % m.size ≠ 0 → exec (mk ag) s = trap .storeMisaligned) ∧
    (a % m.size = 0 → (∀ e, r.hartAddr key h .atomic a m.size = .error e → exec (mk ag) s = trap (storeCause e)) ∧
      ∀ pa r', r.hartAddr key h .atomic a m.size = .ok (pa, r') →
        ((∀ p, place r'.s ag true false pa ≠ some (.mem p)) → exec (mk ag) s = trap .storeAccess) ∧
        (∀ p, place r'.s ag true false pa = some (.mem p) →
          (r'.s.isUe p = true → exec (mk ag) s = trap .storeAccess) ∧
          (r'.s.isUe p = false → exec (mk ag) s =
            let old := r'.s.load p m.size
            .next ((match op.stored m.size old (h.rg f.b).toNat (h.rg f.d).toNat with
              | some v => r'.storeMem p m.size v
              | none => r').setHart key (h.wg f.d (m.extend 64 old))).s)))

/-- An access of a gang (R58, R60, R78): every enabled thread's place is found first, in the order of a draw (R103), and where any raises a cause
none of them has its effect; else `out` gives the run and the gang after it. -/
def LaneAccess (mk : Agent → Instr) (guard : BitVec 4) (regs : List Nat) (k : Access) (m : MemOp) (a : BitVec 5) (off : Int)
    (out : {s : State} → Nat → Nat → Run s → List (Nat × Place) → Gang → Run s) : Prop :=
  ∀ (s : State) (c g : Nat) (x : Gang) (r : Run s), OnLane s c g (wordsOf (mk (.lane c g))) regs [] x r →
    let y := x.advanced (wordsOf (mk (.lane c g)))
    let found := lanesAt r (.lane c g) (gangX r.s y) k m y (x.enabled guard) a.toNat off
    (found.2.2 ≠ [] → exec (mk (.lane c g)) s = .next (faultLanes (Run.start s) c g (x.minPc.getD 0) found.2.2).s) ∧
    (found.2.2 = [] → exec (mk (.lane c g)) s = .next (noteIssue (out c g found.1 found.2.1 y) c g).s)

/-- The loads of a gang's threads in the order of their places. -/
def laneLoaded (m : MemOp) (d : BitVec 5) {s : State} (c g : Nat) (r : Run s) (places : List (Nat × Place)) (y : Gang) : Run s :=
  let p := places.foldl (fun (p : Run s × Gang) lp =>
    let (v, r) := match lp.2 with
      | .mem pa => (p.1.s.load pa m.size, p.1)
      | .reg k => p.1.regRead (some (.lane c g)) k
    (r, p.2.setThread lp.1 (sizedPut (p.2.thread lp.1) m d v))) (r, y)
  p.1.setGang c g p.2

/-- The stores of a gang's threads in the order of their places. -/
def laneStored (m : MemOp) (b : BitVec 5) {s : State} (c g : Nat) (r : Run s) (places : List (Nat × Place)) (y : Gang) : Run s :=
  let r := (r.setGang c g y).each places fun lp r =>
    let v := sizedGet (y.thread lp.1) m.size b
    match lp.2 with
    | .mem pa => r.storeMem pa m.size v
    | .reg k => r.regWrite (some (.lane c g)) k v
  r.when (places.any fun lp => match lp.2 with
    | .reg _ => true
    | .mem _ => false) Run.settleSignals

/-- The atomics of a gang's threads in the order of their places. -/
def laneAtoms (op : AtomOp) (m : MemOp) (f : R3) {s : State} (c g : Nat) (r : Run s) (places : List (Nat × Place)) (y : Gang) :
    Run s :=
  let p := places.foldl (fun (p : Run s × Gang) lp =>
    match lp.2 with
    | .reg _ => p
    | .mem pa =>
      let t := p.2.thread lp.1
      let q := p.1.atomAt op m.size pa (sizedGet t m.size f.b) (sizedGet t m.size f.d)
      (q.2, p.2.setThread lp.1 (sizedPut t m f.d q.1))) (r, y)
  p.1.setGang c g p.2

/-- The registers of a lane that hold a value of a size: a register, or a pair that starts at an even one (R42). -/
def laneRegs (size : Nat) (n : BitVec 5) : List Nat := if size = 8 then [n.toNat, n.toNat + 1] else [n.toNat]

/-- A load in both profiles, or in the host profile alone. -/
def LoadRow (mk : Agent → Instr) (m : MemOp) (lane : Bool) (guard : BitVec 4) (d a : BitVec 5) (off : Int) : Prop :=
  (guard = 0 → HartLoads mk m d fun h => h.rg a + BitVec.ofInt 64 off) ∧
    (lane = true → a.toNat % 2 = 0 → (m.size = 8 → d.toNat % 2 = 0) →
      LaneAccess mk guard (laneRegs m.size d ++ laneRegs 8 a) .load m a off (laneLoaded m d)) ∧
    (lane = false → LaneIllegal mk)

/-- A store in both profiles. -/
def StoreRow (mk : Agent → Instr) (m : MemOp) (guard : BitVec 4) (b a : BitVec 5) (off : Int) : Prop :=
  (guard = 0 → HartStores mk m b fun h => h.rg a + BitVec.ofInt 64 off) ∧
    (a.toNat % 2 = 0 → (m.size = 8 → b.toNat % 2 = 0) →
      LaneAccess mk guard (laneRegs m.size b ++ laneRegs 8 a) .store m a off (laneStored m b))

/-- An atomic in both profiles, on a word or a doubleword. -/
def AtomRow (mk : Agent → Bool → BitVec 2 → R3 → Instr) (op : AtomOp) : Prop :=
  ∀ (dw : Bool) (scope : BitVec 2) (f : R3),
    let m : MemOp := { size := if dw then 8 else 4 }
    (f.guard = 0 → HartAtoms (fun ag => mk ag dw scope f) op m f) ∧
      (f.a.toNat % 2 = 0 → (dw = true → f.b.toNat % 2 = 0 ∧ f.d.toNat % 2 = 0) →
        LaneAccess (fun ag => mk ag dw scope f) f.guard (laneRegs m.size f.d ++ laneRegs 8 f.a ++ laneRegs m.size f.b) .atomic m
          f.a 0 (laneAtoms op m f))

/-- Both profiles go on with nothing but the program counter changed (R59, R63). -/
def AdvanceRow (mk : Agent → Instr) (guard : BitVec 4) (lane : Bool) : Prop :=
  (guard = 0 → HartResult mk anyHart id) ∧ (lane = true → LaneResult mk [] guard id) ∧ (lane = false → LaneIllegal mk)

/-! ## Control flow -/

/-- The instruction of a hart sets the program counter, and may link (R62). -/
def HartJumps (mk : Agent → Instr) (out : W64 → Hart → Hart) : Prop :=
  ∀ (s : State) (ag : Agent) (key : Nat) (r : Run s), OnHart s ag key (wordsOf (mk ag)) r →
    exec (mk ag) s = .next (r.setHart key (out (s.hart key).pc ((s.hart key).issued (wordsOf (mk ag))))).s

/-- Each enabled thread branches to its target in the 4 GiB region of the program counter; a thread with a target outside it
raises FETCH_ACCESS, and then none branches (R62, R78). -/
def LaneJumps (mk : Agent → Instr) (guard : BitVec 4) (regs : List Nat) (target : Nat → Thread → Int)
    (link : Nat → Thread → Thread) : Prop :=
  ∀ (s : State) (c g : Nat) (x : Gang) (r : Run s), OnLane s c g (wordsOf (mk (.lane c g))) regs [] x r →
    let pc := x.minPc.getD 0
    let y := x.advanced (wordsOf (mk (.lane c g)))
    let out := (x.enabled guard).filter fun l => decide (target pc (y.thread l) < 0 ∨
      (target pc (y.thread l)).toNat / 2 ^ 32 ≠ pc / 2 ^ 32)
    (out = [] → exec (mk (.lane c g)) s = .next (noteIssue (r.setGang c g (y.mapLanes (x.enabled guard) fun _ t =>
      { link pc t with pc := BitVec.ofInt 48 (target pc t) })) c g).s) ∧
    (out ≠ [] → exec (mk (.lane c g)) s = .next (faultLanes (Run.start s) c g pc
      (out.map fun l => (l, .fetchAccess, (target pc (y.thread l) % 2 ^ 48).toNat))).s)

/-- A control-register instruction of a hart that has the register and may reach it: gD takes the previous value, the register
what `next` makes of it under its own rules (R75). -/
def CsrAccess (mk : Agent → Instr) (n : Nat) (d : BitVec 5) (write : Bool) (next : Hart → W64 → Option W64) : Prop :=
  ∀ (s : State) (ag : Agent) (key : Nat) (r : Run s), OnHart s ag key (wordsOf (mk ag)) r →
    let h := (s.hart key).issued (wordsOf (mk ag))
    (∀ c, csrCheck key h n write = some c → exec (mk ag) s =
      .next (r.hartTrap key (s.hart key) c (wordsOf (mk ag)).w0.toNat (wordsOf (mk ag)).long).s) ∧
    (csrCheck key h n write = none →
      let old := csrRead r.s key h n
      let h' := match next h old with
        | some v => csrWrite key h n v
        | none => h
      exec (mk ag) s = .next ((if n = 0x048 then r.put .draw else r).setHart key (h'.wg d old)).s)

/-! ## Tensor issue -/

/-- A gang where a tensor instruction issues: all threads that have not exited are active, the bank it names is held, and the
tensor queue has room (R48, R72, R82, R127). -/
structure TensorReady (s : State) (c : Nat) (x : Gang) (w : Words) (bank : Option Nat) : Prop where
  whole : (x.advanced w).liveLanes = x.active
  held : ∀ b, bank = some b → b < x.banks.length
  room : (s.core c).queue.length < 16

/-- The entry that a T64 instruction leaves in the tensor queue: its operands as the gang holds them at issue (R127). -/
def tensorEntry (c : Machine.Core) (g pc : Nat) (x : Gang) (f : T3) (op : TOp) (bank : Option Nat) : TInstr :=
  { seq := c.nextSeq, gang := g, op := op, tdA := tdOf x f.tdA, tdB := tdOf x f.tdB, tdC := tdOf x f.tdC
    numA := f.tdA.toNat, numB := f.tdB.toNat, numC := f.tdC.toNat
    bank := match bank with
      | some b => x.banks.getD b 4
      | none => 4
    bankName := bank.getD 0, gval := (x.thread 0).rg f.g.toNat, imm := f.imm, recList := x.recList
    mask := BitVec.ofNat 64 (laneMask x.liveLanes), pc := BitVec.ofNat 64 pc }

/-- A tensor instruction enters the queue at its end and the gang goes on; TREC and a TMMA with REC also keep the recirculation
list (R127, R137). -/
def EnqueueRow (mk : Agent → Instr) (f : T3) (op : TOp) (regs tds : List Nat) (bank : Option Nat)
    (upd : Gang → TInstr → Gang × TInstr) (ok : Gang → Prop) : Prop :=
  (∀ (s : State) (c g : Nat) (x : Gang) (r : Run s), OnLane s c g (wordsOf (mk (.lane c g))) regs tds x r →
    TensorReady s c x (wordsOf (mk (.lane c g))) bank → ok x →
    let y := x.advanced (wordsOf (mk (.lane c g)))
    let k := r.s.core c
    let p := upd y (tensorEntry k g (x.minPc.getD 0) y f op bank)
    exec (mk (.lane c g)) s = .next (noteIssue ((r.setCore c { k with queue := k.queue ++ [p.2], nextSeq := k.nextSeq + 1 }).setGang
      c g { p.1 with issued := p.1.issued + 1 }) c g).s) ∧
  HartIllegal mk

/-! ## Tally instructions -/

/-- A tally instruction (R109 to R113). On a hart: a stale handle raises the cause; else the operation at the home gives D its old
value or status, or leaves the hart waiting at the instruction. In a gang: each enabled thread in turn, in the order of a
draw, and a gang with stale handles stops. `settle` is what follows a signal. -/
def TallyRow (mk : Agent → R3 → Instr) (cause : Cause) (ok : R3 → Prop) (regs : R3 → List Nat)
    (onHart : R3 → Nat → Hart → TallyAct) (onLane : R3 → Nat → Nat → Nat → Thread → TallyAct)
    (settle : {s : State} → Run s → Run s) : Prop :=
  ∀ f : R3,
    (ok f → f.guard = 0 → ∀ (s : State) (ag : Agent) (key : Nat) (r : Run s), OnHart s ag key (wordsOf (mk ag f)) r →
      let h := (s.hart key).issued (wordsOf (mk ag f))
      let hd := ((s.hart key).rg f.a).toNat % 2 ^ 32
      (tallyOf r.s hd = none → exec (mk ag f) s =
        .next (settle (r.hartTrap key (s.hart key) cause hd (wordsOf (mk ag f)).long)).s) ∧
      (∀ i, tallyOf r.s hd = some i →
        let p := tallyAct r i (onHart f key (s.hart key))
        (∀ v, p.1 = some v → exec (mk ag f) s = .next (settle (p.2.setHart key (h.wg f.d (BitVec.ofNat 64 v)))).s) ∧
        (p.1 = none → exec (mk ag f) s = .next (settle (p.2.setHart key (s.hart key))).s))) ∧
    (ok f → ∀ (s : State) (c g : Nat) (x : Gang) (r : Run s), OnLane s c g (wordsOf (mk (.lane c g) f)) (regs f) [] x r →
      let y := x.advanced (wordsOf (mk (.lane c g) f))
      let p : Run s × List (Nat × Nat) :=
        ((inLaneOrder r.s.free ((x.enabled f.guard).map fun l => (l, ()))).map Prod.fst).foldl (tallyLane c g f (onLane f c g))
          ((r.put .draw).setGang c g y, [])
      let q := match lanesRising (x.enabled f.guard) p.2 with
        | [] => p.1
        | (lane, hd) :: rest =>
          p.1.laneFault c g cause hd (x.minPc.getD 0) (laneMask (lane :: rest.map Prod.fst)) stLaneFault
            (some (p.1.s.core c).nextSeq)
      exec (mk (.lane c g) f) s = .next (settle (noteIssue (q.setGang c g ((q.s.gang? c g).getD y)) c g)).s)

/-! ## Control registers -/

/-- A command that is one write of a word to a register by an agent that can make one (R9 to R14, R37, R38): one that may not
write it takes the access fault, a word with a value that does not occur is ignored, and any other word has the effect given.
Commands that a write lets go on follow it at once. -/
def RegisterWriteRow (ok : Agent → Prop) (mk : Agent → Instr) (k v : State → Nat)
    (eff : {z : State} → Agent → Run z → Run z) : Prop :=
  ∀ (s : State) (ag : Agent), s.halted = false → canAccess s ag = true → ok ag →
    (accessOk s ag (k s) true = false → exec (mk ag) s = .next ((Run.start s).accessFault ag (k s) true).s) ∧
    (accessOk s ag (k s) true = true → ∀ d, regDesc (k s) = some d →
      exec (mk ag) s = .next ((if d.occurs (v s) then eff ag (Run.start s) else Run.start s).settleSignals).s)

/-- A command that is one read of a register by an agent that can make one. -/
def RegisterReadRow (mk : Agent → Instr) (k : Nat) (eff : {z : State} → Run z → Run z) : Prop :=
  ∀ (s : State) (ag : Agent), s.halted = false → canAccess s ag = true →
    (accessOk s ag k false = false → exec (mk ag) s = .next ((Run.start s).accessFault ag k false).s) ∧
    (accessOk s ag k false = true → exec (mk ag) s = .next (eff (Run.start s)).s)

/-- A command that is one write of a word to a register by an agent that may make it, the word's values all occurring: where a
condition on the state holds, the write is accepted and has the effect given (R10 to R14, R37, R38). -/
def WriteDone (mk : Agent → Instr) (who : Agent → Prop) (k v : State → Nat) (ok : State → Prop)
    (out : {z : State} → Run z → Run z) : Prop :=
  ∀ (s : State) (ag : Agent), s.halted = false → s.Sound → who ag → canAccess s ag = true → accessOk s ag (k s) true = true →
    (∃ d, regDesc (k s) = some d ∧ d.occurs (v s) = true) → ok s →
    exec (mk ag) s = .next (out (Run.start s)).settleSignals.s

/-- What a field of a register holds after a write of a word, by its access type (R11). -/
def Field.after (f : Field) (was word : Nat) : Nat :=
  match f.acc with
  | .rw => f.get word
  | .w1c => f.get was - (f.get was &&& f.get word)
  | .w1s => f.get was ||| f.get word
  | .ro | .rwm => f.get was
  | .wo | .rsv => 0

/-! ## Events -/

/-- An event that has the effect given, in every running state that meets its condition. -/
def EventRow (c : Instr) (ok : State → Prop) (out : (s : State) → Run s → Run s) : Prop :=
  ∀ s, s.halted = false → ok s → exec c s = .next (out s (Run.start s)).s

/-- An event that ends in a next state which stands to its state as said, in every sound and running state that meets its
condition. -/
def EventPost (c : Instr) (ok : State → Prop) (post : State → State → Prop) : Prop :=
  ∀ s, s.halted = false → s.Sound → ok s → ∃ t, exec c s = .next t ∧ post s t

/-- A message at the front of its owner's queue that executes now: its session is open and not being released, its source may
use it, and its length is right (R320, R321, R477). -/
structure Taken (s : State) (q op : Nat) (test len : Msg → Bool) (x : Sess) (m : Msg) : Prop where
  up : s.halted = false
  front : frontMsg s q (fun m => isOp op m && test m) = some m
  session : sess? s m.session = some x
  stays : x.releasing = false
  may : s.sec.recovery = true ∨ mayUse s x.peer.bind op = true
  length : len m = true

/-- A message of the catalogue: in the order of R320 it is refused with its session LEASE_LOST, its source DENIED, or its length
BAD_LENGTH; where it executes and meets a condition it has the effect given, after it has left the queue. `pre` says when the row runs at all. -/
def MessageRow (c : Instr) (q op : Nat) (test len : Msg → Bool) (pre : State → Prop) (ok : State → Sess → Msg → Prop)
    (out : {z : State} → Sess → Msg → Run z → Run z) : Prop :=
  (∀ s x m, pre s → Taken s q op test len x m → ok s x m → exec c s = .next (out x m ((Run.start s).popMsg q)).s) ∧
  (∀ s x m, pre s → s.halted = false → s.sec.recovery = false → frontMsg s q (fun m => isOp op m && test m) = some m →
    sess? s m.session = some x →
    let r := (Run.start s).popMsg q
    (x.releasing = true → exec c s = .next (r.reply m stLeaseLost).s) ∧
    (x.releasing = false → mayUse s x.peer.bind op = false → exec c s = .next (r.reply m stDenied).s) ∧
    (x.releasing = false → mayUse s x.peer.bind op = true → len m = false → exec c s = .next (r.reply m stBadLength).s))

/-! ## Key-value requests -/

/-- The request that the ring's next entry spells (R210). -/
def kvRequest (s : State) : KvReq :=
  let w := words32 8 (kvHead s)
  { op := bits (w.getD 0 0) 31 24, seq := bits (w.getD 0 0) 11 0, count := w.getD 1 0, addr := w.getD 2 0 + 2 ^ 32 * w.getD 3 0
    tally := w.getD 4 0, va := kvHeadVa s }

/-- The entry is taken: it is read, its first word becomes 0, HEAD advances, and the owner sleeps when the next entry holds no
request (R98, R210). -/
def kvPopped {z : State} (r : Run z) : Run z :=
  let va := kvHeadVa r.s
  let w := (r.markRange (ctxX r.s 0) .load va 32).tryWrite (ctxX r.s 0) va 4 0
  let h := w.setRegN (pidxReg 0x010) ((w.s.fld (pidxReg 0x010) 11 0 + 1) % 2 ^ w.s.fld (pidxReg 8) 3 0)
  if bits (kvHead h.s) 31 24 = 0 then h.put (.kv { h.s.kv with awake := false }) else h

/-- A command that takes the ring's next entry where it holds an OP of the row, and serves it (R210, R211). -/
def KvRow (c : Instr) (mine : Nat → Prop) (out : {z : State} → KvReq → Nat → Run z → Run z) : Prop :=
  ∀ s, s.halted = false → fwRuns s 1 = true → s.fld (pidxReg 8) 31 31 = 1 → s.kv.awake = true → (kvRequest s).op ≠ 0 →
    mine (kvRequest s).op → exec c s = .next (out (kvRequest s) (kvHead s) (kvPopped (Run.start s))).s

/-- A request that names a sequence waits behind those that wait on it, even where an RSV bit or its OP will refuse it, and is
served otherwise (R211, R214). -/
def kvOnSequence {z : State} (q : KvReq) (e : Nat) (r : Run z) : Run z :=
  let q := { q with bad := decide (bits e 23 12 ≠ 0 ∨ bits e 222 208 ≠ 0 ∨ e / 2 ^ 224 ≠ 0 ∨ 8 < q.op) }
  if ∃ x ∈ r.s.kv.waiting, x.seq = q.seq then r.kvHold q else r.kvServe q

/-- A request of the row's OP with its RSV bits 0, behind none that waits on its sequence, completes with the effect given where a
condition on the sequence holds (R210 to R215). -/
def KvDone (c : Instr) (op : Nat) (ok : {z : State} → KvReq → Run z → Prop) (out : {z : State} → KvReq → Run z → Run z) : Prop :=
  ∀ s, s.halted = false → fwRuns s 1 = true → s.fld (pidxReg 8) 31 31 = 1 → s.kv.awake = true → (kvRequest s).op = op →
    bits (kvHead s) 23 12 = 0 → bits (kvHead s) 222 208 = 0 → kvHead s / 2 ^ 224 = 0 →
    (∀ x ∈ s.kv.waiting, x.seq ≠ (kvRequest s).seq) → ok (kvRequest s) (kvPopped (Run.start s)) →
    exec c s = .next (out (kvRequest s) (kvPopped (Run.start s))).s

/-- A sequence is open and resident: its record is in use, and no token of it waits for a recompute (R212, R219). -/
def seqResident (s : State) (n : Nat) : Prop := seqState s n ≠ 0 ∧ seqTok s n ≤ seqRes s n

end Sys2Proof.Machine
end

