-- ==== Sys2Proof/Certificates/Slice0/Obligations.lean ====
section
/-! DEFINITION. The statements for the provers, family by family of the opcode table. -/

open Sys2Proof Sys2Proof.Machine

/-! ## The machine as a whole -/

/-- A step takes the command at the front of the queue and runs it on the state with the queue's rest. -/
def Obligations.StepRunsFront : Prop :=
  ∀ (c : Instr) (rest : List Instr) (s : State),
    step { s with pending := c :: rest } = exec c { s with pending := rest }

/-- On an empty queue the block idles while fabric time advances (log 1): by 1 ns, in SLEEP and DEEP_SLEEP to the master's next
crystal step, 26 or 27 ns on, and in OFF not at all (R26, R28). The stall counters of cores and weight windows count the time
(R264, R265), in a device that runs, and nothing else changes.
Where the rules leave a point open it holds the model's reading, logs 1 and 132. -/
def Obligations.IdleStepCounts : Prop :=
  ∀ s : State, s.pending = [] → ∃ t, step s = .next t ∧
    (powerState s ≤ 1 → t.now = s.now + 1) ∧ (powerState s = 4 → t.now = s.now) ∧
    (powerState s = 2 ∨ powerState s = 3 → s.now < t.now ∧ t.now ≤ s.now + 27 ∧
      ∀ k, s.now = 625 * k / 24 → t.now = 625 * (k + 1) / 24) ∧
    (∀ k, (∀ c, c < 192 → k ≠ coreReg c 0x08C ∧ k ≠ coreReg c 0x090 ∧ k ≠ coreReg c 0x094) →
      (∀ n ∈ s.vault.windows.map Prod.fst, k ≠ vltReg (0x818 + 0x20 * n) ∧ k ≠ vltReg (0x81C + 0x20 * n)) → t.reg k = s.reg k) ∧
    (s.halted = true ∨ 2 ≤ powerState s → t.regs = s.regs) ∧ t = { s with now := t.now, regs := t.regs }

/-- The state right after reset is sound. -/
def Obligations.ResetSound : Prop := State.reset.Sound

/-- Every step keeps a sound state sound: memory, registers and units stay in their canonical forms, in every state. -/
def Obligations.StepKeepsSound : Prop :=
  ∀ s t : State, s.Sound → step s = .next t → t.Sound

/-- A command never changes the queue of commands behind it, and fabric time never goes back (R29); every command answers a next
state. The commands that start the device anew have a time of their own. -/
def Obligations.CommandsKeepQueueAndTime : Prop :=
  ∀ (c : Instr) (s : State), ∃ t, exec c s = .next t ∧ t.pending = s.pending ∧ (¬ Reboots c → s.now ≤ t.now)

/-- g0 reads 0 in both profiles and p0 reads 1, and writes of them are discarded; every thread of a gang starts with p1 to p7 at 0
(R41). -/
def Obligations.HardwiredRegisters : Prop :=
  (∀ (h : Hart) (v : W64), h.rg 0 = 0 ∧ h.wg 0 v = h) ∧
  (∀ (t : Thread) (v : W32) (b : Bool), t.rg 0 = 0 ∧ t.wg 0 v = t ∧ t.rp 0 = true ∧ t.wp 0 b = t) ∧
  (∀ (i : Nat) (p : Parcel) (gi : Nat) (banks : List Nat), (newGang i p gi banks).threads.length = 64 ∧
    ∀ t ∈ (newGang i p gi banks).threads, ∀ n, 0 < n → n < 8 → t.rp n = false)

/-- Decoding and encoding agree (R44 to R49): the words of an instruction decode to it, TSMAX's four rows by the MODE that their one
word leaves to a register; words that decode to an instruction are its words; and two instructions of an agent with the same words are
one, or both rows of TSMAX. -/
def Obligations.EncodingAgrees : Prop :=
  (∀ i ag w, Spells i ag w → ∃ mode, mode < 4 ∧ isaDecode ag mode w.w0 w.w1 = some i) ∧
  (∀ ag mode w0 w1 i, isaDecode ag mode w0 w1 = some i →
    ∃ w, Spells i ag w ∧ w.w0 = w0 ∧ w.long = w0.getLsbD 31 ∧ (w.long = true → w.w1 = w1)) ∧
  (∀ i j ag w, Spells i ag w → Spells j ag w →
    i = j ∨ (w.long = true ∧ w.w0.extractLsb' 25 6 = 0x3D#6 ∧ w.w0.extractLsb' 0 6 = 2#6))

/-! ## Integer, immediate, compare and predicate instructions -/

/-- The ALU group: each row's result, its one destination and nothing else changed but the program counter and
csr_retired, in both profiles (R50); the forms that a profile does not have raise ILLEGAL_INSTR; ADDP in a lane alone. CLZ's count
by its defining property: the bits above it are clear, and the one at it is set. -/
def Obligations.AluInstructions : Prop :=
   (AluRow .add false (fun _ a b => a + b) ∧
    AluRow .sub false (fun _ a b => a - b) ∧
    AluRow .mul false (fun _ a b => a * b) ∧
    AluRow .mulh false (fun w a b => BitVec.ofInt w (a.toInt * b.toInt / 2 ^ w)) ∧
    AluRow .mulhu false (fun w a b => BitVec.ofNat w (a.toNat * b.toNat / 2 ^ w)) ∧
    AluRow .div false (fun w a b => if b = 0 then BitVec.allOnes w else a.sdiv b) ∧
    AluRow .divu false (fun w a b => if b = 0 then BitVec.allOnes w else a / b) ∧
    AluRow .rem false (fun _ a b => if b = 0 then a else a.srem b) ∧
    AluRow .remu false (fun _ a b => if b = 0 then a else a % b) ∧
    AluRow .and false (fun _ a b => a &&& b) ∧
    AluRow .or false (fun _ a b => a ||| b) ∧
    AluRow .xor false (fun _ a b => a ^^^ b) ∧
    AluRow .shl false (fun w a b => a <<< (b.toNat % w)) ∧
    AluRow .shr false (fun w a b => a >>> (b.toNat % w)) ∧
    AluRow .sra false (fun w a b => a.sshiftRight (b.toNat % w)) ∧
    AluRow .min false (fun _ a b => if a.toInt < b.toInt then a else b) ∧
    AluRow .minu false (fun _ a b => if a.toNat < b.toNat then a else b) ∧
    AluRow .max false (fun _ a b => if a.toInt < b.toInt then b else a) ∧
    AluRow .maxu false (fun _ a b => if a.toNat < b.toNat then b else a) ∧
    AluRow .clz true (fun w a _ => leadingZeros (w := w) a) ∧
    AluRow .popc true (fun w a _ => setBitsOf (w := w) a) ∧
    (∀ f : R3, f.d.toNat % 2 = 0 → f.a.toNat % 2 = 0 →
      LaneResult (fun ag => .addp ag false f)
        [f.d.toNat, f.d.toNat + 1, f.a.toNat, f.a.toNat + 1, f.b.toNat] f.guard fun t =>
          t.wgPair f.d.toNat ((BitVec.ofNat 64 (t.rgPair f.a.toNat) + (t.rg f.b.toNat).signExtend 64).toNat)) ∧
    (∀ (w32 : Bool) (f : R3), HartIllegal (fun ag => .addp ag w32 f)) ∧
    (∀ f : R3, LaneIllegal (fun ag => .addp ag true f))) ∧
   (∀ (w : Nat) (_ : 0 < w) (a : BitVec w),
      (∀ k, k < (leadingZeros a).toNat → a.getMsbD k = false) ∧
      ((leadingZeros a).toNat < w → a.getMsbD (leadingZeros a).toNat = true) ∧
      (leadingZeros (0 : BitVec w)).toNat = w)

/-- Quotients and remainders at their corners, with no exception, and the immediate forms (R51): an operand and the sign-extended
immediate; SHI shifts by imm11[5:0] modulo the width, and its reserved values raise ILLEGAL_INSTR. -/
def Obligations.ImmediateInstructions : Prop :=
  (AluRow .div false (fun _ a b => divS a b) ∧ AluRow .divu false (fun _ a b => divU a b) ∧
    AluRow .rem false (fun _ a b => remS a b) ∧ AluRow .remu false (fun _ a b => remU a b) ∧
    ∀ (w : Nat) (_ : 0 < w) (a : BitVec w),
      divS a 0 = BitVec.allOnes w ∧ divU a 0 = BitVec.allOnes w ∧ remS a 0 = a ∧ remU a 0 = a ∧
      divS (BitVec.intMin w) (BitVec.allOnes w) = BitVec.intMin w ∧
      remS (BitVec.intMin w) (BitVec.allOnes w) = 0) ∧
  (∀ f : I3, ImmRow (fun ag => .addi ag f) f.guard f.d f.a fun w a => a + f.imm.signExtend w) ∧
  (∀ f : I3, ImmRow (fun ag => .andi ag f) f.guard f.d f.a fun w a => a &&& f.imm.signExtend w) ∧
  (∀ f : I3, ImmRow (fun ag => .ori ag f) f.guard f.d f.a fun w a => a ||| f.imm.signExtend w) ∧
  (∀ f : I3, ImmRow (fun ag => .xori ag f) f.guard f.d f.a fun w a => a ^^^ f.imm.signExtend w) ∧
  (∀ f : I3, bits f.imm.toNat 10 8 = 0 →
    (bits f.imm.toNat 7 6 = 0 → ImmRow (fun ag => .shi ag f) f.guard f.d f.a fun w a => a <<< (bits f.imm.toNat 5 0 % w)) ∧
    (bits f.imm.toNat 7 6 = 1 → ImmRow (fun ag => .shi ag f) f.guard f.d f.a fun w a => a >>> (bits f.imm.toNat 5 0 % w)) ∧
    (bits f.imm.toNat 7 6 = 2 →
      ImmRow (fun ag => .shi ag f) f.guard f.d f.a fun w a => a.sshiftRight (bits f.imm.toNat 5 0 % w))) ∧
  (∀ f : I3, bits f.imm.toNat 10 8 ≠ 0 ∨ bits f.imm.toNat 7 6 = 3 →
    HartIllegal (fun ag => .shi ag f) ∧ LaneIllegal (fun ag => .shi ag f)) ∧
  (∀ f : X3, f.a = 0 → f.b = 0 → f.func = 0 → ImmRow (fun ag => .li ag f) f.guard f.d 0 fun w _ => f.imm.signExtend w) ∧
  (∀ f : X3, f.b = 0 → f.func = 0 → ImmRow (fun ag => .addx ag f) f.guard f.d f.a fun w a => a + f.imm.signExtend w)

/-- CMP (R52): EQ, NE, LT, GE, LTU and GEU over g registers, and the FP32 conditions, into gD of a hart or pD of a lane; every
other condition raises ILLEGAL_INSTR, and an FP32 condition is false with a NaN but for FUN, which is true exactly then.
The PRED group (R53): predicates in a lane, ILLEGAL_INSTR on a hart. A field that names a predicate has its upper two bits 0,
there and in CMP, BALLOT, ANY and ALL, else ILLEGAL_INSTR (R53). -/
def Obligations.CompareInstructions : Prop :=
   (CmpRow 0 (fun _ a b => decide (a = b)) ∧
    CmpRow 1 (fun _ a b => decide (a ≠ b)) ∧
    CmpRow 2 (fun _ a b => decide (a.toInt < b.toInt)) ∧
    CmpRow 3 (fun _ a b => decide (b.toInt ≤ a.toInt)) ∧
    CmpRow 4 (fun _ a b => decide (a.toNat < b.toNat)) ∧
    CmpRow 5 (fun _ a b => decide (b.toNat ≤ a.toNat)) ∧
    FcmpRow 8 ∧ FcmpRow 9 ∧ FcmpRow 10 ∧ FcmpRow 11 ∧
    (∀ (func : BitVec 6) (f : R3), condIsFp func.toNat = true → f.guard = 0 →
      HartTraps (fun ag => .cmp ag func f) noFpHart (fun _ => .fpDisabled) fun _ => (wordsOf (.cmp (.host 0) func f)).w0.toNat) ∧
    (∀ (func : BitVec 6) (f : R3), ¬ (func.toNat ≤ 5 ∨ (8 ≤ func.toNat ∧ func.toNat ≤ 11)) →
      HartIllegal (fun ag => .cmp ag func f) ∧ LaneIllegal (fun ag => .cmp ag func f)) ∧
    (∀ a b : W32,
      let nan := fun w : W32 => decide (bits w.toNat 30 23 = 255 ∧ bits w.toNat 22 0 ≠ 0)
      (Fp.fcmp 11 a b).1 = (nan a || nan b) ∧
      ((nan a || nan b) = true → (Fp.fcmp 8 a b).1 = false ∧ (Fp.fcmp 9 a b).1 = false ∧ (Fp.fcmp 10 a b).1 = false))) ∧
   ((∀ (func : BitVec 6) (f : R3), 8 ≤ f.d.toNat → LaneIllegal (fun ag => .cmp ag func f)) ∧
    (∀ f : R3, 8 ≤ f.a.toNat →
      LaneIllegal (fun ag => .ballot ag f) ∧ LaneIllegal (fun ag => .any ag f) ∧ LaneIllegal (fun ag => .all ag f)) ∧
    (∀ f : R3, 8 ≤ f.d.toNat → LaneIllegal (fun ag => .any ag f) ∧ LaneIllegal (fun ag => .all ag f))) ∧
   (let p3 : R3 → Prop := fun f => f.d.toNat < 8 ∧ f.a.toNat < 8 ∧ f.b.toNat < 8
    PredRow .pand p3 (fun _ => []) (fun f t => t.wp f.d.toNat (t.rp f.a.toNat && t.rp f.b.toNat)) ∧
    PredRow .por p3 (fun _ => []) (fun f t => t.wp f.d.toNat (t.rp f.a.toNat || t.rp f.b.toNat)) ∧
    PredRow .pxor p3 (fun _ => []) (fun f t => t.wp f.d.toNat (xor (t.rp f.a.toNat) (t.rp f.b.toNat))) ∧
    PredRow .pandn p3 (fun _ => []) (fun f t => t.wp f.d.toNat (t.rp f.a.toNat && !t.rp f.b.toNat)) ∧
    PredRow .pnot (fun f => f.d.toNat < 8 ∧ f.a.toNat < 8 ∧ f.b = 0) (fun _ => [])
      (fun f t => t.wp f.d.toNat (!t.rp f.a.toNat)) ∧
    PredRow .p2g (fun f => f.a.toNat < 8 ∧ f.b = 0) (fun f => [f.d.toNat])
      (fun f t => t.wg f.d.toNat (if t.rp f.a.toNat then 1 else 0)) ∧
    PredRow .g2p (fun f => f.d.toNat < 8 ∧ f.b = 0) (fun f => [f.a.toNat])
      (fun f t => t.wp f.d.toNat (decide (t.rg f.a.toNat ≠ 0))))

/-! ## Floating point -/

/-- The FPU and SFU groups (R55) and the moves between g and f registers. CVT (R56): the conversion of the operand into D
under the rounding that func[1:0] names, on a hart and in each enabled thread of a gang; the stochastic rounding steps the
one generator of the hart, or of the gang in lane order (R151, R152). The PK group (R57): both halves of each operand,
lane profile only. Where the rules leave a point open it holds the model's reading, logs 137 and 138. -/
def Obligations.FloatInstructions : Prop :=
   (FpRow .fadd false (fun rnd a b _ => Fp.fadd rnd a b) ∧
    FpRow .fsub false (fun rnd a b _ => Fp.fsub rnd a b) ∧
    FpRow .fmul false (fun rnd a b _ => Fp.fmul rnd a b) ∧
    FpRow .ffma false (fun rnd a b d => Fp.ffma rnd a b d) ∧
    FpRow .fmin false (fun _ a b _ => Fp.fminmax false a b) ∧
    FpRow .fmax false (fun _ a b _ => Fp.fminmax true a b) ∧
    FpRow .fabs true (fun _ a _ _ => (a &&& 0x7FFFFFFF#32, {})) ∧
    FpRow .fneg true (fun _ a _ _ => (a ^^^ 0x80000000#32, {})) ∧
    FpRow .fexp2 true (fun _ a _ _ => Fp.sfu 0 a) ∧
    FpRow .flog2 true (fun _ a _ _ => Fp.sfu 1 a) ∧
    FpRow .frcp true (fun _ a _ _ => Fp.sfu 2 a) ∧
    FpRow .frsq true (fun _ a _ _ => Fp.sfu 3 a) ∧
    FpRow .fsig true (fun _ a _ _ => Fp.sfu 4 a) ∧
    FpRow .ftanh true (fun _ a _ _ => Fp.sfu 5 a) ∧
    (∀ f : R3, f.b = 0 → f.guard = 0 →
      HartResult (fun ag => .fmvGf ag f) fpHart (fun h => h.wf f.d ((h.rg f.a).truncate 32)) ∧
      HartResult (fun ag => .fmvFg ag f) fpHart (fun h => h.wg f.d ((h.rf f.a).zeroExtend 64)) ∧
      LaneIllegal (fun ag => .fmvGf ag f) ∧ LaneIllegal (fun ag => .fmvFg ag f))) ∧
   (∀ (func : BitVec 6) (f : R3),
      let src := bits func.toNat 5 2
      let dst := bits f.b.toNat 3 0
      let block := Fp.isBlock src || Fp.isBlock dst
      src ≤ 9 → dst ≤ 9 → f.b.toNat < 16 → (block = true → f.a.toNat % 2 = 0) →
      (f.guard = 0 → ∀ (s : State) (ag : Agent) (key : Nat) (r : Run s), OnHart s ag key (wordsOf (.cvt ag func f)) r →
        ((src ≠ 0 ∧ dst ≠ 0) ∨ fpHart ag (s.hart key)) →
        let h := (s.hart key).issued (wordsOf (.cvt ag func f))
        let d := drawRng (h.rng.getD (BitVec.ofNat 32 (key + 1)))
        let mode := bits func.toNat 1 0
        let rnd : Fp.Rnd := if mode = 0 then .nearest else if mode = 1 then .zero else if mode = 2 then .stochastic d.2 else h.rnd
        let c := cvtValue src dst rnd (if src = 0 then (h.rf f.a).toNat else (h.rg f.a).toNat) ((h.rg (f.a + 1)).toNat % 256)
        let h' := (if mode = 2 then { h with rng := some d.1 } else h).addFlags c.flags
        exec (.cvt ag func f) s = .next (r.setHart key
          (if dst = 0 then h'.wf f.d (BitVec.ofNat 32 c.bits) else h'.wg f.d (cvtImage dst 64 c.bits))).s) ∧
      (bits func.toNat 1 0 ≠ 3 →
        GangResult (fun ag => .cvt ag func f) f.guard
          ([f.d.toNat, f.a.toNat] ++ (if block then [f.a.toNat + 1] else [])) fun _ _ _ en _ y => cvtLanes func f en y)) ∧
   (PkRow .add2 0 ∧ PkRow .mul2 1 ∧ PkRow .fma2 2 ∧ PkRow .min2 3 ∧ PkRow .max2 4)

/-! ## Cross-lane instructions -/

/-- The XLANE group (R65, R66): results over the enabled threads of one gang. -/
def Obligations.CrossLaneInstructions : Prop :=
  let unary : R3 → Prop := fun f => f.b = 0
  let regs : R3 → List Nat := fun f => [f.d.toNat, f.a.toNat]
  let vals : R3 → List Nat → Gang → List W32 := fun f en y => en.map fun l => (y.thread l).rg f.a.toNat
  XlaneRow .shfl (fun _ => True) (fun f => [f.d.toNat, f.a.toNat, f.b.toNat])
    (fun f _ y t => t.wg f.d.toNat ((y.thread ((t.rg f.b.toNat).toNat % 64)).rg f.a.toNat)) ∧
  XlaneRow .ballot (fun f => f.d.toNat % 2 = 0 ∧ f.a.toNat < 8 ∧ f.b = 0) (fun f => [f.d.toNat, f.d.toNat + 1])
    (fun f en y t => t.wgPair f.d.toNat (laneMask (en.filter fun l => (y.thread l).rp f.a.toNat))) ∧
  XlaneRow .any (fun f => f.d.toNat < 8 ∧ f.a.toNat < 8 ∧ f.b = 0) (fun _ => [])
    (fun f en y t => t.wp f.d.toNat (en.any fun l => (y.thread l).rp f.a.toNat)) ∧
  XlaneRow .all (fun f => f.d.toNat < 8 ∧ f.a.toNat < 8 ∧ f.b = 0) (fun _ => [])
    (fun f en y t => t.wp f.d.toNat (en.all fun l => (y.thread l).rp f.a.toNat)) ∧
  XlaneRow .radd unary regs (fun f en y t => t.wg f.d.toNat ((vals f en y).foldl (· + ·) 0)) ∧
  XlaneRow .rmin unary regs (fun f en y t => t.wg f.d.toNat (foldVals (fun a b => if a.slt b then a else b) (vals f en y))) ∧
  XlaneRow .rmax unary regs (fun f en y t => t.wg f.d.toNat (foldVals (fun a b => if a.slt b then b else a) (vals f en y))) ∧
  XlaneRow .fradd unary regs (fun f en y t => t.wg f.d.toNat (treeSum ((List.range 64).map fun l =>
    if en.contains l then (y.thread l).rg f.a.toNat else 0))) ∧
  XlaneRow .frmin unary regs (fun f en y t => t.wg f.d.toNat (foldFp false (vals f en y))) ∧
  XlaneRow .frmax unary regs (fun f en y t => t.wg f.d.toNat (foldFp true (vals f en y)))

/-! ## Memory -/

/-- A store of n bytes changes memory nowhere outside those bytes, changes them to the value's bytes with the least
significant first where they are writable and correctable, and a load of them then gives the value back; the boot ROM and
the flashes keep their contents. What a load makes of the bytes it reads: their sign-extension or their zero-extension to
the register (R58). -/
def Obligations.MemoryBytes : Prop :=
   (∀ (z : State) (r : Run z) (pa n v : Nat), r.s.Sound →
      let t := (r.storeMem pa n v).s
      (∀ a, a < pa ∨ pa + n ≤ a → t.byte a = r.s.byte a) ∧
      ((∀ a, pa ≤ a → a < pa + n → readOnly a = true) → ∀ a, t.byte a = r.s.byte a) ∧
      ((∀ a, pa ≤ a → a < pa + n → readOnly a = false ∧ fencedCarrel r.s a = false ∧ r.s.isUe a = false) →
        (∀ i, i < n → t.byte (pa + i) = BitVec.ofNat 8 (v / 256 ^ i)) ∧ t.load pa n = v % 256 ^ n)) ∧
   (∀ (m : MemOp) (w v : Nat), 0 < m.size → v < 256 ^ m.size →
      m.extend w v = if m.signed then (BitVec.ofNat (8 * m.size) v).signExtend w else (BitVec.ofNat (8 * m.size) v).zeroExtend w)

/-- The fetch of an instruction, where no word has a single-bit error to correct (R266), changes nothing but USED bits of table
entries, in memory (R94, R98). The end of a gang's issue counts in CORE_CNT_ISSUE (R483), ends the hold of gangs that yielded to
it (R90), and changes nothing else but the core's note of when it last issued and which gang did (R89).
Where the rules leave a point open it holds the model's reading, log 11. -/
def Obligations.FetchAndIssue : Prop :=
   (∀ (s : State), s.Sound → s.vault.weak = [] →
      (∀ (key : Nat) (h : Hart) (l : List Nat) (r : Run s), hartFetch (Run.start s) key h l = .ok r →
        r.s = { s with mem := r.s.mem } ∧ ∀ a, r.s.byte a = s.byte a ∨ r.s.byte a = s.byte a ||| 0x80#8) ∧
      (∀ (c : XCtx) (l : List Nat) (r : Run s), laneFetch (Run.start s) c l = .ok r →
        r.s = { s with mem := r.s.mem } ∧ ∀ a, r.s.byte a = s.byte a ∨ r.s.byte a = s.byte a ||| 0x80#8)) ∧
   (∀ (z : State) (r : Run z) (c g : Nat), r.s.Sound → c < 192 →
      let t := (noteIssue r c g).s
      t.reg64 (coreReg c 0x0C0) = (r.s.reg64 (coreReg c 0x0C0) + 1) % 2 ^ 64 ∧
      (∀ k, k ≠ coreReg c 0x0C0 → k ≠ coreReg c 0x0C0 + 4 → t.reg k = r.s.reg k) ∧
      t.mem = r.s.mem ∧ t.harts = r.s.harts ∧ t.tallies = r.s.tallies ∧ t.waits = r.s.waits ∧
      t.core c = { r.s.core c with quiet := r.s.now, last := g } ∧ (∀ k, k ≠ c → t.core k = r.s.core k) ∧
      (∀ c' g', g' < 128 → t.gang? c' g' =
        (r.s.gang? c' g').map fun y => if c' = c ∧ g ∈ y.yieldTo then y.yields (y.yieldTo.filter (· ≠ g)) r.s.now else y) ∧
      ∀ (y : Gang) (now : Nat), (y.yields [] now).yieldTo = [] ∧ (y.yields [] now).blockedAt = none ∧
        ((y.yields [] now).readyAt = if y.parked then some now else y.readyAt) ∧
        ∀ l, l ≠ [] → y.yields l now = { y with yieldTo := l })

/-- The loads (R58) and the acquiring loads (R59). The stores (R58) and the releasing stores (R59). -/
def Obligations.LoadStoreInstructions : Prop :=
   ((∀ f : I3, LoadRow (fun ag => .ldb ag f) { size := 1 } true f.guard f.d f.a f.imm.toInt) ∧
    (∀ f : I3, LoadRow (fun ag => .ldbu ag f) { size := 1, signed := false } true f.guard f.d f.a f.imm.toInt) ∧
    (∀ f : I3, LoadRow (fun ag => .ldh ag f) { size := 2 } true f.guard f.d f.a f.imm.toInt) ∧
    (∀ f : I3, LoadRow (fun ag => .ldhu ag f) { size := 2, signed := false } true f.guard f.d f.a f.imm.toInt) ∧
    (∀ f : I3, LoadRow (fun ag => .ldw ag f) { size := 4, regs := true } true f.guard f.d f.a f.imm.toInt) ∧
    (∀ f : I3, LoadRow (fun ag => .ldwu ag f) { size := 4, signed := false, regs := true } false f.guard f.d f.a f.imm.toInt) ∧
    (∀ f : I3, LoadRow (fun ag => .ldd ag f) { size := 8 } true f.guard f.d f.a f.imm.toInt) ∧
    (∀ (scope : BitVec 3) (f : R3), scope.toNat ≤ 5 → f.b = 0 →
      LoadRow (fun ag => .ldwAcq ag scope f) { size := 4, regs := true } true f.guard f.d f.a 0 ∧
      LoadRow (fun ag => .lddAcq ag scope f) { size := 8 } true f.guard f.d f.a 0)) ∧
   ((∀ f : I3, StoreRow (fun ag => .stb ag f) { size := 1 } f.guard f.d f.a f.imm.toInt) ∧
    (∀ f : I3, StoreRow (fun ag => .sth ag f) { size := 2 } f.guard f.d f.a f.imm.toInt) ∧
    (∀ f : I3, StoreRow (fun ag => .stw ag f) { size := 4, regs := true } f.guard f.d f.a f.imm.toInt) ∧
    (∀ f : I3, StoreRow (fun ag => .std ag f) { size := 8 } f.guard f.d f.a f.imm.toInt) ∧
    (∀ (scope : BitVec 3) (f : R3), scope.toNat ≤ 5 → f.d = 0 →
      StoreRow (fun ag => .stwRel ag scope f) { size := 4, regs := true } f.guard f.b f.a 0 ∧
      StoreRow (fun ag => .stdRel ag scope f) { size := 8 } f.guard f.b f.a 0))

/-- The atomics, relaxed and ordered (R60, R103): each reads, computes and writes as one, and D takes the old value. The
fences, NOP and IFLUSH go on, and change nothing in a machine whose accesses take effect in the order of the commands
(R59, R63, R102; log 8). -/
def Obligations.AtomicInstructions : Prop :=
   (AtomRow .atomAdd .add ∧ AtomRow .atomMin .min ∧ AtomRow .atomMax .max ∧ AtomRow .atomAnd .and ∧
    AtomRow .atomOr .or ∧ AtomRow .atomXor .xor ∧ AtomRow .atomSwap .swap ∧ AtomRow .atomCas .cas ∧
    AtomRow .atomArAdd .add ∧ AtomRow .atomArMin .min ∧ AtomRow .atomArMax .max ∧ AtomRow .atomArAnd .and ∧
    AtomRow .atomArOr .or ∧ AtomRow .atomArXor .xor ∧ AtomRow .atomArSwap .swap ∧ AtomRow .atomArCas .cas) ∧
   ((∀ (scope : BitVec 3) (f : R3), scope.toNat ≤ 5 → f.d = 0 → f.a = 0 → f.b = 0 →
      AdvanceRow (fun ag => .fenceAcq ag scope f) f.guard true ∧ AdvanceRow (fun ag => .fenceRel ag scope f) f.guard true ∧
      AdvanceRow (fun ag => .fenceAr ag scope f) f.guard true) ∧
    (∀ f : R3, f.d = 0 → f.a = 0 → f.b = 0 →
      AdvanceRow (fun ag => .nop ag f) f.guard true ∧ AdvanceRow (fun ag => .iflush ag f) f.guard false))

/-! ## Control flow, exceptions and control registers -/

/-- BRA, CALL, BRAL and JR (R62). -/
def Obligations.BranchInstructions : Prop :=
  (∀ f : B3,
    (f.guard = 0 → HartJumps (fun ag => .bra ag f) fun pc h => { h with pc := pc + BitVec.ofInt 64 (f.off.toInt * 4) }) ∧
    LaneJumps (fun ag => .bra ag f) f.guard [] (fun pc _ => pc + f.off.toInt * 4) (fun _ t => t)) ∧
  (∀ f : B3,
    (f.guard = 0 → HartJumps (fun ag => .call ag f) fun pc h =>
      { h.wg 31 (pc + 4) with pc := pc + BitVec.ofInt 64 (f.off.toInt * 4) }) ∧
    LaneJumps (fun ag => .call ag f) f.guard [31] (fun pc _ => pc + f.off.toInt * 4)
      (fun pc t => t.wg 31 (BitVec.ofNat 32 (pc + 4)))) ∧
  (∀ f : X3, f.d = 0 → f.a = 0 → f.b = 0 → f.func = 0 → f.imm.toNat % 4 = 0 →
    (f.guard = 0 → HartJumps (fun ag => .bral ag f) fun pc h => { h with pc := pc + f.imm.signExtend 64 }) ∧
    LaneJumps (fun ag => .bral ag f) f.guard [] (fun pc _ => pc + f.imm.toInt) (fun _ t => t)) ∧
  (∀ f : R3, f.b = 0 →
    (f.guard = 0 → HartJumps (fun ag => .jr ag f) fun pc h => { h.wg f.d (pc + 4) with pc := h.rg f.a &&& ~~~3#64 }) ∧
    GangResult (fun ag => .jr ag f) f.guard [f.d.toNat, f.a.toNat] fun _ _ _ en x y =>
      let pc := x.minPc.getD 0
      y.mapLanes en fun _ t => { t.wg f.d.toNat (BitVec.ofNat 32 (pc + 4)) with
        pc := BitVec.ofNat 48 (pc / 2 ^ 32 * 2 ^ 32 + (t.rg f.a.toNat).toNat / 4 * 4) })

/-- EXIT, BAR and YIELD in a gang (R63, R90), and RDS (R64); a hart has none of them. -/
def Obligations.GangControl : Prop :=
  (∀ f : R3, f.d = 0 → f.a = 0 → f.b = 0 →
    (GangResult (fun ag => .exit ag f) f.guard [] fun _ _ _ en _ y =>
      barRelease (y.mapLanes en fun _ t => { t with exited := true })) ∧
    (GangResult (fun ag => .bar ag f) f.guard [] fun s _ _ en x y =>
      let pc := x.minPc.getD 0
      let z := y.mapLanes en fun _ t => { t with atBar := true, pc := BitVec.ofNat 48 pc }
      barRelease (if z.runnable = [] then { z with blockedAt := some s.now } else z)) ∧
    (GangResult (fun ag => .yield ag f) f.guard [] fun s c g en _ y =>
      let others := (List.range 128).filter fun o => decide (o ≠ g ∧ gangReady s c o = true)
      if en = [] ∨ others = [] then y else { y with yieldTo := others, blockedAt := some s.now }) ∧
    HartIllegal (fun ag => .exit ag f) ∧ HartIllegal (fun ag => .bar ag f) ∧ HartIllegal (fun ag => .yield ag f)) ∧
  (∀ f : I3, f.a = 0 → f.imm.toNat ≤ 6 →
    (GangResult (fun ag => .rds ag f) f.guard [f.d.toNat] fun s c g en _ y => y.mapLanes en fun l t =>
      if f.imm = 0 then t.wg f.d.toNat (BitVec.ofNat 32 (64 * g + l))
      else if f.imm = 1 then t.wg f.d.toNat (BitVec.ofNat 32 g)
      else if f.imm = 2 then t.wg f.d.toNat (BitVec.ofNat 32 l)
      else if f.imm = 3 then t.wg f.d.toNat (BitVec.ofNat 32 (logicalOf s c))
      else if f.imm = 4 then t.wg f.d.toNat (BitVec.ofNat 32 (c / 12))
      else if f.imm = 5 then
        ({ t with ftHi := BitVec.ofNat 32 (s.timeAt (tbCore c) / 2 ^ 32) }).wg f.d.toNat (BitVec.ofNat 32 (s.timeAt (tbCore c)))
      else t.wg f.d.toNat t.ftHi) ∧
    HartIllegal (fun ag => .rds ag f))

/-- A BAR that all live threads have reached releases them past it, and one that some thread has not reached releases none
(R63). YIELD_EXPIRY: a gang set aside is ready again once 64 ARITH cycles have passed (R90). -/
def Obligations.BarAndYield : Prop :=
   (∀ x : Gang, x.threads.length = 64 →
      let live := fun (l : Nat) => l < 64 ∧ (x.thread l).exited = false
      (∀ pc, (∀ l, live l → (x.thread l).atBar = true ∧ (x.thread l).pc = pc) → ∀ l, live l →
        (barRelease x).thread l = { x.thread l with atBar := false, pc := pc + 4 }) ∧
      ((∃ l, live l ∧ (x.thread l).atBar = false) → barRelease x = x)) ∧
   (∀ (s : State) (c g : Nat) (x : Gang) (t : Nat), s.halted = false → s.gang? c g = some x → x.blockedAt = some t →
      x.yieldTo ≠ [] → t + arithNs s c 64 ≤ s.now →
      exec (.yieldExpiry c g) s = .next ((Run.start s).setGang c g { x with
        yieldTo := [], blockedAt := none, readyAt := if x.parked then some s.now else x.readyAt }).s)

/-- Taking an exception or an interrupt on a hart (R73): the pc and the cause are saved in the trap set of the mode that
serves it, the mode's IE is cleared, and the pc goes to the entry of the trap table; nothing else of the hart changes. A
return undoes an entry: from the serving mode, right after the entry, TRET gives back the hart as it was but for the trap
set, with the pc that was saved (R73). -/
def Obligations.TrapEntryAndReturn : Prop :=
   (∀ (h : Hart) (t : Mode) (int : Bool) (code cls : Nat) (ret tval : W64) (long : Bool), t ≠ .user → code < 256 → cls < 8 →
      let h' := h.trapTo t int code cls ret tval long
      h'.mode = t ∧ h'.ie t = false ∧
      (h'.trapSet t).ret = ret ∧ (h'.trapSet t).data = tval ∧
      bits (h'.trapSet t).info.toNat 7 0 = code ∧ bits (h'.trapSet t).info.toNat 10 8 = cls ∧
      bit (h'.trapSet t).info.toNat 63 = int ∧ bit (h'.trapSet t).info.toNat 20 = long ∧
      bit (h'.trapSet t).info.toNat 21 = h.ie t ∧ bits (h'.trapSet t).info.toNat 23 22 = h.mode.code ∧
      h'.pc = (h.trapSet t).base + BitVec.ofNat 64 (64 * (if int then 8 + code else cls)) ∧
      h' = { h with trapS := h'.trapS, trapM := h'.trapM, ieM := h'.ieM, ieS := h'.ieS, mode := h'.mode, pc := h'.pc } ∧
      (t = .mon → h'.trapS = h.trapS ∧ h'.ieS = h.ieS) ∧ (t = .sup → h'.trapM = h.trapM ∧ h'.ieM = h.ieM)) ∧
   (∀ (h : Hart) (t : Mode) (int : Bool) (code cls : Nat) (tval : W64) (long : Bool), t ≠ .user → code < 256 → cls < 8 →
      h.mode.rank ≤ t.rank →
      (h.trapTo t int code cls h.pc tval long).trapReturn =
        some { h with
          trapS := (h.trapTo t int code cls h.pc tval long).trapS
          trapM := (h.trapTo t int code cls h.pc tval long).trapM })

/-- UPCALL, BREAK and ILLEGAL_INSTR raise their causes (R45, R63, R77): on a hart the exception is taken at the instruction; in
a gang the enabled threads of a BREAK, or all active threads, fault. -/
def Obligations.ExceptionInstructions : Prop :=
  (∀ f : R3, f.d = 0 → f.a = 0 → f.b = 0 →
    (f.guard = 0 →
      HartTraps (fun ag => .upcall ag f) anyHart
        (fun h => if h.mode = .user then .upcallU else if h.mode = .sup then .upcallS else .upcallM) (fun _ => 0) ∧
      HartTraps (fun ag => .brk ag f) anyHart (fun _ => .breakpoint) (fun h => h.pc.toNat)) ∧
    LaneIllegal (fun ag => .upcall ag f) ∧
    (∀ (s : State) (c g : Nat) (x : Gang) (r : Run s), OnLane s c g (wordsOf (.brk (.lane c g) f)) [] [] x r →
      (x.enabled f.guard ≠ [] → exec (.brk (.lane c g) f) s =
        .next (faultLanes (Run.start s) c g (x.minPc.getD 0)
          ((x.enabled f.guard).map fun l => (l, .breakpoint, x.minPc.getD 0))).s) ∧
      (x.enabled f.guard = [] → exec (.brk (.lane c g) f) s =
        .next (noteIssue (r.setGang c g (x.advanced (wordsOf (.brk (.lane c g) f)))) c g).s))) ∧
  (∀ w0 w1 : W32, (∀ ag, isaDecode ag 0 w0 w1 = none) →
    HartIllegal (fun ag => .illegalInstr ag w0 w1) ∧ LaneIllegal (fun ag => .illegalInstr ag w0 w1))

/-- TRET and SNOOZE (R63, R73): in Supervisor and Monitor mode they have their effect, in User mode they raise PRIVILEGED, and so
does a TRET whose FROM names a mode above. -/
def Obligations.PrivilegedInstructions : Prop :=
  ∀ f : R3, f.d = 0 → f.a = 0 → f.b = 0 → f.guard = 0 →
    (∀ (s : State) (ag : Agent) (key : Nat) (r : Run s), OnHart s ag key (wordsOf (.tret ag f)) r → (s.hart key).mode ≠ .user →
      ∀ h', ((s.hart key).issued (wordsOf (.tret ag f))).trapReturn = some h' →
        exec (.tret ag f) s = .next (r.setHart key h').s) ∧
    HartTraps (fun ag => .tret ag f) (fun _ h => h.mode = .user ∨ h.trapReturn = none) (fun _ => .privileged)
      (fun _ => (wordsOf (.tret (.host 0) f)).w0.toNat) ∧
    (∀ (s : State) (ag : Agent) (key : Nat) (r : Run s), OnHart s ag key (wordsOf (.snooze ag f)) r → (s.hart key).mode ≠ .user →
      let h := (s.hart key).issued (wordsOf (.snooze ag f))
      exec (.snooze ag f) s = .next (r.setHart key { h with snoozing := [1, 2, 3, 4].all fun n => !irqPending s h n }).s) ∧
    HartTraps (fun ag => .snooze ag f) (fun _ h => h.mode = .user) (fun _ => .privileged)
      (fun _ => (wordsOf (.snooze (.host 0) f)).w0.toNat) ∧
    LaneIllegal (fun ag => .tret ag f) ∧ LaneIllegal (fun ag => .snooze ag f)

/-- CRD, CWR and CMSK (R75): the previous value goes to gD; CWR writes gA, and CMSK only the bits set in gB. -/
def Obligations.ControlRegisterInstructions : Prop :=
  (∀ f : I3, f.guard = 0 →
    (f.a = 0 → CsrAccess (fun ag => .crd ag f) f.imm.toNat f.d false fun _ _ => none) ∧
    CsrAccess (fun ag => .cwr ag f) f.imm.toNat f.d true (fun h _ => some (h.rg f.a)) ∧
    LaneIllegal (fun ag => .crd ag f) ∧ LaneIllegal (fun ag => .cwr ag f)) ∧
  (∀ f : X3, f.guard = 0 → f.func = 0 → bits f.imm.toNat 31 11 = 0 →
    CsrAccess (fun ag => .cmsk ag f) (bits f.imm.toNat 10 0) f.d true
      (fun h old => some ((old &&& ~~~h.rg f.b) ||| (h.rg f.a &&& h.rg f.b))) ∧
    LaneIllegal (fun ag => .cmsk ag f))

/-- Which control registers a hart reaches (R75, R79): no instruction of User mode reaches one of a higher mode, and none
of Supervisor mode one of Monitor mode; a firmware processor has none of Supervisor mode; a counter is never written. A
control register reads back what was written to it (R75), for the registers that hold every bit of it, and nothing of the
hart but that register changes. Where the rules leave a point open it holds the model's reading, log 118. -/
def Obligations.ControlRegisterRules : Prop :=
   (∀ (key : Nat) (h : Hart) (n : Nat) (write : Bool), csrCheck key h n write = none →
      (0x300 ≤ n → h.mode = .mon) ∧ (0x100 ≤ n → h.mode ≠ .user) ∧
      (0x100 ≤ n → n < 0x300 → isFw key = false) ∧ (0x320 ≤ n → isFw key = true) ∧
      (0x048 ≤ n → n ≤ 0x04B → write = false)) ∧
   (∀ (key : Nat) (h : Hart) (v : W64),
      csrWrite key h 0x109 v = { h with trapS := { h.trapS with ret := v } } ∧
      csrWrite key h 0x10B v = { h with trapS := { h.trapS with data := v } } ∧
      csrWrite key h 0x10C v = { h with trapS := { h.trapS with stash := v } } ∧
      csrWrite key h 0x120 v = { h with alarm := v } ∧
      csrWrite key h 0x309 v = { h with trapM := { h.trapM with ret := v } } ∧
      csrWrite key h 0x30B v = { h with trapM := { h.trapM with data := v } } ∧
      csrWrite key h 0x30C v = { h with trapM := { h.trapM with stash := v } } ∧
      csrWrite key h 0x108 v = { h with trapS := { h.trapS with base := v &&& ~~~0x3FF#64 } } ∧
      csrWrite key h 0x308 v = { h with trapM := { h.trapM with base := v &&& ~~~0x3FF#64 } } ∧
      csrWrite key h 0x040 v = { h with fpctl := v &&& 0xFB#64 } ∧
      csrWrite key h 0x118 v = { h with troot := v &&& 0xFFFFFFFFFFFFF001#64 } ∧
      (csrWrite key h 0x100 v).mode = h.mode ∧
      (h.mode = .sup → (csrWrite key h 0x100 v).ieM = h.ieM))

/-- TIMER_INTERRUPT_PENDING and INTERRUPT_TAKE (R63, R74): fabric time at csr_alarm ends a SNOOZE; an interrupt that can
be taken is, at an instruction boundary, by the mode that its route names, and ends a SNOOZE or a TWAIT. The interrupt
chosen is one that is pending, enabled and not masked by the mode (R74).
Where the rules leave a point open it holds the model's reading, log 135. -/
def Obligations.Interrupts : Prop :=
   ((∀ (s : State) (ag : Agent) (key : Nat), s.halted = false → s.Sound → hartOf ag = some key →
      (s.hart key).alarm.toNat ≤ s.timeAt tbHcx → ∃ t, exec (.timerInterruptPending ag) s = .next t ∧
        t.hart key = { s.hart key with snoozing := false } ∧ (∀ k, k ≠ key → t.hart k = s.hart k) ∧ t.mem = s.mem ∧
        t.regs = s.regs) ∧
    (∀ (s : State) (ag : Agent) (key n : Nat), s.halted = false → s.Sound → hartOf ag = some key → (s.hart key).running = true →
      irqChoice s (s.hart key) = some n → ∃ t, exec (.interruptTake ag) s = .next t ∧
        t.hart key = { (s.hart key).trapTo (irqTarget (s.hart key) n) true n 0 (s.hart key).pc 0 false with snoozing := false } ∧
        (∀ k, k ≠ key → t.hart k = s.hart k) ∧ t.waits = s.waits.filter (fun w => decide (w.who ≠ .hart key)) ∧
        t.mem = s.mem ∧ t.regs = s.regs)) ∧
   (∀ (s : State) (h : Hart) (n : Nat), irqChoice s h = some n →
      irqPending s h n = true ∧ bit h.irqen.toNat n = true ∧ h.mode.rank ≤ (irqTarget h n).rank ∧
      (irqTarget h n = h.mode → h.ie h.mode = true) ∧
      (∀ m, irqTakeable s h m = true →
        (irqTarget h m).rank ≤ (irqTarget h n).rank ∧ (irqTarget h m = irqTarget h n → n ≤ m)))

/-! ## Tallies -/

/-- A signal at a tally's home (R109): TSIG leaves the larger of the two values, TADD adds and saturates; a tally's
generation and owner stay, and no other tally changes. A freed tally's handle is stale from then on, for a generation that
is neither that of the handle nor 0 (R108, R112): its number names a tally again only under a new generation, and no wait
on it stays. -/
def Obligations.TallySignals : Prop :=
   (∀ (z : State) (r : Run z) (i : Nat) (v : W32), r.s.Sound →
      ((r.tsigAt i v).s.tally i).value.toNat = max (r.s.tally i).value.toNat v.toNat ∧
      ((r.taddAt i v).s.tally i).value.toNat = min ((r.s.tally i).value.toNat + v.toNat) 0xFFFFFFFF ∧
      (∀ k : Nat, k = i → ∀ t, t = (r.tsigAt i v).s ∨ t = (r.taddAt i v).s →
        t.tally k = { r.s.tally k with value := (t.tally k).value }) ∧
      (∀ k, k ≠ i → (r.tsigAt i v).s.tally k = r.s.tally k ∧ (r.taddAt i v).s.tally k = r.s.tally k)) ∧
   (∀ (z : State) (r : Run z) (i h : Nat), r.s.Sound → tallyOf r.s h = some i → (r.s.tally i).gen ≠ 0 →
      let t := (r.freeTally i).s
      tallyOf t h = none ∧ (t.tally i).gen ≠ 0 ∧ (t.tally i).gen ≠ (r.s.tally i).gen ∧ (t.tally i).allocated = false ∧
      (∀ w ∈ t.waits, w.tally ≠ i) ∧ (∀ k, k ≠ i → t.tally k = r.s.tally k))

/-- TSIG, TADD, TREAD and TWAIT (R109 to R113). Where the rules leave a point open it holds the model's reading, log 40. -/
def Obligations.TallyInstructions : Prop :=
  (∀ scope : BitVec 3, scope.toNat ≤ 5 →
    TallyRow (fun ag f => .tsig ag scope f) .storeAccess (fun _ => True) (fun f => [f.d.toNat, f.a.toNat, f.b.toNat])
      (fun f _ h => .sig ((h.rg f.b).truncate 32)) (fun f _ _ _ t => .sig (t.rg f.b.toNat)) Run.settleSignals ∧
    TallyRow (fun ag f => .tadd ag scope f) .storeAccess (fun _ => True) (fun f => [f.d.toNat, f.a.toNat, f.b.toNat])
      (fun f _ h => .add ((h.rg f.b).truncate 32)) (fun f _ _ _ t => .add (t.rg f.b.toNat)) Run.settleSignals ∧
    TallyRow (fun ag f => .tread ag scope f) .loadAccess (fun f => f.b = 0) (fun f => [f.d.toNat, f.a.toNat])
      (fun _ _ _ => .read) (fun _ _ _ _ _ => .read) id ∧
    (∀ even : R3 → Prop, (∀ f, even f ↔ f.b.toNat % 2 = 0) →
      TallyRow (fun ag f => .twait ag scope f) .loadAccess even
        (fun f => [f.d.toNat, f.a.toNat, f.b.toNat, f.b.toNat + 1])
        (fun f key h => .wait (.hart key) ((h.rg f.d).truncate 32) (h.rg f.b) f.d.toNat)
        (fun f c g lane t => .wait (.thread c g lane) (t.rg f.d.toNat) (BitVec.ofNat 64 (t.rgPair f.b.toNat)) f.d.toNat) id))

/-- A TWAIT ends at once with OK where the value has reached the threshold, with TIMEOUT where the deadline has passed,
and is pending otherwise; a read changes nothing (R109, R110). TWAIT_TIMEOUT: the wait of a hart or thread whose deadline
fabric time has passed ends with TIMEOUT in its register, and the hart goes on past its TWAIT (R110). -/
def Obligations.TallyWaits : Prop :=
   (∀ (z : State) (r : Run z) (i : Nat) (who : Waiter) (th : W32) (dl : W64) (dest : Nat),
      (th.toNat ≤ (r.s.tally i).value.toNat → tallyAct r i (.wait who th dl dest) = (some stOk, r)) ∧
      ((r.s.tally i).value.toNat < th.toNat → dl.toNat < r.s.timeAt (tbHome i) → tallyAct r i (.wait who th dl dest) = (some stTimeout, r)) ∧
      ((r.s.tally i).value.toNat < th.toNat → r.s.timeAt (tbHome i) ≤ dl.toNat →
        (tallyAct r i (.wait who th dl dest)).1 = none ∧
        (tallyAct r i (.wait who th dl dest)).2.s = { r.s with waits := r.s.waits ++ [⟨who, i, th, dl, dest⟩] }) ∧
      tallyAct r i .read = (some (r.s.tally i).value.toNat, r)) ∧
   ((∀ (s : State) (ag : Agent) (key lane : Nat) (w : TWait), s.halted = false → s.Sound → hartOf ag = some key →
      w.who = .hart key → w.deadline.toNat < s.timeAt (tbHome w.tally) → (s.waits.filter fun x => decide (x.who = .hart key)) = [w] →
      ∃ t, exec (.twaitTimeout ag lane) s = .next t ∧ t.waits = s.waits.filter (fun x => decide (x.who ≠ .hart key)) ∧
        t.hart key = { (s.hart key).wg (BitVec.ofNat 5 w.dest) (BitVec.ofNat 64 stTimeout) with
          pc := (s.hart key).pc + 4, retired := (s.hart key).retired + 1 } ∧
        (∀ k, k ≠ key → t.hart k = s.hart k) ∧ t.mem = s.mem ∧ t.regs = s.regs ∧ t.tallies = s.tallies) ∧
    (∀ (s : State) (c g lane : Nat) (x : Gang) (w : TWait), s.halted = false → s.Sound → s.gang? c g = some x →
      w.who = .thread c g lane → w.deadline.toNat < s.timeAt (tbHome w.tally) →
      (s.waits.filter fun x => decide (x.who = .thread c g lane)) = [w] → lane < x.threads.length →
      ∃ t y, exec (.twaitTimeout (.lane c g) lane) s = .next t ∧
        t.waits = s.waits.filter (fun x => decide (x.who ≠ .thread c g lane)) ∧ t.gang? c g = some y ∧
        y.threads = x.threads.set lane ((x.thread lane).wg w.dest (BitVec.ofNat 32 stTimeout)) ∧
        t.mem = s.mem ∧ t.regs = s.regs ∧ t.tallies = s.tallies))

/-! ## Tensor instructions -/

/-- The tensor instructions that enter the queue (R48, R68, R72, R127). TSMAX in its four modes, which bits 17:16 of G
name (R196). Where the rules leave a point open it holds the model's reading, logs 119 and 125. -/
def Obligations.TensorInstructionsEnqueue : Prop :=
   ((∀ f : T3,
      (f.imm.toNat &&& (2 ^ 32 - 2) = 0 → f.tdB = 0 → f.bank = 0 → f.g = 0 →
        EnqueueRow (fun ag => .fmove ag f) f .fmove [] [f.tdC.toNat, f.tdA.toNat] none keepList fun _ => True) ∧
      (f.imm.toNat &&& (2 ^ 32 - 16) = 0 → f.tdC = 0 → f.g = 0 →
        b2n (f.imm.getLsbD 1) + b2n (f.imm.getLsbD 2) + b2n (f.imm.getLsbD 3) ≤ 1 →
        EnqueueRow (fun ag => .tmma ag f) f .tmma [] [f.tdA.toNat, f.tdB.toNat] (some f.bank.toNat) useList fun _ => True) ∧
      (f.imm.toNat &&& (2 ^ 32 - 4) = 0 → f.tdA = 0 → f.g = 0 → (f.imm.getLsbD 1 = false → f.tdB = 0) →
        EnqueueRow (fun ag => .tdrain ag f) f .tdrain []
          (if f.imm.getLsbD 1 then [f.tdC.toNat, f.tdB.toNat] else [f.tdC.toNat]) (some f.bank.toNat) keepList fun _ => True) ∧
      (f.imm = 0 → f.tdB = 0 → f.tdC = 0 → f.g = 0 →
        EnqueueRow (fun ag => .accScale ag f) f .accScale [] [f.tdA.toNat] (some f.bank.toNat) keepList fun _ => True) ∧
      (f.imm = 0 → f.tdA = 0 → f.tdB = 0 → f.tdC = 0 → f.g = 0 →
        EnqueueRow (fun ag => .tclr ag f) f .tclr [] [] (some f.bank.toNat) keepList fun _ => True) ∧
      (f.imm = 0 → f.tdB = 0 → f.tdC = 0 →
        EnqueueRow (fun ag => .trec ag f) f .trec [f.g.toNat] [f.tdA.toNat] (some f.bank.toNat) addList fun _ => True) ∧
      (f.imm = 0 → f.tdA = 0 → f.tdB = 0 →
        EnqueueRow (fun ag => .stateAudit ag f) f .audit [f.g.toNat] [f.tdC.toNat] (some f.bank.toNat) keepList fun _ => True) ∧
      (f.imm.toNat &&& (2 ^ 32 - 1 - 0x1F01) = 0 → f.bank = 0 →
        EnqueueRow (fun ag => .rope ag f) f .rope [f.g.toNat] [f.tdA.toNat, f.tdB.toNat, f.tdC.toNat] none keepList
          fun _ => True) ∧
      (f.imm.toNat &&& (2 ^ 32 - 1 - 0x1F07FF) = 0 → f.tdB = 0 → f.tdC = 0 →
        EnqueueRow (fun ag => .tmask ag f) f .tmask [f.g.toNat] [f.tdA.toNat] (some f.bank.toNat) keepList fun _ => True))) ∧
   (∀ f : T3,
      let mode : Nat → Gang → Prop := fun n x => bits ((x.thread 0).rg f.g.toNat).toNat 17 16 = n
      let all := [f.tdA.toNat, f.tdB.toNat, f.tdC.toNat]
      (1 ≤ f.imm.toNat → f.imm.toNat < 0x7F800000 →
        EnqueueRow (fun ag => .tsmaxStep ag f) f .tsmax [f.g.toNat] all (some f.bank.toNat) keepList (mode 0)) ∧
      (f.imm = 0 → f.bank = 0 →
        (f.tdB = 0 →
          EnqueueRow (fun ag => .tsmaxFinal ag f) f .tsmax [f.g.toNat] [f.tdA.toNat, f.tdC.toNat] none keepList (mode 1)) ∧
        EnqueueRow (fun ag => .tsmaxMerge ag f) f .tsmax [f.g.toNat] all none keepList (mode 2) ∧
        (f.tdB = 0 → f.tdC = 0 →
          EnqueueRow (fun ag => .tsmaxInit ag f) f .tsmax [f.g.toNat] [f.tdA.toNat] none keepList (mode 3))))

/-- While the tensor queue holds 16 entries, the core issues no tensor instruction and nothing changes (R127); where a thread that
has not exited is not active, or the bank is not held, every active thread faults (R48, R72). -/
def Obligations.TensorIssueChecks : Prop :=
  (∀ (f : T3) (s : State) (c g : Nat), s.halted = false → 16 ≤ (s.core c).queue.length →
    ∀ i ∈ [.fmove (.lane c g) f, .tmma (.lane c g) f, .tdrain (.lane c g) f, .accScale (.lane c g) f, .tclr (.lane c g) f,
      .trec (.lane c g) f, .stateAudit (.lane c g) f, .rope (.lane c g) f, .tmask (.lane c g) f, .tsmaxStep (.lane c g) f,
      .tsmaxFinal (.lane c g) f, .tsmaxMerge (.lane c g) f, .tsmaxInit (.lane c g) f, .tdw (.lane c g) f, .tdld (.lane c g) f,
      .tdst (.lane c g) f, Instr.tsync (.lane c g) f], exec i s = .next s) ∧
  ∀ (f : T3) (s : State) (c g : Nat) (x : Gang) (r : Run s), f.imm = 0 → f.tdA = 0 → f.tdB = 0 → f.tdC = 0 → f.g = 0 →
    OnLane s c g (wordsOf (.tclr (.lane c g) f)) [] [] x r → (s.core c).queue.length < 16 →
    let y := x.advanced (wordsOf (.tclr (.lane c g) f))
    (y.liveLanes ≠ x.active → exec (.tclr (.lane c g) f) s = .next (faultLanes (Run.start s) c g (x.minPc.getD 0)
      (x.active.map fun l => (l, .tensorDivergent, laneMask x.active))).s) ∧
    (y.liveLanes = x.active → x.banks.length ≤ f.bank.toNat →
      exec (.tclr (.lane c g) f) s = .next (faultLanes (Run.start s) c g (x.minPc.getD 0)
        (x.active.map fun l => (l, .bankNotHeld, f.bank.toNat))).s)

/-- TDW, TDLD, TDST and TSYNC (R68, R71). Where the rules leave a point open it holds the model's reading, log 119. -/
def Obligations.TensorDescriptorInstructions : Prop :=
  ∀ (f : T3) (s : State) (c g : Nat) (x : Gang), f.tdA = 0 → f.tdB = 0 → f.bank = 0 →
    (∀ r, f.imm.toNat ≤ 7 → OnLane s c g (wordsOf (.tdw (.lane c g) f)) [f.g.toNat] [f.tdC.toNat] x r →
      TensorReady s c x (wordsOf (.tdw (.lane c g) f)) none →
      let y := x.advanced (wordsOf (.tdw (.lane c g) f))
      exec (.tdw (.lane c g) f) s = .next (noteIssue (r.setGang c g { y with
        td := SMap.set 0 y.td f.tdC.toNat (BitVec.ofNat 256 (setBits (tdOf y f.tdC).toNat (32 * f.imm.toNat + 31)
          (32 * f.imm.toNat) ((y.thread 0).rg f.g.toNat).toNat)) }) c g).s) ∧
    (∀ r pa r', f.g.toNat % 2 = 0 →
      OnLane s c g (wordsOf (.tdld (.lane c g) f)) [f.g.toNat, f.g.toNat + 1] [f.tdC.toNat] x r →
      TensorReady s c x (wordsOf (.tdld (.lane c g) f)) none →
      let y := x.advanced (wordsOf (.tdld (.lane c g) f))
      tdAddr y f % 32 = 0 → (r.scrubWalk (gangX r.s y) (tdAddr y f)).translate (gangX r.s y) .load (tdAddr y f) = .ok (pa, r') →
      (y.thread 0).rgPair f.g.toNat < 2 ^ 48 → (region pa).isMem = true → laneBarred r'.s pa = false → r'.s.isUe pa = false →
      exec (.tdld (.lane c g) f) s = .next (noteIssue ((r'.scrub pa 32).setGang c g { y with
        td := SMap.set 0 y.td f.tdC.toNat (BitVec.ofNat 256 ((r'.scrub pa 32).s.load pa 32)) }) c g).s) ∧
    (∀ r pa r', f.g.toNat % 2 = 0 →
      OnLane s c g (wordsOf (.tdst (.lane c g) f)) [f.g.toNat, f.g.toNat + 1] [f.tdC.toNat] x r →
      TensorReady s c x (wordsOf (.tdst (.lane c g) f)) none →
      let y := x.advanced (wordsOf (.tdst (.lane c g) f))
      tdAddr y f % 32 = 0 → (r.scrubWalk (gangX r.s y) (tdAddr y f)).translate (gangX r.s y) .store (tdAddr y f) = .ok (pa, r') →
      (y.thread 0).rgPair f.g.toNat < 2 ^ 48 → (region pa).isMem = true → laneBarred r'.s pa = false →
      exec (.tdst (.lane c g) f) s =
        .next (noteIssue ((r'.storeMem pa 32 (tdOf y f.tdC).toNat).setGang c g y) c g).s) ∧
    (∀ r, f.imm = 0 → f.tdC = 0 → OnLane s c g (wordsOf (.tsync (.lane c g) f)) [f.g.toNat] [] x r →
      TensorReady s c x (wordsOf (.tsync (.lane c g) f)) none →
      let y := x.advanced (wordsOf (.tsync (.lane c g) f))
      ((∃ t ∈ (r.s.core c).queue ++ (r.s.core c).running, t.gang = g) → exec (.tsync (.lane c g) f) s = .next s) ∧
      ((∀ t ∈ (r.s.core c).queue ++ (r.s.core c).running, t.gang ≠ g) → exec (.tsync (.lane c g) f) s =
        .next (noteIssue (r.setGang c g { y.mapLanes x.active (fun _ t => t.wg f.g.toNat
          (if y.bounds then 0x10 else if y.issued ≠ 0 ∧ y.nonEmpty = false then 1 else 0)) with
            bounds := false, issued := 0, nonEmpty := false }) c g).s))

/-- TENSOR_INSTR_START (R71, R128, R129, R519): an entry whose start conditions hold leaves the queue; what it reads and
writes is then fixed, or it is refused with BOUNDS, or it is EMPTY, or its gang faults. TENSOR_INSTR_FINISH, FMOVE_FINISH
and PRISM_FEED_FETCH (R129, R175, R176, R260, R267).
Where the rules leave a point open it holds the model's reading, logs 120, 122 to 126 and 140. -/
def Obligations.TensorStartAndFinish : Prop :=
   (∀ (s : State) (c seq : Nat) (t : TInstr) (x : Gang), s.halted = false →
      ((s.core c).queue.find? fun e => decide (e.seq = seq)) = some t → s.gang? c t.gang = some x →
      let r := (Run.start s).unqueue c t
      (∀ n, x.late = some n → n ≤ t.seq → exec (.tensorInstrStart c seq) s = .next r.s) ∧
      ((∀ n, x.late = some n → t.seq < n) → mayStart s c t = false → exec (.tensorInstrStart c seq) s = .next s) ∧
      ((∀ n, x.late = some n → t.seq < n) → mayStart s c t = true →
        (startPlan s c x t = .refuse → exec (.tensorInstrStart c seq) s = .next (r.tensorRefuse c x t).s) ∧
        (startPlan s c x t = .empty → exec (.tensorInstrStart c seq) s = .next r.s) ∧
        (∀ cause tval, startPlan s c x t = .fault cause tval → exec (.tensorInstrStart c seq) s =
          .next (r.laneFault c t.gang cause tval t.pc.toNat t.mask.toNat stLaneFault (some (t.seq + 1))).s) ∧
        (∀ rd wr, startPlan s c x t = .go rd wr →
          let rp := folioPages s (gangX s x) c (t.op = .fmove) .load rd
          let wp := folioPages s (gangX s x) c (t.op = .fmove) .store wr
          ((rp = none ∨ wp = none) → exec (.tensorInstrStart c seq) s =
            .next (((r.countWalk (gangX s x) .load rd).countWalk (gangX s x) .store wr).tensorRefuse c x t).s) ∧
          (∀ rs ws, rp = some rs → wp = some ws → s.Sound → ∃ u, exec (.tensorInstrStart c seq) s = .next u ∧
            (s.vault.weak = [] →
              (u.core c).queue = (s.core c).queue.filter (fun e => decide (e.seq ≠ t.seq)) ∧
              (∃ e, (u.core c).running = (s.core c).running ++ [e] ∧ e.reads = rs ∧ e.writes = ws ∧ e.seq = t.seq ∧ e.op = t.op) ∧
              u.gang? c t.gang = some { x with nonEmpty := true } ∧ u.regs = s.regs ∧ u.harts = s.harts ∧
              (∀ k, k ≠ c → u.core k = s.core k)))))) ∧
   ((∀ (s : State) (c seq : Nat) (t : TInstr) (x : Gang), s.halted = false →
      ((s.core c).running.find? fun e => decide (e.seq = seq ∧ e.op ≠ .fmove)) = some t → s.gang? c t.gang = some x →
      (isPrism t = true → ∀ n ∈ prismNeeds t t.map, ∃ i ∈ (s.core c).prism, i.key = n.key) →
      exec (.tensorInstrFinish c seq) s = .next
        ((((((Run.start s).each t.writes fun p r => r.prismTouch p).tensorEffect c x t).bump (coreReg c 0xD4)
          (drainCycles s c x t)).finished c t)).s) ∧
    (∀ (s : State) (c seq : Nat) (t : TInstr), s.halted = false →
      ((s.core c).running.find? fun e => decide (e.seq = seq ∧ e.op = .fmove)) = some t →
      let p := ((Run.start s).finished c t).moveFolios (moveOverlaps t) (t.reads.zip t.writes)
      (p.2 = none → exec (.fmoveFinish c seq) s = .next p.1.s) ∧
      (∀ pg, p.2 = some pg → exec (.fmoveFinish c seq) s = .next (p.1.laneFault c t.gang .loadAccess
        (((List.find? (fun e => decide (e.2 = pg)) t.map).map Prod.fst).getD 0 * 4096) t.pc.toNat t.mask.toNat stUncorrectable (some (t.seq + 1))).s)) ∧
    (∀ (s : State) (c : Nat) (w : PrismItem), s.halted = false →
      ((prismWanted s c).find? fun w => !(s.core c).prism.any fun i => i.key = w.key) = some w →
      let kept := prismRoom w.bytes (prismWanted s c) (s.core c).prism
      (kept.map (·.bytes)).sum + w.bytes ≤ 16384 →
      exec (.prismFeedFetch c) s = .next ((Run.start s).setCore c { s.core c with prism := kept ++ [w] }).s))

/-! ## Control registers -/

/-- A write of a word under the access types of R11: every field of the register holds what its type makes of the word,
RWM fields take it in the mirror bank alone (R13), and no other register and nothing else changes. REGISTER_WRITE and
LO_HI_READ_LATCH (R9 to R14, R38): a register with no effect of its own takes the word by its access types; the read of a
_LO register latches its _HI, which a read of _HI returns from then on. -/
def Obligations.RegisterCommands : Prop :=
   (∀ (z : State) (r : Run z) (k v : Nat) (d : RegDesc), r.s.Sound → regDesc k = some d →
      let t := (r.regStore k v).s
      (∀ f ∈ d.fields, f.get (t.reg k).toNat = f.after (r.s.reg k).toNat v) ∧
      (∀ f ∈ d.fields, f.acc = .rwm → f.get (t.mir k).toNat = f.get v) ∧
      (∀ k', k' ≠ k → t.reg k' = r.s.reg k' ∧ t.mir k' = r.s.mir k') ∧
      t = { r.s with regs := t.regs, mirror := t.mirror }) ∧
   ((∀ (off : BitVec 28) (v : W32),
      RegisterWriteRow (fun _ => True) (fun ag => .registerWrite ag off v) (fun _ => off.toNat) (fun _ => v.toNat)
        fun ag r => match r.regSpecial (some ag) off.toNat v.toNat with
          | some r' => r'
          | none => r.regStore off.toNat v.toNat) ∧
    (∀ off : BitVec 28, isHi (off.toNat + 4) = true → isHi off.toNat = false → off.toNat ≠ schedReg 0x020 →
      (regDesc off.toNat).isSome = true →
      RegisterReadRow (fun ag => .loHiReadLatch ag off) off.toNat
        fun r => r.setLatch (off.toNat + 4) (BitVec.ofNat 32 (regValue r.s (off.toNat + 4)))) ∧
    (∀ (z : State) (r : Run z) (who : Option Agent) (k : Nat) (v : W32), isHi k = true → (regDesc k).isSome = true →
      ((r.setLatch k v).regRead who k).1 = v.toNat))

/-- The commands that are one write of a scheduler, reflex, memory or firmware register, or one read there. The commands
that are one write of any other register, or one read there. -/
def Obligations.BlockRegisterCommands : Prop :=
   (let any : Agent → Prop := fun _ => True
    (∀ v : W32, RegisterWriteRow any (fun ag => .schedTallyFree ag v) (fun _ => schedReg 0x028) (fun _ => v.toNat)
      fun _ r => r.writeTallyFree v.toNat) ∧
    RegisterReadRow (fun ag => .schedTallyAlloc ag) (schedReg 0x020) (fun r => r.readTallyAlloc.2) ∧
    (∀ n : BitVec 14, RegisterWriteRow any (fun ag => .schedCardSync ag n) (fun _ => schedReg 0x018) (fun _ => n.toNat)
      fun _ r => r.cardSync n.toNat none) ∧
    (∀ (n : BitVec 12) (v : W32),
      RegisterWriteRow any (fun ag => .contextEnable ag n v) (fun _ => schedReg (0x10000 + 0x10 * n.toNat))
        (fun _ => setBits v.toNat 31 31 1) (fun _ r => r.writeCtxCfg n.toNat (setBits v.toNat 31 31 1)) ∧
      RegisterWriteRow any (fun ag => .contextDisable ag n) (fun _ => schedReg (0x10000 + 0x10 * n.toNat))
        (fun s => setBits (s.reg (schedReg (0x10000 + 0x10 * n.toNat))).toNat 31 31 0)
        (fun _ r => r.writeCtxCfg n.toNat (setBits (r.s.reg (schedReg (0x10000 + 0x10 * n.toNat))).toNat 31 31 0))) ∧
    (∀ v : W32, RegisterWriteRow any (fun ag => .schedDb ag v) (fun _ => schedReg 0) (fun _ => v.toNat)
      fun _ r => if r.s.sec.switch.isSome then r else r.doorbell v.toNat r.s.now) ∧
    (∀ v : W32, RegisterWriteRow any (fun ag => .schedHeartbeat ag v) (fun _ => schedReg 0x034) (fun _ => v.toNat)
      fun _ r => r.heartbeat (bits v.toNat 11 0) r.s.now) ∧
    (∀ (n : BitVec 4) (lcore : BitVec 8),
      RegisterWriteRow any (fun ag => .reflexCoreEnable ag n lcore) (fun _ => rfxCoreReg n.toNat) (fun _ => 2 ^ 31 + lcore.toNat)
        (fun _ r => r.writeRfxCore n.toNat (2 ^ 31 + lcore.toNat)) ∧
      RegisterWriteRow any (fun ag => .reflexCoreDisable ag n) (fun _ => rfxCoreReg n.toNat)
        (fun s => setBits (s.reg (rfxCoreReg n.toNat)).toNat 31 31 0)
        (fun _ r => r.writeRfxCore n.toNat (setBits (r.s.reg (rfxCoreReg n.toNat)).toNat 31 31 0))) ∧
    (∀ (group : BitVec 6) (v : W32),
      RegisterWriteRow any (fun ag => .reflexResetMark ag group v) (fun _ => rfxReg group.toNat 0x24) (fun _ => v.toNat)
        (fun _ r => r.rfxMark group.toNat v.toNat) ∧
      RegisterWriteRow any (fun ag => .reflexStop ag group) (fun _ => rfxReg group.toNat 0x20) (fun _ => 2 ^ 31)
        (fun _ r => r.rfxStop group.toNat stReflexStopped)) ∧
    (∀ v : W32, RegisterWriteRow any (fun ag => .pidxRqDb ag v) (fun _ => pidxReg 0x00C) (fun _ => v.toNat)
      fun _ r => r.put (.kv { r.s.kv with awake := true })) ∧
    (∀ (hi : Bool) (v : W32),
      RegisterWriteRow any (fun ag => .vltCmapWrite ag hi v) (fun _ => vltReg (if hi then 0x024 else 0x020)) (fun _ => v.toNat)
        (fun _ r => (r.regStore (vltReg (if hi then 0x024 else 0x020)) v.toNat).buildCmap) ∧
      RegisterWriteRow any (fun ag => .vltTlbinv ag hi v) (fun _ => vltReg (if hi then 0x034 else 0x030)) (fun _ => v.toNat)
        (fun _ r => r.tlbInv hi v)) ∧
    (∀ (n : BitVec 10) (v : W32),
      RegisterWriteRow any (fun ag => .vltLblkWrite ag n v) (fun _ => vltReg (0x1000 + 4 * n.toNat)) (fun _ => v.toNat)
        fun _ r => r.writeLblk n.toNat v) ∧
    (∀ n : BitVec 4,
      RegisterWriteRow any (fun ag => .windowStart ag n) (fun _ => vltReg (0x808 + 0x20 * n.toNat)) (fun _ => 2 ^ 31)
        (fun ag r => r.windowCtrl (some ag) n.toNat (2 ^ 31)) ∧
      RegisterWriteRow any (fun ag => .windowStop ag n) (fun _ => vltReg (0x808 + 0x20 * n.toNat)) (fun _ => 2 ^ 30)
        (fun _ r => r.windowStop n.toNat)) ∧
    (∀ p, p ≤ 4 →
      RegisterWriteRow any (fun ag => .fwpRestartRequest ag p) (fun _ => fwReg p 0)
        (fun s => setBits (s.reg (fwReg p 0)).toNat 31 31 1)
        (fun ag r => if ag = .fw 4 then r.fwpCtrl p (setBits (r.s.reg (fwReg p 0)).toNat 31 31 1) else r) ∧
      RegisterWriteRow (fun ag => ag = .fw p) (fun _ => .fwpKick p) (fun _ => fwReg p 0x014) (fun _ => 1)
        (fun _ r => r.fwpKick p))) ∧
   (let any : Agent → Prop := fun _ => True
    (∀ v : W32, RegisterWriteRow any (fun ag => .topFtCtrlWrite ag v) (fun _ => topReg 0x108) (fun _ => v.toNat)
      fun _ r => r.ftCtrl v.toNat) ∧
    (∀ (core : Nat) (v : W32), core < 192 →
      RegisterWriteRow any (fun ag => .coreFltCauseClear ag core v) (fun _ => coreReg core 0x010) (fun _ => v.toNat)
        fun _ r => r.fltClear (coreReg core 0x010) v.toNat) ∧
    (∀ (n : BitVec 2) (v : W32),
      RegisterWriteRow any (fun ag => .qbvChange ag n v) (fun _ => portReg n.toNat 0x050) (fun _ => setBits v.toNat 31 31 1)
        fun _ r => (r.regStore (portReg n.toNat 0x050) (setBits v.toNat 31 31 1)).qbvChange n.toNat) ∧
    (∀ v : W32, RegisterWriteRow any (fun ag => .ethFlowDb ag v) (fun _ => ethReg 0x5000) (fun _ => v.toNat)
      fun _ r => r.flowDb v.toNat) ∧
    (∀ v : W32, RegisterWriteRow any (fun ag => .archiveCopy ag v) (fun _ => audReg 0x134) (fun _ => setBits v.toNat 31 31 1)
      fun _ r => (r.setRegN (audReg 0x134)
        (r.s.fld (audReg 0x134) 31 31 * 2 ^ 31 + (setBits v.toNat 31 31 1 &&& 0x4FFF00FF))).copyGo) ∧
    (∀ v : W32, RegisterWriteRow any (fun ag => .audRingDb ag v) (fun _ => audReg 0x500) (fun _ => v.toNat)
      fun _ r => r.audRingDb v.toNat) ∧
    (∀ v : W32, RegisterWriteRow any (fun ag => .csiRingDb ag v) (fun _ => csiReg 0x4000) (fun _ => v.toNat)
      fun _ r => r.csiRingDb v.toNat) ∧
    (∀ (n : BitVec 4) (v : W32), RegisterWriteRow any (fun ag => .ispArm ag n v) (fun _ => ispReg n.toNat 0x004) (fun _ => v.toNat)
      fun _ r => r.ispArm n.toNat v.toNat) ∧
    (∀ (bus : BitVec 2) (v : W32),
      RegisterWriteRow any (fun ag => .i3cXfer ag bus v) (fun _ => csiReg (0x3004 + 0x100 * bus.toNat))
        (fun _ => setBits v.toNat 31 31 1) fun _ r => r.i3cXfer bus.toNat (setBits v.toNat 31 31 1)) ∧
    (∀ v : W32, RegisterWriteRow any (fun ag => .ladderEnable ag v) (fun _ => audReg 0x600) (fun _ => setBits v.toNat 31 31 1)
      fun _ r => r.writeLadCfg (setBits v.toNat 31 31 1)) ∧
    RegisterWriteRow any (fun ag => .ladderDisable ag) (fun _ => audReg 0x600)
      (fun s => setBits (s.reg (audReg 0x600)).toNat 31 31 0)
      (fun _ r => r.writeLadCfg (setBits (r.s.reg (audReg 0x600)).toNat 31 31 0)) ∧
    RegisterWriteRow any (fun ag => .ladderReload ag) (fun _ => audReg 0x600)
      (fun s => setBits (s.reg (audReg 0x600)).toNat 30 30 1)
      (fun _ r => r.writeLadCfg (setBits (r.s.reg (audReg 0x600)).toNat 30 30 1)) ∧
    (∀ v : W32, RegisterWriteRow any (fun ag => .audLadAck ag v) (fun _ => audReg 0x61C) (fun _ => v.toNat)
      fun _ r => r.ladAck (bits v.toNat 15 0)) ∧
    (∀ target : BitVec 3, RegisterWriteRow any (fun ag => .pwrStateRequest ag target) (fun _ => pwrReg 0)
      (fun _ => 2 ^ 31 + target.toNat) fun _ r => r.stateCtrl (2 ^ 31 + target.toNat)) ∧
    (∀ (c : Nat) (v : BitVec 2), c < 17 →
      RegisterWriteRow any (fun ag => .dvfsTargetWrite ag c v) (fun _ => dvfsReg c)
        (fun s => setBits (s.reg (dvfsReg c)).toNat 21 20 v.toNat)
        (fun _ r => r.writeDvfs c (setBits (r.s.reg (dvfsReg c)).toNat 21 20 v.toNat)) ∧
      RegisterWriteRow any (fun ag => .dvfsVselWrite ag c v) (fun _ => dvfsReg c)
        (fun s => setBits (s.reg (dvfsReg c)).toNat 13 12 v.toNat)
        (fun _ r => r.writeDvfs c (setBits (r.s.reg (dvfsReg c)).toNat 13 12 v.toNat)) ∧
      RegisterWriteRow any (fun ag => .clkDivWrite ag c v) (fun _ => regKey 2 (0x100 + 4 * c)) (fun _ => v.toNat)
        (fun _ r => r.writeDiv c v.toNat)) ∧
    (∀ v : W32, RegisterWriteRow any (fun ag => .pwrCapWrite ag v) (fun _ => pwrReg 0x300) (fun _ => v.toNat)
      fun _ r => (r.writeCap (bits v.toNat 7 0)).2) ∧
    (∀ v : W32, RegisterWriteRow any (fun ag => .pwrModeWrite ag v) (fun _ => pwrReg 0x304) (fun _ => v.toNat)
      fun _ r => (r.writeMode v.toNat).2) ∧
    (∀ v : W32, RegisterWriteRow any (fun ag => .fixFence ag v) (fun _ => fixReg 0x00C) (fun _ => v.toNat)
      fun _ r => r.fenceAll [bits v.toNat 7 0] 5) ∧
    (∀ v : W32, RegisterWriteRow any (fun ag => .modelMeasure ag v) (fun _ => secReg 0x020) (fun _ => v.toNat)
      fun _ r => r.mmWrite v.toNat) ∧
    RegisterWriteRow any (fun ag => .topSnapArm ag) (fun _ => topReg 0x200) (fun _ => 2 ^ 31)
      (fun _ r => (r.snapArm (r.s.reg64 (topReg 0x204)) r.s.now).2.2) ∧
    RegisterWriteRow any (fun ag => .topSnapCancel ag) (fun _ => topReg 0x200) (fun _ => 2 ^ 30) (fun _ r => r.snapCancel) ∧
    (∀ v : W32, RegisterWriteRow any (fun ag => .obsTrcAck ag v) (fun _ => obsReg 0x118) (fun _ => v.toNat)
      fun _ r => r.trcAck v.toNat) ∧
    (∀ v : W32, RegisterWriteRow any (fun ag => .errSumClear ag v) (fun _ => obsReg 0x200) (fun _ => v.toNat)
      fun _ r => r.errClear v.toNat) ∧
    (∀ b : Byte, RegisterWriteRow any (fun ag => .uart1Send ag b) (fun _ => topReg 0x320) (fun _ => b.toNat)
      fun _ r => r.uartSend b) ∧
    RegisterReadRow (fun ag => .uart1ReceiveRead ag) (topReg 0x320) (fun r => r.uartRead.2))

/-! ## Messages -/

/-- Sessions and work (R308, R311, R324 to R326): HELLO, BYE, HEARTBEAT, LEASE_CFG, SUBMIT, CARD_SYNC and DOORBELL, and an unknown
opcode. -/
def Obligations.SessionMessages : Prop :=
  let all : Msg → Bool := fun _ => true
  let run : State → Prop := fun _ => True
  (∀ m, EventRow .hello (fun s => frontMsg s 4 (isOp 1) = some m) fun _ r => (r.popMsg 4).helloTaken m) ∧
  (∀ (m : Msg) (n : Nat),
    let same := fun (e : MExec) => e.opcode = 1 && e.seq = m.seq && e.peer.bind = m.peer.bind
    let q := fun {z : State} (r : Run z) =>
      (r.popMsg 4).setMhy { (r.popMsg 4).s.mhy with execs := (r.popMsg 4).s.mhy.execs.filter fun e => !same e }
    EventRow .hello
      (fun s => frontMsg s 4 (isOp 1) = some m ∧ ((Run.start s).popMsg 4).s.mhy.execs.find? same = none ∧
        closedSess (q (Run.start s)).s = some n ∧ helloStatus (q (Run.start s)).s m = stOk)
      (fun _ r =>
        let d := (q r).draw
        let token := d.1.toNat % (2 ^ 32 - 1) + 1
        let minor := min m.minor 2
        let feats := (List.range 8).map fun i =>
          (le m.payload (8 + 2 * i) 2 &&& (deviceFeats d.2.s).getD i 0) ||| (if i = 0 then 1 else 0)
        let w := d.2.setSess n { token := token, peer := m.peer, feats := feats, minor := minor, nocrc := m.nocrc }
        let w := ((w.setLease n (m.w 0)).setFld (sessReg n 0) 31 30 1).setReg64 (sessReg n 4) m.stamp
        w.mhyAnswer m.peer minor m.nocrc 1 n token m.seq stOk
          (leBytes 4 (leaseWord w.s n) ++ leBytes 4 8 ++ feats.flatMap (leBytes 2)))) ∧
  MessageRow .bye 0 0x0003 all (lenIs 0) run (fun _ _ _ => True)
    (fun _ m r => (r.beginRelease m.session (some m.seq)).settleSignals) ∧
  MessageRow .heartbeat 0 0x0004 all (lenIs 0) run (fun _ _ _ => True) (fun _ m r => r.reply m stOk) ∧
  MessageRow .leaseCfg 0 0x0005 all (lenIs 4) run (fun _ _ m => leaseOk (m.w 0) = true)
    (fun _ m r => (r.setLease m.session (m.w 0)).reply m stOk
      (leBytes 4 (leaseWord (r.setLease m.session (m.w 0)).s m.session))) ∧
  MessageRow .leaseCfg 0 0x0005 all (lenIs 4) run (fun _ _ m => leaseOk (m.w 0) = false) (fun _ m r => r.reply m stBounds) ∧
  MessageRow .submit 0 0x0100 all submitLen run (fun s _ m => submitStatus s m = stOk)
    (fun _ m r =>
      let card := bits (m.w 0) 29 16
      let n := bits (m.w 0) 7 0
      let first := bits (cardW r.s card 10) 15 0
      let tail := (first + n) % 65536
      let w := r.each ((List.range n).zip (submitSlots r.s card n)) fun iv q =>
        match q.writeVirtBytes (ctxX r.s (cardCtx r.s card)) iv.2 (slice m.payload (8 + 64 * iv.1) 64) with
        | .ok q => q
        | .error _ => q
      (if n = 0 then w else w.setHw card 10 tail).reply m stOk (leBytes 4 (tail * 2 ^ 16 + first))) ∧
  (∀ st, st ≠ stOk → MessageRow .submit 0 0x0100 all submitLen run (fun s _ m => submitStatus s m = st)
    (fun _ m r => r.reply m st)) ∧
  MessageRow .cardSync 0 0x0101 all (lenIs 4) run (fun _ _ m => m.w 0 < 2 ^ 14)
    (fun _ m r => r.cardSync (m.w 0) (some (m.session, m.seq))) ∧
  MessageRow .doorbell 0 0x0102 all (lenIs 4) run (fun s _ m => bit (m.w 0) 31 = false ∧ bellOk s (m.w 0) m.stamp = true)
    (fun _ m r => (r.doorbell (m.w 0) m.stamp).reply m stOk) ∧
  MessageRow .doorbell 0 0x0102 all (lenIs 4) run (fun s _ m => bit (m.w 0) 31 = false ∧ bellOk s (m.w 0) m.stamp = false)
    (fun _ m r => (r.doorbell (m.w 0) m.stamp).reply m stBounds) ∧
  (∀ m, EventRow .messageUnknownOpcode (fun s => frontMsg s 5 (fun _ => true) = some m)
    fun _ r => (r.popMsg 5).reply m stFeature)

/-- Tallies, memory and pace (R109, R290, R325, R327 to R329, R445). -/
def Obligations.WorkMessages : Prop :=
  let all : Msg → Bool := fun _ => true
  let run : State → Prop := fun _ => True
  MessageRow .tallyAlloc 0 0x0103 all (lenIs 4) run
    (fun s x m => bits (m.w 0) 31 28 = 0 ∧ bits (m.w 0) 15 8 = 0 ∧ bits (m.w 0) 7 0 ≤ 64 ∧
      replyFits s x m (4 * bits (m.w 0) 7 0) = true ∧
      (s.tallies.filter fun t => t.2.allocated).length + bits (m.w 0) 7 0 ≤ 16384)
    (fun _ m r =>
      let p := r.allocTallies (bits (m.w 0) 27 16) (m.session, m.seq) (bits (m.w 0) 7 0)
      p.1.reply m stOk (((List.range 16384).filter fun i => p.2.contains i).flatMap fun i => leBytes 4 (tallyHandle p.1.s i))) ∧
  MessageRow .tallyFree 0 0x0104 all (fun m => m.payload.length % 4 = 0 && decide (m.payload.length ≤ 256)) run
    (fun s _ m => (∀ h ∈ freeHandles m, (tallyOf s h).isSome = true) ∧ (freeHandles m).eraseDups.length = (freeHandles m).length)
    (fun _ m r => ((r.each (freeHandles m) fun h r => r.writeTallyFree h).reply m stOk).settleSignals) ∧
  MessageRow .tallyFree 0 0x0104 all (fun m => m.payload.length % 4 = 0 && decide (m.payload.length ≤ 256)) run
    (fun s _ m => (∃ h ∈ freeHandles m, tallyOf s h = none) ∨ (freeHandles m).eraseDups.length ≠ (freeHandles m).length)
    (fun _ m r => r.reply m stBounds) ∧
  (∀ i : Nat,
    let ok : State → Sess → Msg → Prop := fun s _ m => m.w 0 < 3 ∧ tallyOf s (m.w 1) = some i
    let old : {z : State} → Run z → List Byte := fun r => leBytes 4 (r.s.tally i).value.toNat
    MessageRow .tallyOpTsig 0 0x0105 (fun m => bits (m.w 0) 1 0 = 0) (lenIs 12) run ok
      (fun _ m r => ((r.tsigAt i (BitVec.ofNat 32 (m.w 2))).reply m stOk (old r)).settleSignals) ∧
    MessageRow .tallyOpTadd 0 0x0105 (fun m => bits (m.w 0) 1 0 = 1) (lenIs 12) run ok
      (fun _ m r => ((r.taddAt i (BitVec.ofNat 32 (m.w 2))).reply m stOk (old r)).settleSignals) ∧
    MessageRow .tallyOpTread 0 0x0105 (fun m => decide (2 ≤ bits (m.w 0) 1 0)) (lenIs 12) run ok
      (fun _ m r => (r.reply m stOk (old r)).settleSignals) ∧
    MessageRow .tallyWatch 0 0x0106 all (lenIs 16) run
      (fun s _ m => tallyOf s (m.w 0) = some i ∧ (s.mhy.watches.filter fun w => w.session = m.session).length < 64)
      (fun _ m r =>
        let deadline := m.w 2 + 2 ^ 32 * m.w 3
        if m.w 1 ≤ (r.s.tally i).value.toNat then r.reply m stOk
        else if deadline < m.stamp then r.reply m stTimeout
        else r.setMhy { r.s.mhy with watches := r.s.mhy.watches ++ [⟨m.session, m.seq, i, m.w 1, deadline⟩] })) ∧
  (∀ (session seq : Nat) (w : Watch),
    EventRow (.tallyWatchTimeout session seq)
      (fun s => (s.mhy.watches.find? fun w => w.session = session && w.seq = seq) = some w ∧
        w.deadline < s.timeAt (tbHome w.tally))
      fun s r => (r.setMhy { s.mhy with
        watches := s.mhy.watches.filter fun v => !(v.session = session && v.seq = seq)
        owed := s.mhy.owed ++ [Owed.reply session seq stTimeout] }).mhyFlush) ∧
  MessageRow .read 1 0x0200 all (lenIs 12) run (fun s x m => readStatus s x m = stOk)
    (fun _ m r =>
      let q := (r.readIn (ctxX r.s (memCtx m)) (memAddr m) (memLen m)).2
      match lookupBytes q.s (ctxX r.s (memCtx m)) .load (memAddr m) (memLen m) with
      | .ok as => q.reply m stOk (as.map q.s.byte)
      | .error _ => q.reply m stBounds) ∧
  (∀ st, st ≠ stOk →
    MessageRow .read 1 0x0200 all (lenIs 12) run (fun s x m => readStatus s x m = st) (fun _ m r =>
      (if st = stUncorrectable then r.noteUe (ctxX r.s (memCtx m)) (memAddr m) (memLen m) else r).reply m st)) ∧
  MessageRow .write 1 0x0201 all writeLen run
    (fun s _ m => s.sec.recovery = false ∧ memRsv m = false ∧ ctxSession s (memCtx m) = m.session ∧
      mapped s (ctxX s (memCtx m)) .store (memAddr m) (memLen m) = true)
    (fun _ m r => match r.writeVirtBytes (ctxX r.s (memCtx m)) (memAddr m) (m.payload.drop 12) with
      | .ok q => q.reply m stOk
      | .error _ => r.reply m stBounds) ∧
  MessageRow .write 1 0x0201 all writeLen run
    (fun s _ m => s.sec.recovery = true ∧ memRsv m = false ∧ memAddr m + memLen m ≤ 0x200000)
    (fun _ m r => (r.storePhys (((List.range (memLen m)).map fun i => memAddr m + i).zip (m.payload.drop 12))).reply m stOk) ∧
  MessageRow .paceBind 0 0x0410 all (lenIs 56) run
    (fun s _ m => paceOk m = true ∧ (s.mhy.jobs.filter fun i => i.job ≠ (paceJob m).job).length < 16 ∧
      (s.fld (pwrReg 0x304) 31 31 = 1 → (paceJob m).n ≤ 2))
    (fun _ m r => (r.setMhy { r.s.mhy with jobs := (r.s.mhy.jobs.filter fun i => i.job ≠ (paceJob m).job) ++
      [{ paceJob m with epoch := match tallyOf r.s (paceJob m).arrive with
        | some i => (r.s.tally i).value.toNat
        | none => 0 }] }).reply m stOk) ∧
  (∀ j : Job, MessageRow .pace 0 0x0411 all (lenIs 8) run
    (fun s _ m => (s.mhy.jobs.find? fun j => j.job = bits (m.w 0) 31 16) = some j ∧ bits (m.w 0) 15 3 = 0 ∧
      bits (m.w 0) 2 0 ≠ j.self_ ∧ bits (m.w 0) 2 0 < j.n)
    (fun _ m r => ((match tallyOf r.s (j.peerTally.getD (bits (m.w 0) 2 0) 0) with
      | some i => r.tsigAt i (BitVec.ofNat 32 (m.w 1))
      | none => r).reply m stOk).settleSignals)) ∧
  EventRow .paceResend (fun s => fwRuns (Run.start s).mhyFlush.s 0 = true) (fun _ r =>
    let q := r.mhyFlush
    q.each q.s.mhy.jobs fun j r => r.each (j.out.filter fun o => decide (r.s.now ≥ o.sent + 100000)) fun o r =>
      (r.setMhy { r.s.mhy with jobs := r.s.mhy.jobs.map fun i =>
        if i.job = j.job then { i with out := i.out.map fun p => if p = o then { o with sent := r.s.now } else p } else i }).sendPace
          j o.to_ o.epoch o.seq)

/-- Observation, power and security (R303, R305, R325, R428, R443, R469, R474, R475, R480, R485, R491). -/
def Obligations.ServiceMessages : Prop :=
  let all : Msg → Bool := fun _ => true
  let run : State → Prop := fun _ => True
  MessageRow .snapshot 0 0x0300 all (lenIs 8) run (fun _ _ _ => True)
    (fun _ m r =>
      let p := r.snapArm (m.w 0 + 2 ^ 32 * m.w 1) m.stamp
      p.2.2.reply m p.1 (if p.1 = stOk then leBytes 4 p.2.1 else [])) ∧
  MessageRow .snapshot 0 0x0300 all (lenIs 8) run
    (fun s _ m => m.stamp + 2000 ≤ m.w 0 + 2 ^ 32 * m.w 1 ∧ s.fld (topReg 0x200) 31 31 = 0)
    (fun _ m r =>
      let w := (r.setReg64 (topReg 0x204) (m.w 0 + 2 ^ 32 * m.w 1)).setFld (topReg 0x200) 31 31 1
      (w.snapStatus stOk).reply m stOk (leBytes 4 (((w.s.reg (topReg 0x20C)).toNat + 1) % 2 ^ 32))) ∧
  MessageRow .regRead 0 0x0301 all (lenIs 8) run
    (fun s x m => bits (m.w 0) 31 28 = 0 ∧ addrKey (m.w 0) % 4 = 0 ∧ m.w 1 ≤ 256 ∧
      addrKey (m.w 0) % 2 ^ 20 + 4 * m.w 1 ≤ 2 ^ 20 ∧ replyFits s x m (4 * m.w 1) = true ∧
      ∀ i, i = 0 ∨ i < m.w 1 → reaches s none (addrKey (m.w 0) + 4 * i) false = true)
    (fun _ m r =>
      let p := ((List.range (m.w 1)).map fun i => addrKey (m.w 0) + 4 * i).foldl (fun (p : List Byte × Run _) k =>
        (p.1 ++ leBytes 4 (p.2.regRead none k).1, (p.2.regRead none k).2)) (([] : List Byte), r)
      p.2.reply m stOk p.1) ∧
  (∀ ps : List (Nat × Nat), MessageRow .regWrite 0 0x0302 all
    (fun m => m.payload.length % 8 = 0 && decide (m.payload.length ≤ 1024)) run
    (fun s _ m => ps = (List.range (m.payload.length / 8)).map (fun i => (m.w (2 * i), m.w (2 * i + 1))) ∧
      ∀ p ∈ ps, bits p.1 31 28 = 0 ∧ p.1 % 4 = 0 ∧ reaches s none (addrKey p.1) true = true)
    (fun _ m r => ((r.each ps fun p r => r.regWrite none (addrKey p.1) p.2).reply m stOk).settleSignals)) ∧
  MessageRow .logRead 0 0x0303 all (lenIs 12) run
    (fun s x m => m.w 0 ≤ 4 ∧ m.w 2 ≤ 40 ∧ fwState s (m.w 0) = 0 ∧
      replyFits s x m (logRecords s (m.w 0) (m.w 1) (m.w 2)).length = true)
    (fun _ m r => r.reply m stOk (logRecords r.s (m.w 0) (m.w 1) (m.w 2))) ∧
  MessageRow .powerState 3 0x0400 all (lenIs 4) run (fun _ _ m => m.w 0 ≤ 4)
    (fun _ m r => r.requestState (m.w 0) (some (m.session, m.seq))) ∧
  (let free := fun (s : State) (t : Nat) => s.power.req = none ∧ s.power.asked = none ∧ s.power.entering = none ∧
      s.sec.switch = none ∧ powerState s ≤ 1 ∧ t ≠ powerState s ∧ t ≤ claimState s
   MessageRow .powerState 3 0x0400 all (lenIs 4) run
     (fun s _ m => free s (m.w 0) ∧ m.w 0 ≤ 1 ∧ (m.w 0 = 0 → anySensor s (tAlert s) = false))
     (fun _ m r => ((r.setPower { r.s.power with last := m.w 0 }).reachState (m.w 0)).endRequest (some (m.session, m.seq)) stOk) ∧
   MessageRow .powerState 3 0x0400 all (lenIs 4) run
     (fun s _ m => free s (m.w 0) ∧ 2 ≤ m.w 0 ∧ m.w 0 ≤ 4 ∧ reflexInFlight s = false ∧ s.vault.windows = [])
     (fun _ m r => (r.setPower { r.s.power with req := some ⟨m.w 0, r.s.now + r.s.fld (pwrReg 8) 15 0 * 1000000,
       some (m.session, m.seq)⟩ }).setFld (pwrReg 4) 28 28 1)) ∧
  MessageRow .powerCap 3 0x0401 all (lenIs 4) run (fun _ _ m => 20 ≤ m.w 0 ∧ m.w 0 ≤ 120)
    (fun _ m r => (r.writeCap (m.w 0)).2.reply m (r.writeCap (m.w 0)).1
      (leBytes 4 ((r.writeCap (m.w 0)).2.s.fld (pwrReg 0x300) 7 0))) ∧
  MessageRow .powerCap 3 0x0401 all (lenIs 4) run
    (fun s _ m => 20 ≤ m.w 0 ∧ m.w 0 ≤ 120 ∧ (m.w 0 ≤ s.fld (pwrReg 0x300) 7 0 ∨ anySensor s (tAlert s) = false))
    (fun _ m r => (r.setFld (pwrReg 0x300) 7 0 (m.w 0)).reply m stOk
      (leBytes 4 ((r.setFld (pwrReg 0x300) 7 0 (m.w 0)).s.fld (pwrReg 0x300) 7 0))) ∧
  MessageRow .propose 4 0x0500 all all run (fun _ _ _ => True)
    (fun _ m r => (r.propose m.payload m.stamp).2.reply m (r.propose m.payload m.stamp).1) ∧
  MessageRow .propose 4 0x0500 all all run
    (fun s _ m => s.sec.switch = none ∧ proposeStatus ((Run.start s).popMsg 4).s m.payload = stNeedCountersign)
    (fun _ m r =>
      let p := m.payload
      (r.setSec { r.s.sec with held := some {
        kind := bits (le p 0 4) 31 24, party := bits (le p 0 4) 23 16, ctr := le p 0x18 8, head := p.take (0x40 + le p 4 4)
        body := slice p 0x40 (le p 4 4), at_ := m.stamp } }).reply m stNeedCountersign) ∧
  MessageRow .countersign 4 0x0501 all all (fun s => s.power.entering = none) (fun _ _ _ => True)
    (fun _ m r => (r.countersign m).settleSignals) ∧
  (∀ h : Proposal,
    let at_ := fun (kind : Nat) (s : State) (_ : Sess) (m : Msg) =>
      countersignStatus ((Run.start s).popMsg 4).s m.payload m.stamp = stOk ∧ s.sec.env.storeWrites = true ∧ s.sec.held = some h ∧
        h.kind = kind
    let applies := fun (kind : Nat) (eff : {z : State} → Run z → Run z) =>
      MessageRow .countersign 4 0x0501 all all (fun s => s.power.entering = none) (at_ kind)
        (fun _ m r => (((eff (r.secCommit h.ctr)).trace 0x14 0x0050 (h.ctr % 2 ^ 32)).mhyReply m.session m.seq stOk []).settleSignals)
    let switches := fun (kind : Nat) (unlock : Bool) (next : List Byte) (eff : {z : State} → Run z → Run z) =>
      MessageRow .countersign 4 0x0501 all all (fun s => s.power.entering = none) (at_ kind)
        (fun _ m r =>
          let w := r.secCommit h.ctr
          ((eff w).switchBegin {
            at_ := m.stamp, next := next, unlock := unlock, peer := m.peer, session := m.session, seq := m.seq
            minor := match sess? w.s m.session with | some x => x.minor | none => 2
            nocrc := m.nocrc }).settleSignals)
    applies 1 (fun r => r.setSec { r.s.sec with
      enrolled := true, ownerKey := slice h.body 4 keyLen, operatorKey := slice h.body (4 + keyLen) keyLen }) ∧
    applies 2 (fun r => r.setSec { r.s.sec with ownerKey := h.body.take keyLen, operatorKey := h.body.drop keyLen }) ∧
    switches 3 false h.body (fun r => r.setSec { r.s.sec with stored := h.body }) ∧
    switches 5 (decide (le h.body 0 4 = 1)) []
      (fun r => r.setSec { r.s.sec with stored := [], debug := r.s.sec.debug && decide (le h.body 0 4 = 1) }) ∧
    applies 6 (fun r => r.linkKeyUse (le h.body 0 4 = 1)) ∧ applies 7 (fun r => r.repairPolicy (le h.body 0 4)) ∧
    applies 8 (fun r => r.setSec { r.s.sec with baseRegs := baselineRegs r.s, baseEth := baselineTables r.s })) ∧
  MessageRow .attest 4 0x0502 all (lenIs 32) run
    (fun s x m => ∀ r : Run s, r = (Run.start s).popMsg 4 →
      replyFits r.s x m (attestation r.s m.session m.payload).length = true)
    (fun _ m r => (r.setSec { r.s.sec with issued := r.s.sec.issued + 1 }).reply m stOk
      (attestation r.s m.session m.payload)) ∧
  MessageRow .fwUpdate 4 0x0503 all (lenIs 16) run
    (fun s _ m => bits (m.w 0) 31 28 = 0 ∧ bits (m.w 0) 15 0 = 0 ∧ bits (m.w 2) 31 16 = 0 ∧ s.sec.recovery = false ∧
      ctxSession s (memCtx m) = m.session)
    (fun _ m r => r.fwUpdate (some (memCtx m)) (m.w 1 + 2 ^ 32 * m.w 2) (m.w 3) m.session m.seq) ∧
  MessageRow .fwUpdate 4 0x0503 all (lenIs 16) run
    (fun s _ m =>
      let bs := stageBytes ((Run.start s).popMsg 4).s (some (memCtx m)) (m.w 1 + 2 ^ 32 * m.w 2) (m.w 3)
      let v := imgView bs
      bits (m.w 0) 31 28 = 0 ∧ bits (m.w 0) 15 0 = 0 ∧ bits (m.w 2) 31 16 = 0 ∧ s.sec.recovery = false ∧
        ctxSession s (memCtx m) = m.session ∧ m.w 3 ≤ bs.length ∧ m.w 3 = imgExtent v 0 ∧ imgBad v 0 = false ∧
        imgSigned v 0 = true ∧ (∀ c ∈ imgComps v 0, compOk v 0 c = true ∧ s.fld (fwReg (c.id - 0x10) 8) 31 16 ≤ c.svn) ∧
        imgMinprev v 0 ≤ s.fw.imgver ∧ s.fw.update = none)
    (fun _ m r =>
      let bs := stageBytes r.s (some (memCtx m)) (m.w 1 + 2 ^ 32 * m.w 2) (m.w 3)
      let w := r.markStage (some (memCtx m)) (m.w 1 + 2 ^ 32 * m.w 2) (m.w 3)
      w.setFw { w.s.fw with update := some {
        image := m.w 1 + 2 ^ 32 * m.w 2, ctx := some (memCtx m), len := m.w 3, session := m.session, seq := m.seq
        digest := Config.shake256 bs } }) ∧
  MessageRow .fwRestart 4 0x0504 all (lenIs 4) (fun s => s.sec.recovery = false) (fun _ _ m => m.w 0 ≤ 4)
    (fun _ m r => (r.put (.fw { r.s.fw with askers := r.s.fw.askers ++ [(m.w 0, m.session, m.seq)] })).fwRestart (m.w 0) 1 true) ∧
  MessageRow .fwRestart 4 0x0504 all (lenIs 4) (fun s => s.sec.recovery = false)
    (fun s _ m => m.w 0 ≤ 4 ∧ fwState s (m.w 0) ≠ 1 ∧ (∀ q ∈ s.fw.queue, q.p ≠ m.w 0) ∧ fwState s (m.w 0) ≠ 3 ∧
      fwFree s (m.w 0) = true)
    (fun _ m r => (r.put (.fw { r.s.fw with askers := r.s.fw.askers ++ [(m.w 0, m.session, m.seq)] })).fwBegin (m.w 0) 1 true)

/-! ## Time, reset and boot -/

/-- Any two blocks that read fabric time at the same instant obtain values that differ by at most 4 ns, and no block reads a
smaller time later (R27, R29). TIME_TREE_REALIGN sets how far each copy stands behind the master anew, and changes nothing else.
HOLDOVER_ENTRY and GPTP_MESSAGE_INTERVAL (R32, R338): three Sync intervals without a measurement end the keeper's steering; an
instance sends the messages of an interval on each of its ports.
Where the rules leave a point open it holds the model's reading, logs 75, 139 and 142. -/
def Obligations.TimeCommands : Prop :=
  (∀ s : State, s.Sound → ∀ b b', s.timeAt b ≤ s.timeAt b' + 4 ∧ s.timeAt b ≤ s.now) ∧
  (∀ (c : Instr) (s t : State), exec c s = .next t → ¬ Reboots c → ∀ b ∈ timeBlocks, s.timeAt b ≤ t.timeAt b) ∧
  EventPost .timeTreeRealign (fun s => powerState s ≤ 1) (fun s t =>
    (∀ b ∈ timeBlocks, s.now ≤ t.timeAt b + Config.copyLag s.free b % 5 ∧
      (s.timeAt b < s.now - Config.copyLag s.free b % 5 → t.timeAt b = s.now - Config.copyLag s.free b % 5)) ∧
    t = { s with copies := t.copies, free := s.free + 1 }) ∧
  EventPost .holdoverEntry
    (fun s => (s.fld (topReg 0x10C) 1 0 = 1 ∨ s.fld (topReg 0x10C) 1 0 = 2) ∧ s.eth.lastSync + 3 * Config.syncInterval ≤ s.now)
    (fun s t => t.fld (topReg 0x10C) 1 0 = 3 ∧ (∀ k, k ≠ topReg 0x10C → t.reg k = s.reg k) ∧
      t = { s with regs := t.regs, eth := { s.eth with good := 0 } }) ∧
  (∀ d, d < 2 →
    EventRow (.gptpMessageInterval d) (fun s => gptpOn s d = true)
      fun s r =>
        let q := (r.each (gptpPorts s d) fun n r => r.gptpAge d n).gptpSelect d
        q.each (gptpPorts s d) fun n r => r.gptpSend d n)

/-- POWER_ON_RESET, SUPPLY_BELOW_RANGE and the FW_RESTART of network recovery (R26, R468, R469, R509): every part of the
device but the boot ROM, the flashes and what the protection store holds is as reset leaves it, and what follows is the
boot; a supply below its range holds the device in reset. A device whose clocks a trip has stopped, that its supply holds
in reset, or that is OFF, does nothing until PORST_N is pulsed (R432, R448, R509).
Where the rules leave a point open it holds the model's reading, logs 14, 134, 150 and 159. -/
def Obligations.BootCommands : Prop :=
   ((∀ (env : BootEnv) (s : State),
      let r := (((Run.start (bootBase s env 0)).setNow (min env.took 536000000)).setRegN (topReg 0x310)
        (b2n env.gpio1 * 2 + b2n env.gpio0)).setFld (audReg 0x300) 31 31 (b2n env.muted)
      ((env.sramOk = false ∨ accessionOk r.s = false ∨ env.pufOk = false) →
        exec (.powerOnReset env) s = .next { r.s with sec := { r.s.sec with stopped := true } }) ∧
      (env.sramOk = true → accessionOk r.s = true → env.pufOk = true →
        let b := (r.bootRepair env).secShow
        ((env.storeOk = false ∨ env.gpio0 = true ∨ bootImageOk b.s = false) →
          exec (.powerOnReset env) s = .next b.recover.s) ∧
        (env.storeOk = true → env.gpio0 = false → bootImageOk b.s = true →
          exec (.powerOnReset env) s = .next (b.bootRun env).s))) ∧
    (∀ s : State, ∃ t, exec .supplyBelowRange s = .next t ∧ t.halted = true ∧ t.pending = s.pending ∧ t.now = s.now ∧
      t.regs = [] ∧ t.harts = [] ∧ t.gangs = [] ∧ t.tallies = [] ∧
      (s.Sound → ∀ a, readOnly a = false → t.byte a = 0)) ∧
    (∀ s : State, s.halted = false → isReboot s = true → ∃ t, exec .fwRestart s = .next t ∧
      t = ((([0x108, 0x10C, 0x110, 0x300, 0x304, 0x308].map audReg).foldl (fun r k => r.setReg k (s.reg k))
        ((Run.start { bootBase s s.sec.env s.now true with fix := { boots := s.fix.boots } }).setReg (topReg 0x310)
          (s.reg (topReg 0x310)))).boot s.sec.env (s.fld (topReg 0x310) 0 0 = 1) true).s)) ∧
   (∀ (c : Instr) (s : State), s.halted = true → (∀ env, c ≠ .powerOnReset env) → c ≠ .supplyBelowRange → exec c s = .next s)

/-! ## Gangs and parcels -/

/-- GANG_ADMIT, GANG_RETIRE, GANG_PARK_SWAP and PARCEL_RERUN (R83 to R88, R92, R161, R162, R285, R299, R439).
Where the rules leave a point open it holds the model's reading, logs 127 and 128. -/
def Obligations.GangEvents : Prop :=
  (∀ (core parcel gang gi : Nat) (banks : List Nat) (p : Parcel),
    let ok := fun (s : State) => s.parcel? parcel = some p ∧ core < 192 ∧ couldAdmit s core p = true ∧ nextIndex p = some gi ∧
      (∀ q ∈ s.sched.parcels, q.1 ≠ parcel → couldAdmit s core q.2 = true → gangLeftFor s core q.1 q.2 = true →
        rankLt (parcelRank s q.2) (parcelRank s p) = false) ∧
      gang < 128 ∧ s.gang? core gang = none ∧ banks.length = p.nbanks ∧ banks.eraseDups = banks ∧
      (∀ b ∈ banks, b < 4 ∧ ∀ kg ∈ gangsOf s core, b ∉ kg.2.banks)
    let eclass := bits (p.desc.getD 0 0).toNat 27 25
    let enter := fun (p' : Parcel) (s : State) (r : Run s) =>
      let r := (r.setParcel parcel p').each banks fun b r => r.freshBank core b
      let parked := if storagePlace s core p = some true then some s.now else none
      let r := (if parked = none then r.noteReady core else r).setGang core gang (newGang parcel p gi banks parked)
      (r.put (.power { r.s.power with idleSince := s.now })).traceCore core 0x0600 gi
    let after := fun (permits : List Nat) => { p with
      permits := permits, again := p.again.drop 1, next := if p.again = [] then p.next + 1 else p.next }
    EventRow (.gangAdmit core parcel gang banks) (fun s => ok s ∧ eclass < 2) (enter (after p.permits)) ∧
    EventRow (.gangAdmit core parcel gang banks) (fun s => ok s ∧ 2 ≤ eclass ∧ core ∈ p.permits)
      (enter (after (p.permits.erase core))) ∧
    EventRow (.gangAdmit core parcel gang banks) (fun s => ok s ∧ 2 ≤ eclass ∧ core ∉ p.permits)
      (fun _ r => r.askPermit parcel core p)) ∧
  (∀ (core gang : Nat) (x : Gang),
    EventRow (.gangRetire core gang) (fun s => s.gang? core gang = some x ∧ (x.stopped = true ∨ x.allExited = true) ∧
        ∀ t ∈ (s.core core).queue ++ (s.core core).running, t.gang ≠ gang)
      (fun _ r => r.retireGang core gang x)) ∧
  (∀ (s : State) (core : Nat) (p : Parcel),
    let b := storageOf p.nreg p.ntd
    (storagePlace s core p = some false ↔ liveStorage s core + b ≤ 131072) ∧
    (storagePlace s core p = some true ↔
      131072 < liveStorage s core + b ∧ parkedStorage s core + b ≤ s.fld (coreReg core 4) 20 16 * 8192)) ∧
  (∀ (core : Nat) (b : Nat × Gang),
    let first := fun s : State => leastBy (fun kg => kg.2.readyAt.getD 0) ((gangsOf s core).filter (parkedReady s core)) = some b
    let back : Gang := { b.2 with parked := false, readyAt := none, blockedAt := none }
    EventPost (.gangParkSwap core) (fun s => first s ∧ liveStorage s core + storageOf b.2.nreg b.2.ntd ≤ 131072)
      (fun s t => t.gang? core (b.1 % 128) = some back ∧
        (∀ g, g < 128 → g ≠ b.1 % 128 → t.gang? core g = s.gang? core g) ∧ t = { s with gangs := t.gangs, cores := t.cores }) ∧
    ∀ o : Nat × Gang, EventPost (.gangParkSwap core)
      (fun s => first s ∧ leastBy (fun kg => kg.2.blockedAt.getD 0) ((gangsOf s core).filter (mayPark s core)) = some o ∧
        131072 < liveStorage s core + storageOf b.2.nreg b.2.ntd ∧
        parkedStorage s core + storageOf o.2.nreg o.2.ntd - storageOf b.2.nreg b.2.ntd ≤ s.fld (coreReg core 4) 20 16 * 8192 ∧
        liveStorage s core + storageOf b.2.nreg b.2.ntd - storageOf o.2.nreg o.2.ntd ≤ 131072)
      (fun s t => t.gang? core (b.1 % 128) = some back ∧
        (∃ y, t.gang? core (o.1 % 128) = some y ∧ y.parked = true ∧ y.threads = o.2.threads ∧ y.banks = o.2.banks) ∧
        t = { s with gangs := t.gangs, cores := t.cores })) ∧
  (∀ (i : Nat) (p : Parcel),
    EventRow (.parcelRerun i) (fun s => s.parcel? i = some p ∧ fwRuns s 0 = true ∧ rerunDue s p = true)
      fun _ r =>
        let p := { p with rerun := true, next := 0, retired := 0 }
        (r.setParcel i p).withStats i p fun r => r.zeroStats p true)

/-- PARCEL_TAKE, PARCEL_WAIT_END, PARCEL_WAIT_TIMEOUT and PARCEL_COMPLETE (R81, R229, R281 to R287, R298, R299, R428): the
entry that the policy serves next enters flight; its waits end it, or start it; a parcel whose work has ended writes its
record, then signals. PERMIT_GRANT and PERMIT_TIMEOUT (R438 to R441): a grant takes the class's price from the bucket and
goes to the oldest request; a first gang that waits too long ends its parcel with NO_PERMIT. -/
def Obligations.ParcelEvents : Prop :=
   ((∀ (card n : Nat),
      EventRow (.parcelTake card)
        (fun s => fwRuns s 0 = true ∧ nextQueue s = some card ∧ n < 4 ∧
          n = if s.sched.takeUs = s.now / 1000 then s.sched.takeN else 0)
        (fun s r => (r.put (.sched { s.sched with
          takeUs := s.now / 1000, takeN := n + 1, last := card
          lastN := if s.sched.last = card ∧ s.sched.lastN < cardWeight s card then s.sched.lastN + 1 else 1 })).takeEntry card)) ∧
    (∀ (card d : Nat),
      let due := fun (s : State) => fwRuns s 0 = true ∧ nextQueue s = some card ∧
        (if s.sched.takeUs = s.now / 1000 then s.sched.takeN else 0) < 4
      let marked := fun {z : State} (r : Run z) => (r.put (.sched { r.s.sched with
        takeUs := r.s.now / 1000, takeN := (if r.s.sched.takeUs = r.s.now / 1000 then r.s.sched.takeN else 0) + 1, last := card
        lastN := if r.s.sched.last = card ∧ r.s.sched.lastN < cardWeight r.s card then r.s.sched.lastN + 1 else 1 })).touchCard card
      let head := fun (s : State) => bits (cardW s card 9) 15 0
      let read := fun {z : State} (r : Run z) => (marked r).readIn (ctxX (marked r).s (cardCtx (marked r).s card))
        (cardAddr (marked r).s card 4 + 64 * (head (marked r).s % 2 ^ bits (cardW (marked r).s card 8) 3 0)) 64
      EventRow (.parcelTake card) (fun s => due s ∧ (read (Run.start s)).1 = .ok d)
        (fun _ r =>
          let q := (read r).2
          let ctx := cardCtx (marked r).s card
          let ws := words32 16 d
          let st := descStatus q.s ctx ws
          let w := q.setHw card 9 ((head (marked r).s + 1) % 65536)
          let w := (w.setHw card 12 (cardW w.s card 12 + 1)).trace 0x10 0x0010 (card * 2 ^ 16 + head (marked r).s)
          w.addParcel {
            ctx := ctx, origin := .queue card (head (marked r).s), desc := ws.map (BitVec.ofNat 32 ·)
            taken := w.s.timeAt tbSched, stage := if st = stOk then .waiting else .ending, status := st
            met0 := metAtTake w.s (ws.getD 10 0) (ws.getD 11 0), met1 := metAtTake w.s (ws.getD 12 0) (ws.getD 13 0) })) ∧
    (∀ (i : Nat) (p : Parcel) (hdr ntd nb nreg : Nat),
      let slot := match p.origin with
        | .queue _ x => x
        | _ => 0
      let va := (p.desc.getD 2 0).toNat + 2 ^ 32 * (p.desc.getD 3 0).toNat
      let read := fun {z : State} (r : Run z) =>
        ((r.trace 0x10 0x0011 slot).noteUe (ctxX (r.trace 0x10 0x0011 slot).s p.ctx) va 16).readIn
          (ctxX (r.trace 0x10 0x0011 slot).s p.ctx) va 16
      EventRow (.parcelWaitEnd i)
        (fun s => s.parcel? i = some p ∧ fwRuns s 0 = true ∧ p.stage = .waiting ∧ waitsMet p = true ∧ workHeld s = false ∧
          sessionHolds s p.ctx = false ∧ isReflex p = false ∧ (read (Run.start s)).1 = .ok hdr ∧
          kernelHeader hdr = some (ntd, nb, nreg) ∧ p.desc.getD 8 0 ≠ 0 ∧
          (statsVa p ≠ 0 → bits (statWord (read (Run.start s)).2.s p 0) 30 21 = 0 ∧
            bits (statWord (read (Run.start s)).2.s p 0) 15 0 = 0))
        (fun _ r =>
          let p := { p with stage := .running, ntd := ntd, nbanks := nb, nreg := nreg }
          (((read r).2.setParcel i p).withStats i p fun r => r.zeroStats p false).noteDegraded)) ∧
    (∀ s card, nextQueue s = some card → canTake s card = true ∧
      ∀ n ∈ s.sched.cards.map (·.1), canTake s n = true → cardPrio s n ≤ cardPrio s card) ∧
    (∀ (i : Nat) (p : Parcel),
      let slot := match p.origin with
        | .queue _ x => x
        | _ => 0
      EventRow (.parcelWaitEnd i)
        (fun s => s.parcel? i = some p ∧ fwRuns s 0 = true ∧ p.stage = .waiting ∧ waitsMet p = true ∧ workHeld s = false ∧
          sessionHolds s p.ctx = false)
        (fun _ r => if isReflex p then (r.trace 0x10 0x0011 slot).rfxStart i p
          else ((r.trace 0x10 0x0011 slot).dispatchKernel i p).noteDegraded) ∧
      EventRow (.parcelWaitTimeout i)
        (fun s => s.parcel? i = some p ∧ fwRuns s 0 = true ∧ p.stage = .waiting ∧ waitsMet p = false ∧
          p.taken + (p.desc.getD 9 0).toNat * 1000 < s.timeAt tbSched)
        (fun _ r => (r.trace 0x10 0x0011 (stTimeout * 2 ^ 16 + slot)).endParcel i stTimeout) ∧
      (∀ card idx, p.origin = .queue card idx → EventRow (.parcelComplete i)
        (fun s => s.parcel? i = some p ∧ fwRuns s 0 = true ∧ workEnded s p = true)
        (fun _ r => ((((r.completeQueue i p card idx).owedRecompute).ladCompleted card idx (finalStatus p)).orphanEnd p.ctx).settleSignals)))) ∧
   ((∀ (q : PermitReq) (rest : List PermitReq) (p : Parcel) (n : Nat),
      EventPost .permitGrant
        (fun s => s.ledger.reqs = q :: rest ∧ n = (if s.ledger.grantUs = s.now / 1000 then s.ledger.grants else 0) ∧ n < 24 ∧
          permitPrice q.eclass ≤ (s.reg (pwrReg 0x30C)).toNat ∧ stretched s (q.core / 12) = false ∧ s.parcel? q.parcel = some p)
        (fun s t => (t.reg (pwrReg 0x30C)).toNat = (s.reg (pwrReg 0x30C)).toNat - permitPrice q.eclass ∧
          t.reg64 (pwrReg 0x318) = (s.reg64 (pwrReg 0x318) + 1) % 2 ^ 64 ∧
          t.ledger.reqs = rest ∧ t.ledger.grants = n + 1 ∧ t.ledger.grantUs = s.now / 1000 ∧
          t.parcel? q.parcel = some { p with permits := p.permits ++ [q.core] } ∧
          t = { s with regs := t.regs, ledger := t.ledger, sched := t.sched })) ∧
    (∀ (i : Nat) (p : Parcel),
      EventRow (.permitTimeout i)
        (fun s => s.parcel? i = some p ∧ p.stage = .running ∧ p.next = 0 ∧ p.retired = 0 ∧ p.again = [] ∧ p.permits = [] ∧
          ∃ q ∈ s.ledger.reqs, q.parcel = i ∧ q.since + 1000 * s.fld (pwrReg 0x314) 15 0 < s.now)
        (fun _ r => ((r.withdraw fun q => q.parcel = i).bump (pwrReg 0x328)).endParcel i stNoPermit)))

/-- CARD_TAKE_UP and CARD_FETCH (R273 to R276, R520): a take-up that is asked for happens at the kind's boundary; its
status is that of the checks in order, a card that passes them is installed, and SYNC counts every request it serves. A card that
is fetched keeps its SW words and reads its HW words back.
LEASE_EXPIRY, HOLD_EXPIRY, SESSION_RELEASE and REASSEMBLY_TIMEOUT (R242, R309 to R311, R323). -/
def Obligations.CardAndSessionEvents : Prop :=
   ((∀ n : Nat, EventRow (.cardTakeUp n)
      (fun s => n < 16384 ∧ (cardOf s n).syncs ≠ 0 ∧ fwRuns s 0 = true ∧ atBoundary s n = true)
      (fun s r =>
        let c := cardOf s n
        let r := if c.taken then r.writeBack n else r
        let ws := (List.range 32).map fun i => r.s.load (catAddr r.s n i) 4
        let st := takeStatus r.s n ws
        let r := r.when (st = stUncorrectable) fun r => match (List.range 32).find? fun i => r.s.isUe (catAddr r.s n i) with
          | some i => r.countUe (catAddr r.s n i)
          | none => r
        let r := if st = stOk then r.install n ws else r
        let r := r.setCard n { cardOf r.s n with taken := true, syncs := 0, askers := [] }
        let sync := st * 2 ^ 16 + (cardW r.s n 3 + c.syncs) % 2 ^ 16
        (((r.setHw n 3 sync).touchCard n).each c.askers fun a r => r.mhyReply a.1 a.2 st (leBytes 4 sync)).settleSignals)) ∧
    (∀ n : Nat, EventRow (.cardFetch n) (fun s => (cardOf s n).taken = true ∧ (cardOf s n).cached = false)
      (fun _ r => r.touchCard n)) ∧
    (∀ (z : State) (r : Run z) (n : Nat), SMap.wf (fun _ => ({} : Card)) r.s.sched.cards = true →
      (cardOf (r.touchCard n).s n).cached = true ∧
      (∀ i, (cardOf r.s n).cached = true ∨ i ∉ 3 :: hwWords (cardKind r.s n) →
        SMap.get 0 (cardOf (r.touchCard n).s n).words i = SMap.get 0 (cardOf r.s n).words i) ∧
      ((cardOf r.s n).taken = true → (cardOf r.s n).cached = false → (r.s.sched.cards.filter fun x => x.2.cached).length < 512 →
        r.s.vault.weak = [] → ∀ i ∈ 3 :: hwWords (cardKind r.s n), r.s.isUe (catAddr r.s n i) = false →
          SMap.get 0 (cardOf (r.touchCard n).s n).words i = BitVec.ofNat 32 (r.s.load (catAddr r.s n i) 4)) ∧
      ∀ k, k ≠ n → (cardOf (r.touchCard n).s k).words = (cardOf r.s k).words ∧
        (cardHeld r.s k = true → (cardOf (r.touchCard n).s k).cached = (cardOf r.s k).cached))) ∧
   ((∀ (n : Nat) (x : Sess),
      let expired := fun (s : State) => sess? s n = some x ∧ fwRuns s 0 = true ∧ sessState s n = 1 ∧ x.releasing = false ∧
        leaseEnd s n < s.now ∧ bellPending s n x = false
      let note := fun (s : State) (r : Run s) =>
        (r.trace 0x10 0x0013 (s.fld (sessReg n 0) 29 28 * 2 ^ 30 + n)).setSess n { x with expired := some (leaseEnd s n) }
      EventRow (.leaseExpiry n) (fun s => expired s ∧ s.fld (sessReg n 0) 29 28 = 0)
        (fun s r => (((note s r).setFld (sessReg n 0) 31 30 2).rfxOrphan n 0).settleSignals) ∧
      EventRow (.leaseExpiry n) (fun s => expired s ∧ s.fld (sessReg n 0) 29 28 = 1)
        (fun s r => (((note s r).setFld (sessReg n 0) 31 30 3).rfxOrphan n 1).settleSignals) ∧
      EventRow (.leaseExpiry n) (fun s => expired s ∧ 2 ≤ s.fld (sessReg n 0) 29 28)
        (fun s r =>
          let cs := ctxsOf (note s r).s n
          let q := ((note s r).beginRelease n none).dropFrames cs
          (q.each ((openParcels q.s cs).filter fun p => p.2.stage = .running && !isReflex p.2) fun p r =>
            (r.stopParcel p.1 stLeaseLost).closeStopped p.1).settleSignals) ∧
      EventRow (.sessionRelease n)
        (fun s => sess? s n = some x ∧ fwRuns s 0 = true ∧ fwRuns s 1 = true ∧ x.releasing = true ∧
          openParcels s (ctxsOf s n) = [] ∧ owesRecompute s (ctxsOf s n) = false)
        (fun _ r => (r.finishRelease n).settleSignals) ∧
      (∀ a, x.reasm = some a →
        EventPost (.reassemblyTimeout n) (fun s => sess? s n = some x ∧ a.at_ + 100000000 < s.now)
          (fun s t => t = { s with mhy := { s.mhy with sess := SMap.insert s.mhy.sess n { x with reasm := none } } }))) ∧
    (∀ n : Nat, EventRow (.holdExpiry n)
      (fun s => fwRuns s 0 = true ∧ sessState s n = 2 ∧ leaseEnd s n + 60000000000 < s.now)
      (fun _ r => (r.beginRelease n none).settleSignals)))

/-- MAILBOX_DELIVER and MAILBOX_TX_TAKE (R292, R308, R317, R320).
Where the rules leave a point open it holds the model's reading, log 141. -/
def Obligations.MailboxEvents : Prop :=
  (∀ (n : Nat) (o : Nat × List Byte),
    let m := fun (s : State) => (Run.start s).mhyFlush
    let slot := fun (s : State) => 2 ^ bits (cardW s n 8) 11 8
    let idx := fun (s : State) => cardW s n 9
    let cut := fun (s : State) => decide (slot s - 16 < o.2.length)
    let pre := fun (s : State) => leBytes 4 ((if cut s then stTruncated else stOk) * 2 ^ 16 + (o.2.take (slot s - 16)).length) ++
      leBytes 4 0 ++ leBytes 8 s.now ++ o.2.take (slot s - 16)
    let put := fun (s : State) => ((m s).setMhy { (m s).s.mhy with outbox := (m s).s.mhy.outbox.erase o }).writeVirtBytes
      (ctxX (m s).s (cardCtx (m s).s n))
      (cardAddr (m s).s n 4 + slot (m s).s * (bits (idx (m s).s) 15 0 % 2 ^ bits (cardW (m s).s n 8) 7 4)) (pre (m s).s)
    ∀ (s : State) (r : Run s), s.halted = false →
      (m s).s.mhy.outbox.find? (fun o => o.1 = n) = some o → cardKind (m s).s n = 7 → cardActive (m s).s n = true →
      awake (m s).s = true →
      (bits (idx (m s).s) 15 0 + 65536 - bits (idx (m s).s) 31 16) % 65536 < 2 ^ bits (cardW (m s).s n 8) 7 4 →
      put s = .ok r →
      exec (.mailboxDeliver n) s = .next (
        let err := cardW (m s).s n 11
        let r := if cut (m s).s then r.setHw n 11 (setBits err 31 16 (min 0xFFFF (bits err 31 16 + 1))) else r
        let r := r.setHw n 9 (bits (idx (m s).s) 31 16 * 65536 + (bits (idx (m s).s) 15 0 + 1) % 65536)
        let r := if bit (cardW (m s).s n 8) 3 then r.raiseMbx (bits (cardW (m s).s n 8) 2 0) else r
        (r.cardEvent n).s)) ∧
  (∀ (n : Nat),
    let idx := fun (s : State) => cardW s n 10
    let taken := fun (s : State) => bits (idx s) 31 16
    let slot := fun (s : State) => 2 ^ bits (cardW s n 8) 11 8
    let va := fun (s : State) => cardAddr s n 6 + slot s * (taken s % 2 ^ bits (cardW s n 8) 7 4)
    let bells := fun (s : State) => SMap.get [] s.sched.bells n
    let stamp := fun (s : State) => match bells s with
      | b :: _ => b.2
      | [] => s.now
    let q := fun (s : State) (r : Run s) =>
      let r := (r.touchCard n).setHw n 10 ((taken s + 1) % 65536 * 65536 + bits (idx s) 15 0)
      let left := if ((bells s).getD 0 (0, 0)).1 = (taken s + 1) % 65536 then (bells s).drop 1 else bells s
      (r.put (.sched { r.s.sched with bells := SMap.set [] r.s.sched.bells n left })).readBlock
        (ctxX s (cardCtx s n)) (va s) (slot s)
    let due := fun (s : State) => cardKind s n = 7 ∧ cardActive s n = true ∧ awake s = true ∧ taken s ≠ bits (idx s) 15 0
    (∀ f, EventRow (.mailboxTxTake n) (fun s => due s ∧ (q s (Run.start s)).1 = .error f) fun s r => (q s r).2.cardEvent n) ∧
    ∀ (w : Nat) (bs : List Byte) (h : Hdr),
      let got := fun (s : State) => due s ∧ (q s (Run.start s)).1 = .ok w ∧ bs = leBytes (slot s) w ∧
        h = Hdr.parse (slice bs 16 (slot s - 16))
      let fits := fun (s : State) => le bs 0 2 ≤ slot s - 16 ∧ le bs 0 2 = 32 + h.length
      EventRow (.mailboxTxTake n) (fun s => got s ∧ fits s)
        (fun s r => ((q s r).2.mhyReceive { bind := .mailbox n } (stamp s) (slice bs 16 (le bs 0 2)) 1).cardEvent n) ∧
      EventRow (.mailboxTxTake n) (fun s => got s ∧ ¬ fits s)
        (fun s r => (((q s r).2.countMhy 0x4010).mhyReject { bind := .mailbox n } h stBadLength).cardEvent n))

/-- FWP_RESTART_END, WATCHDOG_EXPIRY and FW_FLASH_WRITE_END (R300 to R307, R313). The restarts that wait begin in the order of their
stamps, the lower p first when stamps are equal, each as soon as it can (R302, R303). -/
def Obligations.FirmwareEvents : Prop :=
  (∀ (p : Nat) (c : Comp), p ≤ 4 →
    EventRow (.fwpRestartEnd p)
      (fun s => fwState s p = 1 ∧ (p ≠ 4 → fwState s 4 = 0) ∧ compOf s flashBase p = some c ∧ compOk s flashBase c = true)
      (fun s r =>
        let r := (((r.fwLoad flashBase p c).fwRelease p).setFld (fwReg p 0) 31 31 0).setReg64 (fwReg p 0xC) s.now
        let r := (r.drawArgs.2.fwLog p (Config.restartLevel % 4) 0x0001 r.drawArgs.1).trace (0x10 + p) 0x0001
          (s.fld (fwReg p 4) 23 16 * 2 ^ 16 + s.fld (fwReg p 4) 15 0)
        let r := r.setFw { r.s.fw with askers := r.s.fw.askers.filter fun a => a.1 ≠ p }
        let r := r.each (s.fw.askers.filter fun a => a.1 = p) fun a r => r.mhyReply a.2.1 a.2.2 stOk []
        ((r.fwNext (r.s.fw.queue.length + 1)).fwResume p).updateNext) ∧
    EventPost (.fwpRestartEnd p)
      (fun s => fwState s p = 1 ∧ (compOf s flashBase p = none ∨ (p ≠ 4 ∧ fwState s 4 ≠ 0) ∨
        (compOf s flashBase p = some c ∧ compOk s flashBase c = false)))
      (fun s t => t = s) ∧
    EventRow (.watchdogExpiry p)
      (fun s => fwRuns s p = true ∧ SMap.get 0 s.fw.kicks p + 2 ^ s.fld (fwReg p 0) 7 4 * 1000000 ≤ s.now)
      (fun _ r => r.fwRestart p 2)) ∧
  (∀ (z : State) (r : Run z) (fuel : Nat),
    ((r.s.fw.queue.find? fun q => fwFree r.s q.p) = none → r.fwNext fuel = r) ∧
    ∀ q, (r.s.fw.queue.find? fun q => fwFree r.s q.p) = some q →
      r.fwNext (fuel + 1) = ((r.setFw { r.s.fw with queue := r.s.fw.queue.erase q }).fwBegin q.p q.cause q.forced).fwNext fuel) ∧
  (∀ (q : FwReq) (xs : List FwReq),
    let before := fun x y : FwReq => x.at_ < y.at_ ∨ x.at_ = y.at_ ∧ x.p ≤ y.p
    xs.Pairwise before → (∀ x ∈ xs, x.at_ ≤ q.at_) → (fwEnqueue q xs).Pairwise before ∧ ∀ x, x ∈ fwEnqueue q xs ↔ x = q ∨ x ∈ xs) ∧
  (∀ (u : FwUpdate) (bs : List Byte),
    let ok := fun (s : State) => s.fw.update = some u ∧ u.written = false ∧ bs = stageBytes s u.ctx u.image u.len
    let w := fun (s : State) (r : Run s) => (r.markStage u.ctx u.image u.len).setBytes flashBase bs
    EventRow .fwFlashWriteEnd
      (fun s => ok s ∧ (fwRuns s 4 = true ∨ s.sec.recovery = true) ∧ Config.shake256 bs ≠ u.digest)
      (fun s r => ((w s r).setFw { s.fw with update := none, flashBad := true }).mhyReply u.session u.seq stDenied []) ∧
    EventRow .fwFlashWriteEnd (fun s => ok s ∧ s.sec.recovery = true ∧ Config.shake256 bs = u.digest)
      (fun s r => ((w s r).setFw { s.fw with update := none, flashBad := false }).mhyReply u.session u.seq stOk []) ∧
    EventRow .fwFlashWriteEnd
      (fun s => ok s ∧ fwRuns s 4 = true ∧ s.sec.recovery = false ∧ Config.shake256 bs = u.digest)
      (fun s r => ((w s r).setFw { s.fw with
        update := some { u with written := true, order := [2, 1, 3, 0, 4] }, flashBad := false }).updateNext))

/-! ## The key-value store -/

/-- The requests of the ring (R210 to R214): OPEN, the requests on a sequence, and an OP that is none of them; then each
request that completes with its own effect. What serving a request on a sequence does (R211 to R215, R219): the first check
that fails gives its status; a COUNT of 0 completes at once; a sequence that is not resident is restored first, where the
pages suffice for all that the request takes. RECOMPUTE_COMPLETE (R219, R220): the recompute that succeeds makes the sequence
resident and lets its request go on; one that fails frees the pages being filled and completes its request with
RECOMPUTE_FAILED; the requests behind it follow.
Where the rules leave a point open it holds the model's reading, logs 129 and 133. -/
def Obligations.KvCommands : Prop :=
   (KvRow .kvOpen (· = 1) (fun q e r =>
      if bits e 23 12 ≠ 0 ∨ bits e 222 208 ≠ 0 ∨ e / 2 ^ 224 ≠ 0 ∨ q.seq ≠ 0 then r.kvComplete q stKvBadRequest 0
      else
        let m := r.markRange (ctxX r.s 0) .load q.addr 64
        match openBlock r.s q.addr with
        | none => m.kvComplete q stKvBadRequest 0
        | some w => m.kvOpenSeq q w) ∧
    KvRow .close (· = 2) kvOnSequence ∧ KvRow .pin (· = 3) kvOnSequence ∧ KvRow .unpin (· = 4) kvOnSequence ∧
    KvRow .append (· = 5) kvOnSequence ∧ KvRow .tappend (· = 6) kvOnSequence ∧ KvRow .commit (· = 7) kvOnSequence ∧
    KvRow .discard (· = 8) kvOnSequence ∧ KvRow .kvBadRequest (8 < ·) kvOnSequence) ∧
   ((∀ (w : List Nat) (n : Nat), KvDone .kvOpen 1
      (fun q r => q.seq = 0 ∧ openBlock r.s q.addr = some w ∧
        closedSeq (r.markRange (ctxX r.s 0) .load q.addr 64).s = some n)
      (fun q r =>
        let g := fun i => w.getD i 0
        let r := r.markRange (ctxX r.s 0) .load q.addr 64
        let r := r.each [0x18, 0x1C, 0x20, 0x24, 0x28, 0x2C, 0x30] fun off r => r.setSeqW n off (g (off / 4))
        let r := ((r.each [0x04, 0x08, 0x0C] fun off r => r.setSeqW n off 0)).setSeqW n 0 (setBits (g 0) 31 30 1)
        (r.each (List.range (512 * seqLayers r.s n)) fun i r => r.setPageWord n (i / 512) (i % 512) 0).kvOk q n n)) ∧
    KvDone .close 2 (fun q r => seqState r.s q.seq ≠ 0 ∧ seqPins r.s q.seq = 0)
      (fun q r => ((r.freeEnts (seqEnts r.s q.seq)).setSeqState q.seq 0).kvOk q q.seq 0) ∧
    KvDone .pin 3 (fun q r => seqResident r.s q.seq ∧ seqPins r.s q.seq < 255)
      (fun q r => (r.setSeqPins q.seq (seqPins r.s q.seq + 1)).kvOk q q.seq (seqTok r.s q.seq)) ∧
    KvDone .unpin 4 (fun q r => seqState r.s q.seq ≠ 0 ∧ 0 < seqPins r.s q.seq)
      (fun q r =>
        let w := r.setSeqPins q.seq (seqPins r.s q.seq - 1)
        (if seqPins r.s q.seq = 1 then w.freeEmpty q.seq else w).kvOk q q.seq (seqPins r.s q.seq - 1)) ∧
    (let room := fun (s : State) (q : KvReq) => seqResident s q.seq ∧ 0 < q.count ∧
      seqTok s q.seq + seqTent s q.seq + q.count ≤ 131072 ∧
      canCover s q.seq (missingPages s q.seq (seqTok s q.seq + seqTent s q.seq + q.count)).length = true
    KvDone .append 5 (fun q r => room r.s q ∧ seqTent r.s q.seq = 0)
      (fun q r =>
        let n := q.seq
        let tok := seqTok r.s n
        let pages := missingPages r.s n (tok + q.count)
        let w := ((r.evictFor n pages.length).setSeqW n 0x04 (tok + q.count)).setSeqW n 0x0C (tok + q.count)
        ((w.allocPages n pages false).refreshUsed n).kvOk q n tok) ∧
    KvDone .tappend 6 (fun q r => room r.s q)
      (fun q r =>
        let n := q.seq
        let tok := seqTok r.s n
        let tent := seqTent r.s n
        let pages := missingPages r.s n (tok + tent + q.count)
        let w := (r.evictFor n pages.length).setSeqW n 0x08 (tent + q.count)
        ((w.allocPages n pages false).refreshUsed n).kvOk q n (tok + tent))) ∧
    KvDone .commit 7 (fun q r => seqState r.s q.seq ≠ 0 ∧ 0 < q.count ∧ q.count ≤ seqTent r.s q.seq)
      (fun q r =>
        let n := q.seq
        let tok := seqTok r.s n
        (((r.setSeqW n 0x04 (tok + q.count)).setSeqW n 0x08 (seqTent r.s n - q.count)).setSeqW n 0x0C (tok + q.count)).kvOk q n
          (tok + q.count)) ∧
    KvDone .discard 8 (fun q r => seqState r.s q.seq ≠ 0 ∧ 0 < q.count ∧ q.count ≤ seqTent r.s q.seq)
      (fun q r =>
        let n := q.seq
        let w := (r.setSeqW n 0x08 (seqTent r.s n - q.count)).refreshUsed n
        (if seqPins w.s n = 0 then w.freeEmpty n else w).kvOk q n (seqTent r.s n - q.count)) ∧
    (∀ op, 8 < op → KvDone .kvBadRequest op (fun _ _ => True) (fun q r => r.kvComplete { q with bad := true } stKvBadRequest 0))) ∧
   (∀ (z : State) (r : Run z) (q : KvReq), 2 ≤ q.op → q.op ≤ 8 →
      let n := q.seq
      let tok := seqTok r.s n
      let tent := seqTent r.s n
      (q.bad = true → r.kvServe q = r.kvComplete q stKvBadRequest 0) ∧
      (q.bad = false → seqState r.s n = 0 → r.kvServe q = r.kvComplete q stKvNoSeq 0) ∧
      (q.bad = false → seqState r.s n ≠ 0 →
        (q.op = 2 → seqPins r.s n ≠ 0 → r.kvServe q = r.kvComplete q stKvPinned 0) ∧
        (q.op = 3 → seqPins r.s n = 255 → r.kvServe q = r.kvComplete q stBounds 0) ∧
        (q.op = 4 → seqPins r.s n = 0 → r.kvServe q = r.kvComplete q stBounds 0) ∧
        (q.op = 5 → 0 < q.count → 0 < tent → r.kvServe q = r.kvComplete q stKvTentative 0) ∧
        ((q.op = 5 ∧ tent = 0 ∨ q.op = 6) → 0 < q.count →
          (131072 < tok + tent + q.count → r.kvServe q = r.kvComplete q stKvSeqLimit 0) ∧
          (tok + tent + q.count ≤ 131072 → tok ≤ seqRes r.s n →
            canCover r.s n (missingPages r.s n (tok + tent + q.count)).length = false →
            r.kvServe q = r.kvComplete q stKvNoPage 0)) ∧
        ((q.op = 7 ∨ q.op = 8) → tent < q.count → r.kvServe q = r.kvComplete q stBounds 0) ∧
        (5 ≤ q.op → q.count = 0 →
          r.kvServe q = r.kvComplete q stOk (if q.op = 6 then tok + tent else if q.op = 8 then tent else tok)) ∧
        ((q.op = 3 ∧ seqPins r.s n < 255 ∨ (q.op = 5 ∧ tent = 0 ∨ q.op = 6) ∧ 0 < q.count ∧ tok + tent + q.count ≤ 131072) →
          seqRes r.s n < tok →
          let all := missingPages r.s n (if q.op = 3 then tok else tok + tent + q.count)
          (canCover r.s n all.length = false → r.kvServe q = r.kvComplete q stKvNoPage 0) ∧
          (canCover r.s n all.length = true → r.kvServe q =
            let fill := missingPages r.s n tok
            let w := ((r.evictFor n all.length).allocPages n fill true).allocPages n (all.filter fun x => !fill.contains x) false
            ((w.setSeqState n 2).startRecompute n).kvHold q true)))) ∧
   (∀ (i n : Nat) (p : Parcel) (q : KvReq), p.origin = .recompute n →
      let ok := fun (s : State) => s.parcel? i = some p ∧ fwRuns s 1 = true ∧ workEnded s p = true
      let left := fun (s : State) (r : Run s) => (r.leaveFlight i p).owedRecompute
      let signalled := fun (s : State) (r : Run s) =>
        ((left s r).deviceAdd (p.desc.getD 14 0).toNat).deviceAdd (p.desc.getD 15 0).toNat
      let kept := fun (s : State) (r : Run s) =>
        r.put (.kv { r.s.kv with waiting := r.s.kv.waiting.erase q })
      EventRow (.recomputeComplete i)
        (fun s => ok s ∧ isSuccess (finalStatus p) = true ∧
          ((signalled s (Run.start s)).s.kv.waiting.find? fun q => q.seq = n) = some q)
        (fun s r =>
          let r := signalled s r
          let fill := (seqEnts r.s n).filter fun e => e.state = 2
          let r := (kept s r).each fill fun e r => (r.setEnt { e with state := 1 }).setPageWord n e.layer e.lpage (2 ^ 31 + e.idx)
          let r := (r.setSeqW n 0x0C (seqTok r.s n)).setSeqState n 1
          let r := (r.setSeqW n 0x38 (sat32 (seqW r.s n 0x38 + 1))).kvFinish q
          r.kvDrain n (r.s.kv.waiting.length + 1)) ∧
      EventRow (.recomputeComplete i)
        (fun s => ok s ∧ isSuccess (finalStatus p) = false ∧
          ((left s (Run.start s)).s.kv.waiting.find? fun q => q.seq = n) = some q)
        (fun s r =>
          let r := left s r
          let fill := (seqEnts r.s n).filter fun e => e.state = 2
          let r := ((((kept s r).freeEnts fill).freeEmpty n).setSeqState n 1).kvComplete q stKvRecomputeFailed (finalStatus p)
          r.kvDrain n (r.s.kv.waiting.length + 1)))

/-! ## The reflex lane -/

/-- The inputs and latches of reflex groups: REFLEX_CORE_READY, REFLEX_FRAME_LANDING, REFLEX_TICK and REFLEX_ARRIVE_LATCH (R228, R232,
R234, R235, R237, R243). A latch takes what landed up to its time and no more, and its marks. -/
def Obligations.ReflexInputs : Prop :=
  (∀ n, n < 16 → EventPost (.reflexCoreReady n)
    (fun s => s.fld (rfxCoreReg n) 31 31 = 1 ∧ rfxState s n = 1 ∧ fwRuns s 0 = true ∧
      ∀ c, rfxPhys s n = some c → gangsOf s c = [])
    (fun s t => rfxState t n = 2 ∧ (∀ k, k ≠ rfxCoreReg n → t.reg k = s.reg k) ∧ t = { s with regs := t.regs })) ∧
  (∀ (st : Nat) (payload : List Byte) (rest : List (Nat × List Byte)),
    EventRow .reflexFrameLanding (fun s => s.rfx.landing = (st, payload) :: rest ∧ awake s = true)
      (fun s r => (r.put (.rfx { s.rfx with landing := rest })).each s.rfx.groups fun kg r => r.rfxLand kg.1 kg.2 st payload)) ∧
  (∀ (n k : Nat) (g : RGroup),
    let key := 4 * n + k
    let l := RGroup.phase g.desc + g.tick * RGroup.period g.desc
    let due := fun (s : State) => rfxGroup? s key = some g ∧ RGroup.timed g.desc = true ∧ awake s = true ∧ l ≤ s.now
    let g' := { g with tick := g.tick + 1 }
    EventRow (.reflexTick n k) (fun s => due s ∧ g.fenced.isSome = true) (fun _ r => (r.setRfx key g').rfxCount key 0x3C) ∧
    EventRow (.reflexTick n k) (fun s => due s ∧ g.fenced = none ∧ rfxIdle g = true) (fun _ r => r.setRfx key g') ∧
    EventRow (.reflexTick n k) (fun s => due s ∧ g.fenced = none ∧ rfxIdle g = false ∧ g.latch = none)
      (fun _ r => (r.setRfx key g').rfxLatch key g' l) ∧
    EventRow (.reflexTick n k) (fun s => due s ∧ g.fenced = none ∧ rfxIdle g = false ∧ g.latch.isSome = true)
      (fun _ r => ((r.setRfx key g').rfxCount key 0x30).rfxLatch key g' l) ∧
    (∀ m, g.trig = some m →
      let came := fun (s : State) => rfxGroup? s key = some g ∧ RGroup.timed g.desc = false ∧ awake s = true ∧ m ≤ s.now
      EventRow (.reflexArriveLatch n k) (fun s => came s ∧ g.fenced.isSome = true)
        (fun _ r => (r.setRfx key { g with trig := none, lastL := some m }).rfxCount key 0x3C) ∧
      EventRow (.reflexArriveLatch n k) (fun s => came s ∧ g.fenced = none ∧ rfxIdle g = false)
        (fun _ r => r.rfxLatch key { g with trig := none } m))) ∧
  (∀ (g : RGroup) (l row : Nat) (x : RRec), newestRec g row l = some x → x.row = row ∧ x.at_ ≤ l ∧
    (row < RGroup.nch g.desc → (latchAt g l).inputs[row]? = some x.vals ∧ (latchAt g l).stale[row]? = some false))

/-- Steps and outputs of reflex groups: REFLEX_STEP_START, REFLEX_STEP_END and REFLEX_OUTPUT_FRAME (R225, R233 to R237,
R245). Groups that end or go on: REFLEX_GROUP_END, REFLEX_HOLD_EXPIRY and REFLEX_RESUME (R241 to R243). -/
def Obligations.ReflexSteps : Prop :=
   ((∀ (n key core : Nat) (g : RGroup) (x : RLatch),
      EventRow (.reflexStepStart n)
        (fun s => rfxDue s n = some (key, g, x) ∧ rfxPhys s n = some core ∧ awake s = true ∧ g.fenced = none ∧
          ∀ o ∈ rfxGroupsOf s n, o.2.step = none ∧ o.2.busy ≤ s.now)
        (fun s r => (r.each ((List.range (RGroup.nch g.desc)).filter fun i => bit x.mask i) fun i r =>
          r.rfxReload core g.desc i).setRfx key { g with
            latch := none, step := some ⟨x, s.now, s.now + arithNs s core (rfxStepCycles g x)⟩ })) ∧
    (∀ (n k core : Nat) (g : RGroup) (st : RStep), g.step = some st →
      let key := 4 * n + k
      let d := g.desc
      let rows := List.range (RGroup.nch d)
      EventRow (.reflexStepEnd n k)
        (fun s => rfxGroup? s key = some g ∧ rfxPhys s n = some core ∧ st.ends ≤ s.now ∧
          ∀ o ∈ rfxGroupsOf s n, s.now < o.2.ckBusy → ∀ b ∈ RGroup.stateBanks o.2.desc, b ∉ RGroup.stateBanks d)
        (fun s r =>
          let new := rows.map fun i => rfxRow s core d (st.latch.inputs.getD i []) i
          let steps := s.reg64 (rfxReg key 0x28) + 1
          let late := decide (s.now > st.latch.at_ + RGroup.period d)
          let r := r.each rows fun i r => r.each (List.range (RGroup.cols d)) fun e r =>
            r.setRfxCell core d i e ((new.getD i []).getD e 0)
          let r := (r.setReg64 (rfxReg key 0x28) steps).when late fun r => r.rfxCount key 0x34
          let r := r.bump (rfxReg key 0x38) (st.latch.stale.filter id).length
          let sends := (!RGroup.timed d || steps % RGroup.outDiv d = 0) && (outStreams d g.cards ≠ [])
          let out : ROut := {
            step := steps, time := s.now, late := late, restarted := g.restarted, nan := rfxNanMask r.s core d, latch := st.latch
            outs := rows.map fun i => rfxOut r.s core d i, streams := outStreams d g.cards }
          let g := { g with
            step := none, busy := s.now + arithNs s core (RGroup.headCycles d), out := if sends then g.out ++ [out] else g.out
            restarted := g.restarted && !sends, held := if g.hold then some s.now else g.held, hold := false }
          let r := (r.setRfx key g).when g.held.isSome fun r => r.setFld (rfxReg key 0x20) 1 1 1
          let ctx := match s.parcel? g.parcel with
            | some p => p.ctx
            | none => 0
          let r := if RGroup.auditN d ≠ 0 && steps % RGroup.auditN d = 0 then r.rfxCheckpoint key core g ctx steps else r
          r.deviceAdd (RGroup.w d 20))) ∧
    (∀ (n k st w : Nat) (g : RGroup) (o : ROut) (rest : List ROut) (more : List Nat) (c : List W32) (p : Parcel),
      g.out = o :: rest → o.streams = st :: more → g.cards.find? (fun c => bindOut c && bindStream c = st) = some c →
      let q := fun (s : State) (r : Run s) => ((r.setRfx (4 * n + k) { g with
        out := if more = [] then rest else { o with streams := more } :: rest }).readIn (ctxX s p.ctx) (egressTmpl c) (egressTlen c))
      EventRow (.reflexOutputFrame n k)
        (fun s => rfxGroup? s (4 * n + k) = some g ∧ s.parcel? g.parcel = some p ∧ (g.busy ≤ s.now ∨ rest ≠ []) ∧
          (q s (Run.start s)).1 = .ok w)
        (fun s r =>
          let f := Frame.parse (rfxFrame g.desc g.cards o st (leBytes (egressTlen c) w)) (s.fld (portReg (egressPort c) 0) 11 0)
          (q s r).2.ethEnqueue (egressPort c) f f.pcp))) ∧
   (∀ (n k : Nat) (g : RGroup),
      let key := 4 * n + k
      (∀ st, g.stop = some st → g.step = none → g.out = [] →
        EventRow (.reflexGroupEnd n k) (fun s => rfxGroup? s key = some g ∧ awake s = true) fun _ r => r.rfxEnd key g st) ∧
      (∀ t, g.held = some t →
        EventRow (.reflexHoldExpiry n k) (fun s => rfxGroup? s key = some g ∧ fwRuns s 0 = true ∧ t + 60000000000 < s.now)
          fun _ r => r.rfxEnd key g stLeaseLost) ∧
      (∀ core ctx, g.fenced.isSome = true →
        EventRow (.reflexResume n k)
          (fun s => rfxGroup? s key = some g ∧ rfxPhys s n = some core ∧ awake s = true ∧
            ctx = match s.parcel? g.parcel with
              | some p => p.ctx
              | none => 0)
          (fun s r =>
            let r := (r.rfxCopy core g.desc (ctxX s ctx)).each [0, 1, 2, 3] fun b r =>
              r.setBank core b { ((r.s.core core).bank b) with fmt := .a40 }
            let r := match rfxRecover s g ctx with
              | some (step, img) => (r.rfxRestore core g.desc img).setReg64 (rfxReg key 0x28) step
              | none => r.each (List.range (RGroup.nch g.desc)) fun j r => r.rfxReload core g.desc j
            let r := r.setRfx key { g with fenced := none, restarted := true }
            (r.dropPin (1000 + key)).addPin (core / 12) (1000 + key) (RGroup.freq g.desc))))

/-! ## Memory tiers -/

/-- TLBINV_DONE, CHUNK_START and CHUNK_LANDED (R253, R261 to R264): a window never holds more folios than its ring, and
FILL counts the chunks that have landed in order. Vault integrity (R255, R266 to R269, R466): PATROL_READ,
VAULT_ACCESS_TIMEOUT, VAULT_RETRAIN_END, ROW_SPARING and VAULT_REFRESH.
Where the rules leave a point open it holds the model's reading, log 131. -/
def Obligations.WindowAndVaultEvents : Prop :=
   (EventPost .tlbinvDone (fun _ => True) (fun s t => t.fld (vltReg 0x038) 31 31 = 0 ∧
      t.fld (vltReg 0x038) 15 0 = s.fld (vltReg 0x038) 15 0 ∧ t = { s with regs := t.regs }) ∧
    (∀ (n : Nat) (w : Window),
      let free := fun (s : State) => match tallyOf s w.free with
        | some i => (s.tally i).value.toNat / w.ncons
        | none => 0
      let may := fun (s : State) => SMap.find? s.vault.windows n = some w ∧ fwRuns s 1 = true ∧ w.stopping = false ∧
        w.inflight.length < 4 ∧ (w.again = true ∨ w.next < w.sizes.length)
      let fits := w.next + 1 ≤ 0xFFFFFFFF ∧ w.ncons * (w.next + 1) ≤ 0xFFFFFFFF
      EventRow (.chunkStart n) (fun s => may s ∧ ¬ fits) (fun _ r => r.endWindow n stWinTallyLimit) ∧
      EventPost (.chunkStart n) (fun s => may s ∧ fits ∧ w.cap < w.before (w.next + 1) - w.before (free s)) (fun s t => t = s) ∧
      EventRow (.chunkStart n) (fun s => may s ∧ fits ∧ w.before (w.next + 1) - w.before (free s) ≤ w.cap)
        (fun _ r => r.setWindow n { w with next := w.next + 1, inflight := w.inflight ++ [w.next] }) ∧
      (∀ g filled : Nat, ∀ w' : Window,
        filled = advanceFilled (g :: w.early) (w.early.length + 2) w.filled →
        w' = { w with
          inflight := w.inflight.filter (· ≠ g), early := (g :: w.early).filter (· ≥ filled), filled := filled } →
        let landed := vltReg (0x810 + 0x20 * n)
        let out := fun (s : State) (r : Run s) =>
          let r := r.setWindow n w'
          let r := r.setReg64 landed (r.s.reg64 landed + 1)
          match tallyOf r.s w.fill with
          | some i => r.tsigAt i (BitVec.ofNat 32 filled)
          | none => r
        ∀ (s : State) (r : Run s), s.halted = false → SMap.find? s.vault.windows n = some w → fwRuns s 1 = true →
          g ∈ w.inflight → chunkCopy (Run.start s) w g = .ok r →
          ((w.stopping = false ∨ w'.inflight ≠ []) → exec (.chunkLanded n g) s = .next (out s r).s) ∧
          (w.stopping = true → w'.inflight = [] → exec (.chunkLanded n g) s = .next ((out s r).endWindow n stWinStopped).s)) ∧
      (∀ (g st : Nat) (s : State) (r : Run s), s.halted = false → SMap.find? s.vault.windows n = some w → fwRuns s 1 = true →
        g ∈ w.inflight → chunkCopy (Run.start s) w g = .error (st, r) →
        exec (.chunkLanded n g) s = .next (r.endWindow n st).s)) ∧
    (∀ (early : List Nat) (fuel g : Nat), g ≤ advanceFilled early fuel g ∧
      ∀ i, g ≤ i → i < advanceFilled early fuel g → i ∈ early)) ∧
   ((∀ pa err : Nat,
      let ok := fun (s : State) => pa < 2 ^ 35 ∧ fwRuns s 1 = true ∧ s.fld (vltReg 0x010) 15 8 ≠ 0 ∧
        vaultState s (vaultOf s pa).1 = 0
      let stands := fun (s : State) => (SMap.find? s.vault.weak (pa / 32)).isSome = true
      EventRow (.patrolRead pa err) (fun s => ok s ∧ s.isUe pa = true) (fun _ r => r.countUe pa) ∧
      EventRow (.patrolRead pa err) (fun s => ok s ∧ s.isUe pa = false ∧ (err = 1 ∨ stands s ∧ err ≠ 2))
        (fun s r => (r.put (.vault { s.vault with
          weak := SMap.erase s.vault.weak (pa / 32)
          rowCe := SMap.set 0 s.vault.rowCe (rowOf s pa) (SMap.get 0 s.vault.rowCe (rowOf s pa) + 1) })).countErr
            (vltReg (0x104 + 0x20 * (vaultOf s pa).1)) 0) ∧
      EventRow (.patrolRead pa err) (fun s => ok s ∧ s.isUe pa = false ∧ err = 2)
        (fun s r => (r.put (.vault { s.vault with ue := SMap.insert s.vault.ue (pa / 32) 1 })).countUe pa) ∧
      EventPost (.patrolRead pa err) (fun s => ok s ∧ s.isUe pa = false ∧ ¬ stands s ∧ err = 0) (fun s t => t = s)) ∧
    (∀ pa : Nat,
      let ok := fun (s : State) => pa < 2 ^ 35 ∧ vaultState s (vaultOf s pa).1 = 0
      let retrains := fun (s : State) (r : Run s) =>
        (r.countErr (vltReg (0x100 + 0x20 * (vaultOf s pa).1) + 0x18) 1).setFld (vltReg (0x100 + 0x20 * (vaultOf s pa).1)) 31 30 1
      let counted := fun (s : State) (r : Run s) => (retrains s r).countUe pa
      (∀ va : Nat,
        let stop := fun (s : State) (r : Run s) (core g : Nat) (c : Cause) => match (counted s r).s.gang? core g with
          | some x => (counted s r).laneFault core g c va ((x.minPc).getD 0) (laneMask x.active) stUncorrectable
          | none => counted s r
        (∀ core g, EventRow (.vaultAccessTimeout (.agent (.lane core g)) va pa false) ok (fun s r => stop s r core g .loadAccess) ∧
          EventRow (.vaultAccessTimeout (.agent (.lane core g)) va pa true) ok (fun s r => stop s r core g .fetchAccess)) ∧
        (∀ h, h < 8 →
          let up := fun s : State => ok s ∧ ((counted s (Run.start s)).s.hart h).running = true
          EventRow (.vaultAccessTimeout (.agent (.host h)) va pa false) up
            (fun s r => (counted s r).hartTrap h ((counted s r).s.hart h) .loadAccess va false) ∧
          EventRow (.vaultAccessTimeout (.agent (.host h)) va pa true) up
            (fun s r => (counted s r).hartTrap h ((counted s r).s.hart h) .fetchAccess va false)) ∧
        (∀ p, p ≤ 4 →
          let up := fun s : State => ok s ∧ fwRuns (counted s (Run.start s)).s p = true
          EventRow (.vaultAccessTimeout (.agent (.fw p)) va pa false) up
            (fun s r => (counted s r).hartTrap (fwKey p) ((counted s r).s.hart (fwKey p)) .loadAccess pa false) ∧
          EventRow (.vaultAccessTimeout (.agent (.fw p)) va pa true) up
            (fun s r => (counted s r).hartTrap (fwKey p) ((counted s r).s.hart (fwKey p)) .fetchAccess pa false))) ∧
      (∀ (core seq va : Nat) (fetch : Bool) (t : TInstr), EventRow (.vaultAccessTimeout (.move core seq) va pa fetch)
        (fun s => ok s ∧
          ((s.core core).running.find? fun e => e.seq = seq && e.op = .fmove && e.reads.contains (pa / 4096)) = some t)
        (fun s r => ((counted s r).finished core t).moveStop core t (pa / 4096))) ∧
      (∀ (n va : Nat) (fetch : Bool) (w : Window), EventRow (.vaultAccessTimeout (.window n) va pa fetch)
        (fun s => ok s ∧ SMap.find? s.vault.windows n = some w ∧ w.inflight ≠ [])
        (fun s r => (counted s r).endWindow n stUncorrectable)) ∧
      (∀ (va : Nat) (fetch : Bool), EventRow (.vaultAccessTimeout .block va pa fetch) ok (fun s r =>
        (retrains s r).put (.vault { (retrains s r).s.vault with
          unanswered := SMap.insert (retrains s r).s.vault.unanswered (pa / 32) 1 })))) ∧
    (∀ v, v < 16 →
      let rest := fun (s : State) => s.vault.unanswered.filter fun w => (vaultOf s (w.1 * 32)).1 ≠ v
      EventPost (.vaultRetrainEnd v true) (fun s => vaultState s v = 1)
        (fun s t => vaultState t v = 0 ∧ t.vault = { s.vault with unanswered := rest s, fails := SMap.erase s.vault.fails v } ∧
          (∀ k, k ≠ vltReg (0x100 + 0x20 * v) → t.reg k = s.reg k) ∧ t = { s with regs := t.regs, vault := t.vault }) ∧
      EventPost (.vaultRetrainEnd v false) (fun s => vaultState s v = 1 ∧ SMap.get 0 s.vault.fails v + 1 < 3)
        (fun s t => t = { s with vault := { s.vault with
          unanswered := rest s, fails := SMap.set 0 s.vault.fails v (SMap.get 0 s.vault.fails v + 1) } }) ∧
      EventRow (.vaultRetrainEnd v false) (fun s => vaultState s v = 1 ∧ 3 ≤ SMap.get 0 s.vault.fails v + 1)
        (fun s r =>
          let r := ((r.put (.vault { s.vault with
            unanswered := rest s, fails := SMap.set 0 s.vault.fails v (SMap.get 0 s.vault.fails v + 1) })).setFld
              (vltReg (0x100 + 0x20 * v)) 31 30 2).errEvent 2
          r.put (.fix { r.s.fix with
            owed := r.s.fix.owed ++ [{ kind := 7, arg0 := v, time := s.now, boot := s.fix.boots }] })) ∧
      (∀ waited, EventPost (.vaultRefresh v waited) (fun _ => True)
        (fun s t => (t.reg (vltReg (0x11C + 0x20 * v))).toNat =
            min ((s.reg (vltReg (0x11C + 0x20 * v))).toNat + min waited 120) 0xFFFFFFFF ∧
          (∀ k, k ≠ vltReg (0x11C + 0x20 * v) → t.reg k = s.reg k) ∧ t = { s with regs := t.regs }))) ∧
    (∀ pa waited : Nat,
      let row := fun (s : State) => rowOf s pa
      let bank := fun (s : State) => (vaultOf s pa).1 * 64 + row s % 64
      EventPost (.rowSparing pa waited)
        (fun s => pa < 2 ^ 35 ∧ fwRuns s 1 = true ∧ vaultState s (vaultOf s pa).1 ≠ 2 ∧ s.fix.rows < 16384 ∧
          SMap.get 0 s.vault.spares (bank s) < 64 ∧
          (s.fld (vltReg 0x010) 7 0 ≤ SMap.get 0 s.vault.rowCe (row s) ∨ (SMap.find? s.vault.rowUe (row s)).isSome = true))
        (fun s t => SMap.get 0 t.vault.spares (bank s) = SMap.get 0 s.vault.spares (bank s) + 1 ∧
          t.vault.rowCe = SMap.erase s.vault.rowCe (row s) ∧ t.vault.rowUe = SMap.erase s.vault.rowUe (row s) ∧
          t.fix.rows = s.fix.rows + 1 ∧ t.mem = s.mem)))

/-! ## Ethernet -/

/-- Ports and tables of the switch (R332, R334, R335, R337, R341, R342, R344): LINK_UP, LINK_DOWN, GATE_CONTROL_ENTRY,
QBV_CONFIG_CHANGE, SAK_REKEY, MKA_TIMER, ETH_TBL_READ, ETH_TBL_WRITE, FDB_AGE_OUT and CB_HISTORY_RESET. The gate entry in force at a
time ends after it, and within the cycle, or no later than a new list comes.
Where the rules leave a point open it holds the model's reading, logs 142 and 143. -/
def Obligations.EthernetPortEvents : Prop :=
  let mka : Nat → Nat := fun n => ethReg (0x3000 + 0x40 * n)
  (∀ n, n < 4 →
    (∀ fault, EventRow (.linkDown n fault) (fun s => s.fld (portReg n 4) 31 30 = 1)
      fun _ r => r.linkLost n (if fault then 2 else 0)) ∧
    (∀ verified, EventRow (.linkUp n verified)
      (fun s => bit (s.reg (portReg n 0)).toNat 31 = true ∧ awake s = true ∧ s.fld (portReg n 4) 31 30 ≠ 1)
      (fun s r =>
        let cfg := (s.reg (portReg n 0)).toNat
        let r := r.setRegN (portReg n 4) (2 ^ 30 + bits cfg 27 26 * 2 ^ 28 + b2n (bit cfg 24 && verified) * 2 ^ 27)
        (if bit cfg 25 = true ∧ s.fld (mka n) 31 30 ≠ 2 then r.mkaState n 1 else r).gateApply n)) ∧
    EventRow (.gateControlEntry n) (fun s => (ethPort s n).oper.isSome = true ∧ (ethPort s n).entEnds ≤ s.now)
      (fun _ r => r.gateApply n) ∧
    (∀ g, EventRow (.qbvConfigChange n) (fun s => (ethPort s n).pend = some g ∧ g.base ≤ s.now)
      (fun s r => ((r.setPort n { ethPort s n with oper := some g, pend := none }).setFld (portReg n 0x050) 31 31 0).gateApply n)) ∧
    EventRow (.sakRekey n)
      (fun s => (ethPort s n).sak.isSome = true ∧ (ethPort s n).server = true ∧
        3 * (if s.fld (mka n) 29 29 = 1 then 2 ^ 64 else 2 ^ 32) ≤ 4 * max (ethPort s n).pn (ethPort s n).rxPn)
      (fun s r => r.draw.2.setPort n { ethPort s n with sak := some r.draw.1, pn := 1, rxPn := 0 }) ∧
    EventRow (.mkaTimer n)
      (fun s => s.fld (portReg n 0) 25 25 ≠ 0 ∧ s.fld (mka n) 31 30 ≠ 0)
      (fun s r =>
        let q := if s.fld (mka n) 31 30 = 2 ∧ (ethPort s n).peerAt + 6000000000 ≤ s.now then
          (r.setPort n { ethPort s n with sak := none, server := false }).mkaState n 1 else r
        let p := ethPort q.draw.2.s n
        let body := Config.mkaBody (s.fld (topReg 8) 15 8) (s.fld (mka n) 23 16) (if p.server then p.sak else none) q.draw.1.toNat
        q.draw.2.ethEnqueue n (portFrame s n 0x030000C28001 0x888E (s.fld (portReg n 0) 11 0) body) 7)) ∧
  (let cmd := fun (s : State) => (s.reg (ethReg 0x1000)).toNat
    let args := fun (s : State) => (bits (cmd s) 29 24, bits (cmd s) 18 16, bits (cmd s) 15 0)
    EventRow .ethTblRead
      (fun s => bit (cmd s) 31 = true ∧ bit (cmd s) 30 = false ∧ tblRead s (args s).1 (args s).2.1 (args s).2.2 = none)
      (fun _ r => r.tblEnd stBounds) ∧
    (∀ d, EventRow .ethTblRead
      (fun s => bit (cmd s) 31 = true ∧ bit (cmd s) 30 = false ∧ tblRead s (args s).1 (args s).2.1 (args s).2.2 = some d)
      (fun _ r => (r.each (List.range 8) fun k r => r.setRegN (ethReg (0x1004 + 4 * k)) (d.getD k 0)).tblEnd stOk)) ∧
    EventRow .ethTblWrite (fun s => bit (cmd s) 31 = true ∧ bit (cmd s) 30 = true)
      (fun s r =>
        let x := r.tblWrite (args s).1 (args s).2.1 (args s).2.2
          ((List.range 8).map fun k => (s.reg (ethReg (0x1004 + 4 * k))).toNat)
        x.2.tblEnd x.1) ∧
    EventRow .ethTblWrite
      (fun s =>
        let d := (List.range 8).map fun k => (s.reg (ethReg (0x1004 + 4 * k))).toNat
        bit (cmd s) 31 = true ∧ bit (cmd s) 30 = true ∧ (args s).1 = 1 ∧ (tblRead s 1 (args s).2.1 (args s).2.2).isSome = true ∧
          tblValid s 1 (args s).2.1 d = true)
      (fun s r => (r.setEth { s.eth with
        vlans := SMap.set 0 s.eth.vlans (args s).2.2 (s.reg (ethReg 0x1004)).toNat }).tblEnd stOk)) ∧
  (∀ i,
    (∀ e, EventPost (.fdbAgeOut i)
      (fun s => SMap.find? s.eth.fdb i = some e ∧ e.static_ = false ∧ e.last + s.fld (ethReg 0x800) 15 0 * 1000000000 ≤ s.now)
      (fun s t => t = { s with eth := { s.eth with fdb := SMap.erase s.eth.fdb i } })) ∧
    EventRow (.cbHistoryReset i)
      (fun s => let w := SMap.get (0, 0) s.eth.cbs i
        bit w.1 31 = true ∧ bit w.1 29 = true ∧ (cbState s i).last + bits w.2 15 0 * 1000000 ≤ s.now)
      (fun s r => r.setCbState i { cbState s i with top := none, seen := [] })) ∧
  (∀ (g : GateList) (t : Nat), g.cycle ≠ 0 →
    (t < (gateAt g t none).2 ∧ (gateAt g t none).2 ≤ t - (t - g.base) % g.cycle + g.cycle) ∧
    ∀ b, t < b → t < (gateAt g t (some b)).2 ∧ (gateAt g t (some b)).2 ≤ b)

/-- Frames received, sent and taken (R332, R334, R335, R341, R343, R344, R346): ETH_FRAME_RX, ETH_FRAME_TX_START and FLOW_TX_TAKE.
The class that starts next is the highest that may, and sequence recovery passes no number twice.
Where the rules leave a point open it holds the model's reading, logs 79 and 143 to 146. -/
def Obligations.EthernetFrames : Prop :=
  (∀ (n : Nat) (raw : List Byte) (fcs : Bool),
    let fits := fcs = true ∧ 60 ≤ raw.length ∧ raw.length ≤ 1518
    let came := fun (s : State) (r : Run s) =>
      (r.setPort n { ethPort s n with rxAt := max (ethPort s n).rxAt (s.timeAt tbEth) }).countPort n 0x020
    EventPost (.ethFrameRx n raw fcs) (fun s => linkUp s n = false) (fun s t => t = s) ∧
    EventRow (.ethFrameRx n raw fcs) (fun s => linkUp s n = true ∧ ¬ fits)
      (fun s r => (came s r).countPort n 0x028) ∧
    (∀ s, s.halted = false → linkUp s n = true → fits →
      ((came s (Run.start s)).unprotect n raw = none →
        exec (.ethFrameRx n raw fcs) s = .next ((came s (Run.start s)).countPort n 0x030).s) ∧
      ∀ bs r, (came s (Run.start s)).unprotect n raw = some (bs, r) →
        exec (.ethFrameRx n raw fcs) s = .next (r.switchFrame n bs (ingressStamp s n (raw.length + 4))).s)) ∧
  (∀ (s : State) (n len : Nat), (ethPort s n).rxAt ≤ ingressStamp s n len ∧
    (ingressStamp s n len ≤ s.timeAt tbEth ∨ ingressStamp s n len = (ethPort s n).rxAt)) ∧
  (∀ (s : State) (r : Run s) (n stamp : Nat) (raw : List Byte),
    vlanMember r.s (Frame.parse raw (r.s.fld (portReg n 0) 11 0)).vid n = false → r.switchFrame n raw stamp = r) ∧
  (∀ n, EventRow (.ethFrameTxStart n) (fun _ => True) fun _ r => r.mhyFlush.ethTxStart n) ∧
  (∀ (s : State) (n c : Nat) (f : Frame) (rest : List Frame), nextClass s n = some (c, f, rest) →
    c < 8 ∧ SMap.get [] (ethPort s n).queues c = f :: rest ∧ txMayStart s n c f = true ∧
    ∀ d g more, c < d → d < 8 → SMap.get [] (ethPort s n).queues d = g :: more → txMayStart s n d g = false) ∧
  (∀ (s : State) (r : Run s) (i port : Nat) (f : Frame) (q : Nat), rtagSeq f = some q →
    ((cbState r.s i).top.isSome = true → (cbState r.s i).seen.contains q = true →
      r.s.now < (cbState r.s i).last + bits (SMap.get (0, 0) r.s.eth.cbs i).2 15 0 * 1000000 →
      (∀ t, (cbState r.s i).top = some t → seqDelta q t ≤ 0) →
        (r.cbRecover i port f).1 = false) ∧
    ((r.cbRecover i port f).1 = true → (cbState (r.cbRecover i port f).2.s i).seen.contains q = true)) ∧
  (∀ n,
    let idx := fun (s : State) => cardW s n 11
    EventRow (.flowTxTake n)
      (fun s => cardKind s n = 6 ∧ cardActive s n = true ∧ awake s = true ∧ bits (idx s) 31 16 ≠ bits (idx s) 15 0)
      (fun s r =>
        let cfg := cardW s n 9
        let slot := 2 ^ bits cfg 11 8
        let c := ctxX s (cardCtx s n)
        let va := cardAddr s n 6 + slot * (bits (idx s) 31 16 % 2 ^ bits cfg 7 4)
        let x := (r.touchCard n).readBlock c va 4
        let r := match x.1 with
          | .error _ => x.2
          | .ok w =>
            let len := bits w 15 0
            let y := x.2.readBlock c (va + 16) len
            if bits w 31 16 ≠ 0 ∨ slot - 16 < len ∨ len < 14 then x.2
            else match y.1 with
              | .error _ => y.2
              | .ok v =>
                let f := Frame.parse (leBytes len v) (s.fld (portReg (bits cfg 1 0) 0) 11 0)
                y.2.ethEnqueue (bits cfg 1 0) f f.pcp
        (r.setHw n 11 ((bits (idx s) 31 16 + 1) % 65536 * 65536 + bits (idx s) 15 0)).cardEvent n))

/-! ## Microphones, the archive and the ladders -/

/-- Microphones, the archive, audio cards and the mute path (R352 to R363, R367, R368, R420): MIC_CLOCK_START, ARCHIVE_ROW_COMPLETE,
ARCHIVE_COPY_END, MIC_BLOCK_DELIVER, OUTPUT_BLOCK_PLAY, MUTE_ENGAGE and MUTE_RELEASE. The coder's state stays in range, so what is
decoded is a sample. Where the rules leave a point open it holds the model's reading, logs 147 to 150. -/
def Obligations.AudioEvents : Prop :=
  (∀ n t, n < 4 → EventRow (.micClockStart n)
    (fun s => (audPort s n).pwrAt = some t ∧ (audPort s n).clockAt = none ∧ t + micPwrDly s n ≤ s.now)
    (fun s r => (r.setAud { s.aud with
      ports := SMap.set {} s.aud.ports n { audPort s n with clockAt := some s.now } }).settleLed)) ∧
  (∀ xs, EventRow (.archiveRowComplete xs) (fun s => s.aud.rowStart + 31984000 ≤ s.now) fun _ r => r.rowComplete xs) ∧
  (∀ (s : State) (r : Run s) (xs : List (List (BitVec 16))),
    (r.rowComplete xs).s.aud.rowSeq = r.s.aud.rowSeq + 1 ∧ (r.rowComplete xs).s.aud.prev = r.s.aud.rowStart ∧
    (r.rowComplete xs).s.aud.rowStart = min (r.s.timeAt tbAud) (r.s.aud.rowStart + 32016000)) ∧
  (∀ c, EventRow .archiveCopyEnd (fun s => s.aud.copy = some c ∧ awake s = true)
    fun _ r => (r.copyRows c (c.count + 1)).copyEnd c stOk) ∧
  (∀ n mics, EventRow (.micBlockDeliver n mics)
    (fun s => cardKind s n = 3 ∧ cardActive s n = true ∧ awake s = true ∧ s.aud.fast = true ∧ micPlanes s n ≠ [] ∧
      (SMap.get (512 * s.aud.rowSeq, 0) s.aud.mic n).1 + 16 * blkMs s n - 1 ≤ archNow s)
    (fun s r => r.micDeliver n (SMap.get (512 * s.aud.rowSeq, 0) s.aud.mic n).1 (SMap.get (512 * s.aud.rowSeq, 0) s.aud.mic n).2 mics)) ∧
  (∀ n,
    let t := fun (s : State) => s.aud.rowStart + (s.now - s.aud.rowStart) / (blkMs s n * 1000000) * (blkMs s n * 1000000)
    let head := fun (s : State) => bits (cardW s n 7) 31 16
    let tail := fun (s : State) => match (SMap.get [] s.aud.tails n).find? fun x => decide (x.2 + 1000000 ≤ t s) with
      | some x => x.1
      | none => head s
    let turn := fun (s : State) => cardKind s n = 4 ∧ cardActive s n = true ∧ awake s = true ∧
      (SMap.find? s.aud.out n = none ∨ (SMap.get (0, false) s.aud.out n).1 < t s)
    let ready := fun (s : State) => (tail s + 65536 - head s) % 65536 ≠ 0 ∧ (tail s + 65536 - head s) % 65536 ≤ 4096
    let play := fun (s : State) (ok : Bool) (bs : List Byte) (r : Run s) => r.setAud { r.s.aud with
      out := SMap.insert r.s.aud.out n (t s, ok)
      spk := SMap.insert r.s.aud.spk (bits (cardW s n 6) 0 0) (bit (cardW s n 6) 8, bs) }
    EventRow (.outputBlockPlay n) (fun s => turn s ∧ ready s)
      (fun s r =>
        let c := ctxX s (cardCtx s n)
        let va := cardAddr s n 4 + outSlot s n * (head s % 2 ^ bits (cardW s n 6) 15 12)
        let x := r.readBlock c (va + 16) (768 * blkMs s n)
        let r := match x.1 with
          | .ok v => play s true (leBytes (768 * blkMs s n) v) x.2
          | .error _ => play s true [] x.2
        let r := (r.tryWrite c (va + 8) 8 (t s)).tryWrite c va 4 (2 ^ 31)
        (r.setHw n 7 ((head s + 1) % 65536 * 65536 + bits (cardW s n 7) 15 0)).cardEvent n) ∧
    EventRow (.outputBlockPlay n) (fun s => turn s ∧ ¬ ready s)
      (fun s r =>
        let r := play s false [] r
        if (SMap.get (0, false) s.aud.out n).2 then r.bumpHw n 8 else r)) ∧
  EventRow .muteEngage (fun s => muted s = false) (fun s r =>
    let r := (r.setFld (audReg 0x300) 31 31 1).setFld (audReg 0x300) 15 0 (min 0xFFFF (s.fld (audReg 0x300) 15 0 + 1))
    let r := r.setReg64 (audReg 0x304) (s.timeAt tbAud)
    let r := r.trace 0x22 0x0300 (r.s.fld (audReg 0x300) 15 0)
    let r := match s.aud.copy with
      | some c => (r.draw.2.copyRows c (r.draw.1.toNat % 250)).copyEnd c stAudArchiveGone
      | none => r
    let r := (r.put (.wipe archBase (archBase + 524288))).setFld (audReg 0x110) 7 0 0
    (r.setAud { r.s.aud with led := true, loupe := [], lens := [], cut := true }).settlePorts.ladMuted) ∧
  EventRow .muteRelease (fun s => muted s = true) (fun s r =>
    let r := (r.setFld (audReg 0x300) 31 31 0).setReg64 (audReg 0x304) (s.timeAt tbAud)
    (r.trace 0x22 0x0301 (r.s.fld (audReg 0x300) 15 0)).settlePorts.settleLed) ∧
  (∀ (p : Int) (i code : Nat), -32768 ≤ (imaStep (p, i) code).1 ∧ (imaStep (p, i) code).1 ≤ 32767 ∧ (imaStep (p, i) code).2 ≤ 88) ∧
  (∀ (p x : Int) (i : Nat), imaCode (p, i) x < 16)

/-- The ladders (R371, R372, R377, R406 to R410, R412, R413): LOUPE_FRAME, LENS_HOP, FRAME_DELIVER, VERDICT_DEADLINE,
DEMOTION_EXPIRY, PERIODIC_SUBMIT and TICKET_MOVE. A ladder comes down to a rung that is not ONCE and can be entered, or to its
base; an evaluation of another rung than the one it stands on, or made before the arrival there, changes nothing.
Where the rules leave a point open it holds the model's reading, logs 149, 153 and 154. -/
def Obligations.LadderEvents : Prop :=
  (∀ (n : Nat) (xs : List (BitVec 16)) (l : Loupe),
    let e := ((xs ++ List.replicate 160 0).take 160).foldl (fun m (x : BitVec 16) => m + x.toInt.natAbs ^ 2) 0
    let judged := fun (s : State) => loupeStep (s.reg (audReg 0x200)).toNat l (loupeE e)
    let heard := fun (s : State) (r : Run s) =>
      let r := r.setAud { s.aud with loupe := SMap.insert s.aud.loupe n (judged s).1 }
      if (judged s).2.1 then r.loupeTrigger n (160 * (judged s).1.next) else r
    let due := fun (s : State) => SMap.find? s.aud.loupe n = some l ∧ muted s = false ∧ stampOf s (160 * (l.next + 1)) ≤ s.now
    let ev := fun (s : State) => ({ key := n, entry := 0, stamp := stampOf s (160 * (judged s).1.next), score := 0 } : LEval)
    EventRow (.loupeFrame n xs) (fun s => due s ∧ ladder? (heard s (Run.start s)).s n = none) (fun s r => (heard s r).ladRun) ∧
    ∀ d : Ladder,
      let at_ := fun (s : State) => due s ∧ ladder? (heard s (Run.start s)).s n = some d
      let run := fun (s : State) => if (judged s).1.run = 0 then 0 else d.run + 1
      let climbs := fun (s : State) =>
        ((judged s).1.active = true ∧ bits (s.reg (audReg 0x200)).toNat 25 22 + 1 ≤ run s) ∨ (judged s).2.1 = true
      EventRow (.loupeFrame n xs) (fun s => at_ s ∧ d.rung = 0 ∧ climbs s) (fun s r => ((heard s r).moveRung n 1 (ev s) 0).ladRun) ∧
      EventRow (.loupeFrame n xs) (fun s => at_ s ∧ d.rung = 0 ∧ ¬ climbs s)
        (fun s r => ((heard s r).setLadder n { d with run := run s }).ladRun) ∧
      EventRow (.loupeFrame n xs) (fun s => at_ s ∧ d.rung = 1 ∧ (judged s).2.2 = true)
        (fun s r => ((heard s r).moveRung n 0 (ev s) 0).ladRun) ∧
      EventRow (.loupeFrame n xs) (fun s => at_ s ∧ d.rung ≠ 0 ∧ (d.rung ≠ 1 ∨ (judged s).2.2 = false))
        (fun s r => (heard s r).ladRun)) ∧
  (∀ (n : Nat) (l : Lens),
    let hop := 160 * l.next
    let cfg := fun (s : State) => (s.reg (audReg 0x204)).toNat
    let out := fun (s : State) => (List.range 4).map fun b =>
      Config.lensModel (l.state.getD b 0) ((List.range 160).map fun i => islandBeam s n b (hop + i))
    let score := fun (s : State) b => (((out s).getD b (0, 0)).2).toNat
    let runs := fun (s : State) =>
      (List.range 4).map fun b => if bits (cfg s) 31 24 ≤ score s b then l.runs.getD b 0 + 1 else 0
    let beam := fun (s : State) => (List.range 4).find? fun b => decide (bits (cfg s) 23 20 ≤ (runs s).getD b 0)
    let due := fun (s : State) => SMap.find? s.aud.lens n = some l ∧ muted s = false ∧ hop + 160 ≤ archNewest s
    let heard := fun (s : State) (r : Run s) (rs : List Nat) => r.setAud { s.aud with
      lens := SMap.insert s.aud.lens n { next := l.next + 1, runs := rs, state := (out s).map (·.1) } }
    EventRow (.lensHop n l.next) (fun s => due s ∧ beam s = none) (fun s r => (heard s r (runs s)).ladRun) ∧
    ∀ (b a : Nat) (stop : Option Nat) (more : List (Nat × Option Nat)) (u : Loupe) (d : Ladder),
      let woken := fun (s : State) (r : Run s) => (heard s r [0, 0, 0, 0]).wakeTo 4 1
      let found := fun (s : State) => due s ∧ beam s = some b ∧ SMap.find? s.aud.loupe n = some u ∧ u.acts = (a, stop) :: more ∧
        a ≤ hop ∧ (∀ t, stop = some t → hop + 160 ≤ t) ∧ ladder? (woken s (Run.start s)).s n = some d
      let waits := 2 ≤ d.rung ∨ rungBusy d 2 = true
      EventRow (.lensHop n l.next) (fun s => found s ∧ waits) (fun s r => (woken s r).ladRun) ∧
      EventRow (.lensHop n l.next) (fun s => found s ∧ ¬ waits)
        (fun s r =>
          let want := a - bits (cfg s) 19 15 * 160
          let start := max want (oldestIndex s)
          let q := woken s r
          let cut := decide (ladW s 2 8 < hop + 160 - start)
          ((q.setLadder n { d with start := start, stop := hop + 160 }).moveRung n 2 {
            key := n, entry := 1, stamp := s.timeAt tbAud, score := score s b, beam := b
            clamped := decide (start ≠ want) || cut } 0).ladRun)) ∧
  (∀ n,
    EventPost (.frameDeliver n) (fun s => cardKind s n ≠ 2 ∨ awake s = false) (fun s t => t = s) ∧
    EventRow (.frameDeliver n) (fun s => cardKind s n = 2 ∧ awake s = true ∧ ((Run.start s).frameDeliver n).1 = none)
      (fun _ r => (r.frameDeliver n).2) ∧
    ∀ (f : CamFrame) (tap : List Byte),
      let k := 16 + (CamCfg.of f.cfg).stream
      EventRow (.frameDeliver n)
        (fun s => cardKind s n = 2 ∧ awake s = true ∧ ((Run.start s).frameDeliver n).1 = some (f, tap) ∧
          ladder? ((Run.start s).frameDeliver n).2.s k = none)
        (fun _ r => (r.frameDeliver n).2.ladRun) ∧
      ∀ l : Ladder, EventRow (.frameDeliver n)
        (fun s => cardKind s n = 2 ∧ awake s = true ∧ ((Run.start s).frameDeliver n).1 = some (f, tap) ∧
          ladder? ((Run.start s).frameDeliver n).2.s k = some l)
        (fun s r =>
          let q := (r.frameDeliver n).2
          let e := ladEntry l.rung
          let slot := bits (cardW s n 16) 15 0
          let g := (List.range 256).map (zoneGreen tap)
          let score := if l.zones = [] then 0 else zoneScore (ladW q.s 5 2) l.zones g
          let per := ladW q.s e 2 * 1000000
          let seen : Ladder := { l with zones := g, fseq := f.seq, fslot := some slot }
          let w := q.setLadder k (if ladMode q.s e = 1 ∧ l.rung ≠ 0x10 ∧ l.waiting = false ∧ l.due ≤ q.s.now then
            { seen with waiting := true, due := if per = 0 then l.due else l.due + ((q.s.now - l.due) / per + 1) * per }
            else seen)
          (if l.rung = 0x10 then w.queueEval {
            key := k, entry := 5, stamp := f.fe.getD w.s.now, score := score, fseq := f.seq, fslot := slot } else w).ladRun)) ∧
  (∀ (k : Nat) (l : Ladder),
    let vdl := fun (s : State) (b : LSub) => ladW s (ladEntry b.rung) 11 * 1000000
    let late := fun (s : State) (b : LSub) => b.settled = false ∧ b.service = false ∧ b.at_ + vdl s b < s.now
    EventRow (.verdictDeadline k) (fun s => ladder? s k = some l)
      (fun s r =>
        let q := r.setLadder k { l with subs := l.subs.map fun b => if late s b then { b with settled := true } else b }
        (q.each (l.subs.filter fun b => decide (late s b)) fun b r => r.queueEval {
          key := k, entry := ladEntry b.rung, stamp := b.at_ + vdl s b, score := 0, failed := true, fseq := b.fseq
          fslot := b.fslot.getD 0 }).ladRun) ∧
    (∀ t, EventRow (.demotionExpiry k)
      (fun s => let q := (Run.start s).ladFlush
        ladder? q.s k = some l ∧ demotionAt q.s k l = some t ∧ fwRuns q.s 2 = true ∧ t < q.s.now)
      (fun _ r => (r.ladFlush.descend k
        { key := k, entry := ladEntry l.rung, stamp := t, score := 0, fseq := l.fseq, fslot := l.fslot.getD 0 } 4).ladRun)) ∧
    EventRow (.periodicSubmit k)
      (fun s => let q := (Run.start s).ladFlush
        ladder? q.s k = some l ∧ k < 16 ∧ 2 ≤ l.rung ∧ ladMode q.s (ladEntry l.rung) = 1 ∧ l.waiting = false ∧
          l.due ≤ q.s.now)
      (fun _ r =>
        let q := r.ladFlush
        let per := max 1 (ladW q.s (ladEntry l.rung) 2) * 1000000
        (q.setLadder k { l with waiting := true, due := l.due + ((q.s.now - l.due) / per + 1) * per }).ladRun)) ∧
  (∀ w rest, EventRow .ticketMove (fun s => s.lad.queue = w :: rest ∧ Run.ringRoom s = true)
    (fun s r => ((r.setLad { s.lad with queue := rest }).showQueue.ringTicket w).ladRun)) ∧
  (∀ (s : State) (k : Nat) (l : Ladder), baseRung k ≤ l.rung → lowerRung s k l ≤ l.rung ∧ baseRung k ≤ lowerRung s k l ∧
    (lowerRung s k l = baseRung k ∨ onceRung s (lowerRung s k l) = false ∧ rungBusy l (lowerRung s k l) = false)) ∧
  (∀ (z : State) (r : Run z) (ev : LEval) (l : Ladder), ladder? r.s ev.key = some l →
    (∀ x, demotionAt r.s ev.key l = some x → ev.stamp ≤ x) → ladEntry l.rung ≠ ev.entry ∨ ev.stamp < l.since → r.judge ev = r)

/-! ## Cameras -/

/-- Packets and frames (R379 to R389, R395): CAMERA_FRAME_START, CSI_LINE, EMBEDDED_DATA_PACKET, CAMERA_FRAME_END,
FRAME_WATCHDOG_EXPIRY and CSI_PACKET_DISCARD. A port that does not receive keeps all as it was; a packet without a stream, or one
for an open frame whose watchdog has expired, counts; a Frame Start closes a frame that is still open, and is the boundary at which
a synced card is taken up. Where the rules leave a point open it holds the model's reading, log 151. -/
def Obligations.CameraPackets : Prop :=
  let deaf := fun (c : Instr) (port : Nat) => EventPost c (fun s => camReceives s port = false) fun s t => t = s
  let ecc := fun (port : Nat) (ecc1 : Bool) {s : State} (r : Run s) => if ecc1 then r.countCsi port 0 else r
  (∀ (port vc fnum dt : Nat) (px : List Nat) (data : List Byte) (crc ecc1 : Bool),
    let checked := fun {s : State} (r : Run s) => if crc then ecc port ecc1 r else (ecc port ecc1 r).countCsi port 2
    let orphan := fun (c : Instr) =>
      EventRow c (fun s => camReceives s port = true ∧ camOf s port vc = none) (fun _ r => (ecc port ecc1 r).countCsi port 4)
    let open_ := fun (s : State) (n : Nat) (f : CamFrame) =>
      camReceives s port = true ∧ camOf s port vc = some n ∧ openFrame s n = some f
    let shut := fun (s : State) (n : Nat) => camReceives s port = true ∧ camOf s port vc = some n ∧ openFrame s n = none
    deaf (.cameraFrameStart port vc fnum ecc1) port ∧ deaf (.csiLine port vc dt px crc ecc1) port ∧
    deaf (.embeddedDataPacket port vc data ⟨crc, ecc1⟩) port ∧ deaf (.cameraFrameEnd port vc ecc1) port ∧
    orphan (.cameraFrameStart port vc fnum ecc1) ∧ (imageType dt = true → orphan (.csiLine port vc dt px crc ecc1)) ∧
    orphan (.embeddedDataPacket port vc data ⟨crc, ecc1⟩) ∧ orphan (.cameraFrameEnd port vc ecc1) ∧
    (∀ n,
      EventRow (.embeddedDataPacket port vc data ⟨crc, ecc1⟩) (fun s => shut s n) (fun _ r => (checked r).countCsi port 5) ∧
      EventRow (.cameraFrameEnd port vc ecc1) (fun s => shut s n) (fun _ r => (ecc port ecc1 r).countCsi port 5) ∧
      ∀ f,
        EventRow (.embeddedDataPacket port vc data ⟨crc, ecc1⟩) (fun s => open_ s n f ∧ frameExpiry f < camNow s)
          (fun _ r => ((checked r).closeFrame n (frameExpiry f) true false false).countCsi port 5) ∧
        EventRow (.cameraFrameEnd port vc ecc1) (fun s => open_ s n f ∧ frameExpiry f < camNow s)
          (fun _ r => ((ecc port ecc1 r).closeFrame n (frameExpiry f) true false false).countCsi port 5) ∧
        EventRow (.embeddedDataPacket port vc data ⟨crc, ecc1⟩)
          (fun s => open_ s n f ∧ camNow s ≤ frameExpiry f ∧ f.dropped = false)
          (fun _ r => (checked r).setFrame n { f with
            emb := (f.emb ++ data).take 4096, embCut := f.embCut || decide (4096 < (f.emb ++ data).length) }) ∧
        EventRow (.cameraFrameEnd port vc ecc1) (fun s => open_ s n f ∧ camNow s ≤ frameExpiry f)
          (fun s r => (ecc port ecc1 r).closeFrame n (camNow s) false false false)) ∧
    EventRow (.csiLine port vc dt px crc ecc1) (fun s => camReceives s port = true ∧ imageType dt = false)
      (fun _ r => (ecc port ecc1 r).countCsi port 3) ∧
    (∀ n f, let c := CamCfg.of f.cfg
      let took := fun (s : State) => camReceives s port = true ∧ imageType dt = true ∧ camOf s port vc = some n
      let meets := fun (s : State) => took s ∧ openFrame (checked (Run.start s)).s n = some f ∧ c.dt = dt
      let takes := fun (s : State) => meets s ∧ camNow s ≤ frameExpiry f ∧ f.dropped = false
      EventRow (.csiLine port vc dt px crc ecc1) (fun s => took s ∧ openFrame (checked (Run.start s)).s n = none)
        (fun s r => (checked r).countCsi port (if (camCard s n).dt ≠ dt then 4 else 5)) ∧
      EventRow (.csiLine port vc dt px crc ecc1)
        (fun s => took s ∧ openFrame (checked (Run.start s)).s n = some f ∧ c.dt ≠ dt)
        (fun _ r => (checked r).countCsi port 4) ∧
      EventRow (.csiLine port vc dt px crc ecc1) (fun s => meets s ∧ frameExpiry f < camNow s)
        (fun _ r => ((checked r).closeFrame n (frameExpiry f) true false false).countCsi port 5) ∧
      EventRow (.csiLine port vc dt px crc ecc1) (fun s => takes s ∧ c.height ≤ f.lines.length)
        (fun _ r => (checked r).setFrame n { f with cutN := f.cutN + 1, crcN := f.crcN + b2n (!crc) }) ∧
      EventRow (.csiLine port vc dt px crc ecc1)
        (fun s => takes s ∧ f.lines.length < c.height ∧ ¬ (c.y0 ≤ f.lines.length ∧ f.lines.length < c.y0 + c.ah))
        (fun _ r => (checked r).setFrame n { f with
          lines := f.lines ++ [sizeLine c (px.map (unpackPixel dt))], shortN := f.shortN + b2n (px.length < c.width)
          longN := f.longN + b2n (px.length > c.width), crcN := f.crcN + b2n (!crc) }) ∧
      (f.keyed = true → EventRow (.csiLine port vc dt px crc ecc1)
        (fun s => takes s ∧ f.lines.length < c.height ∧ c.y0 ≤ f.lines.length ∧ f.lines.length < c.y0 + c.ah)
        (fun s r => ((checked r).setFrame n { f with
          lines := f.lines ++ [sizeLine c (px.map (unpackPixel dt))], shortN := f.shortN + b2n (px.length < c.width)
          longN := f.longN + b2n (px.length > c.width), crcN := f.crcN + b2n (!crc) }).takeSlot n
            (s.now + lineTime s port dt px.length)))) ∧
    (∀ n,
      let q := fun (s : State) (r : Run s) => Run.takeUp (match openFrame s n with
        | some f => if frameExpiry f < camNow s then (ecc port ecc1 r).closeFrame n (frameExpiry f) true false false
          else ((ecc port ecc1 r).countCsi port 5).closeFrame n (camNow s) false false true
        | none => ecc port ecc1 r) n
      let at_ := fun (s : State) => camReceives s port = true ∧ camOf s port vc = some n
      let goes := fun (s : State) (r : Run s) => camOf r.s port vc = some n ∧ cardActive r.s n = true
      let opened := fun (s : State) (r : Run s) => ({
        cfg := (List.range 32).map fun i => BitVec.ofNat 32 (cardW r.s n i), seq := (camStream r.s n).seq, fnum := fnum
        fs := camNow s } : CamFrame)
      let full := fun (s : State) (r : Run s) => 2 ^ (camCard r.s n).log2n ≤
        (bits (cardW r.s n 16) 15 0 + 65536 - bits (cardW r.s n 16) 31 16) % 65536 +
          ((camStream r.s n).frames.filter fun g => !g.dropped).length
      let add := fun (s : State) (r : Run s) (gone : Bool) =>
        let x := camStream r.s n
        (r.setStream n { x with frames := x.frames ++ [{ opened s r with dropped := gone }], seq := x.seq + 1 }).trace 0x21 0x0200
          ((camCard r.s n).stream * 2 ^ 16 + fnum % 2 ^ 16)
      EventRow (.cameraFrameStart port vc fnum ecc1) (fun s => at_ s ∧ ¬ goes s (q s (Run.start s))) q ∧
      EventRow (.cameraFrameStart port vc fnum ecc1)
        (fun s => at_ s ∧ goes s (q s (Run.start s)) ∧ (camCard (q s (Run.start s)).s n).keyed = true ∧ ¬ full s (q s (Run.start s)))
        (fun s r => add s (q s r) false) ∧
      EventRow (.cameraFrameStart port vc fnum ecc1)
        (fun s => at_ s ∧ goes s (q s (Run.start s)) ∧ (camCard (q s (Run.start s)).s n).keyed = true ∧ full s (q s (Run.start s)))
        (fun s r =>
          let w := add s (q s r) true
          (w.setStream n { camStream w.s n with dropFull := (camStream w.s n).dropFull + 1 }).countDrop n 17 false
            (opened s (q s r))))) ∧
  (∀ n f, EventRow (.frameWatchdogExpiry n) (fun s => openFrame s n = some f ∧ camRuns s = true ∧ frameExpiry f < camNow s)
    (fun _ r => r.closeFrame n (frameExpiry f) true false false)) ∧
  (∀ port cause, EventRow (.csiPacketDiscard port cause) (fun s => camReceives s port = true)
    (fun _ r => r.countCsi port (if cause = 0 then 1 else if cause = 1 then 3 else 4))) ∧
  (∀ (c : CamCfg) (px : List Nat), (sizeLine c px).length = c.width ∧
    ∀ x, x < c.width → x < px.length → (sizeLine c px)[x]? = px[x]?)

/-- Lines through a pipe, links, FSYNC and I3C (R378, R388, R397 to R399): ISP_LINE_PROCESS, CSI_LINK_STATE_CHANGE, FSYNC_EDGE,
I3C_XFER_START and I3C_XFER_DONE. The line that a pipe takes is the longest complete, an edge is the first of its train, and an
FSYNC output stands at its pulse level for WIDTH from an edge.
Where the rules leave a point open it holds the model's reading, log 152. -/
def Obligations.CameraControl : Prop :=
  (∀ pipe n i f t, EventRow (.ispLineProcess pipe)
    (fun s => nextLine s pipe = some (n, i, f, t) ∧ camRuns s = true ∧
      max t (SMap.get 0 s.cam.pipeFree pipe) + cdiv ((cdiv (CamCfg.of f.cfg).aw 2 + 8) * 1000) 480 ≤ s.now)
    (fun s r =>
      let x := camStream s n
      let r := r.setStream n { x with frames := x.frames.set i { f with slots := f.slots.drop 1 } }
      let ends := max t (SMap.get 0 s.cam.pipeFree pipe) + cdiv ((cdiv (CamCfg.of f.cfg).aw 2 + 8) * 1000) 480
      r.setCam { r.s.cam with pipeFree := SMap.set 0 r.s.cam.pipeFree pipe ends })) ∧
  (∀ port link deskewed, port < 8 → link < 4 → EventRow (.csiLinkStateChange port link deskewed)
    (fun s => camRuns s = true ∧ s.fld (camPortReg port 0) 31 31 = 1)
    (fun s r =>
      let r := r.setFld (camPortReg port 4) 31 30 link
      if deskewed = true ∧ 1500 ≤ s.fld (camPortReg port 0) 23 12 then r.setFld (camPortReg port 4) 29 29 1 else r)) ∧
  (∀ k f, k < 8 →
    let after := match f.last with
      | some t => t + 1
      | none => 0
    let on := fun (s : State) => camRuns s = true ∧ s.fld (csiReg (0x2000 + 0x20 * k)) 31 31 ≠ 0 ∧ SMap.get {} s.cam.fsync k = f
    let set := fun (s : State) (g : Fsync) => { s with cam := { s.cam with fsync := SMap.set {} s.cam.fsync k g } }
    (∀ p ph t0, f.pend = some (p, ph, t0) → 1000 ≤ p →
      EventPost (.fsyncEdge k) (fun s => on s ∧ edgeFrom ph p (max t0 after) ≤ s.now)
        (fun s t => t = set s { period := p, phase := ph, pend := none, last := some (edgeFrom ph p (max t0 after)) })) ∧
    (1000 ≤ f.period → EventPost (.fsyncEdge k)
      (fun s => on s ∧ edgeFrom f.phase f.period after ≤ s.now ∧
        ∀ p ph t0, f.pend = some (p, ph, t0) → p < 1000 ∨ s.now < edgeFrom ph p (max t0 after))
      (fun s t => t = set s { f with last := some (edgeFrom f.phase f.period after) }))) ∧
  (∀ (s : State) (k : Nat),
    let ctrl := (s.reg (csiReg (0x2000 + 0x20 * k))).toNat
    let f := SMap.get {} s.cam.fsync k
    (bit ctrl 31 = false ∨ camRuns s = false ∨ f.last = none → fsyncHigh s k = bit ctrl 30) ∧
    ∀ t, bit ctrl 31 = true → camRuns s = true → f.last = some t →
      (f.period ≤ bits ctrl 15 0 * 1000 → fsyncHigh s k = !bit ctrl 30) ∧
      (bits ctrl 15 0 * 1000 < f.period →
        (s.now < t + bits ctrl 15 0 * 1000 → fsyncHigh s k = !bit ctrl 30) ∧
        (t + bits ctrl 15 0 * 1000 ≤ s.now → fsyncHigh s k = bit ctrl 30))) ∧
  (∀ k x, let st := csiReg (0x3010 + 0x100 * k)
    EventRow (.i3cXferStart k)
      (fun s => SMap.find? s.cam.i3c k = some x ∧ x.started = false ∧ fwRuns s 2 = true ∧ camRuns s = true ∧
        s.fld (csiReg (0x3000 + 0x100 * k)) 31 31 ≠ 0 ∧ x.at_ ≤ s.now)
      (fun s r =>
        let r := r.setCam { s.cam with i3c := SMap.insert s.cam.i3c k { x with started := true } }
        if x.at_ ≠ 0 ∧ x.at_ + 10000 < s.now then r.setFld st 1 1 1 else r) ∧
    ∀ (nack : Bool) (data : List Byte), EventRow (.i3cXferDone k nack data)
      (fun s => SMap.find? s.cam.i3c k = some x ∧ x.started = true ∧ fwRuns s 2 = true ∧ camRuns s = true)
      (fun s r =>
        let r := (r.setCam { s.cam with i3c := SMap.erase s.cam.i3c k }).setFld st 31 31 0
        let r := (if nack then r.setFld st 2 2 1 else r.setFld st 0 0 1).setFld (csiReg (0x3004 + 0x100 * k)) 31 31 0
        if bit x.xfer 30 = true ∧ nack = false then
          r.each (List.range (bits x.xfer 13 8)) fun i r =>
            r.setFld (csiReg (0x3020 + 0x100 * k + 4 * (i / 4))) (8 * (i % 4) + 7) (8 * (i % 4)) (data.getD i 0).toNat
        else r))

/-! ## Power -/

/-- Entries, wakes and the return (R425 to R431): POWER_DRAIN_TIMEOUT, POWER_ENTRY_BEGIN, DEEP_SLEEP_ENTRY_BEGIN,
POWER_ENTRY_COMPLETE, POWER_RETURN, AUTO_IDLE_ENTRY, WAKE_PIN and WAKE_TIMER.
Where the rules leave a point open it holds the model's reading, logs 96 and 157. -/
def Obligations.PowerStates : Prop :=
  (∀ q, EventRow .powerDrainTimeout (fun s => s.power.req = some q ∧ q.deadline < s.now) fun _ r => r.failRequest) ∧
  (∀ q, EventRow .powerEntryBegin
    (fun s => s.power.req = some q ∧ fwRuns s 3 = true ∧ drained s = true ∧ s.now ≤ q.deadline)
    (fun s r =>
      let first := if q.target = 3 then 2 else q.target
      let r := r.setPower { s.power with req := none, entering := some { q with target := first }, last := q.target }
      let r := ((r.setFld (pwrReg 4) 28 28 0).setFld (pwrReg 4) 27 27 1).setReg64 (pwrReg 0x20) s.now
      ((r.trace 0x24 0x0500 first).stopBlocks).endRequest q.asker stOk)) ∧
  EventRow .deepSleepEntryBegin
    (fun s => powerState s = 2 ∧ s.power.last = 3 ∧ s.power.entering = none ∧ s.power.ret = none ∧
      ∀ l ∈ s.aud.loupe, l.2.active = false)
    (fun s r =>
      let r := r.setPower { s.power with entering := some ⟨3, s.now, none⟩ }
      let r := (r.setFld (pwrReg 4) 27 27 1).trace 0x24 0x0500 3
      r.setAud { r.s.aud with lens := [] }) ∧
  (∀ e, EventRow .powerEntryComplete (fun s => s.power.entering = some e ∧ (e.target ≤ 3 → s.aud.fast = false))
    (fun s r =>
      let r := if awake s then r.loseState else r
      let r := ((r.setPower { r.s.power with entering := none, wakePending := none }).setFld (pwrReg 4) 27 27 0).reachState e.target
      let r := if e.target = 4 then r.audOff else r.audStop
      match s.power.wakePending with
      | some w => if e.target = 4 then r else r.applyWake (w / 8) (w % 8)
      | none => r)) ∧
  (∀ t, EventRow .powerReturn (fun s => s.power.ret = some t)
    (fun s r =>
      let r := ((r.setPower { s.power with ret := none }).realign fun _ => 0).setReg64 (pwrReg 0x28) s.now
      let slept := s.now - s.reg64 (pwrReg 0x20)
      let r := r.each (s.mhy.sess.filter fun x => sessState s x.1 = 1 || sessState s x.1 = 2) fun x r =>
        let r := r.setReg64 (sessReg x.1 4) (r.s.reg64 (sessReg x.1 4) + slept)
        r.setSess x.1 { x.2 with expired := x.2.expired.map (· + slept) }
      let r := (r.reachState t).each s.power.released fun n r =>
        r.setHart n { r.s.hart n with running := true, pc := BitVec.ofNat 64 (s.reg64 (pwrReg 0x18)) }
      let r := r.setPower { r.s.power with released := [] }
      let r := r.put (.fw { r.s.fw with kicks := (List.range 5).map fun p => (p, s.now) })
      r.audStart.settleState.ladRun)) ∧
  EventRow .autoIdleEntry
    (fun s => powerState s = 0 ∧ fwRuns s 3 = true ∧ bit (s.reg (pwrReg 8)).toNat 31 = true ∧ s.gangs = [] ∧ claimState s ≠ 0 ∧
      s.power.req = none ∧ s.power.idleSince + bits (s.reg (pwrReg 8)).toNat 23 16 * 1000000 ≤ s.now)
    (fun s r => (r.setPower { s.power with last := 1 }).reachState 1) ∧
  (∀ target,
    EventRow .wakePin (fun s => s.fld (pwrReg 0xC) 31 31 = 1 ∧ s.fld (pwrReg 0xC) 1 0 = target) (fun _ r => r.wakeTo 1 target) ∧
    EventRow .wakeTimer
      (fun s => s.fld (pwrReg 0xC) 30 30 = 1 ∧ s.reg64 (pwrReg 0x10) ≤ s.now ∧ s.fld (pwrReg 0xC) 1 0 = target)
      (fun _ r => r.wakeTo 2 target)) ∧
  EventPost .wakePin (fun s => s.power.entering = none ∧ awake s = true) (fun s t => t = s)

/-- Clocks, voltages, the Ledger and heat (R424, R434 to R438, R443 to R448): CLUSTER_WAKE, DVFS_STEP_END, VSTEP_ACK, VSTEP_TIMEOUT,
LEDGER_REFILL, LEDGER_RATE_UPDATE, DROOP_DETECT, DROOP_STRETCH_END, TEMP_SAMPLE and THERMAL_TRIP.
Where the rules leave a point open it holds the model's reading, logs 155, 156, 163 and 165. -/
def Obligations.PowerControl : Prop :=
  (∀ c, c < 16 →
    EventRow (.clusterWake c)
      (fun s => s.fld (dvfsReg c) 29 29 = 1 ∧ ∃ p ∈ s.sched.parcels, p.2.stage = .running ∧ p.2.stop = false ∧
        (nextIndex p.2).isSome = true ∧ ∃ k, k < 12 ∧ logicalOf s (12 * c + k) < 176 ∧
          placed p.2 (logicalOf s (12 * c + k)) = true ∧ reflexReserved s (logicalOf s (12 * c + k)) = false)
      (fun s r =>
        let base := s.fld (dvfsReg c) 25 24
        (((r.setPower { s.power with idleSince := s.now }).setFld (dvfsReg c) 29 29 0).setFld (dvfsReg c) 21 20 base).atPoint c base) ∧
    EventRow (.dvfsStepEnd c) (fun s => s.fld (dvfsReg c) 31 31 = 1) (fun s r => r.atPoint c (s.fld (dvfsReg c) 21 20))) ∧
  (∀ t p old,
    EventRow .vstepAck (fun s => s.power.vstep = some (t, p, old) ∧ pmbUp s = true)
      (fun s r => (r.setPower { s.power with vstep := none }).atPoint 16 p) ∧
    EventPost .vstepAck (fun s => pmbUp s = false) (fun s t => t = s) ∧
    EventRow .vstepTimeout (fun s => s.power.vstep = some (t, p, old) ∧ t + 1000000 ≤ s.now)
      (fun s r => ((((r.setPower { s.power with vstep := none }).setFld (dvfsReg 16) 17 16 old).setFld (dvfsReg 16) 31 31 0).setRegN
        (regKey 2 0x140) old).bump (pwrReg 0x20C))) ∧
  (∀ n, EventPost .ledgerRefill (fun s => s.now / 1000 - s.ledger.us = n ∧ n ≠ 0 ∧ s.power.capNow ≤ 4294967)
    (fun s t => t.ledger = { s.ledger with us := s.now / 1000, frac := (s.ledger.frac + n * (s.reg (pwrReg 0x308)).toNat) % 1000 } ∧
      (t.reg (pwrReg 0x30C)).toNat = min (s.power.capNow * 1000)
        ((s.reg (pwrReg 0x30C)).toNat + (s.ledger.frac + n * (s.reg (pwrReg 0x308)).toNat) / 1000) ∧
      (∀ k, k ≠ pwrReg 0x30C → t.reg k = s.reg k) ∧ t = { s with regs := t.regs, ledger := t.ledger })) ∧
  (∀ (mw fixed : Nat) (up down : Bool), EventRow (.ledgerRateUpdate mw fixed up down)
    (fun s => fwRuns s 3 = true ∧ s.power.rateMs < s.now / 1000000)
    (fun s r =>
      let cap := s.fld (pwrReg 0x300) 7 0
      let r := r.setPower { s.power with capNow := cap, rateMs := s.now / 1000000 }
      let base := cap * 1000 - (s.reg (pwrReg 0x310)).toNat - fixed
      let r := (r.setPower { r.s.power with base := base }).setRegN (pwrReg 0x308) (base * (10 - s.power.cut) / 10)
      let r := (r.setRegN (pwrReg 0x30C) (min (cap * 1000) (s.reg (pwrReg 0x30C)).toNat)).setRegN (pwrReg 0x330) mw
      let point := s.fld (pwrReg 0x304) 1 0
      let p : Run s × Nat := if s.fld (pwrReg 0x304) 31 31 = 1 then
          (r.each ((List.range 16).filter fun c => clusterBusy s c && !pinned s c && s.fld (dvfsReg c) 17 16 ≠ point) fun c r =>
            r.startMove c point, 0)
        else r.adaptive mw up down
      let r := p.1.setRegN (pwrReg 0x334) (p.2 ||| s.power.cooled)
      let r := r.setPower { r.s.power with cooled := 0 }
      r.put (.ledger { r.s.ledger with waited := [] }))) ∧
  (∀ c, c ≤ 16 →
    EventRow (.droopDetect c) (fun _ => True)
      (fun s r => ((r.setPower { s.power with stretch := SMap.insert s.power.stretch c s.now }).bump
        (pwrReg (0x108 + 0x10 * c))).errEvent 12) ∧
    ∀ t mhz, EventPost (.droopStretchEnd c)
      (fun s => SMap.find? s.power.stretch c = some t ∧ t + 256000 / mhz ≤ s.now ∧ mhz = if c < 16 then arithMhz s (12 * c) else
        (match s.fld (dvfsReg 16) 17 16 with
          | 0 => 1920
          | 1 => 1280
          | 2 => 960
          | _ => 640) / 2)
      (fun s t => t = { s with power := { s.power with stretch := SMap.erase s.power.stretch c } })) ∧
  (∀ temps : List (BitVec 8), temps.length = 34 →
    EventRow (.tempSample temps) (fun s => awake s = true) (fun _ r => (r.showTemps temps).coolDown) ∧
    ∀ (z : State) (r : Run z),
      (∀ n, n < 18 → (r.showTemps temps).s.fld (pwrReg (0x610 + 4 * n)) 7 0 = (temps.getD n 0).toNat) ∧
      ∀ v, v < 16 →
        let k := vltReg (0x100 + 0x20 * v)
        (r.showTemps temps).s.fld k 7 0 = (temps.getD (18 + v) 0).toNat ∧
        (r.showTemps temps).s.fld k 16 16 = b2n (85 < (temps.getD (18 + v) 0).toInt) ∧
        (r.showTemps temps).s.fld k 31 17 = r.s.fld k 31 17) ∧
  (∀ (z : State) (r : Run z),
    let hot := hotSensors r.s
    let now := fwRuns r.s 3 = true ∧ r.s.power.tempMs < r.s.now / 1000000
    let fixed := r.s.fld (pwrReg 0x304) 31 31 = 1
    let seen := r.setPower { r.s.power with hot := hot, tempMs := r.s.now / 1000000 }
    let cool := fun (q : Run z) =>
      let lower := ((hot.flatMap (nearestTo q.s)).eraseDups).filter fun c => decide (q.s.fld (dvfsReg c) 17 16 < 3)
      let w := q.each lower fun c r => r.moveBy c false
      w.setPower { w.s.power with cooled := w.s.power.cooled ||| laneMask lower }
    (¬ now → r.coolDown = r) ∧
    (now → fixed → hot ≠ [] → r.s.power.cut < 10 → r.coolDown =
      (seen.setPower { seen.s.power with cut := r.s.power.cut + 1 }).setRegN (pwrReg 0x308)
        (r.s.power.base * (10 - (r.s.power.cut + 1)) / 10)) ∧
    (now → fixed → hot = [] → r.s.power.cut ≠ 0 → r.coolDown =
      (seen.setPower { seen.s.power with cut := 0 }).setRegN (pwrReg 0x308) r.s.power.base) ∧
    (now → fixed → (hot = [] ∧ r.s.power.cut = 0 ∨ hot ≠ [] ∧ r.s.power.cut = 10) → r.coolDown = seen) ∧
    (now → ¬ fixed → r.s.power.cut = 0 → r.coolDown = cool seen) ∧
    (now → ¬ fixed → r.s.power.cut ≠ 0 → r.coolDown = cool
      ((seen.setPower { seen.s.power with cut := 0 }).setRegN (pwrReg 0x308) r.s.power.base))) ∧
  EventPost .thermalTrip (fun _ => True) (fun s t => t = { s with power := { s.power with tripped := true } } ∧ t.halted = true)

/-! ## Repair and service -/

/-- Fences, checks and waits (R287, R458, R459, R461, R463, R506): CORE_FENCE, HANG_DETECT, SUPPLY_MONITOR_FENCE, ENTRY_CHECK_END and
DEGRADED_TIMEOUT. A core that is fenced or retired is not fenced again, and a number never takes a core that is neither SPARE nor
TESTING. -/
def Obligations.FenceEvents : Prop :=
  (∀ core cause, cause = 1 ∨ cause = 2 →
    EventRow (.coreFence core cause) (fun _ => True) (fun _ r => (r.fenceAll [core] cause).settleSignals)) ∧
  (∀ core, core < 192 → EventRow (.hangDetect core)
    (fun s => fixState s core = 0 ∧ (s.core core).quiet + 1000000 ≤ s.now ∧
      ∃ kg ∈ s.gangs, kg.1 / 128 = core ∧ gangReady s core (kg.1 % 128) = true)
    (fun _ r => (r.fenceAll [core] 3).settleSignals)) ∧
  (∀ cl, cl < 16 → EventRow (.supplyMonitorFence cl) (fun _ => True)
    (fun s r => (r.fenceAll (((List.range 12).map (12 * cl + ·)).filter fun c => fixState s c = 0) 4).settleSignals)) ∧
  (∀ core pass,
    EventRow (.entryCheckEnd core pass) (fun s => ∀ w, s.fix.swap = some w → w.new ≠ core ∨ w.drain.isSome = true)
      (fun _ r => r.checkEnd core pass) ∧
    (∀ k, EventRow (.entryCheckEnd core true)
      (fun s => (∀ w, s.fix.swap = some w → w.new ≠ core ∨ w.drain.isSome = true) ∧
        (s.fix.checks.find? fun k => k.core = core) = some k ∧ k.start + 40000 ≤ s.now ∧ fwRuns s 1 = true)
      (fun s r => (r.setFix { s.fix with checks := s.fix.checks.filter fun x => x ≠ k }).backNumber k.logical core)) ∧
    ∀ w, w.new = core → w.drain = none →
      EventRow (.entryCheckEnd core true) (fun s => s.fix.swap = some w ∧ w.start + 40000 ≤ s.now)
        (fun s r => r.setFix { s.fix with swap := some { w with drain := some s.now } }) ∧
      EventRow (.entryCheckEnd core false) (fun s => s.fix.swap = some w ∧ w.start + 40000 ≤ s.now)
        (fun s r => (r.setFix { s.fix with swap := none }).retire core)) ∧
  (∀ (s : State) (r : Run s) (core : Nat) (k : FixCheck),
    (r.s.fix.checks.find? fun k => k.core = core) = some k → k.start + 40000 ≤ r.s.now →
    (fwRuns r.s 1 = true → r.checkEnd core true =
      (r.setFix { r.s.fix with checks := r.s.fix.checks.filter fun x => x ≠ k }).backNumber k.logical core) ∧
    r.checkEnd core false = (r.retire core).takeCore k.logical) ∧
  (∀ i p t, EventRow (.degradedTimeout i)
    (fun s => s.parcel? i = some p ∧ p.degradedAt = some t ∧ fwRuns s 0 = true ∧ p.stage = .running ∧
      t + s.fld (fixReg 8) 31 16 * 1000000 ≤ s.now)
    (fun s r => ((r.withdraw fun q => q.parcel = i).setParcel i { p with
      fcore := ((List.range 176).find? fun l => placed p l && (coreOfLogical s l).isNone).getD 0xFF, degradedAt := none }).endParcel i
        stFencedRetry)) ∧
  (∀ (s : State) (r : Run s) (core cause : Nat), 192 ≤ core ∨ fixState r.s core = 4 ∨ fixState r.s core = 5 →
    r.fenceCore core cause = r) ∧
  (∀ (s : State) (l c : Nat), pickCore s l = some c → c < 192 ∧ (fixState s c = 1 ∨ fixState s c = 2) ∧
    (s.fld (fixReg 4) 1 1 = 1 ∨ c / 12 = homeCluster l))

/-- Tests, swaps and the Fence Ledger (R460, R462 to R466): SPARE_BIST_START, BIST_END, REINSTATE_BIST, ROLLING_SWAP_START,
ROLLING_SWAP_TIMEOUT, ROLLING_SWAP_COPY_END, LEDGER_APPEND and LEDGER_COMPACT. A record that was appended verifies when it is read
back. -/
def Obligations.TestAndLedgerEvents : Prop :=
  (∀ core, core < 192 → EventRow (.spareBistStart core)
    (fun s => fixState s core = 1 ∧ s.fld (fixReg 8) 15 8 ≠ 0 ∧
      SMap.get 0 s.fix.tested core + s.fld (fixReg 8) 15 8 * 3600000000000 ≤ s.now)
    (fun s r => (r.setFix { s.fix with tested := SMap.insert s.fix.tested core s.now }).toTesting core false)) ∧
  (∀ (core fails : Nat) (column : W32) (x : FixTest),
    let tested := fun (s : State) => (s.fix.tests.find? fun t => t.core = core) = some x ∧ x.start + 40000000 ≤ s.now
    let st := fun (s : State) => fixState s core
    EventRow (.bistEnd core fails column) (fun s => tested s ∧ st s = 2 ∧ fails = 0) (fun _ r => (r.scanned core).toSpare core) ∧
    EventRow (.bistEnd core fails column) (fun s => tested s ∧ st s = 2 ∧ fails ≠ 0 ∧ x.rolled = true)
      (fun _ r => (r.scanned core).retire core) ∧
    EventRow (.bistEnd core fails column) (fun s => tested s ∧ st s = 2 ∧ fails ≠ 0 ∧ x.rolled = false)
      (fun _ r => ((r.scanned core).fenceAll [core] 2).settleSignals) ∧
    EventRow (.bistEnd core fails column) (fun s => tested s ∧ st s = 4 ∧ fails = 1) (fun _ r => (r.scanned core).owe 5 column.toNat) ∧
    EventRow (.bistEnd core fails column) (fun s => tested s ∧ st s = 4 ∧ 1 < fails) (fun _ r => (r.scanned core).retire core) ∧
    EventRow (.bistEnd core fails column)
      (fun s => tested s ∧ st s = 4 ∧ fails = 0 ∧ s.fld (fixReg 4) 0 0 = 0) (fun _ r => (r.scanned core).retire core) ∧
    EventRow (.bistEnd core fails column)
      (fun s => tested s ∧ st s = 4 ∧ fails = 0 ∧ s.fld (fixReg 4) 0 0 ≠ 0 ∧ x.second = false)
      (fun s r =>
        let r := r.scanned core
        r.setFix { r.s.fix with passed := SMap.insert r.s.fix.passed core s.now }) ∧
    EventRow (.bistEnd core fails column)
      (fun s => tested s ∧ st s = 4 ∧ fails = 0 ∧ s.fld (fixReg 4) 0 0 ≠ 0 ∧ x.second = true)
      (fun _ r =>
        let r := r.scanned core
        ((r.setFix { r.s.fix with passed := SMap.erase r.s.fix.passed core }).toSpare core).owe 3 core)) ∧
  (∀ core t, EventPost (.reinstateBist core)
    (fun s => SMap.find? s.fix.passed core = some t ∧ fixState s core = 4 ∧ t + 3600000000000 ≤ s.now ∧ ∀ x ∈ s.fix.tests, x.core ≠ core)
    (fun s t => t = { s with fix := { s.fix with tests := s.fix.tests ++ [{ core := core, start := s.now, second := true }] } })) ∧
  (let due := fun (s : State) => s.fld (fixReg 4) 2 2 ≠ 0 ∧ s.fld (fixReg 8) 7 0 ≠ 0 ∧ awake s = true ∧ s.fix.swap = none ∧
      s.fix.rollAt + s.fld (fixReg 8) 7 0 * 86400000000000 / 176 ≤ s.now
    let turned := fun (s : State) (r : Run s) =>
      let r := match s.sec.policyNext with
        | some p => if s.fix.rollNext = 0 then (r.setRegN (fixReg 4) p).put (.sec { s.sec with policyNext := none }) else r
        | none => r
      r.setFix { s.fix with rollNext := (s.fix.rollNext + 1) % 176, rollAt := s.now }
    (EventRow .rollingSwapStart
      (fun s => due s ∧ (swapSpare s s.fix.rollNext = none ∨ coreOfLogical s s.fix.rollNext = none)) turned) ∧
    ∀ c p, EventRow .rollingSwapStart
      (fun s => due s ∧ swapSpare s s.fix.rollNext = some c ∧ coreOfLogical s s.fix.rollNext = some p)
      (fun s r =>
        let r := turned s r
        let r := r.setFix { r.s.fix with swap := some { logical := s.fix.rollNext, old := p, new := c, start := s.now } }
        ((r.setCoreState c 3 0xFF).zeroCore c).fixCounts)) ∧
  (∀ w t, w.drain = some t → EventRow .rollingSwapTimeout
    (fun s => s.fix.swap = some w ∧ t + 10000000 ≤ s.now ∧ gangsOf s w.old ≠ [])
    (fun s r => (r.setFix { s.fix with swap := none }).toSpare w.new)) ∧
  (∀ w, w.drain.isSome = true → EventRow .rollingSwapCopyEnd
    (fun s => s.fix.swap = some w ∧ gangsOf s w.old = [] ∧ fwRuns s 1 = true)
    (fun s r =>
      let r := (r.setFix { s.fix with swap := none }).setBytes (carrelBase w.new) (s.bytes (carrelBase w.old) 0x40000)
      (((r.setFld (coreReg w.old 0) 31 24 0xFF).backNumber w.logical w.new).toTesting w.old true).noteDegraded)) ∧
  (∀ x rest, EventRow .ledgerAppend (fun s => s.fix.owed = x :: rest ∧ fwRuns s 4 = true ∧ s.fix.seq < 24576)
    (fun s r => ((r.setFix { s.fix with owed := rest }).ledgerOpen).ledgerPut
      (if x.kind = 1 then { x with arg1 := nowBacking s x.arg0 } else x))) ∧
  EventRow .ledgerCompact (fun s => fwRuns s 4 = true ∧ s.fix.seq ≠ 0) (fun _ r => r.ledgerCompact) ∧
  (∀ (s : State) (r : Run s) (x : LedgerRec), r.s.memWf → r.s.lost = 0 → r.s.fix.half < 2 → r.s.fix.seq < 24576 →
    x.kind < 256 → x.arg0 < 2 ^ 32 → x.arg1 < 2 ^ 32 → x.boot < 2 ^ 32 → x.time < 2 ^ 64 →
    ledgerRead (r.ledgerPut x).s r.s.fix.half r.s.fix.seq = some x ∧ (r.ledgerPut x).s.fix.seq = r.s.fix.seq + 1)

/-! ## Security and observation -/

/-- The tenant switch, measurement, JTAG, snapshots and UART1 (R478, R481, R482, R486, R501): SETTLE_END, TENANT_SWITCH_END,
MODEL_MEASURE_END, JTAG_TCK_EDGE, SNAPSHOT_TAKE, UART1_BYTE_RX and UART1_BYTE_SENT. With TMS high, five edges reach the TAP's reset
from any state. The balls of the spec's worked example carry the nets it gives (R495 to R497), and output pins show the levels of
reset, of OFF and of the state behind them (R397, R353, R356, R499, R501).
Where the rules leave a point open it holds the model's reading, logs 160, 161 and 164. -/
def Obligations.SecurityEvents : Prop :=
  (∀ sw,
    EventRow .settleEnd
      (fun s => s.sec.switch = some sw ∧ settleEn sw.next = true ∧ sw.settled = false ∧ switchReleased s = true ∧ fwRuns s 4 = true ∧
        (sext 8 (s.fld (pwrReg 0x660) 7 0) ≤ settleC sw.next ∨ settleStart s + settleMax sw.next * 1000000000 ≤ s.now))
      (fun s r =>
        let r := r.setSec { s.sec with
          switch := some { sw with settled := true }, settleTo := !decide (sext 8 (s.fld (pwrReg 0x660) 7 0) ≤ settleC sw.next) }
        r.reachState (powerState s)) ∧
    (let may := fun (s : State) => s.sec.switch = some sw ∧ switchReleased s = true ∧ fwRuns s 4 = true ∧
        (settleEn sw.next = true → sw.settled = true) ∧ sw.at_ + 60000000 ≤ s.now
      let started := fun (s : State) (r : Run s) =>
        ((r.setSec { s.sec with switch := none, debug := s.sec.debug || sw.unlock }).tenancyStart sw.next).trace 0x14 0x0050
          (s.sec.ctr % 2 ^ 32)
      (∀ card, sw.peer.bind = .mailbox card → EventRow .tenantSwitchEnd may started) ∧
      ((∀ card, sw.peer.bind ≠ .mailbox card) → EventRow .tenantSwitchEnd may
        (fun s r => (started s r).mhyAnswer sw.peer sw.minor sw.nocrc 0x0501 sw.session 0 sw.seq stOk [])))) ∧
  (∀ m : Measure,
    let c := fun (s : State) => ctxX s m.ctx
    let ends := fun (s : State) (r : Run s) => (r.setSec { s.sec with mm := none }).setFld (secReg 0x20) 31 31 0
    let due := fun (s : State) => s.sec.mm = some m ∧ fwRuns s 4 = true
    EventRow .modelMeasureEnd (fun s => due s ∧ mapped s (c s) .load m.addr m.len = false)
      (fun s r => (ends s r).mmStat false stBounds) ∧
    (∀ e, EventRow .modelMeasureEnd
      (fun s => due s ∧ mapped s (c s) .load m.addr m.len = true ∧
        ((ends s (Run.start s)).readBlock (c s) m.addr m.len).1 = .error e)
      (fun s r => ((ends s r).readBlock (c s) m.addr m.len).2.mmStat false stUncorrectable)) ∧
    ∀ v, EventRow .modelMeasureEnd
      (fun s => due s ∧ mapped s (c s) .load m.addr m.len = true ∧
        ((ends s (Run.start s)).readBlock (c s) m.addr m.len).1 = .ok v)
      (fun s r =>
        let r := ((ends s r).readBlock (c s) m.addr m.len).2
        (r.setSec { r.s.sec with meas := r.s.sec.meas ++ [(m.tag, m.len, Config.shake256 (leBytes m.len v))] }).mmStat false stOk)) ∧
  (∀ tms tdi, EventPost (.jtagTckEdge tms tdi false) (fun _ => True)
    (fun s t => t = { s with sec := { s.sec with jtag := {} } })) ∧
  (∀ tms tdi, EventPost (.jtagTckEdge tms tdi true) (fun _ => True)
    (fun s t => t.sec.jtag.tap = s.sec.jtag.tap.next tms ∧ t = { s with sec := { s.sec with jtag := t.sec.jtag }, free := t.free } ∧
      (s.sec.jtag.tap.next tms ≠ .shDr → s.sec.jtag.tap.next tms ≠ .shIr → t.sec.jtag.tdo = none) ∧
      (s.sec.jtag.tap.next tms = .reset → t.sec.jtag.inst = none))) ∧
  (∀ t : Tap, ((((t.next true).next true).next true).next true).next true = .reset) ∧
  EventRow .snapshotTake (fun s => s.fld (topReg 0x200) 31 31 = 1 ∧ s.reg64 (topReg 0x204) ≤ s.now) (fun _ r => r.snapTake) ∧
  (∀ b : Byte,
    EventPost (.uart1ByteRx b) (fun s => s.fld (topReg 0x324) 31 31 = 1 ∧ s.obs.uartRx.length < 64)
      (fun s t => t.obs = { s.obs with uartRx := s.obs.uartRx ++ [b] } ∧ t.fld (topReg 0x328) 6 0 = s.obs.uartRx.length + 1 ∧
        (∀ k, k ≠ topReg 0x328 → t.reg k = s.reg k) ∧ t = { s with obs := t.obs, regs := t.regs }) ∧
    EventPost (.uart1ByteRx b) (fun s => s.fld (topReg 0x324) 31 31 = 1 ∧ 64 ≤ s.obs.uartRx.length)
      (fun s t => t.fld (topReg 0x328) 31 31 = 1 ∧ (∀ k, k ≠ topReg 0x328 → t.reg k = s.reg k) ∧ t = { s with regs := t.regs }) ∧
    ∀ rest, EventPost .uart1ByteSent (fun s => s.fld (topReg 0x324) 31 31 = 1 ∧ s.obs.uartTx = b :: rest)
      (fun s t => t.obs = { s.obs with uartTx := rest } ∧ t = { s with obs := t.obs, regs := t.regs })) ∧
  (rowName 32 = "AN" ∧ ballNet 32 54 = .signal (.csiData 5 2 true) ∧ rowName 53 = "BT" ∧ ballNet 53 23 = .signal (.gpio 13) ∧
    rowName 14 = "P" ∧ ballNet 14 30 = .rail .vddArith ∧ rowName 15 = "T" ∧ ballNet 15 31 = .rail .vddSram ∧
    rowName 50 = "BM" ∧ ballNet 50 45 = .gnd) ∧
  (∀ (s : State) (g : Signal),
    (s.power.held = true → pinLevel s g = resetLevel g) ∧
    (s.power.held = false → powerState s = 4 → g ≠ .thermTripN → (∀ n, g ≠ .micPwrEn n) →
      pinLevel s g = (resetLevel g).map fun _ => .hiZ)) ∧
  (∀ s : State, s.power.held = false →
    pinLevel s .thermTripN = some (if s.power.tripped then .low else .hiZ) ∧
    (powerState s = 4 → ∀ n, pinLevel s (.micPwrEn n) = some .low) ∧
    (powerState s ≠ 4 → pinLevel s .muteLed = some (.of s.aud.led) ∧
      (∀ n, pinLevel s (.micPwrEn n) = some (.of (micPower s n))) ∧ (∀ k, pinLevel s (.fsync k) = some (.of (fsyncHigh s k))) ∧
      ∀ k, pinLevel s (.gpio k) =
        some (if s.fld (topReg 0x304) k k = 1 then .of (s.fld (topReg 0x300) k k = 1) else .hiZ)))

/-! ## Writes that are accepted -/

/-- A register write that could be turned away has, where it is accepted, its own effect: queues' doorbells and their indexes (R280,
R292, R346, R367, R368, R383, R415), tallies (R112), contexts (R290), the reflex lane (R229, R238, R240), weight windows (R262),
sessions (R308), the archive (R362), parameters and transfers of the cameras (R395, R398), the ladders (R405), power (R427, R434 to
R436, R443, R445), measurement (R481), snapshots (R486) and UART1 (R501).
Where the rules leave a point open it holds the model's reading, log 130. -/
def Obligations.AcceptedWrites : Prop :=
  let any : Agent → Prop := fun _ => True
  let room := fun (x lo hi : Nat) => (x + 65536 - lo) % 65536 ≤ (hi + 65536 - lo) % 65536
  (∀ v : W32,
    let n := bits v.toNat 29 16
    let x := bits v.toNat 15 0
    let rx := bit v.toNat 30
    (let key := schedReg 0
     let on := fun (s : State) (kind : Nat) => s.sec.switch = none ∧ cardEn s n = true ∧ cardKind s n = kind
     WriteDone (fun ag => .schedDb ag v) any (fun _ => key) (fun _ => v.toNat)
       (fun s => on s 1 ∧ rx = false ∧ queueBellOk ((Run.start s).touchCard n).s n x s.now = true)
       (fun r => (r.touchCard n).setHw n 10 x) ∧
     WriteDone (fun ag => .schedDb ag v) any (fun _ => key) (fun _ => v.toNat)
       (fun s => on s 7 ∧ rx = true ∧ mailboxBellOk s n true x = true)
       (fun r =>
         let w := r.setHw n 9 (x * 65536 + bits (cardW r.s n 9) 15 0)
         let h := bits (cardW w.s n 8) 2 0
         if x = bits (cardW r.s n 9) 15 0 then w.setHart h { w.s.hart h with mbxIrq := false } else w)) ∧
    (let key := ethReg 0x5000
     let on := fun (s : State) => cardEn s n = true ∧ cardKind s n = 6
     WriteDone (fun ag => .ethFlowDb ag v) any (fun _ => key) (fun _ => v.toNat)
       (fun s => on s ∧ rx = true ∧ room x (bits (cardW s n 10) 31 16) (bits (cardW s n 10) 15 0))
       (fun r => r.setHw n 10 (x * 65536 + bits (cardW r.s n 10) 15 0)) ∧
     WriteDone (fun ag => .ethFlowDb ag v) any (fun _ => key) (fun _ => v.toNat)
       (fun s => on s ∧ rx = false ∧ room (bits (cardW s n 11) 15 0) (bits (cardW s n 11) 31 16) x ∧
         (x + 65536 - bits (cardW s n 11) 31 16) % 65536 ≤ 2 ^ bits (cardW s n 9) 7 4)
       (fun r => r.setHw n 11 (bits (cardW r.s n 11) 31 16 * 65536 + x))) ∧
    (let key := audReg 0x500
     WriteDone (fun ag => .audRingDb ag v) any (fun _ => key) (fun _ => v.toNat)
       (fun s => cardEn s n = true ∧ cardKind s n = 3 ∧ rx = true ∧ room x (bits (cardW s n 7) 31 16) (bits (cardW s n 7) 15 0))
       (fun r => r.setHw n 7 (x * 65536 + bits (cardW r.s n 7) 15 0)) ∧
     WriteDone (fun ag => .audRingDb ag v) any (fun _ => key) (fun _ => v.toNat)
       (fun s => cardEn s n = true ∧ cardKind s n = 4 ∧ rx = false ∧
         room (bits (cardW s n 7) 15 0) (bits (cardW s n 7) 31 16) x ∧
         (x + 65536 - bits (cardW s n 7) 31 16) % 65536 ≤ 2 ^ bits (cardW s n 6) 15 12)
       (fun r =>
         let w := r.setHw n 7 (bits (cardW r.s n 7) 31 16 * 65536 + x)
         w.setAud { w.s.aud with tails := SMap.set [] w.s.aud.tails n ((x, w.s.now) :: (SMap.get [] w.s.aud.tails n).take 63) })) ∧
    WriteDone (fun ag => .csiRingDb ag v) any (fun _ => csiReg 0x4000) (fun _ => v.toNat)
      (fun s => cardEn s n = true ∧ cardKind s n = 2 ∧ rx = true ∧ room x (bits (cardW s n 16) 31 16) (bits (cardW s n 16) 15 0))
      (fun r => r.setHw n 16 (x * 2 ^ 16 + bits (cardW r.s n 16) 15 0)) ∧
    WriteDone (fun ag => .audLadAck ag v) any (fun _ => audReg 0x61C) (fun _ => v.toNat)
      (fun s => room x (s.fld (audReg 0x618) 31 16) (s.fld (audReg 0x618) 15 0))
      (fun r =>
        let ack := r.s.fld (audReg 0x618) 31 16
        let w := r.setRegN (audReg 0x618) (x * 2 ^ 16 + r.s.fld (audReg 0x618) 15 0)
        (w.setLad { w.s.lad with ringed := w.s.lad.ringed.drop ((x + 65536 - ack) % 65536) }).ladRelease) ∧
    WriteDone (fun ag => .obsTrcAck ag v) any (fun _ => obsReg 0x118) (fun _ => v.toNat)
      (fun s => room x (s.fld (obsReg 0x114) 31 16) (s.fld (obsReg 0x114) 15 0))
      (fun r => r.setFld (obsReg 0x114) 31 16 v.toNat)) ∧
  (∀ (v : W32) (i : Nat), WriteDone (fun ag => .schedTallyFree ag v) any (fun _ => schedReg 0x028) (fun _ => v.toNat)
    (fun s => tallyOf s v.toNat = some i) (fun r => r.freeTally i)) ∧
  (∀ (s : State) (ag : Agent) (i : Nat), s.halted = false → canAccess s ag = true → accessOk s ag (schedReg 0x020) false = true →
    fwRuns s 0 = true → nextFreeTally s 16384 ((Run.start s).draw.1.toNat % 16384) = some i →
    exec (.schedTallyAlloc ag) s = .next (
      let r := (Run.start s).draw.2
      let r := (r.setTally i { r.s.tally i with allocated := true, value := 0, ctx := s.fld (schedReg 0x038) 11 0 }).bump
        (schedReg 0x02C)
      r.setLatch (schedReg 0x024) 0).s) ∧
  (∀ (n : BitVec 12) (v : W32),
    let k := schedReg (0x10000 + 0x10 * n.toNat)
    let state := fun (s : State) => s.fld k 30 29
    let w := fun (en : Bool) (v : Nat) => setBits v 31 31 (b2n en)
    WriteDone (fun ag => .contextEnable ag n v) any (fun _ => k) (fun _ => w true v.toNat) (fun s => state s = 0)
      (fun r => r.setRegN k (2 ^ 31 + 2 ^ 29 + bits (w true v.toNat) 23 0)) ∧
    WriteDone (fun ag => .contextDisable ag n) any (fun _ => k) (fun s => w false (s.reg k).toNat)
      (fun s => state s ≠ 0)
      (fun r => r.setRegN k ((if r.s.fld (k + 0xC) 12 0 = 0 then 0 else 2) * 2 ^ 29 + r.s.fld k 23 0))) ∧
  (∀ (n : BitVec 12) (v : W32), bits v.toNat 11 0 = n.toNat →
    WriteDone (fun ag => .schedHeartbeat ag v) any (fun _ => schedReg 0x034) (fun _ => v.toNat)
      (fun s => sessState s n.toNat = 1 ∧ s.now ≤ leaseEnd s n.toNat) (fun r => r.renewLease n.toNat r.s.now)) ∧
  (∀ (n : BitVec 4) (lcore : BitVec 8),
    let k := rfxCoreReg n.toNat
    let v := 2 ^ 31 + lcore.toNat
    WriteDone (fun ag => .reflexCoreEnable ag n lcore) any (fun _ => k) (fun _ => v)
      (fun s => s.fld k 31 31 = 0 ∧
        ∀ m, m < 16 → m ≠ n.toNat → s.fld (rfxCoreReg m) 31 31 = 1 → s.fld (rfxCoreReg m) 7 0 ≠ bits v 7 0)
      (fun r => (r.setRegN k (2 ^ 31 + 2 ^ 24 + bits v 7 0)).noteDegraded) ∧
    WriteDone (fun ag => .reflexCoreDisable ag n) any (fun _ => k) (fun s => setBits (s.reg k).toNat 31 31 0)
      (fun s => rfxState s n.toNat ≠ 3) (fun r => (r.setRegN k (r.s.fld k 7 0)).noteDegraded)) ∧
  (∀ (group : BitVec 6) (v : W32) (g : RGroup),
    let key := group.toNat
    WriteDone (fun ag => .reflexResetMark ag group v) any (fun _ => rfxReg key 0x24) (fun _ => v.toNat)
      (fun s => rfxGroup? s key = some g)
      (fun r =>
        let m := v.toNat % 2 ^ RGroup.nch g.desc
        (r.setRfx key { g with marks := g.marks ++ [(m, r.s.now)] }).setRegN (rfxReg key 0x24) ((r.s.reg (rfxReg key 0x24)).toNat ||| m)) ∧
    WriteDone (fun ag => .reflexStop ag group) any (fun _ => rfxReg key 0x20) (fun _ => 2 ^ 31)
      (fun s => rfxGroup? s key = some g)
      (fun r => (r.setRfx key { g with stop := some (g.stop.getD stReflexStopped) }).setFld (rfxReg key 0x20) 31 31 1)) ∧
  (∀ v : W32, WriteDone (fun ag => .vltTlbinv ag true v) any (fun _ => vltReg 0x034) (fun _ => v.toNat)
      (fun s => s.fld (vltReg 0x038) 31 31 = 0) (fun r => r.put (.vault { r.s.vault with tlbHi := v })) ∧
    WriteDone (fun ag => .vltTlbinv ag false v) any (fun _ => vltReg 0x030) (fun _ => v.toNat)
      (fun s => s.fld (vltReg 0x038) 31 31 = 0) (fun r => r.setFld (vltReg 0x038) 31 31 1)) ∧
  (∀ (n : BitVec 4) (w : Window),
    let k := vltReg (0x808 + 0x20 * n.toNat)
    (∀ h : Nat, h < 8 →
      let c := fun (s : State) => (s.hart h).xctx
      let desc := fun (s : State) => s.reg64 (vltReg (0x800 + 0x20 * n.toNat))
      WriteDone (fun ag => .windowStart ag n) (· = .host h) (fun _ => k) (fun _ => 2 ^ 31)
        (fun s => SMap.find? s.vault.windows n.toNat = none ∧
          Run.windowOf ((Run.start s).readBlock (c s) (desc s) 64).2.s (c s) n.toNat = .ok w)
        (fun r =>
          let p := r.readBlock (c r.s) (desc r.s) 64
          let list := match p.1 with
            | .ok d => d / 2 ^ 64 % 2 ^ 64
            | .error _ => desc r.s
          let q := (p.2.readIn (c r.s) list (4 * w.sizes.length)).2
          let q := ((((q.setRegN k 1).setRegN (k + 4) 0).setReg64 (k + 8) 0).setRegN (k + 0x10) 0).setRegN (k + 0x14) 0
          q.put (.vault { q.s.vault with windows := SMap.insert q.s.vault.windows n.toNat w }))) ∧
    WriteDone (fun ag => .windowStop ag n) any (fun _ => k) (fun _ => 2 ^ 30)
      (fun s => SMap.find? s.vault.windows n.toNat = some w ∧ w.inflight = []) (fun r => r.endWindow n.toNat stWinStopped) ∧
    WriteDone (fun ag => .windowStop ag n) any (fun _ => k) (fun _ => 2 ^ 30)
      (fun s => SMap.find? s.vault.windows n.toNat = some w ∧ w.inflight ≠ [])
      (fun r => (r.setFld k 30 30 1).setWindow n.toNat { w with stopping := true })) ∧
  (∀ v : W32,
    let ctrl := audReg 0x134
    let q := fun {z : State} (r : Run z) => r.setRegN ctrl (r.s.fld ctrl 31 31 * 2 ^ 31 + (setBits v.toNat 31 31 1 &&& 0x4FFF00FF))
    let c := fun (s : State) => ({
      ctx := s.fld ctrl 27 16, whole := bit (s.reg ctrl).toNat 30, first := s.reg64 (audReg 0x120), count := (s.reg (audReg 0x128)).toNat
      dst := s.reg64 (audReg 0x12C), mask := s.fld ctrl 7 0, tally := (s.reg (audReg 0x13C)).toNat } : ACopy)
    WriteDone (fun ag => .archiveCopy ag v) any (fun _ => ctrl) (fun _ => setBits v.toNat 31 31 1)
      (fun s => let t := (q (Run.start s)).s
        t.fld (audReg 0x138) 31 31 = 0 ∧ copyStatus t (c t) = stOk ∧ (c t).count ≠ 0)
      (fun r => (((q r).setAud { (q r).s.aud with copy := some (c (q r).s) }).setFld (audReg 0x138) 31 31 1).setFld ctrl 31 31 1)) ∧
  (∀ (n : BitVec 4) (v : W32), WriteDone (fun ag => .ispArm ag n v) any (fun _ => ispReg n.toNat 0x004) (fun _ => v.toNat)
    (fun s => (SMap.get [] s.cam.pend n.toNat).length < 4)
    (fun r => r.setPend n.toNat (SMap.get [] r.s.cam.pend n.toNat ++ [(v.toNat, paramsMirror r.s n.toNat)]))) ∧
  (∀ (bus : BitVec 2) (v : W32),
    let k := bus.toNat
    let x := csiReg (0x3004 + 0x100 * k)
    let st := csiReg (0x3010 + 0x100 * k)
    let go := setBits v.toNat 31 31 1
    let q := fun {z : State} (r : Run z) => r.setRegN x (r.s.fld x 31 31 * 2 ^ 31 + (go &&& 0x60FF3F7F))
    WriteDone (fun ag => .i3cXfer ag bus v) any (fun _ => x) (fun _ => go) (fun s => s.fld st 31 31 = 0)
      (fun r =>
        let w := ((q r).setRegN st ((r.s.reg st).toNat &&& 2 ||| 2 ^ 31)).setFld x 31 31 1
        w.setCam { r.s.cam with i3c := SMap.insert r.s.cam.i3c k { xfer := go, at_ := r.s.reg64 (csiReg (0x3008 + 0x100 * k)) } })) ∧
  (let k := audReg 0x600
   let shown := fun (w : Nat) => bits w 27 16 * 2 ^ 16 + bits w 3 0
   (∀ v : W32, WriteDone (fun ag => .ladderEnable ag v) any (fun _ => k) (fun _ => setBits v.toNat 31 31 1)
      (fun s => s.fld k 31 31 = 0)
      (fun r => (r.setRegN k (2 ^ 31 + shown v.toNat)).ladTakeUp)) ∧
   WriteDone (fun ag => .ladderDisable ag) any (fun _ => k) (fun s => setBits (s.reg k).toNat 31 31 0)
     (fun s => s.fld k 31 31 = 1)
     (fun r =>
       let w := r.setRegN k (shown (r.s.reg k).toNat)
       (w.setLad { w.s.lad with want := false }).ladLeave) ∧
   WriteDone (fun ag => .ladderReload ag) any (fun _ => k) (fun s => setBits (s.reg k).toNat 30 30 1)
     (fun s => s.fld k 31 31 = 1) (fun r => (r.setRegN k (2 ^ 31 + 2 ^ 30 + shown (r.s.reg k).toNat)).ladTakeUp)) ∧
  (∀ target : BitVec 3,
    let v := 2 ^ 31 + target.toNat
    let t := target.toNat
    let q := fun {z : State} (r : Run z) => r.setFld (pwrReg 0) 2 0 v
    let free := fun (s : State) => s.power.req = none ∧ s.power.asked = none ∧ s.power.entering = none ∧ s.sec.switch = none ∧
      powerState s ≤ 1 ∧ fwState s 3 = 0 ∧ t ≠ powerState s ∧ t ≤ claimState s
    WriteDone (fun ag => .pwrStateRequest ag target) any (fun _ => pwrReg 0) (fun _ => v)
      (fun s => free s ∧ t ≤ 1 ∧ (t = 0 → anySensor s (tAlert s) = false))
      (fun r =>
        let w := (((q r).setPower { (q r).s.power with last := t }).reachState t).endRequest none stOk
        w.setFld (pwrReg 0) 31 31 (b2n (w.s.power.req.isSome || w.s.power.asked.isSome))) ∧
    WriteDone (fun ag => .pwrStateRequest ag target) any (fun _ => pwrReg 0) (fun _ => v)
      (fun s => free s ∧ 2 ≤ t ∧ reflexInFlight s = false ∧ s.vault.windows = [])
      (fun r =>
        let deadline := r.s.now + r.s.fld (pwrReg 8) 15 0 * 1000000
        (((q r).setPower { (q r).s.power with req := some ⟨t, deadline, none⟩ }).setFld (pwrReg 4) 28 28 1).setFld (pwrReg 0) 31 31 1)) ∧
  (∀ (c : Nat) (v : BitVec 2), c < 17 →
    let k := dvfsReg c
    (let w := fun (s : State) => setBits (s.reg k).toNat 21 20 v.toNat
     WriteDone (fun ag => .dvfsTargetWrite ag c v) any (fun _ => k) w
       (fun s => v.toNat ≠ s.fld k 21 20 ∧ pinned s c = false)
       (fun r => (r.setFld k 25 24 (r.s.fld k 25 24)).startMove c v.toNat)) ∧
    (let w := fun (s : State) => setBits (s.reg k).toNat 13 12 v.toNat
     WriteDone (fun ag => .dvfsVselWrite ag c v) any (fun _ => k) w
       (fun s => v.toNat ≠ s.fld k 13 12 ∧ v.toNat ≤ max (s.fld k 13 12) (s.fld k 17 16))
       (fun r => (r.setFld k 25 24 (r.s.fld k 25 24)).setVolt c v.toNat)) ∧
    WriteDone (fun ag => .clkDivWrite ag c v) any (fun _ => regKey 2 (0x100 + 4 * c)) (fun _ => v.toNat)
      (fun s => (s.fld k 17 16 ≤ v.toNat ∨ s.fld k 13 12 ≤ v.toNat ∧ SMap.get 0 s.power.settle c ≤ s.now) ∧
        (v.toNat = s.fld k 17 16 ∨ pinned s c = false))
      (fun r => ((r.setFld k 17 16 v.toNat).setRegN (regKey 2 (0x100 + 4 * c)) v.toNat).trace 0x13 0x0040 (c * 2 ^ 16 + v.toNat)) ∧
    (∀ (z : State) (r : Run z) (p : Nat), c < 16 → r.startMove c p = (r.setFld k 21 20 p).setFld k 31 31 1)) ∧
  (∀ v : W32,
    WriteDone (fun ag => .pwrCapWrite ag v) any (fun _ => pwrReg 0x300) (fun _ => v.toNat)
      (fun s => bits v.toNat 7 0 ≤ s.fld (pwrReg 0x300) 7 0 ∨ anySensor s (tAlert s) = false)
      (fun r => r.setFld (pwrReg 0x300) 7 0 (bits v.toNat 7 0)) ∧
    WriteDone (fun ag => .pwrModeWrite ag v) any (fun _ => pwrReg 0x304) (fun _ => v.toNat)
      (fun s => bit v.toNat 31 = true → (∀ j ∈ s.mhy.jobs, j.n ≤ 2) ∧ anySensor s (tAlert s) = false)
      (fun r => r.setRegN (pwrReg 0x304) (b2n (bit v.toNat 31) * 2 ^ 31 + bits v.toNat 1 0)) ∧
    (let q := fun {z : State} (r : Run z) => r.setRegN (secReg 0x20) (r.s.fld (secReg 0x20) 31 31 * 2 ^ 31 + v.toNat % 2 ^ 28)
     let m := fun (s : State) => ({
       ctx := bits v.toNat 27 16, tag := bits v.toNat 15 0, addr := s.reg64 (secReg 0x10), len := s.reg64 (secReg 0x18) } : Measure)
     WriteDone (fun ag => .modelMeasure ag v) any (fun _ => secReg 0x20) (fun _ => v.toNat)
       (fun s => let u := (q (Run.start s)).s
         bit v.toNat 31 = true ∧ s.sec.mm = none ∧ s.sec.meas.length < 64 ∧ mapped u (ctxX u (m u).ctx) .load (m u).addr (m u).len = true)
       (fun r => (((q r).setSec { (q r).s.sec with mm := some (m (q r).s) }).setFld (secReg 0x20) 31 31 1).setFld (secReg 0x24) 31 31 1)) ∧
    (∀ core, core < 192 → WriteDone (fun ag => .coreFltCauseClear ag core v) any (fun _ => coreReg core 0x010) (fun _ => v.toNat)
      (fun _ => bit v.toNat 31 = true)
      (fun r => r.each (List.range 9) fun i r => r.setRegN (coreReg core 0x010 + 4 * i) 0))) ∧
  WriteDone (fun ag => .topSnapArm ag) any (fun _ => topReg 0x200) (fun _ => 2 ^ 31)
    (fun s => s.now + 2000 ≤ s.reg64 (topReg 0x204) ∧ s.fld (topReg 0x200) 31 31 = 0)
    (fun r => ((r.setReg64 (topReg 0x204) (r.s.reg64 (topReg 0x204))).setFld (topReg 0x200) 31 31 1).snapStatus stOk) ∧
  (∀ p, p ≤ 4 →
    let k := fwReg p 0
    let q := fun {z : State} (r : Run z) =>
      r.setRegN k (r.s.fld k 31 31 * 2 ^ 31 + r.s.fld k 7 4 * 2 ^ 4 + r.s.fld k 1 0)
    WriteDone (fun ag => .fwpRestartRequest ag p) (· = .fw 4) (fun _ => k) (fun s => setBits (s.reg k).toNat 31 31 1)
      (fun s => fwState s p = 0 ∧ (∀ x ∈ s.fw.queue, x.p ≠ p) ∧ fwFree s p = true)
      (fun r => (q r).fwBegin p 1 false)) ∧
  (∀ b : Byte, WriteDone (fun ag => .uart1Send ag b) any (fun _ => topReg 0x320) (fun _ => b.toNat)
      (fun s => s.obs.uartTx.length < 64)
      (fun r => (r.put (.obs { r.s.obs with uartTx := r.s.obs.uartTx ++ [b] })).uartStat) ∧
    ∀ (rest : List Byte) (s : State) (ag : Agent), s.halted = false → canAccess s ag = true → accessOk s ag (topReg 0x320) false = true →
      s.obs.uartRx = b :: rest →
      exec (.uart1ReceiveRead ag) s = .next ((Run.start s).put (.obs { s.obs with uartRx := rest })).uartStat.s)
end

