-- ==== Sys2Proof/Laws/Bits.lean ====
section
/-! SUPPORT. What replacing a field of a number does to its fields. -/

namespace Sys2Proof.Machine

/-- The number above, in and below a field that is replaced. -/
theorem setBits_eq {n hi lo : Nat} (v : Nat) (h : lo ≤ hi + 1) :
    setBits n hi lo v = n / 2 ^ (hi + 1) * 2 ^ (hi + 1) + v % 2 ^ (hi + 1 - lo) * 2 ^ lo + n % 2 ^ lo := by
  have e : 2 ^ (hi + 1) = 2 ^ lo * 2 ^ (hi + 1 - lo) := by rw [← Nat.pow_add]; congr 1; omega
  have q : n / 2 ^ (hi + 1) = n / 2 ^ lo / 2 ^ (hi + 1 - lo) := by rw [e, Nat.div_div_eq_div_mul]
  have h1 := Nat.div_add_mod n (2 ^ lo)
  have h2 := Nat.div_add_mod (n / 2 ^ lo) (2 ^ (hi + 1 - lo))
  have h3 : n = n / 2 ^ (hi + 1) * 2 ^ (hi + 1) + bits n hi lo * 2 ^ lo + n % 2 ^ lo := by
    rw [q, e, bits]
    calc n = 2 ^ lo * (n / 2 ^ lo) + n % 2 ^ lo := h1.symm
      _ = 2 ^ lo * (2 ^ (hi + 1 - lo) * (n / 2 ^ lo / 2 ^ (hi + 1 - lo)) + n / 2 ^ lo % 2 ^ (hi + 1 - lo)) + n % 2 ^ lo := by rw [h2]
      _ = _ := by ring
  unfold setBits
  omega

/-- What stands above the field stays. -/
theorem setBits_div {n hi lo : Nat} (v : Nat) (h : lo ≤ hi + 1) : setBits n hi lo v / 2 ^ (hi + 1) = n / 2 ^ (hi + 1) := by
  have e : 2 ^ (hi + 1) = 2 ^ (hi + 1 - lo) * 2 ^ lo := by rw [← Nat.pow_add]; congr 1; omega
  have a : v % 2 ^ (hi + 1 - lo) + 1 ≤ 2 ^ (hi + 1 - lo) := Nat.mod_lt _ (Nat.two_pow_pos _)
  have b := Nat.mul_le_mul_right (2 ^ lo) a
  have c := Nat.mod_lt n (Nat.two_pow_pos lo)
  rw [Nat.add_mul, Nat.one_mul, ← e] at b
  rw [setBits_eq v h, Nat.add_assoc, Nat.mul_comm, Nat.mul_add_div (Nat.two_pow_pos _),
    Nat.div_eq_of_lt (a := v % 2 ^ (hi + 1 - lo) * 2 ^ lo + n % 2 ^ lo) (by omega), Nat.add_zero]

/-- What stands below the field stays. -/
theorem setBits_mod {n hi lo : Nat} (v : Nat) (h : lo ≤ hi + 1) : setBits n hi lo v % 2 ^ lo = n % 2 ^ lo := by
  have e : 2 ^ (hi + 1) = 2 ^ (hi + 1 - lo) * 2 ^ lo := by rw [← Nat.pow_add]; congr 1; omega
  rw [setBits_eq v h, e, ← Nat.mul_assoc, ← Nat.add_mul, Nat.mul_add_mod_self_right, Nat.mod_mod]

/-- A field that is replaced holds the new value. -/
theorem bits_setBits_self {n hi lo : Nat} (v : Nat) (h : lo ≤ hi + 1) : bits (setBits n hi lo v) hi lo = v % 2 ^ (hi + 1 - lo) := by
  have e : 2 ^ (hi + 1) = 2 ^ (hi + 1 - lo) * 2 ^ lo := by rw [← Nat.pow_add]; congr 1; omega
  have c := Nat.mod_lt n (Nat.two_pow_pos lo)
  rw [bits, setBits_eq v h, e, ← Nat.mul_assoc, ← Nat.add_mul, Nat.mul_comm _ (2 ^ lo), Nat.mul_add_div (Nat.two_pow_pos _),
    Nat.div_eq_of_lt c, Nat.add_zero, Nat.mul_add_mod_self_right, Nat.mod_mod]

/-- A field above the one replaced stays. -/
theorem bits_setBits_above {n hi lo h l : Nat} (v : Nat) (k : lo ≤ hi + 1) (a : hi < l) : bits (setBits n hi lo v) h l = bits n h l := by
  have e : 2 ^ l = 2 ^ (hi + 1) * 2 ^ (l - (hi + 1)) := by rw [← Nat.pow_add]; congr 1; omega
  rw [bits, bits, e, ← Nat.div_div_eq_div_mul, ← Nat.div_div_eq_div_mul, setBits_div v k]

/-- A field below the one replaced stays. -/
theorem bits_setBits_below {n hi lo h l : Nat} (v : Nat) (k : lo ≤ hi + 1) (a : h < lo) : bits (setBits n hi lo v) h l = bits n h l := by
  have low : ∀ x, bits x h l = bits (x % 2 ^ lo) h l := fun x => by
    rcases Nat.lt_or_ge h l with hl | hl
    · rw [bits, bits, show h + 1 - l = 0 by omega, Nat.pow_zero, Nat.mod_one, Nat.mod_one]
    · have e : 2 ^ lo = 2 ^ l * 2 ^ (h + 1 - l) * 2 ^ (lo - (h + 1)) := by rw [← Nat.pow_add, ← Nat.pow_add]; congr 1; omega
      rw [bits, bits, ← Nat.mod_mul_right_div_self, ← Nat.mod_mul_right_div_self, e, Nat.mod_mul_right_mod]
  rw [low, setBits_mod v k, ← low]

/-- The top bit after it is set. -/
theorem bit_setBits_self {n i : Nat} (v : Nat) : bit (setBits n i i v) i = decide (v % 2 = 1) := by
  have := bits_setBits_self (n := n) v (Nat.le_succ i)
  rw [bits, show i + 1 - i = 1 by omega, Nat.pow_one] at this
  rw [bit, this]

end Sys2Proof.Machine
end

