-- ==== Sys2Proof/Laws/Encode.lean ====
section
/-! SUPPORT. The fields of the words of an instruction: what an encoder puts into a word is what a decoder reads from it. -/

namespace Sys2Proof.Laws

open Sys2Proof.Machine

/-- The low field of two joined. -/
theorem field_low {p q : Nat} (P : BitVec p) (Q : BitVec q) : (P ++ Q).extractLsb' 0 q = Q := by
  rw [BitVec.extractLsb'_append_eq_of_add_le (by omega)]; simp

/-- A field above the low one, at an offset. -/
theorem field_above {p q s l : Nat} (P : BitVec p) (Q : BitVec q) : (P ++ Q).extractLsb' (q + s) l = P.extractLsb' s l := by
  rw [BitVec.extractLsb'_append_eq_of_le (by omega)]; congr 1; omega

/-- The field just above the low one. -/
theorem field_next {p q l : Nat} (P : BitVec p) (Q : BitVec q) : (P ++ Q).extractLsb' q l = P.extractLsb' 0 l :=
  field_above (s := 0) P Q

/-- The fields of seven joined. -/
theorem fields_seven {a b c d e f g : Nat} (A : BitVec a) (B : BitVec b) (C : BitVec c) (D : BitVec d) (E : BitVec e) (F : BitVec f)
    (G : BitVec g) :
    let z := A ++ B ++ C ++ D ++ E ++ F ++ G
    z.extractLsb' 0 g = G ∧ z.extractLsb' g f = F ∧ z.extractLsb' (g + f) e = E ∧ z.extractLsb' (g + (f + e)) d = D ∧
      z.extractLsb' (g + (f + (e + d))) c = C ∧ z.extractLsb' (g + (f + (e + (d + c)))) b = B ∧
      z.extractLsb' (g + (f + (e + (d + (c + b))))) a = A := by
  refine ⟨field_low _ _, ?_, ?_, ?_, ?_, ?_, ?_⟩
  · rw [field_next, field_low]
  · rw [field_above, field_next, field_low]
  · rw [field_above, field_above, field_next, field_low]
  · rw [field_above, field_above, field_above, field_next, field_low]
  · rw [field_above, field_above, field_above, field_above, field_next, field_low]
  · rw [field_above, field_above, field_above, field_above, field_above, field_next]; simp

/-- A part of the highest of seven fields joined. -/
theorem fields_top {a b c d e f g s l : Nat} (A : BitVec a) (B : BitVec b) (C : BitVec c) (D : BitVec d) (E : BitVec e) (F : BitVec f)
    (G : BitVec g) : (A ++ B ++ C ++ D ++ E ++ F ++ G).extractLsb' (g + (f + (e + (d + (c + (b + s)))))) l = A.extractLsb' s l := by
  rw [field_above, field_above, field_above, field_above, field_above, field_above]

/-- Format R32 (R44). -/
theorem encR_fields (m : BitVec 6) (f : R3) (g : BitVec 6) :
    (encR m f g).w0.extractLsb' 31 1 = 0 ∧ (encR m f g).w0.extractLsb' 25 6 = m ∧ (encR m f g).w0.extractLsb' 20 5 = f.d ∧
      (encR m f g).w0.extractLsb' 15 5 = f.a ∧ (encR m f g).w0.extractLsb' 10 5 = f.b ∧
      (encR m f g).w0.extractLsb' 6 4 = f.guard ∧ (encR m f g).w0.extractLsb' 0 6 = g := by
  have h := fields_seven 0#1 m f.d f.a f.b f.guard g
  exact ⟨h.2.2.2.2.2.2, h.2.2.2.2.2.1, h.2.2.2.2.1, h.2.2.2.1, h.2.2.1, h.2.1, h.1⟩

/-- Formats I32 and S32 (R44). -/
theorem encI_fields (m : BitVec 6) (f : I3) :
    (encI m f).w0.extractLsb' 31 1 = 0 ∧ (encI m f).w0.extractLsb' 25 6 = m ∧ (encI m f).w0.extractLsb' 20 5 = f.d ∧
      (encI m f).w0.extractLsb' 15 5 = f.a ∧ (encI m f).w0.extractLsb' 11 4 = f.guard ∧
      (encI m f).w0.extractLsb' 0 11 = f.imm := by
  have h := fields_seven 0#0 0#1 m f.d f.a f.guard f.imm
  exact ⟨h.2.2.2.2.2.1, h.2.2.2.2.1, h.2.2.2.1, h.2.2.1, h.2.1, h.1⟩

/-- Format B32 (R44). -/
theorem encB_fields (m : BitVec 6) (f : B3) :
    (encB m f).w0.extractLsb' 31 1 = 0 ∧ (encB m f).w0.extractLsb' 25 6 = m ∧ (encB m f).w0.extractLsb' 21 4 = f.guard ∧
      (encB m f).w0.extractLsb' 0 21 = f.off := by
  have h := fields_seven 0#0 0#0 0#0 0#1 m f.guard f.off
  exact ⟨h.2.2.2.1, h.2.2.1, h.2.1, h.1⟩

/-- Format X64 (R44). -/
theorem encX_fields (m : BitVec 6) (f : X3) :
    (encX m f).w0.extractLsb' 31 1 = 1 ∧ (encX m f).w0.extractLsb' 25 6 = m ∧ (encX m f).w0.extractLsb' 20 5 = f.d ∧
      (encX m f).w0.extractLsb' 15 5 = f.a ∧ (encX m f).w0.extractLsb' 10 5 = f.b ∧
      (encX m f).w0.extractLsb' 6 4 = f.guard ∧ (encX m f).w0.extractLsb' 0 6 = f.func := by
  have h := fields_seven 1#1 m f.d f.a f.b f.guard f.func
  exact ⟨h.2.2.2.2.2.2, h.2.2.2.2.2.1, h.2.2.2.2.1, h.2.2.2.1, h.2.2.1, h.2.1, h.1⟩

/-- Format T64 (R44). -/
theorem encT_fields (m : BitVec 6) (f : T3) (g : BitVec 6) :
    (encT m f g).w0.extractLsb' 31 1 = 1 ∧ (encT m f g).w0.extractLsb' 25 6 = m ∧ (encT m f g).w0.extractLsb' 21 4 = f.tdA ∧
      (encT m f g).w0.extractLsb' 17 4 = f.tdB ∧ (encT m f g).w0.extractLsb' 13 4 = f.tdC ∧
      (encT m f g).w0.extractLsb' 11 2 = f.bank ∧ (encT m f g).w0.extractLsb' 6 5 = f.g ∧ (encT m f g).w0.extractLsb' 0 6 = g := by
  have h := fields_seven (1#1 ++ m) f.tdA f.tdB f.tdC f.bank f.g g
  refine ⟨?_, ?_, h.2.2.2.2.2.1, h.2.2.2.2.1, h.2.2.2.1, h.2.2.1, h.2.1, h.1⟩
  · exact fields_top (s := 6) (l := 1) (1#1 ++ m) f.tdA f.tdB f.tdC f.bank f.g g |>.trans (field_next 1#1 m)
  · exact fields_top (s := 0) (l := 6) (1#1 ++ m) f.tdA f.tdB f.tdC f.bank f.g g |>.trans (field_low 1#1 m)

/-- Bit 31 of a word is its field of one bit. -/
theorem long_bit (w : W32) : w.getLsbD 31 = (w.extractLsb' 31 1).getLsbD 0 := by simp

end Sys2Proof.Laws
end

