-- ==== Sys2Proof/Laws/State.lean ====
section
/-! SUPPORT. What each primitive update does to each field of State, and what the named updates of a run are. Later proofs
rewrite with these lemmas and never unfold a record update. -/

namespace Sys2Proof.Machine

/-! ## Field by field -/

/-- No primitive update touches the queue of commands. -/
@[simp] theorem Upd.apply_pending (u : Upd) (s : State) : (u.apply s).pending = s.pending := by
  cases u with
  | gang k g => cases g <;> rfl
  | _ => rfl

@[simp] theorem Upd.apply_now (u : Upd) (s : State) : (u.apply s).now = match u with
  | .now t => max s.now t
  | _ => s.now := by
  cases u with
  | gang k g => cases g <;> rfl
  | _ => rfl

@[simp] theorem Upd.apply_copies (u : Upd) (s : State) : (u.apply s).copies = match u with
  | .realign lags => timeBlocks.zipWith (fun b lag => (b, (lag % 5, s.timeAt b))) lags
  | _ => s.copies := by
  cases u with
  | gang k g => cases g <;> rfl
  | _ => rfl

@[simp] theorem Upd.apply_free (u : Upd) (s : State) : (u.apply s).free = match u with
  | .draw => s.free + 1
  | _ => s.free := by
  cases u with
  | gang k g => cases g <;> rfl
  | _ => rfl

@[simp] theorem Upd.apply_mem (u : Upd) (s : State) : (u.apply s).mem = match u with
  | .mem a b => SMap.set (memDefault s.lost a) s.mem a b
  | .lose => s.mem.filter fun c => !sleepLoses c.1
  | .wipe lo hi => s.mem.filter fun c => !(decide (lo ≤ c.1) && decide (c.1 < hi))
  | .fresh => s.mem.filter fun c => !sleepLoses c.1
  | _ => s.mem := by
  cases u with
  | gang k g => cases g <;> rfl
  | _ => rfl

@[simp] theorem Upd.apply_lost (u : Upd) (s : State) : (u.apply s).lost = match u with
  | .lose => s.lost + 1
  | .fresh => 0
  | _ => s.lost := by
  cases u with
  | gang k g => cases g <;> rfl
  | _ => rfl

@[simp] theorem Upd.apply_regs (u : Upd) (s : State) : (u.apply s).regs = match u with
  | .reg k v => SMap.set (regReset k) s.regs k v
  | _ => s.regs := by
  cases u with
  | gang k g => cases g <;> rfl
  | _ => rfl

@[simp] theorem Upd.apply_mirror (u : Upd) (s : State) : (u.apply s).mirror = match u with
  | .mirror k v => SMap.set (regReset k) s.mirror k v
  | _ => s.mirror := by
  cases u with
  | gang k g => cases g <;> rfl
  | _ => rfl

@[simp] theorem Upd.apply_latch (u : Upd) (s : State) : (u.apply s).latch = match u with
  | .latch k v => SMap.set 0 s.latch k v
  | _ => s.latch := by
  cases u with
  | gang k g => cases g <;> rfl
  | _ => rfl

@[simp] theorem Upd.apply_harts (u : Upd) (s : State) : (u.apply s).harts = match u with
  | .hart k h => SMap.set {} s.harts k h
  | _ => s.harts := by
  cases u with
  | gang k g => cases g <;> rfl
  | _ => rfl

@[simp] theorem Upd.apply_cores (u : Upd) (s : State) : (u.apply s).cores = match u with
  | .core n c => SMap.set {} s.cores n c
  | _ => s.cores := by
  cases u with
  | gang k g => cases g <;> rfl
  | _ => rfl

@[simp] theorem Upd.apply_gangs (u : Upd) (s : State) : (u.apply s).gangs = match u with
  | .gang k (some g) => SMap.insert s.gangs k g
  | .gang k none => SMap.erase s.gangs k
  | _ => s.gangs := by
  cases u with
  | gang k g => cases g <;> rfl
  | _ => rfl

@[simp] theorem Upd.apply_tallies (u : Upd) (s : State) : (u.apply s).tallies = match u with
  | .tally i t => SMap.set {} s.tallies i t
  | _ => s.tallies := by
  cases u with
  | gang k g => cases g <;> rfl
  | _ => rfl

@[simp] theorem Upd.apply_waits (u : Upd) (s : State) : (u.apply s).waits = match u with
  | .waits w => w
  | _ => s.waits := by
  cases u with
  | gang k g => cases g <;> rfl
  | _ => rfl

@[simp] theorem Upd.apply_sched (u : Upd) (s : State) : (u.apply s).sched = match u with
  | .sched x => x
  | _ => s.sched := by
  cases u with
  | gang k g => cases g <;> rfl
  | _ => rfl

@[simp] theorem Upd.apply_fw (u : Upd) (s : State) : (u.apply s).fw = match u with
  | .fw x => x
  | _ => s.fw := by
  cases u with
  | gang k g => cases g <;> rfl
  | _ => rfl

@[simp] theorem Upd.apply_obs (u : Upd) (s : State) : (u.apply s).obs = match u with
  | .obs x => x
  | _ => s.obs := by
  cases u with
  | gang k g => cases g <;> rfl
  | _ => rfl

@[simp] theorem Upd.apply_vault (u : Upd) (s : State) : (u.apply s).vault = match u with
  | .vault x => x
  | _ => s.vault := by
  cases u with
  | gang k g => cases g <;> rfl
  | _ => rfl

@[simp] theorem Upd.apply_ledger (u : Upd) (s : State) : (u.apply s).ledger = match u with
  | .ledger x => x
  | _ => s.ledger := by
  cases u with
  | gang k g => cases g <;> rfl
  | _ => rfl

@[simp] theorem Upd.apply_power (u : Upd) (s : State) : (u.apply s).power = match u with
  | .power x => x
  | _ => s.power := by
  cases u with
  | gang k g => cases g <;> rfl
  | _ => rfl

@[simp] theorem Upd.apply_kv (u : Upd) (s : State) : (u.apply s).kv = match u with
  | .kv x => x
  | _ => s.kv := by
  cases u with
  | gang k g => cases g <;> rfl
  | _ => rfl

@[simp] theorem Upd.apply_mhy (u : Upd) (s : State) : (u.apply s).mhy = match u with
  | .mhy x => x
  | _ => s.mhy := by
  cases u with
  | gang k g => cases g <;> rfl
  | _ => rfl

@[simp] theorem Upd.apply_eth (u : Upd) (s : State) : (u.apply s).eth = match u with
  | .eth x => x
  | _ => s.eth := by
  cases u with
  | gang k g => cases g <;> rfl
  | _ => rfl

@[simp] theorem Upd.apply_rfx (u : Upd) (s : State) : (u.apply s).rfx = match u with
  | .rfx x => x
  | _ => s.rfx := by
  cases u with
  | gang k g => cases g <;> rfl
  | _ => rfl

@[simp] theorem Upd.apply_aud (u : Upd) (s : State) : (u.apply s).aud = match u with
  | .aud x => x
  | _ => s.aud := by
  cases u with
  | gang k g => cases g <;> rfl
  | _ => rfl

@[simp] theorem Upd.apply_cam (u : Upd) (s : State) : (u.apply s).cam = match u with
  | .cam x => x
  | _ => s.cam := by
  cases u with
  | gang k g => cases g <;> rfl
  | _ => rfl

@[simp] theorem Upd.apply_lad (u : Upd) (s : State) : (u.apply s).lad = match u with
  | .lad x => x
  | _ => s.lad := by
  cases u with
  | gang k g => cases g <;> rfl
  | _ => rfl

@[simp] theorem Upd.apply_fix (u : Upd) (s : State) : (u.apply s).fix = match u with
  | .fix x => x
  | _ => s.fix := by
  cases u with
  | gang k g => cases g <;> rfl
  | _ => rfl

@[simp] theorem Upd.apply_sec (u : Upd) (s : State) : (u.apply s).sec = match u with
  | .sec x => x
  | _ => s.sec := by
  cases u with
  | gang k g => cases g <;> rfl
  | _ => rfl

/-! ## Named updates of a run -/

namespace Run

variable {z : State}

@[simp] theorem start_s (z : State) : (start z).s = z := rfl
@[simp] theorem put_s (r : Run z) (u : Upd) : (r.put u).s = u.apply r.s := rfl
@[simp] theorem each_nil {α : Type} (r : Run z) (f : α → Run z → Run z) : r.each [] f = r := rfl
@[simp] theorem each_cons {α : Type} (r : Run z) (a : α) (l : List α) (f : α → Run z → Run z) :
    r.each (a :: l) f = (f a r).each l f := rfl
@[simp] theorem when_true (r : Run z) (f : Run z → Run z) : r.when true f = f r := rfl
@[simp] theorem when_false (r : Run z) (f : Run z → Run z) : r.when false f = r := rfl
@[simp] theorem setNow_s (r : Run z) (t : Nat) : (r.setNow t).s = Upd.apply (.now t) r.s := rfl
@[simp] theorem setByte_s (r : Run z) (a : Nat) (b : Byte) : (r.setByte a b).s = Upd.apply (.mem a b) r.s := rfl
@[simp] theorem setReg_s (r : Run z) (k : Nat) (v : W32) : (r.setReg k v).s = Upd.apply (.reg k v) r.s := rfl
@[simp] theorem setRegN_s (r : Run z) (k v : Nat) : (r.setRegN k v).s = Upd.apply (.reg k (BitVec.ofNat 32 v)) r.s := rfl
@[simp] theorem setMirror_s (r : Run z) (k : Nat) (v : W32) : (r.setMirror k v).s = Upd.apply (.mirror k v) r.s := rfl
@[simp] theorem setLatch_s (r : Run z) (k : Nat) (v : W32) : (r.setLatch k v).s = Upd.apply (.latch k v) r.s := rfl
@[simp] theorem setHart_s (r : Run z) (k : Nat) (h : Hart) : (r.setHart k h).s = Upd.apply (.hart k h) r.s := rfl
@[simp] theorem setCore_s (r : Run z) (n : Nat) (c : Core) : (r.setCore n c).s = Upd.apply (.core n c) r.s := rfl
@[simp] theorem setGang_s (r : Run z) (core g : Nat) (x : Gang) :
    (r.setGang core g x).s = Upd.apply (.gang (128 * core + g) (some x)) r.s := rfl
@[simp] theorem dropGang_s (r : Run z) (core g : Nat) :
    (r.dropGang core g).s = Upd.apply (.gang (128 * core + g) none) r.s := rfl
@[simp] theorem setTally_s (r : Run z) (i : Nat) (t : Tally) : (r.setTally i t).s = Upd.apply (.tally i t) r.s := rfl
@[simp] theorem draw_fst (r : Run z) : r.draw.1 = Config.freeWord r.s.free := rfl
@[simp] theorem draw_s (r : Run z) : r.draw.2.s = Upd.apply .draw r.s := rfl

end Run

end Sys2Proof.Machine
end

