-- ==== Sys2Proof/Laws/FromRun.lean ====
section
/-! SUPPORT. Every command answers the end of a run of primitive updates, but for the three that start the device again. Each
shared form has its lemma, and each command one line. -/

namespace Sys2Proof.Machine

/-- An outcome is a next state at the end of a run from s. -/
def FromRun (s : State) (o : Host.Outcome State Fault Refusal) : Prop := ∃ r : Run s, o = done r

theorem FromRun.of_run {s : State} (r : Run s) : FromRun s (done r) := ⟨r, rfl⟩

theorem FromRun.ite {s : State} {o p : Host.Outcome State Fault Refusal} {c : Prop} [Decidable c] (h : FromRun s o)
    (k : FromRun s p) : FromRun s (if c then o else p) := by
  split
  · exact h
  · exact k

/-- What a run's end is: the state it reached, or the state it began in where the device is halted. -/
theorem FromRun.elim {s : State} {o : Host.Outcome State Fault Refusal} (h : FromRun s o) :
    ∃ t, o = .next t ∧ Reach s t := by
  obtain ⟨r, rfl⟩ := h
  refine ⟨_, rfl, ?_⟩
  split
  · exact .refl
  · exact r.ok

/-! ## Shared forms -/

theorem fromRun_tsmaxIssue (i : Instr) (mode : Nat) (ag : Agent) (f : T3) (s : State) :
    FromRun s (tsmaxIssue i mode ag f s) := by
  unfold tsmaxIssue
  exact .ite (.of_run _) (.of_run _)

theorem fromRun_xlaneGroup (i : Instr) (ag : Agent) (legal : Bool) (guard : BitVec 4) (regs : List Nat)
    (write : LCtx → Gang → Nat → Thread → Thread) (s : State) :
    FromRun s (xlaneGroup i ag legal guard regs write s) := by
  unfold xlaneGroup
  repeat (first | exact .of_run _ | split)

/-! ## Command by command -/

theorem fromRun_execLoHiReadLatch (ag : Agent) (off : BitVec 28) (s : State) :
    FromRun s (execLoHiReadLatch ag off s) := by
  unfold execLoHiReadLatch; (try dsimp only); repeat (first | exact .of_run _ | split)
theorem fromRun_execRegisterWrite (ag : Agent) (off : BitVec 28) (v : W32) (s : State) :
    FromRun s (execRegisterWrite ag off v s) := .of_run _
theorem fromRun_execTimeTreeRealign (s : State) :
    FromRun s (execTimeTreeRealign s) := by
  unfold execTimeTreeRealign; (try dsimp only); repeat (first | exact .of_run _ | split)
theorem fromRun_execHoldoverEntry (s : State) :
    FromRun s (execHoldoverEntry s) := by
  unfold execHoldoverEntry; (try dsimp only); repeat (first | exact .of_run _ | split)
theorem fromRun_execTopFtCtrlWrite (ag : Agent) (v : W32) (s : State) :
    FromRun s (execTopFtCtrlWrite ag v s) := .of_run _
theorem fromRun_execAdd (ag : Agent) (w32 : Bool) (f : R3) (s : State) :
    FromRun s (execAdd ag w32 f s) := .of_run _
theorem fromRun_execSub (ag : Agent) (w32 : Bool) (f : R3) (s : State) :
    FromRun s (execSub ag w32 f s) := .of_run _
theorem fromRun_execMul (ag : Agent) (w32 : Bool) (f : R3) (s : State) :
    FromRun s (execMul ag w32 f s) := .of_run _
theorem fromRun_execMulh (ag : Agent) (w32 : Bool) (f : R3) (s : State) :
    FromRun s (execMulh ag w32 f s) := .of_run _
theorem fromRun_execMulhu (ag : Agent) (w32 : Bool) (f : R3) (s : State) :
    FromRun s (execMulhu ag w32 f s) := .of_run _
theorem fromRun_execDiv (ag : Agent) (w32 : Bool) (f : R3) (s : State) :
    FromRun s (execDiv ag w32 f s) := .of_run _
theorem fromRun_execDivu (ag : Agent) (w32 : Bool) (f : R3) (s : State) :
    FromRun s (execDivu ag w32 f s) := .of_run _
theorem fromRun_execRem (ag : Agent) (w32 : Bool) (f : R3) (s : State) :
    FromRun s (execRem ag w32 f s) := .of_run _
theorem fromRun_execRemu (ag : Agent) (w32 : Bool) (f : R3) (s : State) :
    FromRun s (execRemu ag w32 f s) := .of_run _
theorem fromRun_execAnd (ag : Agent) (w32 : Bool) (f : R3) (s : State) :
    FromRun s (execAnd ag w32 f s) := .of_run _
theorem fromRun_execOr (ag : Agent) (w32 : Bool) (f : R3) (s : State) :
    FromRun s (execOr ag w32 f s) := .of_run _
theorem fromRun_execXor (ag : Agent) (w32 : Bool) (f : R3) (s : State) :
    FromRun s (execXor ag w32 f s) := .of_run _
theorem fromRun_execShl (ag : Agent) (w32 : Bool) (f : R3) (s : State) :
    FromRun s (execShl ag w32 f s) := .of_run _
theorem fromRun_execShr (ag : Agent) (w32 : Bool) (f : R3) (s : State) :
    FromRun s (execShr ag w32 f s) := .of_run _
theorem fromRun_execSra (ag : Agent) (w32 : Bool) (f : R3) (s : State) :
    FromRun s (execSra ag w32 f s) := .of_run _
theorem fromRun_execMin (ag : Agent) (w32 : Bool) (f : R3) (s : State) :
    FromRun s (execMin ag w32 f s) := .of_run _
theorem fromRun_execMinu (ag : Agent) (w32 : Bool) (f : R3) (s : State) :
    FromRun s (execMinu ag w32 f s) := .of_run _
theorem fromRun_execMax (ag : Agent) (w32 : Bool) (f : R3) (s : State) :
    FromRun s (execMax ag w32 f s) := .of_run _
theorem fromRun_execMaxu (ag : Agent) (w32 : Bool) (f : R3) (s : State) :
    FromRun s (execMaxu ag w32 f s) := .of_run _
theorem fromRun_execClz (ag : Agent) (w32 : Bool) (f : R3) (s : State) :
    FromRun s (execClz ag w32 f s) := .of_run _
theorem fromRun_execPopc (ag : Agent) (w32 : Bool) (f : R3) (s : State) :
    FromRun s (execPopc ag w32 f s) := .of_run _
theorem fromRun_execAddp (ag : Agent) (w32 : Bool) (f : R3) (s : State) :
    FromRun s (execAddp ag w32 f s) := .of_run _
theorem fromRun_execAddi (ag : Agent) (f : I3) (s : State) :
    FromRun s (execAddi ag f s) := .of_run _
theorem fromRun_execAndi (ag : Agent) (f : I3) (s : State) :
    FromRun s (execAndi ag f s) := .of_run _
theorem fromRun_execOri (ag : Agent) (f : I3) (s : State) :
    FromRun s (execOri ag f s) := .of_run _
theorem fromRun_execXori (ag : Agent) (f : I3) (s : State) :
    FromRun s (execXori ag f s) := .of_run _
theorem fromRun_execShi (ag : Agent) (f : I3) (s : State) :
    FromRun s (execShi ag f s) := .of_run _
theorem fromRun_execLi (ag : Agent) (f : X3) (s : State) :
    FromRun s (execLi ag f s) := .of_run _
theorem fromRun_execAddx (ag : Agent) (f : X3) (s : State) :
    FromRun s (execAddx ag f s) := .of_run _
theorem fromRun_execCmp (ag : Agent) (func : BitVec 6) (f : R3) (s : State) :
    FromRun s (execCmp ag func f s) := by
  unfold execCmp; (try dsimp only); repeat (first | exact .of_run _ | split)
theorem fromRun_execPand (ag : Agent) (f : R3) (s : State) :
    FromRun s (execPand ag f s) := .of_run _
theorem fromRun_execPor (ag : Agent) (f : R3) (s : State) :
    FromRun s (execPor ag f s) := .of_run _
theorem fromRun_execPxor (ag : Agent) (f : R3) (s : State) :
    FromRun s (execPxor ag f s) := .of_run _
theorem fromRun_execPandn (ag : Agent) (f : R3) (s : State) :
    FromRun s (execPandn ag f s) := .of_run _
theorem fromRun_execPnot (ag : Agent) (f : R3) (s : State) :
    FromRun s (execPnot ag f s) := .of_run _
theorem fromRun_execP2g (ag : Agent) (f : R3) (s : State) :
    FromRun s (execP2g ag f s) := .of_run _
theorem fromRun_execG2p (ag : Agent) (f : R3) (s : State) :
    FromRun s (execG2p ag f s) := .of_run _
theorem fromRun_execFadd (ag : Agent) (f : R3) (s : State) :
    FromRun s (execFadd ag f s) := .of_run _
theorem fromRun_execFsub (ag : Agent) (f : R3) (s : State) :
    FromRun s (execFsub ag f s) := .of_run _
theorem fromRun_execFmul (ag : Agent) (f : R3) (s : State) :
    FromRun s (execFmul ag f s) := .of_run _
theorem fromRun_execFfma (ag : Agent) (f : R3) (s : State) :
    FromRun s (execFfma ag f s) := .of_run _
theorem fromRun_execFmin (ag : Agent) (f : R3) (s : State) :
    FromRun s (execFmin ag f s) := .of_run _
theorem fromRun_execFmax (ag : Agent) (f : R3) (s : State) :
    FromRun s (execFmax ag f s) := .of_run _
theorem fromRun_execFabs (ag : Agent) (f : R3) (s : State) :
    FromRun s (execFabs ag f s) := .of_run _
theorem fromRun_execFneg (ag : Agent) (f : R3) (s : State) :
    FromRun s (execFneg ag f s) := .of_run _
theorem fromRun_execFmvGf (ag : Agent) (f : R3) (s : State) :
    FromRun s (execFmvGf ag f s) := .of_run _
theorem fromRun_execFmvFg (ag : Agent) (f : R3) (s : State) :
    FromRun s (execFmvFg ag f s) := .of_run _
theorem fromRun_execFexp2 (ag : Agent) (f : R3) (s : State) :
    FromRun s (execFexp2 ag f s) := .of_run _
theorem fromRun_execFlog2 (ag : Agent) (f : R3) (s : State) :
    FromRun s (execFlog2 ag f s) := .of_run _
theorem fromRun_execFrcp (ag : Agent) (f : R3) (s : State) :
    FromRun s (execFrcp ag f s) := .of_run _
theorem fromRun_execFrsq (ag : Agent) (f : R3) (s : State) :
    FromRun s (execFrsq ag f s) := .of_run _
theorem fromRun_execFsig (ag : Agent) (f : R3) (s : State) :
    FromRun s (execFsig ag f s) := .of_run _
theorem fromRun_execFtanh (ag : Agent) (f : R3) (s : State) :
    FromRun s (execFtanh ag f s) := .of_run _
theorem fromRun_execCvt (ag : Agent) (func : BitVec 6) (f : R3) (s : State) :
    FromRun s (execCvt ag func f s) := by
  unfold execCvt; (try dsimp only); repeat (first | exact .of_run _ | split)
theorem fromRun_execAdd2 (ag : Agent) (fp16 : Bool) (f : R3) (s : State) :
    FromRun s (execAdd2 ag fp16 f s) := .of_run _
theorem fromRun_execMul2 (ag : Agent) (fp16 : Bool) (f : R3) (s : State) :
    FromRun s (execMul2 ag fp16 f s) := .of_run _
theorem fromRun_execFma2 (ag : Agent) (fp16 : Bool) (f : R3) (s : State) :
    FromRun s (execFma2 ag fp16 f s) := .of_run _
theorem fromRun_execMin2 (ag : Agent) (fp16 : Bool) (f : R3) (s : State) :
    FromRun s (execMin2 ag fp16 f s) := .of_run _
theorem fromRun_execMax2 (ag : Agent) (fp16 : Bool) (f : R3) (s : State) :
    FromRun s (execMax2 ag fp16 f s) := .of_run _
theorem fromRun_execLdb (ag : Agent) (f : I3) (s : State) :
    FromRun s (execLdb ag f s) := .of_run _
theorem fromRun_execLdbu (ag : Agent) (f : I3) (s : State) :
    FromRun s (execLdbu ag f s) := .of_run _
theorem fromRun_execLdh (ag : Agent) (f : I3) (s : State) :
    FromRun s (execLdh ag f s) := .of_run _
theorem fromRun_execLdhu (ag : Agent) (f : I3) (s : State) :
    FromRun s (execLdhu ag f s) := .of_run _
theorem fromRun_execLdw (ag : Agent) (f : I3) (s : State) :
    FromRun s (execLdw ag f s) := .of_run _
theorem fromRun_execLdwu (ag : Agent) (f : I3) (s : State) :
    FromRun s (execLdwu ag f s) := .of_run _
theorem fromRun_execLdd (ag : Agent) (f : I3) (s : State) :
    FromRun s (execLdd ag f s) := .of_run _
theorem fromRun_execStb (ag : Agent) (f : I3) (s : State) :
    FromRun s (execStb ag f s) := .of_run _
theorem fromRun_execSth (ag : Agent) (f : I3) (s : State) :
    FromRun s (execSth ag f s) := .of_run _
theorem fromRun_execStw (ag : Agent) (f : I3) (s : State) :
    FromRun s (execStw ag f s) := .of_run _
theorem fromRun_execStd (ag : Agent) (f : I3) (s : State) :
    FromRun s (execStd ag f s) := .of_run _
theorem fromRun_execLdwAcq (ag : Agent) (scope : BitVec 3) (f : R3) (s : State) :
    FromRun s (execLdwAcq ag scope f s) := .of_run _
theorem fromRun_execLddAcq (ag : Agent) (scope : BitVec 3) (f : R3) (s : State) :
    FromRun s (execLddAcq ag scope f s) := .of_run _
theorem fromRun_execStwRel (ag : Agent) (scope : BitVec 3) (f : R3) (s : State) :
    FromRun s (execStwRel ag scope f s) := .of_run _
theorem fromRun_execStdRel (ag : Agent) (scope : BitVec 3) (f : R3) (s : State) :
    FromRun s (execStdRel ag scope f s) := .of_run _
theorem fromRun_execFenceAcq (ag : Agent) (scope : BitVec 3) (f : R3) (s : State) :
    FromRun s (execFenceAcq ag scope f s) := .of_run _
theorem fromRun_execFenceRel (ag : Agent) (scope : BitVec 3) (f : R3) (s : State) :
    FromRun s (execFenceRel ag scope f s) := .of_run _
theorem fromRun_execFenceAr (ag : Agent) (scope : BitVec 3) (f : R3) (s : State) :
    FromRun s (execFenceAr ag scope f s) := .of_run _
theorem fromRun_execAtomAdd (ag : Agent) (dw : Bool) (scope : BitVec 2) (f : R3) (s : State) :
    FromRun s (execAtomAdd ag dw scope f s) := .of_run _
theorem fromRun_execAtomMin (ag : Agent) (dw : Bool) (scope : BitVec 2) (f : R3) (s : State) :
    FromRun s (execAtomMin ag dw scope f s) := .of_run _
theorem fromRun_execAtomMax (ag : Agent) (dw : Bool) (scope : BitVec 2) (f : R3) (s : State) :
    FromRun s (execAtomMax ag dw scope f s) := .of_run _
theorem fromRun_execAtomAnd (ag : Agent) (dw : Bool) (scope : BitVec 2) (f : R3) (s : State) :
    FromRun s (execAtomAnd ag dw scope f s) := .of_run _
theorem fromRun_execAtomOr (ag : Agent) (dw : Bool) (scope : BitVec 2) (f : R3) (s : State) :
    FromRun s (execAtomOr ag dw scope f s) := .of_run _
theorem fromRun_execAtomXor (ag : Agent) (dw : Bool) (scope : BitVec 2) (f : R3) (s : State) :
    FromRun s (execAtomXor ag dw scope f s) := .of_run _
theorem fromRun_execAtomSwap (ag : Agent) (dw : Bool) (scope : BitVec 2) (f : R3) (s : State) :
    FromRun s (execAtomSwap ag dw scope f s) := .of_run _
theorem fromRun_execAtomCas (ag : Agent) (dw : Bool) (scope : BitVec 2) (f : R3) (s : State) :
    FromRun s (execAtomCas ag dw scope f s) := .of_run _
theorem fromRun_execAtomArAdd (ag : Agent) (dw : Bool) (scope : BitVec 2) (f : R3) (s : State) :
    FromRun s (execAtomArAdd ag dw scope f s) := .of_run _
theorem fromRun_execAtomArMin (ag : Agent) (dw : Bool) (scope : BitVec 2) (f : R3) (s : State) :
    FromRun s (execAtomArMin ag dw scope f s) := .of_run _
theorem fromRun_execAtomArMax (ag : Agent) (dw : Bool) (scope : BitVec 2) (f : R3) (s : State) :
    FromRun s (execAtomArMax ag dw scope f s) := .of_run _
theorem fromRun_execAtomArAnd (ag : Agent) (dw : Bool) (scope : BitVec 2) (f : R3) (s : State) :
    FromRun s (execAtomArAnd ag dw scope f s) := .of_run _
theorem fromRun_execAtomArOr (ag : Agent) (dw : Bool) (scope : BitVec 2) (f : R3) (s : State) :
    FromRun s (execAtomArOr ag dw scope f s) := .of_run _
theorem fromRun_execAtomArXor (ag : Agent) (dw : Bool) (scope : BitVec 2) (f : R3) (s : State) :
    FromRun s (execAtomArXor ag dw scope f s) := .of_run _
theorem fromRun_execAtomArSwap (ag : Agent) (dw : Bool) (scope : BitVec 2) (f : R3) (s : State) :
    FromRun s (execAtomArSwap ag dw scope f s) := .of_run _
theorem fromRun_execAtomArCas (ag : Agent) (dw : Bool) (scope : BitVec 2) (f : R3) (s : State) :
    FromRun s (execAtomArCas ag dw scope f s) := .of_run _
theorem fromRun_execBra (ag : Agent) (f : B3) (s : State) :
    FromRun s (execBra ag f s) := by
  unfold execBra; (try dsimp only); repeat (first | exact .of_run _ | split)
theorem fromRun_execCall (ag : Agent) (f : B3) (s : State) :
    FromRun s (execCall ag f s) := by
  unfold execCall; (try dsimp only); repeat (first | exact .of_run _ | split)
theorem fromRun_execJr (ag : Agent) (f : R3) (s : State) :
    FromRun s (execJr ag f s) := by
  unfold execJr; (try dsimp only); repeat (first | exact .of_run _ | split)
theorem fromRun_execBral (ag : Agent) (f : X3) (s : State) :
    FromRun s (execBral ag f s) := by
  unfold execBral; (try dsimp only); repeat (first | exact .of_run _ | split)
theorem fromRun_execNop (ag : Agent) (f : R3) (s : State) :
    FromRun s (execNop ag f s) := .of_run _
theorem fromRun_execExit (ag : Agent) (f : R3) (s : State) :
    FromRun s (execExit ag f s) := by
  unfold execExit; (try dsimp only); repeat (first | exact .of_run _ | split)
theorem fromRun_execBar (ag : Agent) (f : R3) (s : State) :
    FromRun s (execBar ag f s) := by
  unfold execBar; (try dsimp only); repeat (first | exact .of_run _ | split)
theorem fromRun_execYield (ag : Agent) (f : R3) (s : State) :
    FromRun s (execYield ag f s) := by
  unfold execYield; (try dsimp only); repeat (first | exact .of_run _ | split)
theorem fromRun_execYieldExpiry (core gang : Nat) (s : State) :
    FromRun s (execYieldExpiry core gang s) := by
  unfold execYieldExpiry; (try dsimp only); repeat (first | exact .of_run _ | split)
theorem fromRun_execUpcall (ag : Agent) (f : R3) (s : State) :
    FromRun s (execUpcall ag f s) := .of_run _
theorem fromRun_execBrk (ag : Agent) (f : R3) (s : State) :
    FromRun s (execBrk ag f s) := by
  unfold execBrk; (try dsimp only); repeat (first | exact .of_run _ | split)
theorem fromRun_execTret (ag : Agent) (f : R3) (s : State) :
    FromRun s (execTret ag f s) := .of_run _
theorem fromRun_execSnooze (ag : Agent) (f : R3) (s : State) :
    FromRun s (execSnooze ag f s) := .of_run _
theorem fromRun_execIflush (ag : Agent) (f : R3) (s : State) :
    FromRun s (execIflush ag f s) := .of_run _
theorem fromRun_execRds (ag : Agent) (f : I3) (s : State) :
    FromRun s (execRds ag f s) := by
  unfold execRds; (try dsimp only); repeat (first | exact .of_run _ | split)
theorem fromRun_execCrd (ag : Agent) (f : I3) (s : State) :
    FromRun s (execCrd ag f s) := by
  unfold execCrd; (try dsimp only); repeat (first | exact .of_run _ | split)
theorem fromRun_execCwr (ag : Agent) (f : I3) (s : State) :
    FromRun s (execCwr ag f s) := by
  unfold execCwr; (try dsimp only); repeat (first | exact .of_run _ | split)
theorem fromRun_execCmsk (ag : Agent) (f : X3) (s : State) :
    FromRun s (execCmsk ag f s) := by
  unfold execCmsk; (try dsimp only); repeat (first | exact .of_run _ | split)
theorem fromRun_execTimerInterruptPending (ag : Agent) (s : State) :
    FromRun s (execTimerInterruptPending ag s) := by
  unfold execTimerInterruptPending; (try dsimp only); repeat (first | exact .of_run _ | split)
theorem fromRun_execInterruptTake (ag : Agent) (s : State) :
    FromRun s (execInterruptTake ag s) := by
  unfold execInterruptTake; (try dsimp only); repeat (first | exact .of_run _ | split)
theorem fromRun_execShfl (ag : Agent) (f : R3) (s : State) :
    FromRun s (execShfl ag f s) := fromRun_xlaneGroup ..
theorem fromRun_execBallot (ag : Agent) (f : R3) (s : State) :
    FromRun s (execBallot ag f s) := fromRun_xlaneGroup ..
theorem fromRun_execAny (ag : Agent) (f : R3) (s : State) :
    FromRun s (execAny ag f s) := fromRun_xlaneGroup ..
theorem fromRun_execAll (ag : Agent) (f : R3) (s : State) :
    FromRun s (execAll ag f s) := fromRun_xlaneGroup ..
theorem fromRun_execRadd (ag : Agent) (f : R3) (s : State) :
    FromRun s (execRadd ag f s) := fromRun_xlaneGroup ..
theorem fromRun_execRmin (ag : Agent) (f : R3) (s : State) :
    FromRun s (execRmin ag f s) := fromRun_xlaneGroup ..
theorem fromRun_execRmax (ag : Agent) (f : R3) (s : State) :
    FromRun s (execRmax ag f s) := fromRun_xlaneGroup ..
theorem fromRun_execFradd (ag : Agent) (f : R3) (s : State) :
    FromRun s (execFradd ag f s) := fromRun_xlaneGroup ..
theorem fromRun_execFrmin (ag : Agent) (f : R3) (s : State) :
    FromRun s (execFrmin ag f s) := fromRun_xlaneGroup ..
theorem fromRun_execFrmax (ag : Agent) (f : R3) (s : State) :
    FromRun s (execFrmax ag f s) := fromRun_xlaneGroup ..
theorem fromRun_execTsig (ag : Agent) (scope : BitVec 3) (f : R3) (s : State) :
    FromRun s (execTsig ag scope f s) := by
  unfold execTsig; (try dsimp only); repeat (first | exact .of_run _ | split)
theorem fromRun_execTadd (ag : Agent) (scope : BitVec 3) (f : R3) (s : State) :
    FromRun s (execTadd ag scope f s) := by
  unfold execTadd; (try dsimp only); repeat (first | exact .of_run _ | split)
theorem fromRun_execTwait (ag : Agent) (scope : BitVec 3) (f : R3) (s : State) :
    FromRun s (execTwait ag scope f s) := by
  unfold execTwait; (try dsimp only); repeat (first | exact .of_run _ | split)
theorem fromRun_execTread (ag : Agent) (scope : BitVec 3) (f : R3) (s : State) :
    FromRun s (execTread ag scope f s) := by
  unfold execTread; (try dsimp only); repeat (first | exact .of_run _ | split)
theorem fromRun_execTwaitTimeout (ag : Agent) (lane : Nat) (s : State) :
    FromRun s (execTwaitTimeout ag lane s) := by
  unfold execTwaitTimeout; (try dsimp only); repeat (first | exact .of_run _ | split)
theorem fromRun_execTdld (ag : Agent) (f : T3) (s : State) :
    FromRun s (execTdld ag f s) := .of_run _
theorem fromRun_execTdw (ag : Agent) (f : T3) (s : State) :
    FromRun s (execTdw ag f s) := .of_run _
theorem fromRun_execTdst (ag : Agent) (f : T3) (s : State) :
    FromRun s (execTdst ag f s) := .of_run _
theorem fromRun_execFmove (ag : Agent) (f : T3) (s : State) :
    FromRun s (execFmove ag f s) := .of_run _
theorem fromRun_execTmma (ag : Agent) (f : T3) (s : State) :
    FromRun s (execTmma ag f s) := by
  unfold execTmma; (try dsimp only); repeat (first | exact .of_run _ | split)
theorem fromRun_execTdrain (ag : Agent) (f : T3) (s : State) :
    FromRun s (execTdrain ag f s) := by
  unfold execTdrain; (try dsimp only); repeat (first | exact .of_run _ | split)
theorem fromRun_execAccScale (ag : Agent) (f : T3) (s : State) :
    FromRun s (execAccScale ag f s) := .of_run _
theorem fromRun_execTclr (ag : Agent) (f : T3) (s : State) :
    FromRun s (execTclr ag f s) := .of_run _
theorem fromRun_execTrec (ag : Agent) (f : T3) (s : State) :
    FromRun s (execTrec ag f s) := .of_run _
theorem fromRun_execStateAudit (ag : Agent) (f : T3) (s : State) :
    FromRun s (execStateAudit ag f s) := .of_run _
theorem fromRun_execTsync (ag : Agent) (f : T3) (s : State) :
    FromRun s (execTsync ag f s) := .of_run _
theorem fromRun_execRope (ag : Agent) (f : T3) (s : State) :
    FromRun s (execRope ag f s) := .of_run _
theorem fromRun_execTmask (ag : Agent) (f : T3) (s : State) :
    FromRun s (execTmask ag f s) := .of_run _
theorem fromRun_execTsmaxStep (ag : Agent) (f : T3) (s : State) :
    FromRun s (execTsmaxStep ag f s) := fromRun_tsmaxIssue ..
theorem fromRun_execTsmaxFinal (ag : Agent) (f : T3) (s : State) :
    FromRun s (execTsmaxFinal ag f s) := fromRun_tsmaxIssue ..
theorem fromRun_execTsmaxMerge (ag : Agent) (f : T3) (s : State) :
    FromRun s (execTsmaxMerge ag f s) := fromRun_tsmaxIssue ..
theorem fromRun_execTsmaxInit (ag : Agent) (f : T3) (s : State) :
    FromRun s (execTsmaxInit ag f s) := fromRun_tsmaxIssue ..
theorem fromRun_execTensorInstrStart (core seq : Nat) (s : State) :
    FromRun s (execTensorInstrStart core seq s) := by
  unfold execTensorInstrStart; (try dsimp only); repeat (first | exact .of_run _ | split)
theorem fromRun_execTensorInstrFinish (core seq : Nat) (s : State) :
    FromRun s (execTensorInstrFinish core seq s) := by
  unfold execTensorInstrFinish; (try dsimp only); repeat (first | exact .of_run _ | split)
theorem fromRun_execPrismFeedFetch (core : Nat) (s : State) :
    FromRun s (execPrismFeedFetch core s) := by
  unfold execPrismFeedFetch; (try dsimp only); repeat (first | exact .of_run _ | split)
theorem fromRun_execFmoveFinish (core seq : Nat) (s : State) :
    FromRun s (execFmoveFinish core seq s) := by
  unfold execFmoveFinish; (try dsimp only); repeat (first | exact .of_run _ | split)
theorem fromRun_execGangAdmit (core parcel gang : Nat) (banks : List Nat) (s : State) :
    FromRun s (execGangAdmit core parcel gang banks s) := by
  unfold execGangAdmit; (try dsimp only); repeat (first | exact .of_run _ | split)
theorem fromRun_execGangRetire (core gang : Nat) (s : State) :
    FromRun s (execGangRetire core gang s) := by
  unfold execGangRetire; (try dsimp only); repeat (first | exact .of_run _ | split)
theorem fromRun_execGangParkSwap (core : Nat) (s : State) :
    FromRun s (execGangParkSwap core s) := by
  unfold execGangParkSwap; (try dsimp only); repeat (first | exact .of_run _ | split)
theorem fromRun_execCoreFltCauseClear (ag : Agent) (core : Nat) (v : W32) (s : State) :
    FromRun s (execCoreFltCauseClear ag core v s) := .of_run _
theorem fromRun_execSchedTallyAlloc (ag : Agent) (s : State) :
    FromRun s (execSchedTallyAlloc ag s) := .of_run _
theorem fromRun_execSchedTallyFree (ag : Agent) (v : W32) (s : State) :
    FromRun s (execSchedTallyFree ag v s) := .of_run _
theorem fromRun_execParcelRerun (i : Nat) (s : State) :
    FromRun s (execParcelRerun i s) := by
  unfold execParcelRerun; (try dsimp only); repeat (first | exact .of_run _ | split)
theorem fromRun_execPidxRqDb (ag : Agent) (v : W32) (s : State) :
    FromRun s (execPidxRqDb ag v s) := .of_run _
theorem fromRun_execKvOpen (s : State) :
    FromRun s (execKvOpen s) := .of_run _
theorem fromRun_execClose (s : State) :
    FromRun s (execClose s) := .of_run _
theorem fromRun_execPin (s : State) :
    FromRun s (execPin s) := .of_run _
theorem fromRun_execUnpin (s : State) :
    FromRun s (execUnpin s) := .of_run _
theorem fromRun_execAppend (s : State) :
    FromRun s (execAppend s) := .of_run _
theorem fromRun_execTappend (s : State) :
    FromRun s (execTappend s) := .of_run _
theorem fromRun_execCommit (s : State) :
    FromRun s (execCommit s) := .of_run _
theorem fromRun_execDiscard (s : State) :
    FromRun s (execDiscard s) := .of_run _
theorem fromRun_execKvBadRequest (s : State) :
    FromRun s (execKvBadRequest s) := .of_run _
theorem fromRun_execRecomputeComplete (i : Nat) (s : State) :
    FromRun s (execRecomputeComplete i s) := by
  unfold execRecomputeComplete; (try dsimp only); repeat (first | exact .of_run _ | split)
theorem fromRun_execReflexCoreEnable (ag : Agent) (n : BitVec 4) (lcore : BitVec 8) (s : State) :
    FromRun s (execReflexCoreEnable ag n lcore s) := .of_run _
theorem fromRun_execReflexCoreDisable (ag : Agent) (n : BitVec 4) (s : State) :
    FromRun s (execReflexCoreDisable ag n s) := .of_run _
theorem fromRun_execReflexCoreReady (n : Nat) (s : State) :
    FromRun s (execReflexCoreReady n s) := by
  unfold execReflexCoreReady; (try dsimp only); repeat (first | exact .of_run _ | split)
theorem fromRun_execReflexFrameLanding (s : State) :
    FromRun s (execReflexFrameLanding s) := by
  unfold execReflexFrameLanding; (try dsimp only); repeat (first | exact .of_run _ | split)
theorem fromRun_execReflexTick (n k : Nat) (s : State) :
    FromRun s (execReflexTick n k s) := by
  unfold execReflexTick; (try dsimp only); repeat (first | exact .of_run _ | split)
theorem fromRun_execReflexArriveLatch (n k : Nat) (s : State) :
    FromRun s (execReflexArriveLatch n k s) := by
  unfold execReflexArriveLatch; (try dsimp only); repeat (first | exact .of_run _ | split)
theorem fromRun_execReflexStepStart (n : Nat) (s : State) :
    FromRun s (execReflexStepStart n s) := by
  unfold execReflexStepStart; (try dsimp only); repeat (first | exact .of_run _ | split)
theorem fromRun_execReflexStepEnd (n k : Nat) (s : State) :
    FromRun s (execReflexStepEnd n k s) := by
  unfold execReflexStepEnd; (try dsimp only); repeat (first | exact .of_run _ | split)
theorem fromRun_execReflexOutputFrame (n k : Nat) (s : State) :
    FromRun s (execReflexOutputFrame n k s) := by
  unfold execReflexOutputFrame; (try dsimp only); repeat (first | exact .of_run _ | split)
theorem fromRun_execReflexResetMark (ag : Agent) (group : BitVec 6) (v : W32) (s : State) :
    FromRun s (execReflexResetMark ag group v s) := .of_run _
theorem fromRun_execReflexStop (ag : Agent) (group : BitVec 6) (s : State) :
    FromRun s (execReflexStop ag group s) := .of_run _
theorem fromRun_execReflexGroupEnd (n k : Nat) (s : State) :
    FromRun s (execReflexGroupEnd n k s) := by
  unfold execReflexGroupEnd; (try dsimp only); repeat (first | exact .of_run _ | split)
theorem fromRun_execReflexHoldExpiry (n k : Nat) (s : State) :
    FromRun s (execReflexHoldExpiry n k s) := by
  unfold execReflexHoldExpiry; (try dsimp only); repeat (first | exact .of_run _ | split)
theorem fromRun_execReflexResume (n k : Nat) (s : State) :
    FromRun s (execReflexResume n k s) := by
  unfold execReflexResume; (try dsimp only); repeat (first | exact .of_run _ | split)
theorem fromRun_execVltCmapWrite (ag : Agent) (hi : Bool) (v : W32) (s : State) :
    FromRun s (execVltCmapWrite ag hi v s) := .of_run _
theorem fromRun_execVltTlbinv (ag : Agent) (hi : Bool) (v : W32) (s : State) :
    FromRun s (execVltTlbinv ag hi v s) := .of_run _
theorem fromRun_execTlbinvDone (s : State) :
    FromRun s (execTlbinvDone s) := .of_run _
theorem fromRun_execVltLblkWrite (ag : Agent) (n : BitVec 10) (v : W32) (s : State) :
    FromRun s (execVltLblkWrite ag n v s) := .of_run _
theorem fromRun_execWindowStart (ag : Agent) (n : BitVec 4) (s : State) :
    FromRun s (execWindowStart ag n s) := .of_run _
theorem fromRun_execWindowStop (ag : Agent) (n : BitVec 4) (s : State) :
    FromRun s (execWindowStop ag n s) := .of_run _
theorem fromRun_execChunkStart (n : Nat) (s : State) :
    FromRun s (execChunkStart n s) := by
  unfold execChunkStart; (try dsimp only); repeat (first | exact .of_run _ | split)
theorem fromRun_execChunkLanded (n g : Nat) (s : State) :
    FromRun s (execChunkLanded n g s) := by
  unfold execChunkLanded; (try dsimp only); repeat (first | exact .of_run _ | split)
theorem fromRun_execVaultAccessTimeout (rd : VaultReader) (va pa : Nat) (fetch : Bool) (s : State) :
    FromRun s (execVaultAccessTimeout rd va pa fetch s) := by
  unfold execVaultAccessTimeout; (try dsimp only); repeat (first | exact .of_run _ | split)
theorem fromRun_execVaultRetrainEnd (v : Nat) (ok : Bool) (s : State) :
    FromRun s (execVaultRetrainEnd v ok s) := by
  unfold execVaultRetrainEnd; (try dsimp only); repeat (first | exact .of_run _ | split)
theorem fromRun_execRowSparing (pa waited : Nat) (s : State) :
    FromRun s (execRowSparing pa waited s) := by
  unfold execRowSparing; (try dsimp only); repeat (first | exact .of_run _ | split)
theorem fromRun_execPatrolRead (pa err : Nat) (s : State) :
    FromRun s (execPatrolRead pa err s) := by
  unfold execPatrolRead; (try dsimp only); repeat (first | exact .of_run _ | split)
theorem fromRun_execVaultRefresh (v waited : Nat) (s : State) :
    FromRun s (execVaultRefresh v waited s) := by
  unfold execVaultRefresh; (try dsimp only); repeat (first | exact .of_run _ | split)
theorem fromRun_execSchedCardSync (ag : Agent) (n : BitVec 14) (s : State) :
    FromRun s (execSchedCardSync ag n s) := .of_run _
theorem fromRun_execCardTakeUp (n : Nat) (s : State) :
    FromRun s (execCardTakeUp n s) := .of_run _
theorem fromRun_execCardFetch (n : Nat) (s : State) :
    FromRun s (execCardFetch n s) := by
  unfold execCardFetch; (try dsimp only); repeat (first | exact .of_run _ | split)
theorem fromRun_execContextEnable (ag : Agent) (n : BitVec 12) (v : W32) (s : State) :
    FromRun s (execContextEnable ag n v s) := .of_run _
theorem fromRun_execContextDisable (ag : Agent) (n : BitVec 12) (s : State) :
    FromRun s (execContextDisable ag n s) := by
  unfold execContextDisable; (try dsimp only); repeat (first | exact .of_run _ | split)
theorem fromRun_execSchedDb (ag : Agent) (v : W32) (s : State) :
    FromRun s (execSchedDb ag v s) := .of_run _
theorem fromRun_execParcelTake (card : Nat) (s : State) :
    FromRun s (execParcelTake card s) := by
  unfold execParcelTake; (try dsimp only); repeat (first | exact .of_run _ | split)
theorem fromRun_execParcelWaitEnd (i : Nat) (s : State) :
    FromRun s (execParcelWaitEnd i s) := by
  unfold execParcelWaitEnd; (try dsimp only); repeat (first | exact .of_run _ | split)
theorem fromRun_execParcelWaitTimeout (i : Nat) (s : State) :
    FromRun s (execParcelWaitTimeout i s) := by
  unfold execParcelWaitTimeout; (try dsimp only); repeat (first | exact .of_run _ | split)
theorem fromRun_execPermitGrant (s : State) :
    FromRun s (execPermitGrant s) := by
  unfold execPermitGrant; (try dsimp only); repeat (first | exact .of_run _ | split)
theorem fromRun_execPermitTimeout (i : Nat) (s : State) :
    FromRun s (execPermitTimeout i s) := by
  unfold execPermitTimeout; (try dsimp only); repeat (first | exact .of_run _ | split)
theorem fromRun_execParcelComplete (i : Nat) (s : State) :
    FromRun s (execParcelComplete i s) := by
  unfold execParcelComplete; (try dsimp only); repeat (first | exact .of_run _ | split)
theorem fromRun_execMailboxDeliver (n : Nat) (s : State) :
    FromRun s (execMailboxDeliver n s) := by
  unfold execMailboxDeliver; (try dsimp only); repeat (first | exact .of_run _ | split)
theorem fromRun_execMailboxTxTake (n : Nat) (s : State) :
    FromRun s (execMailboxTxTake n s) := by
  unfold execMailboxTxTake; (try dsimp only); repeat (first | exact .of_run _ | split)
theorem fromRun_execFwpRestartRequest (ag : Agent) (p : Nat) (s : State) :
    FromRun s (execFwpRestartRequest ag p s) := .of_run _
theorem fromRun_execFwpRestartEnd (p : Nat) (s : State) :
    FromRun s (execFwpRestartEnd p s) := by
  unfold execFwpRestartEnd; (try dsimp only); repeat (first | exact .of_run _ | split)
theorem fromRun_execFwpKick (p : Nat) (s : State) :
    FromRun s (execFwpKick p s) := .of_run _
theorem fromRun_execWatchdogExpiry (p : Nat) (s : State) :
    FromRun s (execWatchdogExpiry p s) := by
  unfold execWatchdogExpiry; (try dsimp only); repeat (first | exact .of_run _ | split)
theorem fromRun_execFwFlashWriteEnd (s : State) :
    FromRun s (execFwFlashWriteEnd s) := by
  unfold execFwFlashWriteEnd; (try dsimp only); repeat (first | exact .of_run _ | split)
theorem fromRun_execSchedHeartbeat (ag : Agent) (v : W32) (s : State) :
    FromRun s (execSchedHeartbeat ag v s) := .of_run _
theorem fromRun_execLeaseExpiry (n : Nat) (s : State) :
    FromRun s (execLeaseExpiry n s) := by
  unfold execLeaseExpiry; (try dsimp only); repeat (first | exact .of_run _ | split)
theorem fromRun_execHoldExpiry (n : Nat) (s : State) :
    FromRun s (execHoldExpiry n s) := by
  unfold execHoldExpiry; (try dsimp only); repeat (first | exact .of_run _ | split)
theorem fromRun_execSessionRelease (n : Nat) (s : State) :
    FromRun s (execSessionRelease n s) := by
  unfold execSessionRelease; (try dsimp only); repeat (first | exact .of_run _ | split)
theorem fromRun_execHello (s : State) :
    FromRun s (execHello s) := by
  unfold execHello; (try dsimp only); repeat (first | exact .of_run _ | split)
theorem fromRun_execBye (s : State) :
    FromRun s (execBye s) := .of_run _
theorem fromRun_execHeartbeat (s : State) :
    FromRun s (execHeartbeat s) := .of_run _
theorem fromRun_execLeaseCfg (s : State) :
    FromRun s (execLeaseCfg s) := .of_run _
theorem fromRun_execSubmit (s : State) :
    FromRun s (execSubmit s) := .of_run _
theorem fromRun_execCardSync (s : State) :
    FromRun s (execCardSync s) := .of_run _
theorem fromRun_execDoorbell (s : State) :
    FromRun s (execDoorbell s) := .of_run _
theorem fromRun_execTallyAlloc (s : State) :
    FromRun s (execTallyAlloc s) := .of_run _
theorem fromRun_execTallyFree (s : State) :
    FromRun s (execTallyFree s) := .of_run _
theorem fromRun_execTallyOpTsig (s : State) :
    FromRun s (execTallyOpTsig s) := .of_run _
theorem fromRun_execTallyOpTadd (s : State) :
    FromRun s (execTallyOpTadd s) := .of_run _
theorem fromRun_execTallyOpTread (s : State) :
    FromRun s (execTallyOpTread s) := .of_run _
theorem fromRun_execTallyWatch (s : State) :
    FromRun s (execTallyWatch s) := .of_run _
theorem fromRun_execTallyWatchTimeout (session seq : Nat) (s : State) :
    FromRun s (execTallyWatchTimeout session seq s) := by
  unfold execTallyWatchTimeout; (try dsimp only); repeat (first | exact .of_run _ | split)
theorem fromRun_execRead (s : State) :
    FromRun s (execRead s) := .of_run _
theorem fromRun_execWrite (s : State) :
    FromRun s (execWrite s) := .of_run _
theorem fromRun_execSnapshot (s : State) :
    FromRun s (execSnapshot s) := .of_run _
theorem fromRun_execRegRead (s : State) :
    FromRun s (execRegRead s) := .of_run _
theorem fromRun_execRegWrite (s : State) :
    FromRun s (execRegWrite s) := .of_run _
theorem fromRun_execLogRead (s : State) :
    FromRun s (execLogRead s) := .of_run _
theorem fromRun_execPowerState (s : State) :
    FromRun s (execPowerState s) := .of_run _
theorem fromRun_execPowerCap (s : State) :
    FromRun s (execPowerCap s) := .of_run _
theorem fromRun_execPaceBind (s : State) :
    FromRun s (execPaceBind s) := .of_run _
theorem fromRun_execPace (s : State) :
    FromRun s (execPace s) := .of_run _
theorem fromRun_execPaceResend (s : State) :
    FromRun s (execPaceResend s) := by
  unfold execPaceResend; (try dsimp only); repeat (first | exact .of_run _ | split)
theorem fromRun_execPropose (s : State) :
    FromRun s (execPropose s) := .of_run _
theorem fromRun_execCountersign (s : State) :
    FromRun s (execCountersign s) := by
  unfold execCountersign; (try dsimp only); repeat (first | exact .of_run _ | split)
theorem fromRun_execAttest (s : State) :
    FromRun s (execAttest s) := .of_run _
theorem fromRun_execFwUpdate (s : State) :
    FromRun s (execFwUpdate s) := .of_run _
theorem fromRun_execMessageUnknownOpcode (s : State) :
    FromRun s (execMessageUnknownOpcode s) := by
  unfold execMessageUnknownOpcode; (try dsimp only); repeat (first | exact .of_run _ | split)
theorem fromRun_execReassemblyTimeout (n : Nat) (s : State) :
    FromRun s (execReassemblyTimeout n s) := by
  unfold execReassemblyTimeout; (try dsimp only); repeat (first | exact .of_run _ | split)
theorem fromRun_execEthFrameRx (n : Nat) (raw : List Byte) (fcsOk : Bool) (s : State) :
    FromRun s (execEthFrameRx n raw fcsOk s) := by
  unfold execEthFrameRx; (try dsimp only); repeat (first | exact .of_run _ | split)
theorem fromRun_execEthFrameTxStart (n : Nat) (s : State) :
    FromRun s (execEthFrameTxStart n s) := .of_run _
theorem fromRun_execGateControlEntry (n : Nat) (s : State) :
    FromRun s (execGateControlEntry n s) := by
  unfold execGateControlEntry; (try dsimp only); repeat (first | exact .of_run _ | split)
theorem fromRun_execQbvChange (ag : Agent) (n : BitVec 2) (v : W32) (s : State) :
    FromRun s (execQbvChange ag n v s) := .of_run _
theorem fromRun_execQbvConfigChange (n : Nat) (s : State) :
    FromRun s (execQbvConfigChange n s) := by
  unfold execQbvConfigChange; (try dsimp only); repeat (first | exact .of_run _ | split)
theorem fromRun_execLinkDown (n : Nat) (fault : Bool) (s : State) :
    FromRun s (execLinkDown n fault s) := by
  unfold execLinkDown; (try dsimp only); repeat (first | exact .of_run _ | split)
theorem fromRun_execLinkUp (n : Nat) (verified : Bool) (s : State) :
    FromRun s (execLinkUp n verified s) := by
  unfold execLinkUp; (try dsimp only); repeat (first | exact .of_run _ | split)
theorem fromRun_execEthTblRead (s : State) :
    FromRun s (execEthTblRead s) := by
  unfold execEthTblRead; (try dsimp only); repeat (first | exact .of_run _ | split)
theorem fromRun_execEthTblWrite (s : State) :
    FromRun s (execEthTblWrite s) := by
  unfold execEthTblWrite; (try dsimp only); repeat (first | exact .of_run _ | split)
theorem fromRun_execFdbAgeOut (i : Nat) (s : State) :
    FromRun s (execFdbAgeOut i s) := by
  unfold execFdbAgeOut; (try dsimp only); repeat (first | exact .of_run _ | split)
theorem fromRun_execCbHistoryReset (i : Nat) (s : State) :
    FromRun s (execCbHistoryReset i s) := by
  unfold execCbHistoryReset; (try dsimp only); repeat (first | exact .of_run _ | split)
theorem fromRun_execSakRekey (n : Nat) (s : State) :
    FromRun s (execSakRekey n s) := by
  unfold execSakRekey; (try dsimp only); repeat (first | exact .of_run _ | split)
theorem fromRun_execEthFlowDb (ag : Agent) (v : W32) (s : State) :
    FromRun s (execEthFlowDb ag v s) := .of_run _
theorem fromRun_execFlowTxTake (n : Nat) (s : State) :
    FromRun s (execFlowTxTake n s) := by
  unfold execFlowTxTake; (try dsimp only); repeat (first | exact .of_run _ | split)
theorem fromRun_execMuteEngage (s : State) :
    FromRun s (execMuteEngage s) := by
  unfold execMuteEngage; (try dsimp only); repeat (first | exact .of_run _ | split)
theorem fromRun_execMuteRelease (s : State) :
    FromRun s (execMuteRelease s) := by
  unfold execMuteRelease; (try dsimp only); repeat (first | exact .of_run _ | split)
theorem fromRun_execMicClockStart (n : Nat) (s : State) :
    FromRun s (execMicClockStart n s) := by
  unfold execMicClockStart; (try dsimp only); repeat (first | exact .of_run _ | split)
theorem fromRun_execArchiveRowComplete (samples : List (List (BitVec 16))) (s : State) :
    FromRun s (execArchiveRowComplete samples s) := by
  unfold execArchiveRowComplete; (try dsimp only); repeat (first | exact .of_run _ | split)
theorem fromRun_execArchiveCopy (ag : Agent) (v : W32) (s : State) :
    FromRun s (execArchiveCopy ag v s) := .of_run _
theorem fromRun_execArchiveCopyEnd (s : State) :
    FromRun s (execArchiveCopyEnd s) := by
  unfold execArchiveCopyEnd; (try dsimp only); repeat (first | exact .of_run _ | split)
theorem fromRun_execLoupeFrame (n : Nat) (xs : List (BitVec 16)) (s : State) :
    FromRun s (execLoupeFrame n xs s) := by
  unfold execLoupeFrame; (try dsimp only); repeat (first | exact .of_run _ | split)
theorem fromRun_execLensHop (n k : Nat) (s : State) :
    FromRun s (execLensHop n k s) := by
  unfold execLensHop; (try dsimp only); repeat (first | exact .of_run _ | split)
theorem fromRun_execMicBlockDeliver (n : Nat) (mics : List (List (BitVec 16))) (s : State) :
    FromRun s (execMicBlockDeliver n mics s) := by
  unfold execMicBlockDeliver; (try dsimp only); repeat (first | exact .of_run _ | split)
theorem fromRun_execOutputBlockPlay (n : Nat) (s : State) :
    FromRun s (execOutputBlockPlay n s) := by
  unfold execOutputBlockPlay; (try dsimp only); repeat (first | exact .of_run _ | split)
theorem fromRun_execAudRingDb (ag : Agent) (v : W32) (s : State) :
    FromRun s (execAudRingDb ag v s) := .of_run _
theorem fromRun_execCameraFrameStart (port vc fnum : Nat) (ecc1 : Bool) (s : State) :
    FromRun s (execCameraFrameStart port vc fnum ecc1 s) := by
  unfold execCameraFrameStart; (try dsimp only); repeat (first | exact .of_run _ | split)
theorem fromRun_execCsiLine (port vc dt : Nat) (px : List Nat) (crcOk ecc1 : Bool) (s : State) :
    FromRun s (execCsiLine port vc dt px crcOk ecc1 s) := by
  unfold execCsiLine; (try dsimp only); repeat (first | exact .of_run _ | split)
theorem fromRun_execEmbeddedDataPacket (port vc : Nat) (data : List Byte) (found : PacketCheck) (s : State) :
    FromRun s (execEmbeddedDataPacket port vc data found s) := by
  unfold execEmbeddedDataPacket; (try dsimp only); repeat (first | exact .of_run _ | split)
theorem fromRun_execCameraFrameEnd (port vc : Nat) (ecc1 : Bool) (s : State) :
    FromRun s (execCameraFrameEnd port vc ecc1 s) := by
  unfold execCameraFrameEnd; (try dsimp only); repeat (first | exact .of_run _ | split)
theorem fromRun_execFrameWatchdogExpiry (n : Nat) (s : State) :
    FromRun s (execFrameWatchdogExpiry n s) := by
  unfold execFrameWatchdogExpiry; (try dsimp only); repeat (first | exact .of_run _ | split)
theorem fromRun_execIspLineProcess (pipe : Nat) (s : State) :
    FromRun s (execIspLineProcess pipe s) := by
  unfold execIspLineProcess; (try dsimp only); repeat (first | exact .of_run _ | split)
theorem fromRun_execFrameDeliver (n : Nat) (s : State) :
    FromRun s (execFrameDeliver n s) := by
  unfold execFrameDeliver; (try dsimp only); repeat (first | exact .of_run _ | split)
theorem fromRun_execCsiRingDb (ag : Agent) (v : W32) (s : State) :
    FromRun s (execCsiRingDb ag v s) := .of_run _
theorem fromRun_execIspArm (ag : Agent) (stream : BitVec 4) (v : W32) (s : State) :
    FromRun s (execIspArm ag stream v s) := .of_run _
theorem fromRun_execFsyncEdge (k : Nat) (s : State) :
    FromRun s (execFsyncEdge k s) := by
  unfold execFsyncEdge; (try dsimp only); repeat (first | exact .of_run _ | split)
theorem fromRun_execI3cXfer (ag : Agent) (bus : BitVec 2) (v : W32) (s : State) :
    FromRun s (execI3cXfer ag bus v s) := .of_run _
theorem fromRun_execI3cXferStart (k : Nat) (s : State) :
    FromRun s (execI3cXferStart k s) := by
  unfold execI3cXferStart; (try dsimp only); repeat (first | exact .of_run _ | split)
theorem fromRun_execI3cXferDone (k : Nat) (nack : Bool) (data : List Byte) (s : State) :
    FromRun s (execI3cXferDone k nack data s) := by
  unfold execI3cXferDone; (try dsimp only); repeat (first | exact .of_run _ | split)
theorem fromRun_execLadderEnable (ag : Agent) (v : W32) (s : State) :
    FromRun s (execLadderEnable ag v s) := .of_run _
theorem fromRun_execLadderDisable (ag : Agent) (s : State) :
    FromRun s (execLadderDisable ag s) := .of_run _
theorem fromRun_execLadderReload (ag : Agent) (s : State) :
    FromRun s (execLadderReload ag s) := .of_run _
theorem fromRun_execVerdictDeadline (k : Nat) (s : State) :
    FromRun s (execVerdictDeadline k s) := by
  unfold execVerdictDeadline; (try dsimp only); repeat (first | exact .of_run _ | split)
theorem fromRun_execDemotionExpiry (k : Nat) (s : State) :
    FromRun s (execDemotionExpiry k s) := by
  unfold execDemotionExpiry; (try dsimp only); repeat (first | exact .of_run _ | split)
theorem fromRun_execPeriodicSubmit (k : Nat) (s : State) :
    FromRun s (execPeriodicSubmit k s) := by
  unfold execPeriodicSubmit; (try dsimp only); repeat (first | exact .of_run _ | split)
theorem fromRun_execTicketMove (s : State) :
    FromRun s (execTicketMove s) := by
  unfold execTicketMove; (try dsimp only); repeat (first | exact .of_run _ | split)
theorem fromRun_execAudLadAck (ag : Agent) (v : W32) (s : State) :
    FromRun s (execAudLadAck ag v s) := .of_run _
theorem fromRun_execPwrStateRequest (ag : Agent) (target : BitVec 3) (s : State) :
    FromRun s (execPwrStateRequest ag target s) := .of_run _
theorem fromRun_execPowerEntryBegin (s : State) :
    FromRun s (execPowerEntryBegin s) := by
  unfold execPowerEntryBegin; (try dsimp only); repeat (first | exact .of_run _ | split)
theorem fromRun_execPowerDrainTimeout (s : State) :
    FromRun s (execPowerDrainTimeout s) := by
  unfold execPowerDrainTimeout; (try dsimp only); repeat (first | exact .of_run _ | split)
theorem fromRun_execDeepSleepEntryBegin (s : State) :
    FromRun s (execDeepSleepEntryBegin s) := by
  unfold execDeepSleepEntryBegin; (try dsimp only); repeat (first | exact .of_run _ | split)
theorem fromRun_execPowerEntryComplete (s : State) :
    FromRun s (execPowerEntryComplete s) := by
  unfold execPowerEntryComplete; (try dsimp only); repeat (first | exact .of_run _ | split)
theorem fromRun_execAutoIdleEntry (s : State) :
    FromRun s (execAutoIdleEntry s) := by
  unfold execAutoIdleEntry; (try dsimp only); repeat (first | exact .of_run _ | split)
theorem fromRun_execWakePin (s : State) :
    FromRun s (execWakePin s) := by
  unfold execWakePin; (try dsimp only); repeat (first | exact .of_run _ | split)
theorem fromRun_execWakeTimer (s : State) :
    FromRun s (execWakeTimer s) := by
  unfold execWakeTimer; (try dsimp only); repeat (first | exact .of_run _ | split)
theorem fromRun_execPowerReturn (s : State) :
    FromRun s (execPowerReturn s) := by
  unfold execPowerReturn; (try dsimp only); repeat (first | exact .of_run _ | split)
theorem fromRun_execClusterWake (c : Nat) (s : State) :
    FromRun s (execClusterWake c s) := by
  unfold execClusterWake; (try dsimp only); repeat (first | exact .of_run _ | split)
theorem fromRun_execDvfsTargetWrite (ag : Agent) (c : Nat) (v : BitVec 2) (s : State) :
    FromRun s (execDvfsTargetWrite ag c v s) := .of_run _
theorem fromRun_execClkDivWrite (ag : Agent) (c : Nat) (v : BitVec 2) (s : State) :
    FromRun s (execClkDivWrite ag c v s) := .of_run _
theorem fromRun_execDvfsVselWrite (ag : Agent) (c : Nat) (v : BitVec 2) (s : State) :
    FromRun s (execDvfsVselWrite ag c v s) := .of_run _
theorem fromRun_execDvfsStepEnd (c : Nat) (s : State) :
    FromRun s (execDvfsStepEnd c s) := by
  unfold execDvfsStepEnd; (try dsimp only); repeat (first | exact .of_run _ | split)
theorem fromRun_execVstepAck (s : State) :
    FromRun s (execVstepAck s) := by
  unfold execVstepAck; (try dsimp only); repeat (first | exact .of_run _ | split)
theorem fromRun_execVstepTimeout (s : State) :
    FromRun s (execVstepTimeout s) := by
  unfold execVstepTimeout; (try dsimp only); repeat (first | exact .of_run _ | split)
theorem fromRun_execLedgerRefill (s : State) :
    FromRun s (execLedgerRefill s) := by
  unfold execLedgerRefill; (try dsimp only); repeat (first | exact .of_run _ | split)
theorem fromRun_execLedgerRateUpdate (powerMw fixedMw : Nat) (hostUp hostDown : Bool) (s : State) :
    FromRun s (execLedgerRateUpdate powerMw fixedMw hostUp hostDown s) := by
  unfold execLedgerRateUpdate; (try dsimp only); repeat (first | exact .of_run _ | split)
theorem fromRun_execPwrCapWrite (ag : Agent) (v : W32) (s : State) :
    FromRun s (execPwrCapWrite ag v s) := .of_run _
theorem fromRun_execPwrModeWrite (ag : Agent) (v : W32) (s : State) :
    FromRun s (execPwrModeWrite ag v s) := .of_run _
theorem fromRun_execDroopDetect (c : Nat) (s : State) :
    FromRun s (execDroopDetect c s) := by
  unfold execDroopDetect; (try dsimp only); repeat (first | exact .of_run _ | split)
theorem fromRun_execDroopStretchEnd (c : Nat) (s : State) :
    FromRun s (execDroopStretchEnd c s) := by
  unfold execDroopStretchEnd; (try dsimp only); repeat (first | exact .of_run _ | split)
theorem fromRun_execTempSample (temps : List (BitVec 8)) (s : State) :
    FromRun s (execTempSample temps s) := by
  unfold execTempSample; (try dsimp only); repeat (first | exact .of_run _ | split)
theorem fromRun_execThermalTrip (s : State) :
    FromRun s (execThermalTrip s) := .of_run _
theorem fromRun_execCoreFence (core cause : Nat) (s : State) :
    FromRun s (execCoreFence core cause s) := by
  unfold execCoreFence; (try dsimp only); repeat (first | exact .of_run _ | split)
theorem fromRun_execHangDetect (core : Nat) (s : State) :
    FromRun s (execHangDetect core s) := by
  unfold execHangDetect; (try dsimp only); repeat (first | exact .of_run _ | split)
theorem fromRun_execSupplyMonitorFence (cl : Nat) (s : State) :
    FromRun s (execSupplyMonitorFence cl s) := by
  unfold execSupplyMonitorFence; (try dsimp only); repeat (first | exact .of_run _ | split)
theorem fromRun_execFixFence (ag : Agent) (v : W32) (s : State) :
    FromRun s (execFixFence ag v s) := .of_run _
theorem fromRun_execEntryCheckEnd (core : Nat) (pass : Bool) (s : State) :
    FromRun s (execEntryCheckEnd core pass s) := by
  unfold execEntryCheckEnd; (try dsimp only); repeat (first | exact .of_run _ | split)
theorem fromRun_execDegradedTimeout (i : Nat) (s : State) :
    FromRun s (execDegradedTimeout i s) := by
  unfold execDegradedTimeout; (try dsimp only); repeat (first | exact .of_run _ | split)
theorem fromRun_execLedgerAppend (s : State) :
    FromRun s (execLedgerAppend s) := by
  unfold execLedgerAppend; (try dsimp only); repeat (first | exact .of_run _ | split)
theorem fromRun_execLedgerCompact (s : State) :
    FromRun s (execLedgerCompact s) := by
  unfold execLedgerCompact; (try dsimp only); repeat (first | exact .of_run _ | split)
theorem fromRun_execSpareBistStart (core : Nat) (s : State) :
    FromRun s (execSpareBistStart core s) := by
  unfold execSpareBistStart; (try dsimp only); repeat (first | exact .of_run _ | split)
theorem fromRun_execBistEnd (core fails : Nat) (column : W32) (s : State) :
    FromRun s (execBistEnd core fails column s) := by
  unfold execBistEnd; (try dsimp only); repeat (first | exact .of_run _ | split)
theorem fromRun_execReinstateBist (core : Nat) (s : State) :
    FromRun s (execReinstateBist core s) := by
  unfold execReinstateBist; (try dsimp only); repeat (first | exact .of_run _ | split)
theorem fromRun_execRollingSwapStart (s : State) :
    FromRun s (execRollingSwapStart s) := by
  unfold execRollingSwapStart; (try dsimp only); repeat (first | exact .of_run _ | split)
theorem fromRun_execRollingSwapTimeout (s : State) :
    FromRun s (execRollingSwapTimeout s) := by
  unfold execRollingSwapTimeout; (try dsimp only); repeat (first | exact .of_run _ | split)
theorem fromRun_execRollingSwapCopyEnd (s : State) :
    FromRun s (execRollingSwapCopyEnd s) := by
  unfold execRollingSwapCopyEnd; (try dsimp only); repeat (first | exact .of_run _ | split)
theorem fromRun_execSettleEnd (s : State) :
    FromRun s (execSettleEnd s) := by
  unfold execSettleEnd; (try dsimp only); repeat (first | exact .of_run _ | split)
theorem fromRun_execTenantSwitchEnd (s : State) :
    FromRun s (execTenantSwitchEnd s) := by
  unfold execTenantSwitchEnd; (try dsimp only); repeat (first | exact .of_run _ | split)
theorem fromRun_execModelMeasure (ag : Agent) (v : W32) (s : State) :
    FromRun s (execModelMeasure ag v s) := .of_run _
theorem fromRun_execModelMeasureEnd (s : State) :
    FromRun s (execModelMeasureEnd s) := by
  unfold execModelMeasureEnd; (try dsimp only); repeat (first | exact .of_run _ | split)
theorem fromRun_execTopSnapArm (ag : Agent) (s : State) :
    FromRun s (execTopSnapArm ag s) := .of_run _
theorem fromRun_execTopSnapCancel (ag : Agent) (s : State) :
    FromRun s (execTopSnapCancel ag s) := .of_run _
theorem fromRun_execSnapshotTake (s : State) :
    FromRun s (execSnapshotTake s) := by
  unfold execSnapshotTake; (try dsimp only); repeat (first | exact .of_run _ | split)
theorem fromRun_execObsTrcAck (ag : Agent) (v : W32) (s : State) :
    FromRun s (execObsTrcAck ag v s) := .of_run _
theorem fromRun_execErrSumClear (ag : Agent) (v : W32) (s : State) :
    FromRun s (execErrSumClear ag v s) := .of_run _
theorem fromRun_execUart1Send (ag : Agent) (b : Byte) (s : State) :
    FromRun s (execUart1Send ag b s) := .of_run _
theorem fromRun_execUart1ReceiveRead (ag : Agent) (s : State) :
    FromRun s (execUart1ReceiveRead ag s) := .of_run _
theorem fromRun_execUart1ByteRx (b : Byte) (s : State) :
    FromRun s (execUart1ByteRx b s) := .of_run _
theorem fromRun_execIllegalInstr (ag : Agent) (w0 w1 : W32) (s : State) :
    FromRun s (execIllegalInstr ag w0 w1 s) := by
  unfold execIllegalInstr; (try dsimp only); repeat (first | exact .of_run _ | split)
theorem fromRun_execGptpMessageInterval (d : Nat) (s : State) :
    FromRun s (execGptpMessageInterval d s) := by
  unfold execGptpMessageInterval; (try dsimp only); repeat (first | exact .of_run _ | split)
theorem fromRun_execMkaTimer (n : Nat) (s : State) :
    FromRun s (execMkaTimer n s) := by
  unfold execMkaTimer; (try dsimp only); repeat (first | exact .of_run _ | split)
theorem fromRun_execCsiLinkStateChange (port link : Nat) (deskewed : Bool) (s : State) :
    FromRun s (execCsiLinkStateChange port link deskewed s) := by
  unfold execCsiLinkStateChange; (try dsimp only); repeat (first | exact .of_run _ | split)
theorem fromRun_execCsiPacketDiscard (port cause : Nat) (s : State) :
    FromRun s (execCsiPacketDiscard port cause s) := by
  unfold execCsiPacketDiscard; (try dsimp only); repeat (first | exact .of_run _ | split)
theorem fromRun_execUart1ByteSent (s : State) :
    FromRun s (execUart1ByteSent s) := .of_run _
theorem fromRun_execJtagTckEdge (tms tdi trstN : Bool) (s : State) :
    FromRun s (execJtagTckEdge tms tdi trstN s) := by
  unfold execJtagTckEdge; (try dsimp only); repeat (first | exact .of_run _ | split)

end Sys2Proof.Machine
end

