-- ==== Sys2Proof/Laws/SMap.lean ====
section
/-! SUPPORT. Laws of sparse maps: a read after a write, and that every operation keeps the canonical form. -/

namespace Sys2Proof.SMap

variable {α : Type}

/-- Every key of a map is above a bound. -/
def above (b : Nat) (m : SMap α) : Prop := ∀ c ∈ m, b < c.1

theorem rising_cons {k : Nat} {v : α} {m : SMap α} (h : rising ((k, v) :: m) = true) : above k m ∧ rising m = true := by
  induction m generalizing k v with
  | nil => exact ⟨by simp [above], rfl⟩
  | cons c m ih =>
    obtain ⟨k', v'⟩ := c
    simp only [rising, Bool.and_eq_true, decide_eq_true_eq] at h
    obtain ⟨ha, hr⟩ := ih h.2
    refine ⟨fun d hd => ?_, h.2⟩
    rcases List.mem_cons.mp hd with rfl | hm
    · exact h.1
    · exact h.1.trans (ha d hm)

theorem rising_cons_of {k : Nat} {v : α} {m : SMap α} (ha : above k m) (hr : rising m = true) :
    rising ((k, v) :: m) = true := by
  cases m with
  | nil => rfl
  | cons c m =>
    obtain ⟨k', v'⟩ := c
    simp only [rising, Bool.and_eq_true, decide_eq_true_eq]
    exact ⟨ha (k', v') (by simp), hr⟩

theorem above_erase {b key : Nat} {m : SMap α} (h : above b m) : above b (erase m key) := by
  induction m with
  | nil => exact h
  | cons c m ih =>
    obtain ⟨k, v⟩ := c
    unfold erase
    split
    · exact fun d hd => h d (List.mem_cons_of_mem _ hd)
    · intro d hd
      rcases List.mem_cons.mp hd with rfl | hm
      · exact h _ (by simp)
      · exact ih (fun d hd => h d (List.mem_cons_of_mem _ hd)) d hm

theorem above_insert {b key : Nat} {x : α} {m : SMap α} (h : above b m) (hk : b < key) : above b (insert m key x) := by
  induction m with
  | nil => intro d hd; simp only [insert, List.mem_singleton] at hd; subst hd; exact hk
  | cons c m ih =>
    obtain ⟨k, v⟩ := c
    have hm : above b m := fun d hd => h d (List.mem_cons_of_mem _ hd)
    unfold insert
    split
    · intro d hd
      rcases List.mem_cons.mp hd with rfl | hd
      · exact hk
      · exact h d hd
    · split
      · intro d hd
        rcases List.mem_cons.mp hd with rfl | hd
        · exact hk
        · exact hm d hd
      · intro d hd
        rcases List.mem_cons.mp hd with rfl | hd
        · exact h _ (by simp)
        · exact ih hm d hd

/-- Removing a key keeps the keys rising. -/
theorem rising_erase {m : SMap α} (h : rising m = true) (key : Nat) : rising (erase m key) = true := by
  induction m with
  | nil => rfl
  | cons c m ih =>
    obtain ⟨k, v⟩ := c
    obtain ⟨ha, hr⟩ := rising_cons h
    unfold erase
    split
    · exact hr
    · exact rising_cons_of (above_erase ha) (ih hr)

/-- Listing a key keeps the keys rising. -/
theorem rising_insert {m : SMap α} (h : rising m = true) (key : Nat) (x : α) : rising (insert m key x) = true := by
  induction m with
  | nil => rfl
  | cons c m ih =>
    obtain ⟨k, v⟩ := c
    obtain ⟨ha, hr⟩ := rising_cons h
    unfold insert
    split
    · rename_i hk
      exact rising_cons_of (fun d hd => by
        rcases List.mem_cons.mp hd with rfl | hd
        · exact hk
        · exact hk.trans (ha d hd)) h
    · split
      · rename_i hk
        subst hk
        exact rising_cons_of ha hr
      · exact rising_cons_of (above_insert ha (by omega)) (ih hr)

/-- Keeping some of the entries keeps the keys rising. -/
theorem rising_filter {m : SMap α} (h : rising m = true) (p : Nat × α → Bool) : rising (m.filter p) = true := by
  induction m with
  | nil => rfl
  | cons c m ih =>
    obtain ⟨k, v⟩ := c
    obtain ⟨ha, hr⟩ := rising_cons h
    rw [List.filter_cons]
    split
    · exact rising_cons_of (fun d hd => ha d (List.mem_filter.mp hd).1) (ih hr)
    · exact ih hr

theorem mem_erase {m : SMap α} {key : Nat} {c : Nat × α} (h : c ∈ erase m key) : c ∈ m := by
  induction m with
  | nil => exact h
  | cons d m ih =>
    obtain ⟨k, v⟩ := d
    unfold erase at h
    split at h
    · exact List.mem_cons_of_mem _ h
    · rcases List.mem_cons.mp h with rfl | h
      · simp
      · exact List.mem_cons_of_mem _ (ih h)

theorem mem_insert {m : SMap α} {key : Nat} {x : α} {c : Nat × α} (h : c ∈ insert m key x) : c = (key, x) ∨ c ∈ m := by
  induction m with
  | nil => left; simpa [insert] using h
  | cons d m ih =>
    obtain ⟨k, v⟩ := d
    unfold insert at h
    split at h
    · rcases List.mem_cons.mp h with rfl | h
      · exact .inl rfl
      · exact .inr h
    · split at h
      · rcases List.mem_cons.mp h with rfl | h
        · exact .inl rfl
        · exact .inr (List.mem_cons_of_mem _ h)
      · rcases List.mem_cons.mp h with rfl | h
        · exact .inr (by simp)
        · rcases ih h with h | h
          · exact .inl h
          · exact .inr (List.mem_cons_of_mem _ h)

/-! ## The canonical form -/

variable [DecidableEq α]

theorem wf_iff (d : Nat → α) (m : SMap α) : wf d m = true ↔ rising m = true ∧ ∀ c ∈ m, c.2 ≠ d c.1 := by
  simp [wf]

/-- Writing a value keeps the canonical form, whatever the value. -/
theorem wf_set {d : Nat → α} {m : SMap α} (h : wf d m = true) (key : Nat) (x : α) : wf d (set (d key) m key x) = true := by
  rw [wf_iff] at h ⊢
  unfold set
  split
  · exact ⟨rising_erase h.1 key, fun c hc => h.2 c (mem_erase hc)⟩
  · rename_i hx
    refine ⟨rising_insert h.1 key x, fun c hc => ?_⟩
    rcases mem_insert hc with rfl | hc
    · exact hx
    · exact h.2 c hc

/-- Keeping some of the entries keeps the canonical form. -/
theorem wf_filter {d : Nat → α} {m : SMap α} (h : wf d m = true) (p : Nat × α → Bool) : wf d (m.filter p) = true := by
  rw [wf_iff] at h ⊢
  exact ⟨rising_filter h.1 p, fun c hc => h.2 c (List.mem_filter.mp hc).1⟩

/-! ## Reading after writing -/

omit [DecidableEq α] in
theorem find?_insert (m : SMap α) (key : Nat) (x : α) (j : Nat) :
    find? (insert m key x) j = if j = key then some x else find? m j := by
  induction m with
  | nil => simp [insert, find?, eq_comm]
  | cons c m ih =>
    obtain ⟨k, v⟩ := c
    unfold insert
    split
    · rename_i hk
      by_cases hj : j = key
      · simp [find?, hj]
      · simp [find?, hj, Ne.symm hj]
    · split
      · rename_i hk
        subst hk
        by_cases hj : j = k
        · simp [find?, hj]
        · simp [find?, hj, Ne.symm hj]
      · rename_i hk
        by_cases hj : k = j
        · subst hj
          simp [find?, hk]
        · simp only [find?, hj, if_false, ih]

omit [DecidableEq α] in
theorem find?_none_of_above {m : SMap α} {b : Nat} (h : above b m) : find? m b = none := by
  induction m with
  | nil => rfl
  | cons c m ih =>
    obtain ⟨k, v⟩ := c
    have : b < k := h (k, v) (by simp)
    simp only [find?, if_neg (show ¬ k = b by omega)]
    exact ih fun d hd => h d (List.mem_cons_of_mem _ hd)

omit [DecidableEq α] in
theorem find?_erase {m : SMap α} (h : rising m = true) (key j : Nat) :
    find? (erase m key) j = if j = key then none else find? m j := by
  induction m with
  | nil => simp [erase, find?]
  | cons c m ih =>
    obtain ⟨k, v⟩ := c
    obtain ⟨ha, hr⟩ := rising_cons h
    unfold erase
    split
    · rename_i hk
      subst hk
      by_cases hj : j = k
      · subst hj; simp [find?_none_of_above ha]
      · simp [find?, hj, Ne.symm hj]
    · rename_i hk
      by_cases hj : k = j
      · subst hj; simp [find?, hk]
      · simp only [find?, hj, if_false, ih hr]

/-- The key written reads as the value written, and every other key as before. -/
theorem get_set {m : SMap α} (h : rising m = true) (d : α) (key : Nat) (x : α) (e : α) (j : Nat) (he : j = key → e = d) :
    get e (set d m key x) j = if j = key then x else get e m j := by
  unfold get set
  by_cases hx : x = d
  · rw [if_pos hx, find?_erase h]
    by_cases hj : j = key
    · simp [hj, hx, he hj]
    · simp [hj]
  · rw [if_neg hx, find?_insert]
    by_cases hj : j = key <;> simp [hj]

omit [DecidableEq α] in
/-- What a key reads as is the default, or an entry's value. -/
theorem get_mem (d : α) (m : SMap α) (key : Nat) : get d m key = d ∨ ∃ c ∈ m, c.2 = get d m key := by
  induction m with
  | nil => exact .inl rfl
  | cons c m ih =>
    simp only [get, find?] at ih ⊢
    split
    · exact .inr ⟨c, .head _, rfl⟩
    · exact ih.imp_right fun ⟨c, h, e⟩ => ⟨c, .tail _ h, e⟩

end Sys2Proof.SMap
end

