-- ==== Sys2Proof/Laws/Reach.lean ====
section
/-! SUPPORT. What every run of primitive updates keeps: the queue of commands, the direction of time, and the canonical form of
every map of State. -/

namespace Sys2Proof.Machine

/-- Whatever every primitive update keeps, a run keeps. -/
theorem Reach.keeps {P : State → Prop} (h : ∀ u t, P t → P (Upd.apply u t)) {s t : State} (r : Reach s t) (hs : P s) : P t := by
  induction r with
  | refl => exact hs
  | upd _ u ih => exact h u _ ih

/-- A run never touches the queue of commands. -/
theorem Reach.pending {s t : State} (r : Reach s t) : t.pending = s.pending := by
  induction r with
  | refl => rfl
  | upd _ u ih => rw [Upd.apply_pending, ih]

/-- Fabric time never goes back (R29). -/
theorem Reach.now_le {s t : State} (r : Reach s t) : s.now ≤ t.now := by
  induction r with
  | refl => exact Nat.le_refl _
  | upd _ u ih =>
    refine ih.trans ?_
    rw [Upd.apply_now]
    split
    · exact Nat.le_max_left ..
    · exact Nat.le_refl _

/-- Where SLEEP loses nothing, what an unlisted byte reads as does not depend on the count of losses. -/
theorem memDefault_kept {a : Nat} (h : sleepLoses a = false) (l k : Nat) : memDefault l a = memDefault k a := by
  simp [memDefault, h]

/-- Dropping what SLEEP loses leaves a memory in canonical form under any count of losses. -/
theorem memWf_lose {m : SMap Byte} {l : Nat} (h : SMap.wf (memDefault l) m = true) (k : Nat) :
    SMap.wf (memDefault k) (m.filter fun c => !sleepLoses c.1) = true := by
  have hf := SMap.wf_filter h fun c => !sleepLoses c.1
  rw [SMap.wf_iff] at hf ⊢
  refine ⟨hf.1, fun c hc => ?_⟩
  have hk : sleepLoses c.1 = false := by simpa using (List.mem_filter.mp hc).2
  rw [memDefault_kept hk k l]
  exact hf.2 c hc

/-- Every primitive update keeps the memory's canonical form. -/
theorem Upd.keeps_memWf (u : Upd) (t : State) (h : t.memWf) : (Upd.apply u t).memWf := by
  cases u with
  | mem a b => exact SMap.wf_set h a b
  | lose => exact memWf_lose h _
  | wipe lo hi => exact SMap.wf_filter h _
  | fresh => exact memWf_lose h _
  | gang k g => cases g <;> exact h
  | _ => exact h

/-- Every primitive update keeps the registers' canonical form. -/
theorem Upd.keeps_regsWf (u : Upd) (t : State) (h : t.regsWf) : (Upd.apply u t).regsWf := by
  obtain ⟨hr, hm, hl⟩ := h
  cases u with
  | reg k v => exact ⟨SMap.wf_set hr k v, hm, hl⟩
  | mirror k v => exact ⟨hr, SMap.wf_set hm k v, hl⟩
  | latch k v => exact ⟨hr, hm, SMap.wf_set (d := fun _ => 0) hl k v⟩
  | gang k g => cases g <;> exact ⟨hr, hm, hl⟩
  | _ => exact ⟨hr, hm, hl⟩

/-- Every primitive update keeps the canonical form of the lists of harts, cores, gangs and tallies. -/
theorem Upd.keeps_unitsWf (u : Upd) (t : State) (h : t.unitsWf) : (Upd.apply u t).unitsWf := by
  obtain ⟨hh, hc, hg, ht⟩ := h
  cases u with
  | hart k x => exact ⟨SMap.wf_set (d := fun _ => {}) hh k x, hc, hg, ht⟩
  | core k x => exact ⟨hh, SMap.wf_set (d := fun _ => {}) hc k x, hg, ht⟩
  | tally k x => exact ⟨hh, hc, hg, SMap.wf_set (d := fun _ => {}) ht k x⟩
  | gang k g =>
    cases g with
    | none => exact ⟨hh, hc, SMap.rising_erase hg k, ht⟩
    | some x => exact ⟨hh, hc, SMap.rising_insert hg k x, ht⟩
  | _ => exact ⟨hh, hc, hg, ht⟩

/-- What a block reads as fabric time is at most 4 ns behind the master, and never ahead of it (R27). -/
theorem State.timeAt_near {s : State} (h : s.timesWf) (b : Nat) : s.now ≤ s.timeAt b + 4 ∧ s.timeAt b ≤ s.now := by
  have hc : (SMap.get (0, 0) s.copies b).1 ≤ 4 ∧ (SMap.get (0, 0) s.copies b).2 ≤ s.now := by
    rcases SMap.get_mem (0, 0) s.copies b with h0 | ⟨c, hc, he⟩
    · simp [h0]
    · rw [← he]; exact h c hc
  simp only [State.timeAt]
  omega

/-- Every primitive update keeps the local copies of fabric time close to the master. -/
theorem Upd.keeps_timesWf (u : Upd) (t : State) (h : t.timesWf) : (Upd.apply u t).timesWf := by
  cases u with
  | now n => exact fun c hc => ⟨(h c hc).1, (h c hc).2.trans (Nat.le_max_left ..)⟩
  | realign lags =>
    intro c hc
    obtain ⟨i, hi, rfl⟩ := List.mem_iff_getElem.mp hc
    simp only [Upd.apply, List.getElem_zipWith]
    exact ⟨by omega, (t.timeAt_near h _).2⟩
  | gang k g => cases g <;> exact h
  | _ => exact h

/-- Every primitive update keeps a state sound. -/
theorem Upd.keeps_sound (u : Upd) (t : State) (h : t.Sound) : (Upd.apply u t).Sound :=
  ⟨u.keeps_memWf t h.mem, u.keeps_regsWf t h.regs, u.keeps_unitsWf t h.units, u.keeps_timesWf t h.times⟩

/-- A run keeps a state sound. -/
theorem Reach.sound {s t : State} (r : Reach s t) (h : s.Sound) : t.Sound := r.keeps Upd.keeps_sound h

/-! ## Reading memory and registers after writing them -/

/-- A byte of memory after a byte has been written. -/
theorem byte_mem {s : State} (h : s.memWf) (a : Nat) (b : Byte) (i : Nat) :
    (Upd.apply (.mem a b) s).byte i = if i = a then b else s.byte i := by
  have hr := ((SMap.wf_iff _ _).mp h).1
  simp only [State.byte, Upd.apply_mem, Upd.apply_lost]
  exact SMap.get_set hr _ a b _ i fun hi => by rw [hi]

/-- A register after a register has been set. -/
theorem reg_reg {s : State} (h : s.regsWf) (k : Nat) (v : W32) (i : Nat) :
    (Upd.apply (.reg k v) s).reg i = if i = k then v else s.reg i := by
  have hr := ((SMap.wf_iff _ _).mp h.1).1
  simp only [State.reg, Upd.apply_regs]
  exact SMap.get_set hr _ k v _ i fun hi => by rw [hi]

end Sys2Proof.Machine
end

