-- ==== Sys2Proof/Laws/Exec.lean ====
section
/-! SUPPORT. Every command at once: its outcome is the end of a run, but for the commands that start the device again. -/

namespace Sys2Proof.Machine

/-- Every other command answers the end of a run of primitive updates. -/
theorem exec_fromRun (c : Instr) (s : State) (h : ¬ Reboots c) : FromRun s (exec c s) := by
  cases c with
  | powerOnReset => exact absurd trivial h
  | loHiReadLatch => exact fromRun_execLoHiReadLatch ..
  | registerWrite => exact fromRun_execRegisterWrite ..
  | timeTreeRealign => exact fromRun_execTimeTreeRealign ..
  | holdoverEntry => exact fromRun_execHoldoverEntry ..
  | topFtCtrlWrite => exact fromRun_execTopFtCtrlWrite ..
  | add => exact fromRun_execAdd ..
  | sub => exact fromRun_execSub ..
  | mul => exact fromRun_execMul ..
  | mulh => exact fromRun_execMulh ..
  | mulhu => exact fromRun_execMulhu ..
  | div => exact fromRun_execDiv ..
  | divu => exact fromRun_execDivu ..
  | rem => exact fromRun_execRem ..
  | remu => exact fromRun_execRemu ..
  | and => exact fromRun_execAnd ..
  | or => exact fromRun_execOr ..
  | xor => exact fromRun_execXor ..
  | shl => exact fromRun_execShl ..
  | shr => exact fromRun_execShr ..
  | sra => exact fromRun_execSra ..
  | min => exact fromRun_execMin ..
  | minu => exact fromRun_execMinu ..
  | max => exact fromRun_execMax ..
  | maxu => exact fromRun_execMaxu ..
  | clz => exact fromRun_execClz ..
  | popc => exact fromRun_execPopc ..
  | addp => exact fromRun_execAddp ..
  | addi => exact fromRun_execAddi ..
  | andi => exact fromRun_execAndi ..
  | ori => exact fromRun_execOri ..
  | xori => exact fromRun_execXori ..
  | shi => exact fromRun_execShi ..
  | li => exact fromRun_execLi ..
  | addx => exact fromRun_execAddx ..
  | cmp => exact fromRun_execCmp ..
  | pand => exact fromRun_execPand ..
  | por => exact fromRun_execPor ..
  | pxor => exact fromRun_execPxor ..
  | pandn => exact fromRun_execPandn ..
  | pnot => exact fromRun_execPnot ..
  | p2g => exact fromRun_execP2g ..
  | g2p => exact fromRun_execG2p ..
  | fadd => exact fromRun_execFadd ..
  | fsub => exact fromRun_execFsub ..
  | fmul => exact fromRun_execFmul ..
  | ffma => exact fromRun_execFfma ..
  | fmin => exact fromRun_execFmin ..
  | fmax => exact fromRun_execFmax ..
  | fabs => exact fromRun_execFabs ..
  | fneg => exact fromRun_execFneg ..
  | fmvGf => exact fromRun_execFmvGf ..
  | fmvFg => exact fromRun_execFmvFg ..
  | fexp2 => exact fromRun_execFexp2 ..
  | flog2 => exact fromRun_execFlog2 ..
  | frcp => exact fromRun_execFrcp ..
  | frsq => exact fromRun_execFrsq ..
  | fsig => exact fromRun_execFsig ..
  | ftanh => exact fromRun_execFtanh ..
  | cvt => exact fromRun_execCvt ..
  | add2 => exact fromRun_execAdd2 ..
  | mul2 => exact fromRun_execMul2 ..
  | fma2 => exact fromRun_execFma2 ..
  | min2 => exact fromRun_execMin2 ..
  | max2 => exact fromRun_execMax2 ..
  | ldb => exact fromRun_execLdb ..
  | ldbu => exact fromRun_execLdbu ..
  | ldh => exact fromRun_execLdh ..
  | ldhu => exact fromRun_execLdhu ..
  | ldw => exact fromRun_execLdw ..
  | ldwu => exact fromRun_execLdwu ..
  | ldd => exact fromRun_execLdd ..
  | stb => exact fromRun_execStb ..
  | sth => exact fromRun_execSth ..
  | stw => exact fromRun_execStw ..
  | std => exact fromRun_execStd ..
  | ldwAcq => exact fromRun_execLdwAcq ..
  | lddAcq => exact fromRun_execLddAcq ..
  | stwRel => exact fromRun_execStwRel ..
  | stdRel => exact fromRun_execStdRel ..
  | fenceAcq => exact fromRun_execFenceAcq ..
  | fenceRel => exact fromRun_execFenceRel ..
  | fenceAr => exact fromRun_execFenceAr ..
  | atomAdd => exact fromRun_execAtomAdd ..
  | atomMin => exact fromRun_execAtomMin ..
  | atomMax => exact fromRun_execAtomMax ..
  | atomAnd => exact fromRun_execAtomAnd ..
  | atomOr => exact fromRun_execAtomOr ..
  | atomXor => exact fromRun_execAtomXor ..
  | atomSwap => exact fromRun_execAtomSwap ..
  | atomCas => exact fromRun_execAtomCas ..
  | atomArAdd => exact fromRun_execAtomArAdd ..
  | atomArMin => exact fromRun_execAtomArMin ..
  | atomArMax => exact fromRun_execAtomArMax ..
  | atomArAnd => exact fromRun_execAtomArAnd ..
  | atomArOr => exact fromRun_execAtomArOr ..
  | atomArXor => exact fromRun_execAtomArXor ..
  | atomArSwap => exact fromRun_execAtomArSwap ..
  | atomArCas => exact fromRun_execAtomArCas ..
  | bra => exact fromRun_execBra ..
  | call => exact fromRun_execCall ..
  | jr => exact fromRun_execJr ..
  | bral => exact fromRun_execBral ..
  | nop => exact fromRun_execNop ..
  | exit => exact fromRun_execExit ..
  | bar => exact fromRun_execBar ..
  | yield => exact fromRun_execYield ..
  | yieldExpiry => exact fromRun_execYieldExpiry ..
  | upcall => exact fromRun_execUpcall ..
  | brk => exact fromRun_execBrk ..
  | tret => exact fromRun_execTret ..
  | snooze => exact fromRun_execSnooze ..
  | iflush => exact fromRun_execIflush ..
  | rds => exact fromRun_execRds ..
  | crd => exact fromRun_execCrd ..
  | cwr => exact fromRun_execCwr ..
  | cmsk => exact fromRun_execCmsk ..
  | timerInterruptPending => exact fromRun_execTimerInterruptPending ..
  | interruptTake => exact fromRun_execInterruptTake ..
  | shfl => exact fromRun_execShfl ..
  | ballot => exact fromRun_execBallot ..
  | any => exact fromRun_execAny ..
  | all => exact fromRun_execAll ..
  | radd => exact fromRun_execRadd ..
  | rmin => exact fromRun_execRmin ..
  | rmax => exact fromRun_execRmax ..
  | fradd => exact fromRun_execFradd ..
  | frmin => exact fromRun_execFrmin ..
  | frmax => exact fromRun_execFrmax ..
  | tsig => exact fromRun_execTsig ..
  | tadd => exact fromRun_execTadd ..
  | twait => exact fromRun_execTwait ..
  | tread => exact fromRun_execTread ..
  | twaitTimeout => exact fromRun_execTwaitTimeout ..
  | tdld => exact fromRun_execTdld ..
  | tdw => exact fromRun_execTdw ..
  | tdst => exact fromRun_execTdst ..
  | fmove => exact fromRun_execFmove ..
  | tmma => exact fromRun_execTmma ..
  | tdrain => exact fromRun_execTdrain ..
  | accScale => exact fromRun_execAccScale ..
  | tclr => exact fromRun_execTclr ..
  | trec => exact fromRun_execTrec ..
  | stateAudit => exact fromRun_execStateAudit ..
  | tsync => exact fromRun_execTsync ..
  | rope => exact fromRun_execRope ..
  | tmask => exact fromRun_execTmask ..
  | tsmaxStep => exact fromRun_execTsmaxStep ..
  | tsmaxFinal => exact fromRun_execTsmaxFinal ..
  | tsmaxMerge => exact fromRun_execTsmaxMerge ..
  | tsmaxInit => exact fromRun_execTsmaxInit ..
  | tensorInstrStart => exact fromRun_execTensorInstrStart ..
  | tensorInstrFinish => exact fromRun_execTensorInstrFinish ..
  | prismFeedFetch => exact fromRun_execPrismFeedFetch ..
  | fmoveFinish => exact fromRun_execFmoveFinish ..
  | gangAdmit => exact fromRun_execGangAdmit ..
  | gangRetire => exact fromRun_execGangRetire ..
  | gangParkSwap => exact fromRun_execGangParkSwap ..
  | coreFltCauseClear => exact fromRun_execCoreFltCauseClear ..
  | schedTallyAlloc => exact fromRun_execSchedTallyAlloc ..
  | schedTallyFree => exact fromRun_execSchedTallyFree ..
  | parcelRerun => exact fromRun_execParcelRerun ..
  | pidxRqDb => exact fromRun_execPidxRqDb ..
  | kvOpen => exact fromRun_execKvOpen ..
  | close => exact fromRun_execClose ..
  | pin => exact fromRun_execPin ..
  | unpin => exact fromRun_execUnpin ..
  | append => exact fromRun_execAppend ..
  | tappend => exact fromRun_execTappend ..
  | commit => exact fromRun_execCommit ..
  | discard => exact fromRun_execDiscard ..
  | kvBadRequest => exact fromRun_execKvBadRequest ..
  | recomputeComplete => exact fromRun_execRecomputeComplete ..
  | reflexCoreEnable => exact fromRun_execReflexCoreEnable ..
  | reflexCoreDisable => exact fromRun_execReflexCoreDisable ..
  | reflexCoreReady => exact fromRun_execReflexCoreReady ..
  | reflexFrameLanding => exact fromRun_execReflexFrameLanding ..
  | reflexTick => exact fromRun_execReflexTick ..
  | reflexArriveLatch => exact fromRun_execReflexArriveLatch ..
  | reflexStepStart => exact fromRun_execReflexStepStart ..
  | reflexStepEnd => exact fromRun_execReflexStepEnd ..
  | reflexOutputFrame => exact fromRun_execReflexOutputFrame ..
  | reflexResetMark => exact fromRun_execReflexResetMark ..
  | reflexStop => exact fromRun_execReflexStop ..
  | reflexGroupEnd => exact fromRun_execReflexGroupEnd ..
  | reflexHoldExpiry => exact fromRun_execReflexHoldExpiry ..
  | reflexResume => exact fromRun_execReflexResume ..
  | vltCmapWrite => exact fromRun_execVltCmapWrite ..
  | vltTlbinv => exact fromRun_execVltTlbinv ..
  | tlbinvDone => exact fromRun_execTlbinvDone ..
  | vltLblkWrite => exact fromRun_execVltLblkWrite ..
  | windowStart => exact fromRun_execWindowStart ..
  | windowStop => exact fromRun_execWindowStop ..
  | chunkStart => exact fromRun_execChunkStart ..
  | chunkLanded => exact fromRun_execChunkLanded ..
  | vaultAccessTimeout => exact fromRun_execVaultAccessTimeout ..
  | vaultRetrainEnd => exact fromRun_execVaultRetrainEnd ..
  | rowSparing => exact fromRun_execRowSparing ..
  | patrolRead => exact fromRun_execPatrolRead ..
  | vaultRefresh => exact fromRun_execVaultRefresh ..
  | schedCardSync => exact fromRun_execSchedCardSync ..
  | cardTakeUp => exact fromRun_execCardTakeUp ..
  | cardFetch => exact fromRun_execCardFetch ..
  | contextEnable => exact fromRun_execContextEnable ..
  | contextDisable => exact fromRun_execContextDisable ..
  | schedDb => exact fromRun_execSchedDb ..
  | parcelTake => exact fromRun_execParcelTake ..
  | parcelWaitEnd => exact fromRun_execParcelWaitEnd ..
  | parcelWaitTimeout => exact fromRun_execParcelWaitTimeout ..
  | permitGrant => exact fromRun_execPermitGrant ..
  | permitTimeout => exact fromRun_execPermitTimeout ..
  | parcelComplete => exact fromRun_execParcelComplete ..
  | mailboxDeliver => exact fromRun_execMailboxDeliver ..
  | mailboxTxTake => exact fromRun_execMailboxTxTake ..
  | fwpRestartRequest => exact fromRun_execFwpRestartRequest ..
  | fwpRestartEnd => exact fromRun_execFwpRestartEnd ..
  | fwpKick => exact fromRun_execFwpKick ..
  | watchdogExpiry => exact fromRun_execWatchdogExpiry ..
  | fwFlashWriteEnd => exact fromRun_execFwFlashWriteEnd ..
  | schedHeartbeat => exact fromRun_execSchedHeartbeat ..
  | leaseExpiry => exact fromRun_execLeaseExpiry ..
  | holdExpiry => exact fromRun_execHoldExpiry ..
  | sessionRelease => exact fromRun_execSessionRelease ..
  | hello => exact fromRun_execHello ..
  | bye => exact fromRun_execBye ..
  | heartbeat => exact fromRun_execHeartbeat ..
  | leaseCfg => exact fromRun_execLeaseCfg ..
  | submit => exact fromRun_execSubmit ..
  | cardSync => exact fromRun_execCardSync ..
  | doorbell => exact fromRun_execDoorbell ..
  | tallyAlloc => exact fromRun_execTallyAlloc ..
  | tallyFree => exact fromRun_execTallyFree ..
  | tallyOpTsig => exact fromRun_execTallyOpTsig ..
  | tallyOpTadd => exact fromRun_execTallyOpTadd ..
  | tallyOpTread => exact fromRun_execTallyOpTread ..
  | tallyWatch => exact fromRun_execTallyWatch ..
  | tallyWatchTimeout => exact fromRun_execTallyWatchTimeout ..
  | read => exact fromRun_execRead ..
  | write => exact fromRun_execWrite ..
  | snapshot => exact fromRun_execSnapshot ..
  | regRead => exact fromRun_execRegRead ..
  | regWrite => exact fromRun_execRegWrite ..
  | logRead => exact fromRun_execLogRead ..
  | powerState => exact fromRun_execPowerState ..
  | powerCap => exact fromRun_execPowerCap ..
  | paceBind => exact fromRun_execPaceBind ..
  | pace => exact fromRun_execPace ..
  | paceResend => exact fromRun_execPaceResend ..
  | propose => exact fromRun_execPropose ..
  | countersign => exact fromRun_execCountersign ..
  | attest => exact fromRun_execAttest ..
  | fwUpdate => exact fromRun_execFwUpdate ..
  | fwRestart => exact absurd trivial h
  | messageUnknownOpcode => exact fromRun_execMessageUnknownOpcode ..
  | reassemblyTimeout => exact fromRun_execReassemblyTimeout ..
  | ethFrameRx => exact fromRun_execEthFrameRx ..
  | ethFrameTxStart => exact fromRun_execEthFrameTxStart ..
  | gateControlEntry => exact fromRun_execGateControlEntry ..
  | qbvChange => exact fromRun_execQbvChange ..
  | qbvConfigChange => exact fromRun_execQbvConfigChange ..
  | linkDown => exact fromRun_execLinkDown ..
  | linkUp => exact fromRun_execLinkUp ..
  | ethTblRead => exact fromRun_execEthTblRead ..
  | ethTblWrite => exact fromRun_execEthTblWrite ..
  | fdbAgeOut => exact fromRun_execFdbAgeOut ..
  | cbHistoryReset => exact fromRun_execCbHistoryReset ..
  | sakRekey => exact fromRun_execSakRekey ..
  | ethFlowDb => exact fromRun_execEthFlowDb ..
  | flowTxTake => exact fromRun_execFlowTxTake ..
  | muteEngage => exact fromRun_execMuteEngage ..
  | muteRelease => exact fromRun_execMuteRelease ..
  | micClockStart => exact fromRun_execMicClockStart ..
  | archiveRowComplete => exact fromRun_execArchiveRowComplete ..
  | archiveCopy => exact fromRun_execArchiveCopy ..
  | archiveCopyEnd => exact fromRun_execArchiveCopyEnd ..
  | loupeFrame => exact fromRun_execLoupeFrame ..
  | lensHop => exact fromRun_execLensHop ..
  | micBlockDeliver => exact fromRun_execMicBlockDeliver ..
  | outputBlockPlay => exact fromRun_execOutputBlockPlay ..
  | audRingDb => exact fromRun_execAudRingDb ..
  | cameraFrameStart => exact fromRun_execCameraFrameStart ..
  | csiLine => exact fromRun_execCsiLine ..
  | embeddedDataPacket => exact fromRun_execEmbeddedDataPacket ..
  | cameraFrameEnd => exact fromRun_execCameraFrameEnd ..
  | frameWatchdogExpiry => exact fromRun_execFrameWatchdogExpiry ..
  | ispLineProcess => exact fromRun_execIspLineProcess ..
  | frameDeliver => exact fromRun_execFrameDeliver ..
  | csiRingDb => exact fromRun_execCsiRingDb ..
  | ispArm => exact fromRun_execIspArm ..
  | fsyncEdge => exact fromRun_execFsyncEdge ..
  | i3cXfer => exact fromRun_execI3cXfer ..
  | i3cXferStart => exact fromRun_execI3cXferStart ..
  | i3cXferDone => exact fromRun_execI3cXferDone ..
  | ladderEnable => exact fromRun_execLadderEnable ..
  | ladderDisable => exact fromRun_execLadderDisable ..
  | ladderReload => exact fromRun_execLadderReload ..
  | verdictDeadline => exact fromRun_execVerdictDeadline ..
  | demotionExpiry => exact fromRun_execDemotionExpiry ..
  | periodicSubmit => exact fromRun_execPeriodicSubmit ..
  | ticketMove => exact fromRun_execTicketMove ..
  | audLadAck => exact fromRun_execAudLadAck ..
  | pwrStateRequest => exact fromRun_execPwrStateRequest ..
  | powerEntryBegin => exact fromRun_execPowerEntryBegin ..
  | powerDrainTimeout => exact fromRun_execPowerDrainTimeout ..
  | deepSleepEntryBegin => exact fromRun_execDeepSleepEntryBegin ..
  | powerEntryComplete => exact fromRun_execPowerEntryComplete ..
  | autoIdleEntry => exact fromRun_execAutoIdleEntry ..
  | wakePin => exact fromRun_execWakePin ..
  | wakeTimer => exact fromRun_execWakeTimer ..
  | powerReturn => exact fromRun_execPowerReturn ..
  | clusterWake => exact fromRun_execClusterWake ..
  | dvfsTargetWrite => exact fromRun_execDvfsTargetWrite ..
  | clkDivWrite => exact fromRun_execClkDivWrite ..
  | dvfsVselWrite => exact fromRun_execDvfsVselWrite ..
  | dvfsStepEnd => exact fromRun_execDvfsStepEnd ..
  | vstepAck => exact fromRun_execVstepAck ..
  | vstepTimeout => exact fromRun_execVstepTimeout ..
  | ledgerRefill => exact fromRun_execLedgerRefill ..
  | ledgerRateUpdate => exact fromRun_execLedgerRateUpdate ..
  | pwrCapWrite => exact fromRun_execPwrCapWrite ..
  | pwrModeWrite => exact fromRun_execPwrModeWrite ..
  | droopDetect => exact fromRun_execDroopDetect ..
  | droopStretchEnd => exact fromRun_execDroopStretchEnd ..
  | tempSample => exact fromRun_execTempSample ..
  | thermalTrip => exact fromRun_execThermalTrip ..
  | coreFence => exact fromRun_execCoreFence ..
  | hangDetect => exact fromRun_execHangDetect ..
  | supplyMonitorFence => exact fromRun_execSupplyMonitorFence ..
  | fixFence => exact fromRun_execFixFence ..
  | entryCheckEnd => exact fromRun_execEntryCheckEnd ..
  | degradedTimeout => exact fromRun_execDegradedTimeout ..
  | ledgerAppend => exact fromRun_execLedgerAppend ..
  | ledgerCompact => exact fromRun_execLedgerCompact ..
  | spareBistStart => exact fromRun_execSpareBistStart ..
  | bistEnd => exact fromRun_execBistEnd ..
  | reinstateBist => exact fromRun_execReinstateBist ..
  | rollingSwapStart => exact fromRun_execRollingSwapStart ..
  | rollingSwapTimeout => exact fromRun_execRollingSwapTimeout ..
  | rollingSwapCopyEnd => exact fromRun_execRollingSwapCopyEnd ..
  | settleEnd => exact fromRun_execSettleEnd ..
  | tenantSwitchEnd => exact fromRun_execTenantSwitchEnd ..
  | modelMeasure => exact fromRun_execModelMeasure ..
  | modelMeasureEnd => exact fromRun_execModelMeasureEnd ..
  | topSnapArm => exact fromRun_execTopSnapArm ..
  | topSnapCancel => exact fromRun_execTopSnapCancel ..
  | snapshotTake => exact fromRun_execSnapshotTake ..
  | obsTrcAck => exact fromRun_execObsTrcAck ..
  | errSumClear => exact fromRun_execErrSumClear ..
  | uart1Send => exact fromRun_execUart1Send ..
  | uart1ReceiveRead => exact fromRun_execUart1ReceiveRead ..
  | uart1ByteRx => exact fromRun_execUart1ByteRx ..
  | supplyBelowRange => exact absurd trivial h
  | illegalInstr => exact fromRun_execIllegalInstr ..
  | gptpMessageInterval => exact fromRun_execGptpMessageInterval ..
  | mkaTimer => exact fromRun_execMkaTimer ..
  | csiLinkStateChange => exact fromRun_execCsiLinkStateChange ..
  | csiPacketDiscard => exact fromRun_execCsiPacketDiscard ..
  | uart1ByteSent => exact fromRun_execUart1ByteSent ..
  | jtagTckEdge => exact fromRun_execJtagTckEdge ..

end Sys2Proof.Machine
end

