-- ==== Sys2Proof/Laws/Issue.lean ====
section
/-! SUPPORT. What issuing an instruction does, once for a hart and once for a gang: the forms every instruction's lemma cites. -/

namespace Sys2Proof.Machine

variable {s : State}

theorem done_next {r : Run s} (h : s.halted = false) : done r = .next r.s := by simp [done, h]

theorem insertLane_perm {α : Type} (n : Nat) (e : Nat × α) (l : List (Nat × α)) : (insertLane n e l).Perm (e :: l) := by
  induction l with
  | nil => exact .refl _
  | cons f l ih =>
    unfold insertLane
    split
    · exact .refl _
    · exact (ih.cons f).trans (.swap e f l)

/-- The free order of the lanes' accesses leaves none out and takes none twice. -/
theorem inLaneOrder_perm {α : Type} (n : Nat) (l : List (Nat × α)) : (inLaneOrder n l).Perm l := by
  induction l with
  | nil => exact .refl _
  | cons e l ih => exact (insertLane_perm n e _).trans (ih.cons e)

/-- The agent of an issuing hart names one that exists. -/
theorem OnHart.exists {ag : Agent} {key : Nat} {w : Words} {r : Run s} (h : OnHart s ag key w r) : hartExists key = true := by
  have ha := h.agent
  unfold hartOf at ha
  split at ha
  · split at ha
    · cases ha; simp [hartExists, *]
    · cases ha
  · split at ha
    · cases ha; exact (Bool.or_eq_true _ _).mpr (.inr ((Bool.and_eq_true _ _).mpr ⟨decide_eq_true (by unfold fwKey; omega), decide_eq_true (by unfold fwKey; omega)⟩))
    · cases ha
  · cases ha

theorem OnHart.issue {ag : Agent} {key : Nat} {w : Words} {r : Run s} (h : OnHart s ag key w r)
    (body : Hart → Run s → Run s × HEnd) :
    hartIssue (Run.start s) key w true body =
      match body ((s.hart key).issued w) r with
      | (r', .next h') => r'.setHart key h'
      | (_, .stall) => Run.start s
      | (_, .trap c tval) => r.hartTrap key (s.hart key) c tval w.long := by
  unfold hartIssue
  simp only [Run.start_s, h.exists, h.awake, h.running, h.watching, h.free, h.fetched, Hart.issued]
  simp only [Bool.not_true, Bool.or_self, Bool.false_eq_true, ↓reduceIte]
  first
  | done
  | generalize body _ r = e
    rcases e with ⟨r', e⟩
    cases e <;> rfl

/-- An illegal encoding takes ILLEGAL_INSTR with the first word (R45, R77). -/
theorem OnHart.illegal {ag : Agent} {key : Nat} {w : Words} {r : Run s} (h : OnHart s ag key w r)
    (body : Hart → Run s → Run s × HEnd) :
    hartIssue (Run.start s) key w false body = r.hartTrap key (s.hart key) .illegal w.w0.toNat w.long := by
  unfold hartIssue
  simp only [Run.start_s, h.exists, h.awake, h.running, h.watching, h.free, h.fetched]
  simp

theorem OnLane.issue {c g : Nat} {w : Words} {regs tds : List Nat} {x : Gang} {r : Run s} (h : OnLane s c g w regs tds x r)
    (guard : BitVec 4) (body : LCtx → Gang → Run s → Run s × LEnd) :
    laneIssue (Run.start s) c g w true guard regs tds body =
      match body ⟨c, g, x.minPc.getD 0, x.active, x.enabled guard⟩ (x.advanced w) r with
      | (r', .next y) => noteIssue (r'.setGang c g y) c g
      | (r', .set) => noteIssue r' c g
      | (_, .stall) => Run.start s
      | (_, .fault fs) => faultLanes (Run.start s) c g (x.minPc.getD 0) fs := by
  unfold laneIssue
  simp only [Run.start_s, h.gang, h.ready, h.turn, h.fetched, h.regs, h.tds, Gang.enabled, Gang.advanced]
  simp only [Bool.not_true, Bool.or_self, Bool.false_eq_true, ↓reduceIte]
  first
  | done
  | generalize body _ _ r = e
    rcases e with ⟨r', e⟩
    cases e <;> rfl

theorem hartKey_host {n key : Nat} (h : hartOf (.host n) = some key) : hostKey n = key ∧ n = key := by
  unfold hartOf at h
  simp only at h
  split at h
  · cases h; simp [hostKey, *]
  · cases h

theorem hartKey_fw {p key : Nat} (h : hartOf (.fw p) = some key) : fwKey p = key := by
  unfold hartOf at h
  simp only at h
  split at h
  · cases h; rfl
  · cases h

/-- An instruction that only computes, on a hart. -/
theorem OnHart.compute {i : Instr} {ag : Agent} {key : Nat} {r : Run s} (h : OnHart s ag key (wordsOf i) r) {prof : Prof}
    {legal : Bool} {guard : BitVec 4} {regs : List Nat} {onHart : Bool → Hart → HEnd} {onLane : Nat → Thread → Thread}
    (hl : (legal && prof ≠ .lane && guard = 0) = true) {h' : Hart}
    (hr : ∀ b, (b = isFw key) → onHart b ((s.hart key).issued (wordsOf i)) = .next h') :
    done (Machine.compute (Run.start s) i ag prof legal guard regs onHart onLane) = .next (r.setHart key h').s := by
  rw [done_next h.up]
  cases ag with
  | host n =>
    obtain ⟨hk, hn⟩ := hartKey_host h.agent
    have hb : onHart false ((s.hart key).issued (wordsOf i)) = .next h' := hr false (by
      have ha := h.agent
      unfold hartOf at ha
      simp only at ha
      split at ha
      · cases ha; simp [isFw]; omega
      · cases ha)
    simp only [Machine.compute, hl, hk, h.issue, hb]
  | fw p =>
    have hk := hartKey_fw h.agent
    have hb : onHart true ((s.hart key).issued (wordsOf i)) = .next h' := hr true (by
      subst hk; simp [isFw, fwKey])
    simp only [Machine.compute, hl, hk, h.issue, hb]
  | lane c g => exact absurd h.agent (by simp [hartOf])

/-- An instruction that only computes, in a gang. -/
theorem OnLane.compute {i : Instr} {c g : Nat} {x : Gang} {r : Run s} {prof : Prof} {legal : Bool} {guard : BitVec 4}
    {regs : List Nat} {onHart : Bool → Hart → HEnd} {onLane : Nat → Thread → Thread}
    (h : OnLane s c g (wordsOf i) regs [] x r) (hl : (legal && prof ≠ .host) = true) :
    done (Machine.compute (Run.start s) i (.lane c g) prof legal guard regs onHart onLane) =
      .next (noteIssue (r.setGang c g ((x.advanced (wordsOf i)).mapLanes (x.enabled guard) onLane)) c g).s := by
  rw [done_next h.up]
  simp only [Machine.compute, hl, h.issue, Gang.enabled]

/-- An instruction that only computes gives its lane result. -/
theorem laneResult_compute {mk : Agent → Instr} {prof : Prof} {legal : Bool} {guard : BitVec 4} {regs : List Nat}
    {onHart : Agent → Bool → Hart → HEnd} {onLane : Nat → Thread → Thread} {f : Thread → Thread}
    (he : ∀ s c g, exec (mk (.lane c g)) s =
      done (Machine.compute (Run.start s) (mk (.lane c g)) (.lane c g) prof legal guard regs (onHart (.lane c g)) onLane))
    (hl : (legal && prof ≠ .host) = true) (hf : ∀ l t, onLane l t = f t) : LaneResult mk regs guard f := by
  intro s c g x r h
  rw [he, h.compute hl]
  have : onLane = fun _ t => f t := by funext l t; exact hf l t
  rw [this]

/-- An instruction that only computes gives its hart result. -/
theorem hartResult_compute {mk : Agent → Instr} {prof : Prof} {legal : Bool} {guard : BitVec 4} {regs : List Nat}
    {onHart : Agent → Bool → Hart → HEnd} {onLane : Nat → Thread → Thread} {ok : Agent → Hart → Prop} {f : Hart → Hart}
    (he : ∀ s ag, hartOf ag ≠ none → exec (mk ag) s =
      done (Machine.compute (Run.start s) (mk ag) ag prof legal guard regs (onHart ag) onLane))
    (hl : (legal && prof ≠ .lane && guard = 0) = true) 
    (hf : ∀ ag key h w, hartOf ag = some key → ok ag h → onHart ag (isFw key) (h.issued w) = .next (f (h.issued w))) : HartResult mk ok f := by
  intro s ag key r h hok
  rw [he _ _ (by simp [h.agent]), h.compute hl]
  intro b hb
  subst hb
  exact hf ag key _ _ h.agent hok

/-- An instruction that only raises a cause on a hart traps. -/
theorem hartTraps_compute {mk : Agent → Instr} {prof : Prof} {legal : Bool} {guard : BitVec 4} {regs : List Nat}
    {onHart : Agent → Bool → Hart → HEnd} {onLane : Nat → Thread → Thread} {ok : Agent → Hart → Prop} {cause : Hart → Cause} {tval : Hart → Nat}
    (he : ∀ s ag, hartOf ag ≠ none → exec (mk ag) s =
      done (Machine.compute (Run.start s) (mk ag) ag prof legal guard regs (onHart ag) onLane))
    (hl : (legal && prof ≠ .lane && guard = 0) = true)
    (hf : ∀ ag key h w, hartOf ag = some key → ok ag h → onHart ag (isFw key) (h.issued w) = .trap (cause h) (tval h)) : HartTraps mk ok cause tval := by
  intro s ag key r h hok
  rw [he _ _ (by simp [h.agent]), done_next h.up]
  have hi := hf ag key (s.hart key) (wordsOf (mk ag)) h.agent hok
  cases ag with
  | host n =>
    obtain ⟨hk, hn⟩ := hartKey_host h.agent
    have hb : isFw key = false := by
      have ha := h.agent
      unfold hartOf at ha
      simp only at ha
      split at ha
      · cases ha; simp [isFw]; omega
      · cases ha
    rw [hb] at hi
    simp only [Machine.compute, hl, hk, h.issue, hi]
  | fw p =>
    have hk := hartKey_fw h.agent
    have hb : isFw key = true := by subst hk; simp [isFw, fwKey]
    rw [hb] at hi
    simp only [Machine.compute, hl, hk, h.issue, hi]
  | lane c g => exact absurd h.agent (by simp [hartOf])

/-- An encoding the host profile lacks is illegal on a hart. -/
theorem hartIllegal_compute {mk : Agent → Instr} {prof : Prof} {legal : Bool} {guard : BitVec 4} {regs : List Nat}
    {onHart : Agent → Bool → Hart → HEnd} {onLane : Nat → Thread → Thread}
    (he : ∀ s ag, hartOf ag ≠ none → exec (mk ag) s =
      done (Machine.compute (Run.start s) (mk ag) ag prof legal guard regs (onHart ag) onLane))
    (hl : (legal && prof ≠ .lane && guard = 0) = false) : HartIllegal mk := by
  intro s ag key r h
  rw [he _ _ (by simp [h.agent]), done_next h.up]
  cases ag with
  | host n =>
    obtain ⟨hk, hn⟩ := hartKey_host h.agent
    simp only [Machine.compute, hl, hk, h.illegal]
  | fw p =>
    have hk := hartKey_fw h.agent
    simp only [Machine.compute, hl, hk, h.illegal]
  | lane c g => exact absurd h.agent (by simp [hartOf])

/-- A host core with floating point is no firmware processor. -/
theorem fpHart_isFw {ag : Agent} {key : Nat} {h : Hart} (ha : hartOf ag = some key) (hf : fpHart ag h) : isFw key = false ∧ h.fpen = true := by
  obtain ⟨⟨n, rfl⟩, hp⟩ := hf
  refine ⟨?_, hp⟩
  unfold hartOf at ha
  simp only at ha
  split at ha
  · cases ha; simp [isFw]; omega
  · cases ha



/-- Where there is no floating point, the check of the FPU group fails. -/
theorem fw_fpen {ag : Agent} {key : Nat} {h : Hart} (ha : hartOf ag = some key) (hf : noFpHart ag h) :
    (isFw key || !h.fpen) = true := by
  rcases hf with ⟨p, rfl⟩ | hp
  · have := hartKey_fw ha; subst this; simp [isFw, fwKey]
  · simp [hp]

/-- An instruction of the host profile is illegal in a lane. -/
theorem laneIllegal_compute {mk : Agent → Instr} {prof : Prof} {legal : Bool} {guard : BitVec 4} {regs : List Nat}
    {onHart : Agent → Bool → Hart → HEnd} {onLane : Nat → Thread → Thread}
    (he : ∀ s c g, exec (mk (.lane c g)) s =
      done (Machine.compute (Run.start s) (mk (.lane c g)) (.lane c g) prof legal guard regs (onHart (.lane c g)) onLane))
    (hl : (legal && prof ≠ .host) = false) : LaneIllegal mk := by
  intro s c g x r h
  rw [he, done_next h.up]
  simp only [Machine.compute, hl]
  unfold laneIssue
  simp only [Run.start_s, h.gang, h.ready, h.turn, h.fetched]
  simp

end Sys2Proof.Machine
end

