-- ==== Sys2Proof/Laws/PerInstr.lean ====
section
/-! SUPPORT. What holds of every command as syntax: the words of an instruction, made for an agent, and its well-formedness. -/

namespace Sys2Proof.Laws.Words

open Sys2Proof.Machine

/-- A command with words is an instruction of an agent: its length bit is bit 31 of its first word (R44), and it is well-formed
where its agent is. -/
def Statement (i : Instr) : Prop :=
  ∀ ag w, instrWords i = some (ag, w) → w.long = w.w0.getLsbD 31 ∧ i.wf = ag.wf

theorem of_none {i : Instr} (h : instrWords i = none) : Statement i := by
  intro ag w hw
  rw [h] at hw
  cases hw

theorem of_words {i : Instr} {ag : Agent} {w : Words} (h : instrWords i = some (ag, w)) (hl : w.long = w.w0.getLsbD 31)
    (hw : i.wf = ag.wf) : Statement i := by
  intro ag' w' h'
  rw [h] at h'
  cases h'
  exact ⟨hl, hw⟩

theorem encR_long (m : BitVec 6) (f : R3) (g : BitVec 6) : (encR m f g).long = (encR m f g).w0.getLsbD 31 := by
  rw [long_bit, (encR_fields m f g).1]; rfl

theorem encI_long (m : BitVec 6) (f : I3) : (encI m f).long = (encI m f).w0.getLsbD 31 := by
  rw [long_bit, (encI_fields m f).1]; rfl

theorem encB_long (m : BitVec 6) (f : B3) : (encB m f).long = (encB m f).w0.getLsbD 31 := by
  rw [long_bit, (encB_fields m f).1]; rfl

theorem encX_long (m : BitVec 6) (f : X3) : (encX m f).long = (encX m f).w0.getLsbD 31 := by
  rw [long_bit, (encX_fields m f).1]; rfl

theorem encT_long (m : BitVec 6) (f : T3) (g : BitVec 6) : (encT m f g).long = (encT m f g).w0.getLsbD 31 := by
  rw [long_bit, (encT_fields m f g).1]; rfl

theorem powerOnReset (env : BootEnv) : Statement (.powerOnReset env) := of_none rfl
theorem loHiReadLatch (ag : Agent) (off : BitVec 28) : Statement (.loHiReadLatch ag off) := of_none rfl
theorem registerWrite (ag : Agent) (off : BitVec 28) (v : W32) : Statement (.registerWrite ag off v) := of_none rfl
theorem timeTreeRealign : Statement .timeTreeRealign := of_none rfl
theorem holdoverEntry : Statement .holdoverEntry := of_none rfl
theorem topFtCtrlWrite (ag : Agent) (v : W32) : Statement (.topFtCtrlWrite ag v) := of_none rfl
theorem add (ag : Agent) (w32 : Bool) (f : R3) : Statement (.add ag w32 f) := of_words rfl (encR_long _ _ _) rfl
theorem sub (ag : Agent) (w32 : Bool) (f : R3) : Statement (.sub ag w32 f) := of_words rfl (encR_long _ _ _) rfl
theorem mul (ag : Agent) (w32 : Bool) (f : R3) : Statement (.mul ag w32 f) := of_words rfl (encR_long _ _ _) rfl
theorem mulh (ag : Agent) (w32 : Bool) (f : R3) : Statement (.mulh ag w32 f) := of_words rfl (encR_long _ _ _) rfl
theorem mulhu (ag : Agent) (w32 : Bool) (f : R3) : Statement (.mulhu ag w32 f) := of_words rfl (encR_long _ _ _) rfl
theorem div (ag : Agent) (w32 : Bool) (f : R3) : Statement (.div ag w32 f) := of_words rfl (encR_long _ _ _) rfl
theorem divu (ag : Agent) (w32 : Bool) (f : R3) : Statement (.divu ag w32 f) := of_words rfl (encR_long _ _ _) rfl
theorem rem (ag : Agent) (w32 : Bool) (f : R3) : Statement (.rem ag w32 f) := of_words rfl (encR_long _ _ _) rfl
theorem remu (ag : Agent) (w32 : Bool) (f : R3) : Statement (.remu ag w32 f) := of_words rfl (encR_long _ _ _) rfl
theorem and (ag : Agent) (w32 : Bool) (f : R3) : Statement (.and ag w32 f) := of_words rfl (encR_long _ _ _) rfl
theorem or (ag : Agent) (w32 : Bool) (f : R3) : Statement (.or ag w32 f) := of_words rfl (encR_long _ _ _) rfl
theorem xor (ag : Agent) (w32 : Bool) (f : R3) : Statement (.xor ag w32 f) := of_words rfl (encR_long _ _ _) rfl
theorem shl (ag : Agent) (w32 : Bool) (f : R3) : Statement (.shl ag w32 f) := of_words rfl (encR_long _ _ _) rfl
theorem shr (ag : Agent) (w32 : Bool) (f : R3) : Statement (.shr ag w32 f) := of_words rfl (encR_long _ _ _) rfl
theorem sra (ag : Agent) (w32 : Bool) (f : R3) : Statement (.sra ag w32 f) := of_words rfl (encR_long _ _ _) rfl
theorem min (ag : Agent) (w32 : Bool) (f : R3) : Statement (.min ag w32 f) := of_words rfl (encR_long _ _ _) rfl
theorem minu (ag : Agent) (w32 : Bool) (f : R3) : Statement (.minu ag w32 f) := of_words rfl (encR_long _ _ _) rfl
theorem max (ag : Agent) (w32 : Bool) (f : R3) : Statement (.max ag w32 f) := of_words rfl (encR_long _ _ _) rfl
theorem maxu (ag : Agent) (w32 : Bool) (f : R3) : Statement (.maxu ag w32 f) := of_words rfl (encR_long _ _ _) rfl
theorem clz (ag : Agent) (w32 : Bool) (f : R3) : Statement (.clz ag w32 f) := of_words rfl (encR_long _ _ _) rfl
theorem popc (ag : Agent) (w32 : Bool) (f : R3) : Statement (.popc ag w32 f) := of_words rfl (encR_long _ _ _) rfl
theorem addp (ag : Agent) (w32 : Bool) (f : R3) : Statement (.addp ag w32 f) := of_words rfl (encR_long _ _ _) rfl
theorem addi (ag : Agent) (f : I3) : Statement (.addi ag f) := of_words rfl (encI_long _ _) rfl
theorem andi (ag : Agent) (f : I3) : Statement (.andi ag f) := of_words rfl (encI_long _ _) rfl
theorem ori (ag : Agent) (f : I3) : Statement (.ori ag f) := of_words rfl (encI_long _ _) rfl
theorem xori (ag : Agent) (f : I3) : Statement (.xori ag f) := of_words rfl (encI_long _ _) rfl
theorem shi (ag : Agent) (f : I3) : Statement (.shi ag f) := of_words rfl (encI_long _ _) rfl
theorem li (ag : Agent) (f : X3) : Statement (.li ag f) := of_words rfl (encX_long _ _) rfl
theorem addx (ag : Agent) (f : X3) : Statement (.addx ag f) := of_words rfl (encX_long _ _) rfl
theorem cmp (ag : Agent) (func : BitVec 6) (f : R3) : Statement (.cmp ag func f) := of_words rfl (encR_long _ _ _) rfl
theorem pand (ag : Agent) (f : R3) : Statement (.pand ag f) := of_words rfl (encR_long _ _ _) rfl
theorem por (ag : Agent) (f : R3) : Statement (.por ag f) := of_words rfl (encR_long _ _ _) rfl
theorem pxor (ag : Agent) (f : R3) : Statement (.pxor ag f) := of_words rfl (encR_long _ _ _) rfl
theorem pandn (ag : Agent) (f : R3) : Statement (.pandn ag f) := of_words rfl (encR_long _ _ _) rfl
theorem pnot (ag : Agent) (f : R3) : Statement (.pnot ag f) := of_words rfl (encR_long _ _ _) rfl
theorem p2g (ag : Agent) (f : R3) : Statement (.p2g ag f) := of_words rfl (encR_long _ _ _) rfl
theorem g2p (ag : Agent) (f : R3) : Statement (.g2p ag f) := of_words rfl (encR_long _ _ _) rfl
theorem fadd (ag : Agent) (f : R3) : Statement (.fadd ag f) := of_words rfl (encR_long _ _ _) rfl
theorem fsub (ag : Agent) (f : R3) : Statement (.fsub ag f) := of_words rfl (encR_long _ _ _) rfl
theorem fmul (ag : Agent) (f : R3) : Statement (.fmul ag f) := of_words rfl (encR_long _ _ _) rfl
theorem ffma (ag : Agent) (f : R3) : Statement (.ffma ag f) := of_words rfl (encR_long _ _ _) rfl
theorem fmin (ag : Agent) (f : R3) : Statement (.fmin ag f) := of_words rfl (encR_long _ _ _) rfl
theorem fmax (ag : Agent) (f : R3) : Statement (.fmax ag f) := of_words rfl (encR_long _ _ _) rfl
theorem fabs (ag : Agent) (f : R3) : Statement (.fabs ag f) := of_words rfl (encR_long _ _ _) rfl
theorem fneg (ag : Agent) (f : R3) : Statement (.fneg ag f) := of_words rfl (encR_long _ _ _) rfl
theorem fmvGf (ag : Agent) (f : R3) : Statement (.fmvGf ag f) := of_words rfl (encR_long _ _ _) rfl
theorem fmvFg (ag : Agent) (f : R3) : Statement (.fmvFg ag f) := of_words rfl (encR_long _ _ _) rfl
theorem fexp2 (ag : Agent) (f : R3) : Statement (.fexp2 ag f) := of_words rfl (encR_long _ _ _) rfl
theorem flog2 (ag : Agent) (f : R3) : Statement (.flog2 ag f) := of_words rfl (encR_long _ _ _) rfl
theorem frcp (ag : Agent) (f : R3) : Statement (.frcp ag f) := of_words rfl (encR_long _ _ _) rfl
theorem frsq (ag : Agent) (f : R3) : Statement (.frsq ag f) := of_words rfl (encR_long _ _ _) rfl
theorem fsig (ag : Agent) (f : R3) : Statement (.fsig ag f) := of_words rfl (encR_long _ _ _) rfl
theorem ftanh (ag : Agent) (f : R3) : Statement (.ftanh ag f) := of_words rfl (encR_long _ _ _) rfl
theorem cvt (ag : Agent) (func : BitVec 6) (f : R3) : Statement (.cvt ag func f) := of_words rfl (encR_long _ _ _) rfl
theorem add2 (ag : Agent) (fp16 : Bool) (f : R3) : Statement (.add2 ag fp16 f) := of_words rfl (encR_long _ _ _) rfl
theorem mul2 (ag : Agent) (fp16 : Bool) (f : R3) : Statement (.mul2 ag fp16 f) := of_words rfl (encR_long _ _ _) rfl
theorem fma2 (ag : Agent) (fp16 : Bool) (f : R3) : Statement (.fma2 ag fp16 f) := of_words rfl (encR_long _ _ _) rfl
theorem min2 (ag : Agent) (fp16 : Bool) (f : R3) : Statement (.min2 ag fp16 f) := of_words rfl (encR_long _ _ _) rfl
theorem max2 (ag : Agent) (fp16 : Bool) (f : R3) : Statement (.max2 ag fp16 f) := of_words rfl (encR_long _ _ _) rfl
theorem ldb (ag : Agent) (f : I3) : Statement (.ldb ag f) := of_words rfl (encI_long _ _) rfl
theorem ldbu (ag : Agent) (f : I3) : Statement (.ldbu ag f) := of_words rfl (encI_long _ _) rfl
theorem ldh (ag : Agent) (f : I3) : Statement (.ldh ag f) := of_words rfl (encI_long _ _) rfl
theorem ldhu (ag : Agent) (f : I3) : Statement (.ldhu ag f) := of_words rfl (encI_long _ _) rfl
theorem ldw (ag : Agent) (f : I3) : Statement (.ldw ag f) := of_words rfl (encI_long _ _) rfl
theorem ldwu (ag : Agent) (f : I3) : Statement (.ldwu ag f) := of_words rfl (encI_long _ _) rfl
theorem ldd (ag : Agent) (f : I3) : Statement (.ldd ag f) := of_words rfl (encI_long _ _) rfl
theorem stb (ag : Agent) (f : I3) : Statement (.stb ag f) := of_words rfl (encI_long _ _) rfl
theorem sth (ag : Agent) (f : I3) : Statement (.sth ag f) := of_words rfl (encI_long _ _) rfl
theorem stw (ag : Agent) (f : I3) : Statement (.stw ag f) := of_words rfl (encI_long _ _) rfl
theorem std (ag : Agent) (f : I3) : Statement (.std ag f) := of_words rfl (encI_long _ _) rfl
theorem ldwAcq (ag : Agent) (scope : BitVec 3) (f : R3) :
    Statement (.ldwAcq ag scope f) := of_words rfl (encR_long _ _ _) rfl
theorem lddAcq (ag : Agent) (scope : BitVec 3) (f : R3) :
    Statement (.lddAcq ag scope f) := of_words rfl (encR_long _ _ _) rfl
theorem stwRel (ag : Agent) (scope : BitVec 3) (f : R3) :
    Statement (.stwRel ag scope f) := of_words rfl (encR_long _ _ _) rfl
theorem stdRel (ag : Agent) (scope : BitVec 3) (f : R3) :
    Statement (.stdRel ag scope f) := of_words rfl (encR_long _ _ _) rfl
theorem fenceAcq (ag : Agent) (scope : BitVec 3) (f : R3) :
    Statement (.fenceAcq ag scope f) := of_words rfl (encR_long _ _ _) rfl
theorem fenceRel (ag : Agent) (scope : BitVec 3) (f : R3) :
    Statement (.fenceRel ag scope f) := of_words rfl (encR_long _ _ _) rfl
theorem fenceAr (ag : Agent) (scope : BitVec 3) (f : R3) :
    Statement (.fenceAr ag scope f) := of_words rfl (encR_long _ _ _) rfl
theorem atomAdd (ag : Agent) (dw : Bool) (scope : BitVec 2) (f : R3) :
    Statement (.atomAdd ag dw scope f) := of_words rfl (encR_long _ _ _) rfl
theorem atomMin (ag : Agent) (dw : Bool) (scope : BitVec 2) (f : R3) :
    Statement (.atomMin ag dw scope f) := of_words rfl (encR_long _ _ _) rfl
theorem atomMax (ag : Agent) (dw : Bool) (scope : BitVec 2) (f : R3) :
    Statement (.atomMax ag dw scope f) := of_words rfl (encR_long _ _ _) rfl
theorem atomAnd (ag : Agent) (dw : Bool) (scope : BitVec 2) (f : R3) :
    Statement (.atomAnd ag dw scope f) := of_words rfl (encR_long _ _ _) rfl
theorem atomOr (ag : Agent) (dw : Bool) (scope : BitVec 2) (f : R3) :
    Statement (.atomOr ag dw scope f) := of_words rfl (encR_long _ _ _) rfl
theorem atomXor (ag : Agent) (dw : Bool) (scope : BitVec 2) (f : R3) :
    Statement (.atomXor ag dw scope f) := of_words rfl (encR_long _ _ _) rfl
theorem atomSwap (ag : Agent) (dw : Bool) (scope : BitVec 2) (f : R3) :
    Statement (.atomSwap ag dw scope f) := of_words rfl (encR_long _ _ _) rfl
theorem atomCas (ag : Agent) (dw : Bool) (scope : BitVec 2) (f : R3) :
    Statement (.atomCas ag dw scope f) := of_words rfl (encR_long _ _ _) rfl
theorem atomArAdd (ag : Agent) (dw : Bool) (scope : BitVec 2) (f : R3) :
    Statement (.atomArAdd ag dw scope f) := of_words rfl (encR_long _ _ _) rfl
theorem atomArMin (ag : Agent) (dw : Bool) (scope : BitVec 2) (f : R3) :
    Statement (.atomArMin ag dw scope f) := of_words rfl (encR_long _ _ _) rfl
theorem atomArMax (ag : Agent) (dw : Bool) (scope : BitVec 2) (f : R3) :
    Statement (.atomArMax ag dw scope f) := of_words rfl (encR_long _ _ _) rfl
theorem atomArAnd (ag : Agent) (dw : Bool) (scope : BitVec 2) (f : R3) :
    Statement (.atomArAnd ag dw scope f) := of_words rfl (encR_long _ _ _) rfl
theorem atomArOr (ag : Agent) (dw : Bool) (scope : BitVec 2) (f : R3) :
    Statement (.atomArOr ag dw scope f) := of_words rfl (encR_long _ _ _) rfl
theorem atomArXor (ag : Agent) (dw : Bool) (scope : BitVec 2) (f : R3) :
    Statement (.atomArXor ag dw scope f) := of_words rfl (encR_long _ _ _) rfl
theorem atomArSwap (ag : Agent) (dw : Bool) (scope : BitVec 2) (f : R3) :
    Statement (.atomArSwap ag dw scope f) := of_words rfl (encR_long _ _ _) rfl
theorem atomArCas (ag : Agent) (dw : Bool) (scope : BitVec 2) (f : R3) :
    Statement (.atomArCas ag dw scope f) := of_words rfl (encR_long _ _ _) rfl
theorem bra (ag : Agent) (f : B3) : Statement (.bra ag f) := of_words rfl (encB_long _ _) rfl
theorem call (ag : Agent) (f : B3) : Statement (.call ag f) := of_words rfl (encB_long _ _) rfl
theorem jr (ag : Agent) (f : R3) : Statement (.jr ag f) := of_words rfl (encR_long _ _ _) rfl
theorem bral (ag : Agent) (f : X3) : Statement (.bral ag f) := of_words rfl (encX_long _ _) rfl
theorem nop (ag : Agent) (f : R3) : Statement (.nop ag f) := of_words rfl (encR_long _ _ _) rfl
theorem exit (ag : Agent) (f : R3) : Statement (.exit ag f) := of_words rfl (encR_long _ _ _) rfl
theorem bar (ag : Agent) (f : R3) : Statement (.bar ag f) := of_words rfl (encR_long _ _ _) rfl
theorem yield (ag : Agent) (f : R3) : Statement (.yield ag f) := of_words rfl (encR_long _ _ _) rfl
theorem yieldExpiry (core gang : Nat) : Statement (.yieldExpiry core gang) := of_none rfl
theorem upcall (ag : Agent) (f : R3) : Statement (.upcall ag f) := of_words rfl (encR_long _ _ _) rfl
theorem brk (ag : Agent) (f : R3) : Statement (.brk ag f) := of_words rfl (encR_long _ _ _) rfl
theorem tret (ag : Agent) (f : R3) : Statement (.tret ag f) := of_words rfl (encR_long _ _ _) rfl
theorem snooze (ag : Agent) (f : R3) : Statement (.snooze ag f) := of_words rfl (encR_long _ _ _) rfl
theorem iflush (ag : Agent) (f : R3) : Statement (.iflush ag f) := of_words rfl (encR_long _ _ _) rfl
theorem rds (ag : Agent) (f : I3) : Statement (.rds ag f) := of_words rfl (encI_long _ _) rfl
theorem crd (ag : Agent) (f : I3) : Statement (.crd ag f) := of_words rfl (encI_long _ _) rfl
theorem cwr (ag : Agent) (f : I3) : Statement (.cwr ag f) := of_words rfl (encI_long _ _) rfl
theorem cmsk (ag : Agent) (f : X3) : Statement (.cmsk ag f) := of_words rfl (encX_long _ _) rfl
theorem timerInterruptPending (ag : Agent) : Statement (.timerInterruptPending ag) := of_none rfl
theorem interruptTake (ag : Agent) : Statement (.interruptTake ag) := of_none rfl
theorem shfl (ag : Agent) (f : R3) : Statement (.shfl ag f) := of_words rfl (encR_long _ _ _) rfl
theorem ballot (ag : Agent) (f : R3) : Statement (.ballot ag f) := of_words rfl (encR_long _ _ _) rfl
theorem any (ag : Agent) (f : R3) : Statement (.any ag f) := of_words rfl (encR_long _ _ _) rfl
theorem all (ag : Agent) (f : R3) : Statement (.all ag f) := of_words rfl (encR_long _ _ _) rfl
theorem radd (ag : Agent) (f : R3) : Statement (.radd ag f) := of_words rfl (encR_long _ _ _) rfl
theorem rmin (ag : Agent) (f : R3) : Statement (.rmin ag f) := of_words rfl (encR_long _ _ _) rfl
theorem rmax (ag : Agent) (f : R3) : Statement (.rmax ag f) := of_words rfl (encR_long _ _ _) rfl
theorem fradd (ag : Agent) (f : R3) : Statement (.fradd ag f) := of_words rfl (encR_long _ _ _) rfl
theorem frmin (ag : Agent) (f : R3) : Statement (.frmin ag f) := of_words rfl (encR_long _ _ _) rfl
theorem frmax (ag : Agent) (f : R3) : Statement (.frmax ag f) := of_words rfl (encR_long _ _ _) rfl
theorem tsig (ag : Agent) (scope : BitVec 3) (f : R3) : Statement (.tsig ag scope f) := of_words rfl (encR_long _ _ _) rfl
theorem tadd (ag : Agent) (scope : BitVec 3) (f : R3) : Statement (.tadd ag scope f) := of_words rfl (encR_long _ _ _) rfl
theorem twait (ag : Agent) (scope : BitVec 3) (f : R3) : Statement (.twait ag scope f) := of_words rfl (encR_long _ _ _) rfl
theorem tread (ag : Agent) (scope : BitVec 3) (f : R3) : Statement (.tread ag scope f) := of_words rfl (encR_long _ _ _) rfl
theorem twaitTimeout (ag : Agent) (lane : Nat) : Statement (.twaitTimeout ag lane) := of_none rfl
theorem tdld (ag : Agent) (f : T3) : Statement (.tdld ag f) := of_words rfl (encT_long _ _ _) rfl
theorem tdw (ag : Agent) (f : T3) : Statement (.tdw ag f) := of_words rfl (encT_long _ _ _) rfl
theorem tdst (ag : Agent) (f : T3) : Statement (.tdst ag f) := of_words rfl (encT_long _ _ _) rfl
theorem fmove (ag : Agent) (f : T3) : Statement (.fmove ag f) := of_words rfl (encT_long _ _ _) rfl
theorem tmma (ag : Agent) (f : T3) : Statement (.tmma ag f) := of_words rfl (encT_long _ _ _) rfl
theorem tdrain (ag : Agent) (f : T3) : Statement (.tdrain ag f) := of_words rfl (encT_long _ _ _) rfl
theorem accScale (ag : Agent) (f : T3) : Statement (.accScale ag f) := of_words rfl (encT_long _ _ _) rfl
theorem tclr (ag : Agent) (f : T3) : Statement (.tclr ag f) := of_words rfl (encT_long _ _ _) rfl
theorem trec (ag : Agent) (f : T3) : Statement (.trec ag f) := of_words rfl (encT_long _ _ _) rfl
theorem stateAudit (ag : Agent) (f : T3) : Statement (.stateAudit ag f) := of_words rfl (encT_long _ _ _) rfl
theorem tsync (ag : Agent) (f : T3) : Statement (.tsync ag f) := of_words rfl (encT_long _ _ _) rfl
theorem rope (ag : Agent) (f : T3) : Statement (.rope ag f) := of_words rfl (encT_long _ _ _) rfl
theorem tmask (ag : Agent) (f : T3) : Statement (.tmask ag f) := of_words rfl (encT_long _ _ _) rfl
theorem tsmaxStep (ag : Agent) (f : T3) : Statement (.tsmaxStep ag f) := of_words rfl (encT_long _ _ _) rfl
theorem tsmaxFinal (ag : Agent) (f : T3) : Statement (.tsmaxFinal ag f) := of_words rfl (encT_long _ _ _) rfl
theorem tsmaxMerge (ag : Agent) (f : T3) : Statement (.tsmaxMerge ag f) := of_words rfl (encT_long _ _ _) rfl
theorem tsmaxInit (ag : Agent) (f : T3) : Statement (.tsmaxInit ag f) := of_words rfl (encT_long _ _ _) rfl
theorem tensorInstrStart (core seq : Nat) : Statement (.tensorInstrStart core seq) := of_none rfl
theorem tensorInstrFinish (core seq : Nat) : Statement (.tensorInstrFinish core seq) := of_none rfl
theorem prismFeedFetch (core : Nat) : Statement (.prismFeedFetch core) := of_none rfl
theorem fmoveFinish (core seq : Nat) : Statement (.fmoveFinish core seq) := of_none rfl
theorem gangAdmit (core parcel gang : Nat) (banks : List Nat) : Statement (.gangAdmit core parcel gang banks) := of_none rfl
theorem gangRetire (core gang : Nat) : Statement (.gangRetire core gang) := of_none rfl
theorem gangParkSwap (core : Nat) : Statement (.gangParkSwap core) := of_none rfl
theorem coreFltCauseClear (ag : Agent) (core : Nat) (v : W32) : Statement (.coreFltCauseClear ag core v) := of_none rfl
theorem schedTallyAlloc (ag : Agent) : Statement (.schedTallyAlloc ag) := of_none rfl
theorem schedTallyFree (ag : Agent) (v : W32) : Statement (.schedTallyFree ag v) := of_none rfl
theorem parcelRerun (n : Nat) : Statement (.parcelRerun n) := of_none rfl
theorem pidxRqDb (ag : Agent) (v : W32) : Statement (.pidxRqDb ag v) := of_none rfl
theorem kvOpen : Statement .kvOpen := of_none rfl
theorem close : Statement .close := of_none rfl
theorem pin : Statement .pin := of_none rfl
theorem unpin : Statement .unpin := of_none rfl
theorem append : Statement .append := of_none rfl
theorem tappend : Statement .tappend := of_none rfl
theorem commit : Statement .commit := of_none rfl
theorem discard : Statement .discard := of_none rfl
theorem kvBadRequest : Statement .kvBadRequest := of_none rfl
theorem recomputeComplete (n : Nat) : Statement (.recomputeComplete n) := of_none rfl
theorem reflexCoreEnable (ag : Agent) (n : BitVec 4) (lcore : BitVec 8) :
    Statement (.reflexCoreEnable ag n lcore) := of_none rfl
theorem reflexCoreDisable (ag : Agent) (n : BitVec 4) : Statement (.reflexCoreDisable ag n) := of_none rfl
theorem reflexCoreReady (n : Nat) : Statement (.reflexCoreReady n) := of_none rfl
theorem reflexFrameLanding : Statement .reflexFrameLanding := of_none rfl
theorem reflexTick (n k : Nat) : Statement (.reflexTick n k) := of_none rfl
theorem reflexArriveLatch (n k : Nat) : Statement (.reflexArriveLatch n k) := of_none rfl
theorem reflexStepStart (n : Nat) : Statement (.reflexStepStart n) := of_none rfl
theorem reflexStepEnd (n k : Nat) : Statement (.reflexStepEnd n k) := of_none rfl
theorem reflexOutputFrame (n k : Nat) : Statement (.reflexOutputFrame n k) := of_none rfl
theorem reflexResetMark (ag : Agent) (group : BitVec 6) (v : W32) : Statement (.reflexResetMark ag group v) := of_none rfl
theorem reflexStop (ag : Agent) (group : BitVec 6) : Statement (.reflexStop ag group) := of_none rfl
theorem reflexGroupEnd (n k : Nat) : Statement (.reflexGroupEnd n k) := of_none rfl
theorem reflexHoldExpiry (n k : Nat) : Statement (.reflexHoldExpiry n k) := of_none rfl
theorem reflexResume (n k : Nat) : Statement (.reflexResume n k) := of_none rfl
theorem vltCmapWrite (ag : Agent) (hi : Bool) (v : W32) : Statement (.vltCmapWrite ag hi v) := of_none rfl
theorem vltTlbinv (ag : Agent) (hi : Bool) (v : W32) : Statement (.vltTlbinv ag hi v) := of_none rfl
theorem tlbinvDone : Statement .tlbinvDone := of_none rfl
theorem vltLblkWrite (ag : Agent) (n : BitVec 10) (v : W32) : Statement (.vltLblkWrite ag n v) := of_none rfl
theorem windowStart (ag : Agent) (n : BitVec 4) : Statement (.windowStart ag n) := of_none rfl
theorem windowStop (ag : Agent) (n : BitVec 4) : Statement (.windowStop ag n) := of_none rfl
theorem chunkStart (n : Nat) : Statement (.chunkStart n) := of_none rfl
theorem chunkLanded (n g : Nat) : Statement (.chunkLanded n g) := of_none rfl
theorem vaultAccessTimeout (rd : VaultReader) (va pa : Nat) (fetch : Bool) : Statement (.vaultAccessTimeout rd va pa fetch) :=
  of_none rfl
theorem vaultRetrainEnd (v : Nat) (ok : Bool) : Statement (.vaultRetrainEnd v ok) := of_none rfl
theorem rowSparing (pa waited : Nat) : Statement (.rowSparing pa waited) := of_none rfl
theorem patrolRead (pa err : Nat) : Statement (.patrolRead pa err) := of_none rfl
theorem vaultRefresh (v waited : Nat) : Statement (.vaultRefresh v waited) := of_none rfl
theorem schedCardSync (ag : Agent) (n : BitVec 14) : Statement (.schedCardSync ag n) := of_none rfl
theorem cardTakeUp (n : Nat) : Statement (.cardTakeUp n) := of_none rfl
theorem cardFetch (n : Nat) : Statement (.cardFetch n) := of_none rfl
theorem contextEnable (ag : Agent) (n : BitVec 12) (v : W32) : Statement (.contextEnable ag n v) := of_none rfl
theorem contextDisable (ag : Agent) (n : BitVec 12) : Statement (.contextDisable ag n) := of_none rfl
theorem schedDb (ag : Agent) (v : W32) : Statement (.schedDb ag v) := of_none rfl
theorem parcelTake (card : Nat) : Statement (.parcelTake card) := of_none rfl
theorem parcelWaitEnd (n : Nat) : Statement (.parcelWaitEnd n) := of_none rfl
theorem parcelWaitTimeout (n : Nat) : Statement (.parcelWaitTimeout n) := of_none rfl
theorem permitGrant : Statement .permitGrant := of_none rfl
theorem permitTimeout (n : Nat) : Statement (.permitTimeout n) := of_none rfl
theorem parcelComplete (n : Nat) : Statement (.parcelComplete n) := of_none rfl
theorem mailboxDeliver (n : Nat) : Statement (.mailboxDeliver n) := of_none rfl
theorem mailboxTxTake (n : Nat) : Statement (.mailboxTxTake n) := of_none rfl
theorem fwpRestartRequest (ag : Agent) (p : Nat) : Statement (.fwpRestartRequest ag p) := of_none rfl
theorem fwpRestartEnd (p : Nat) : Statement (.fwpRestartEnd p) := of_none rfl
theorem fwpKick (p : Nat) : Statement (.fwpKick p) := of_none rfl
theorem watchdogExpiry (p : Nat) : Statement (.watchdogExpiry p) := of_none rfl
theorem fwFlashWriteEnd : Statement .fwFlashWriteEnd := of_none rfl
theorem schedHeartbeat (ag : Agent) (v : W32) : Statement (.schedHeartbeat ag v) := of_none rfl
theorem leaseExpiry (n : Nat) : Statement (.leaseExpiry n) := of_none rfl
theorem holdExpiry (n : Nat) : Statement (.holdExpiry n) := of_none rfl
theorem sessionRelease (n : Nat) : Statement (.sessionRelease n) := of_none rfl
theorem hello : Statement .hello := of_none rfl
theorem bye : Statement .bye := of_none rfl
theorem heartbeat : Statement .heartbeat := of_none rfl
theorem leaseCfg : Statement .leaseCfg := of_none rfl
theorem submit : Statement .submit := of_none rfl
theorem cardSync : Statement .cardSync := of_none rfl
theorem doorbell : Statement .doorbell := of_none rfl
theorem tallyAlloc : Statement .tallyAlloc := of_none rfl
theorem tallyFree : Statement .tallyFree := of_none rfl
theorem tallyOpTsig : Statement .tallyOpTsig := of_none rfl
theorem tallyOpTadd : Statement .tallyOpTadd := of_none rfl
theorem tallyOpTread : Statement .tallyOpTread := of_none rfl
theorem tallyWatch : Statement .tallyWatch := of_none rfl
theorem tallyWatchTimeout (session seq : Nat) : Statement (.tallyWatchTimeout session seq) := of_none rfl
theorem read : Statement .read := of_none rfl
theorem write : Statement .write := of_none rfl
theorem snapshot : Statement .snapshot := of_none rfl
theorem regRead : Statement .regRead := of_none rfl
theorem regWrite : Statement .regWrite := of_none rfl
theorem logRead : Statement .logRead := of_none rfl
theorem powerState : Statement .powerState := of_none rfl
theorem powerCap : Statement .powerCap := of_none rfl
theorem paceBind : Statement .paceBind := of_none rfl
theorem pace : Statement .pace := of_none rfl
theorem paceResend : Statement .paceResend := of_none rfl
theorem propose : Statement .propose := of_none rfl
theorem countersign : Statement .countersign := of_none rfl
theorem attest : Statement .attest := of_none rfl
theorem fwUpdate : Statement .fwUpdate := of_none rfl
theorem fwRestart : Statement .fwRestart := of_none rfl
theorem messageUnknownOpcode : Statement .messageUnknownOpcode := of_none rfl
theorem reassemblyTimeout (n : Nat) : Statement (.reassemblyTimeout n) := of_none rfl
theorem ethFrameRx (n : Nat) (raw : List Byte) (fcsOk : Bool) : Statement (.ethFrameRx n raw fcsOk) := of_none rfl
theorem ethFrameTxStart (n : Nat) : Statement (.ethFrameTxStart n) := of_none rfl
theorem gateControlEntry (n : Nat) : Statement (.gateControlEntry n) := of_none rfl
theorem qbvChange (ag : Agent) (n : BitVec 2) (v : W32) : Statement (.qbvChange ag n v) := of_none rfl
theorem qbvConfigChange (n : Nat) : Statement (.qbvConfigChange n) := of_none rfl
theorem linkDown (n : Nat) (fault : Bool) : Statement (.linkDown n fault) := of_none rfl
theorem linkUp (n : Nat) (verified : Bool) : Statement (.linkUp n verified) := of_none rfl
theorem ethTblRead : Statement .ethTblRead := of_none rfl
theorem ethTblWrite : Statement .ethTblWrite := of_none rfl
theorem fdbAgeOut (n : Nat) : Statement (.fdbAgeOut n) := of_none rfl
theorem cbHistoryReset (n : Nat) : Statement (.cbHistoryReset n) := of_none rfl
theorem sakRekey (n : Nat) : Statement (.sakRekey n) := of_none rfl
theorem ethFlowDb (ag : Agent) (v : W32) : Statement (.ethFlowDb ag v) := of_none rfl
theorem flowTxTake (n : Nat) : Statement (.flowTxTake n) := of_none rfl
theorem muteEngage : Statement .muteEngage := of_none rfl
theorem muteRelease : Statement .muteRelease := of_none rfl
theorem micClockStart (n : Nat) : Statement (.micClockStart n) := of_none rfl
theorem archiveRowComplete (samples : List (List (BitVec 16))) : Statement (.archiveRowComplete samples) := of_none rfl
theorem archiveCopy (ag : Agent) (v : W32) : Statement (.archiveCopy ag v) := of_none rfl
theorem archiveCopyEnd : Statement .archiveCopyEnd := of_none rfl
theorem loupeFrame (n : Nat) (xs : List (BitVec 16)) : Statement (.loupeFrame n xs) := of_none rfl
theorem lensHop (n hop : Nat) : Statement (.lensHop n hop) := of_none rfl
theorem micBlockDeliver (n : Nat) (mics : List (List (BitVec 16))) : Statement (.micBlockDeliver n mics) := of_none rfl
theorem outputBlockPlay (n : Nat) : Statement (.outputBlockPlay n) := of_none rfl
theorem audRingDb (ag : Agent) (v : W32) : Statement (.audRingDb ag v) := of_none rfl
theorem cameraFrameStart (port vc fnum : Nat) (ecc1 : Bool) : Statement (.cameraFrameStart port vc fnum ecc1) := of_none rfl
theorem csiLine (port vc dt : Nat) (px : List Nat) (crcOk ecc1 : Bool) :
    Statement (.csiLine port vc dt px crcOk ecc1) := of_none rfl
theorem embeddedDataPacket (port vc : Nat) (data : List Byte) (found : PacketCheck) :
    Statement (.embeddedDataPacket port vc data found) := of_none rfl
theorem cameraFrameEnd (port vc : Nat) (ecc1 : Bool) : Statement (.cameraFrameEnd port vc ecc1) := of_none rfl
theorem frameWatchdogExpiry (n : Nat) : Statement (.frameWatchdogExpiry n) := of_none rfl
theorem ispLineProcess (pipe : Nat) : Statement (.ispLineProcess pipe) := of_none rfl
theorem frameDeliver (n : Nat) : Statement (.frameDeliver n) := of_none rfl
theorem csiRingDb (ag : Agent) (v : W32) : Statement (.csiRingDb ag v) := of_none rfl
theorem ispArm (ag : Agent) (stream : BitVec 4) (v : W32) : Statement (.ispArm ag stream v) := of_none rfl
theorem fsyncEdge (k : Nat) : Statement (.fsyncEdge k) := of_none rfl
theorem i3cXfer (ag : Agent) (bus : BitVec 2) (v : W32) : Statement (.i3cXfer ag bus v) := of_none rfl
theorem i3cXferStart (k : Nat) : Statement (.i3cXferStart k) := of_none rfl
theorem i3cXferDone (k : Nat) (nack : Bool) (data : List Byte) : Statement (.i3cXferDone k nack data) := of_none rfl
theorem ladderEnable (ag : Agent) (v : W32) : Statement (.ladderEnable ag v) := of_none rfl
theorem ladderDisable (ag : Agent) : Statement (.ladderDisable ag) := of_none rfl
theorem ladderReload (ag : Agent) : Statement (.ladderReload ag) := of_none rfl
theorem verdictDeadline (k : Nat) : Statement (.verdictDeadline k) := of_none rfl
theorem demotionExpiry (k : Nat) : Statement (.demotionExpiry k) := of_none rfl
theorem periodicSubmit (k : Nat) : Statement (.periodicSubmit k) := of_none rfl
theorem ticketMove : Statement .ticketMove := of_none rfl
theorem audLadAck (ag : Agent) (v : W32) : Statement (.audLadAck ag v) := of_none rfl
theorem pwrStateRequest (ag : Agent) (target : BitVec 3) : Statement (.pwrStateRequest ag target) := of_none rfl
theorem powerEntryBegin : Statement .powerEntryBegin := of_none rfl
theorem powerDrainTimeout : Statement .powerDrainTimeout := of_none rfl
theorem deepSleepEntryBegin : Statement .deepSleepEntryBegin := of_none rfl
theorem powerEntryComplete : Statement .powerEntryComplete := of_none rfl
theorem autoIdleEntry : Statement .autoIdleEntry := of_none rfl
theorem wakePin : Statement .wakePin := of_none rfl
theorem wakeTimer : Statement .wakeTimer := of_none rfl
theorem powerReturn : Statement .powerReturn := of_none rfl
theorem clusterWake (c : Nat) : Statement (.clusterWake c) := of_none rfl
theorem dvfsTargetWrite (ag : Agent) (c : Nat) (v : BitVec 2) : Statement (.dvfsTargetWrite ag c v) := of_none rfl
theorem clkDivWrite (ag : Agent) (c : Nat) (v : BitVec 2) : Statement (.clkDivWrite ag c v) := of_none rfl
theorem dvfsVselWrite (ag : Agent) (c : Nat) (v : BitVec 2) : Statement (.dvfsVselWrite ag c v) := of_none rfl
theorem dvfsStepEnd (c : Nat) : Statement (.dvfsStepEnd c) := of_none rfl
theorem vstepAck : Statement .vstepAck := of_none rfl
theorem vstepTimeout : Statement .vstepTimeout := of_none rfl
theorem ledgerRefill : Statement .ledgerRefill := of_none rfl
theorem ledgerRateUpdate (powerMw fixedMw : Nat) (hostUp hostDown : Bool) :
    Statement (.ledgerRateUpdate powerMw fixedMw hostUp hostDown) := of_none rfl
theorem pwrCapWrite (ag : Agent) (v : W32) : Statement (.pwrCapWrite ag v) := of_none rfl
theorem pwrModeWrite (ag : Agent) (v : W32) : Statement (.pwrModeWrite ag v) := of_none rfl
theorem droopDetect (c : Nat) : Statement (.droopDetect c) := of_none rfl
theorem droopStretchEnd (c : Nat) : Statement (.droopStretchEnd c) := of_none rfl
theorem tempSample (temps : List (BitVec 8)) : Statement (.tempSample temps) := of_none rfl
theorem thermalTrip : Statement .thermalTrip := of_none rfl
theorem coreFence (core cause : Nat) : Statement (.coreFence core cause) := of_none rfl
theorem hangDetect (core : Nat) : Statement (.hangDetect core) := of_none rfl
theorem supplyMonitorFence (cl : Nat) : Statement (.supplyMonitorFence cl) := of_none rfl
theorem fixFence (ag : Agent) (v : W32) : Statement (.fixFence ag v) := of_none rfl
theorem entryCheckEnd (core : Nat) (pass : Bool) : Statement (.entryCheckEnd core pass) := of_none rfl
theorem degradedTimeout (n : Nat) : Statement (.degradedTimeout n) := of_none rfl
theorem ledgerAppend : Statement .ledgerAppend := of_none rfl
theorem ledgerCompact : Statement .ledgerCompact := of_none rfl
theorem spareBistStart (core : Nat) : Statement (.spareBistStart core) := of_none rfl
theorem bistEnd (core fails : Nat) (column : W32) : Statement (.bistEnd core fails column) := of_none rfl
theorem reinstateBist (core : Nat) : Statement (.reinstateBist core) := of_none rfl
theorem rollingSwapStart : Statement .rollingSwapStart := of_none rfl
theorem rollingSwapTimeout : Statement .rollingSwapTimeout := of_none rfl
theorem rollingSwapCopyEnd : Statement .rollingSwapCopyEnd := of_none rfl
theorem settleEnd : Statement .settleEnd := of_none rfl
theorem tenantSwitchEnd : Statement .tenantSwitchEnd := of_none rfl
theorem modelMeasure (ag : Agent) (v : W32) : Statement (.modelMeasure ag v) := of_none rfl
theorem modelMeasureEnd : Statement .modelMeasureEnd := of_none rfl
theorem topSnapArm (ag : Agent) : Statement (.topSnapArm ag) := of_none rfl
theorem topSnapCancel (ag : Agent) : Statement (.topSnapCancel ag) := of_none rfl
theorem snapshotTake : Statement .snapshotTake := of_none rfl
theorem obsTrcAck (ag : Agent) (v : W32) : Statement (.obsTrcAck ag v) := of_none rfl
theorem errSumClear (ag : Agent) (v : W32) : Statement (.errSumClear ag v) := of_none rfl
theorem uart1Send (ag : Agent) (b : Byte) : Statement (.uart1Send ag b) := of_none rfl
theorem uart1ReceiveRead (ag : Agent) : Statement (.uart1ReceiveRead ag) := of_none rfl
theorem uart1ByteRx (b : Byte) : Statement (.uart1ByteRx b) := of_none rfl
theorem supplyBelowRange : Statement .supplyBelowRange := of_none rfl
theorem illegalInstr (ag : Agent) (w0 w1 : W32) : Statement (.illegalInstr ag w0 w1) := of_words rfl rfl rfl
theorem gptpMessageInterval (d : Nat) : Statement (.gptpMessageInterval d) := of_none rfl
theorem mkaTimer (n : Nat) : Statement (.mkaTimer n) := of_none rfl
theorem csiLinkStateChange (port link : Nat) (deskewed : Bool) :
    Statement (.csiLinkStateChange port link deskewed) := of_none rfl
theorem csiPacketDiscard (port cause : Nat) : Statement (.csiPacketDiscard port cause) := of_none rfl
theorem uart1ByteSent : Statement .uart1ByteSent := of_none rfl
theorem jtagTckEdge (tms tdi trstN : Bool) : Statement (.jtagTckEdge tms tdi trstN) := of_none rfl

end Sys2Proof.Laws.Words
end

