-- ==== Sys2Proof/Tests/Slice0.lean ====
section
/-! SUPPORT. Tests: ill-formed commands that WellFormed refuses, words written out from the spec's encodings, and a state for the
hypotheses of each statement. -/

open Sys2Proof Sys2Proof.Machine

namespace Sys2Proof.Tests

set_option Elab.async false

/-! ## Well-formedness: one ill-formed command for each check of each row -/

/-- Operands of zeros, format by format. -/
abbrev z3 : R3 := ⟨0, 0, 0, 0⟩

abbrev zi : I3 := ⟨0, 0, 0, 0⟩

abbrev zb : B3 := ⟨0, 0⟩

abbrev zx : X3 := ⟨0, 0, 0, 0, 0, 0⟩

/-- Agents that the device does not have: a ninth host core, a sixth firmware processor, a core and a gang past the last. -/
def noAgents : List Agent := [.host 8, .fw 5, .lane 192 0, .lane 0 128]

theorem test_agent_checked_1 : (noAgents.all fun ag => List.all (α := Instr)
  [.loHiReadLatch ag 0, .registerWrite ag 0 0, .topFtCtrlWrite ag 0, .add ag false z3, .sub ag false z3, .mul ag false z3,
   .mulh ag false z3, .mulhu ag false z3, .div ag false z3, .divu ag false z3, .rem ag false z3, .remu ag false z3,
   .and ag false z3, .or ag false z3, .xor ag false z3, .shl ag false z3, .shr ag false z3, .sra ag false z3,
   .min ag false z3, .minu ag false z3, .max ag false z3, .maxu ag false z3, .clz ag false z3, .popc ag false z3,
   .addp ag false z3, .addi ag zi, .andi ag zi, .ori ag zi, .xori ag zi, .shi ag zi, .li ag zx, .addx ag zx, .cmp ag 0 z3,
   .pand ag z3, .por ag z3, .pxor ag z3, .pandn ag z3, .pnot ag z3, .p2g ag z3, .g2p ag z3, .fadd ag z3, .fsub ag z3,
   .fmul ag z3, .ffma ag z3, .fmin ag z3, .fmax ag z3, .fabs ag z3, .fneg ag z3, .fmvGf ag z3, .fmvFg ag z3, .fexp2 ag z3,
   .flog2 ag z3, .frcp ag z3, .frsq ag z3, .fsig ag z3, .ftanh ag z3, .cvt ag 0 z3, .add2 ag false z3, .mul2 ag false z3,
   .fma2 ag false z3]
  fun i => !i.wf) = true := by decide

theorem test_agent_checked_2 : (noAgents.all fun ag => List.all (α := Instr)
  [.min2 ag false z3, .max2 ag false z3, .ldb ag zi, .ldbu ag zi, .ldh ag zi, .ldhu ag zi, .ldw ag zi, .ldwu ag zi,
   .ldd ag zi, .stb ag zi, .sth ag zi, .stw ag zi, .std ag zi, .ldwAcq ag 0 z3, .lddAcq ag 0 z3, .stwRel ag 0 z3,
   .stdRel ag 0 z3, .fenceAcq ag 0 z3, .fenceRel ag 0 z3, .fenceAr ag 0 z3, .atomAdd ag false 0 z3, .atomMin ag false 0 z3,
   .atomMax ag false 0 z3, .atomAnd ag false 0 z3, .atomOr ag false 0 z3, .atomXor ag false 0 z3, .atomSwap ag false 0 z3,
   .atomCas ag false 0 z3, .atomArAdd ag false 0 z3, .atomArMin ag false 0 z3, .atomArMax ag false 0 z3,
   .atomArAnd ag false 0 z3, .atomArOr ag false 0 z3, .atomArXor ag false 0 z3, .atomArSwap ag false 0 z3,
   .atomArCas ag false 0 z3, .bra ag zb, .call ag zb, .jr ag z3, .bral ag zx, .nop ag z3, .exit ag z3, .bar ag z3,
   .yield ag z3, .upcall ag z3, .brk ag z3, .tret ag z3, .snooze ag z3, .iflush ag z3, .rds ag zi, .crd ag zi, .cwr ag zi,
   .cmsk ag zx, .timerInterruptPending ag, .interruptTake ag, .shfl ag z3, .ballot ag z3, .any ag z3, .all ag z3,
   .radd ag z3]
  fun i => !i.wf) = true := by decide

theorem test_agent_checked_3 : (noAgents.all fun ag => List.all (α := Instr)
  [.rmin ag z3, .rmax ag z3, .fradd ag z3, .frmin ag z3, .frmax ag z3, .tsig ag 0 z3, .tadd ag 0 z3, .twait ag 0 z3,
   .tread ag 0 z3, .twaitTimeout ag 0, .tdld ag {}, .tdw ag {}, .tdst ag {}, .fmove ag {}, .tmma ag {}, .tdrain ag {},
   .accScale ag {}, .tclr ag {}, .trec ag {}, .stateAudit ag {}, .tsync ag {}, .rope ag {}, .tmask ag {}, .tsmaxStep ag {},
   .tsmaxFinal ag {}, .tsmaxMerge ag {}, .tsmaxInit ag {}, .coreFltCauseClear ag 0 0, .illegalInstr ag 0 0,
   .vaultAccessTimeout (.agent ag) 0 0 false, .schedTallyAlloc ag, .schedTallyFree ag 0, .schedCardSync ag 0, .contextEnable ag 0 0,
   .contextDisable ag 0, .schedDb ag 0, .schedHeartbeat ag 0, .reflexCoreEnable ag 0 0, .reflexCoreDisable ag 0,
   .reflexResetMark ag 0 0, .reflexStop ag 0, .pidxRqDb ag 0, .vltCmapWrite ag false 0, .vltTlbinv ag false 0,
   .vltLblkWrite ag 0 0, .windowStart ag 0, .windowStop ag 0, .fwpRestartRequest ag 0, .qbvChange ag 0 0, .ethFlowDb ag 0,
   .archiveCopy ag 0, .audRingDb ag 0, .csiRingDb ag 0, .ispArm ag 0 0, .i3cXfer ag 0 0, .ladderEnable ag 0,
   .ladderDisable ag, .ladderReload ag, .audLadAck ag 0, .pwrStateRequest ag 0]
  fun i => !i.wf) = true := by decide

theorem test_agent_checked_4 : (noAgents.all fun ag => List.all (α := Instr)
  [.dvfsTargetWrite ag 0 0, .dvfsVselWrite ag 0 0, .clkDivWrite ag 0 0, .pwrCapWrite ag 0, .pwrModeWrite ag 0,
   .fixFence ag 0, .modelMeasure ag 0, .topSnapArm ag, .topSnapCancel ag, .obsTrcAck ag 0, .errSumClear ag 0,
   .uart1Send ag 0, .uart1ReceiveRead ag]
  fun i => !i.wf) = true := by decide

theorem test_agent_accepted : Agent.wf (.host 7) = true ∧ Agent.wf (.fw 4) = true ∧ Agent.wf (.lane 191 127) = true := by decide

theorem test_operand_checked_1 : (List.all (α := Instr)
  [.yieldExpiry 192 0, .yieldExpiry 0 128, .twaitTimeout (.host 0) 64, .tensorInstrStart 192 0, .tensorInstrFinish 192 0,
   .prismFeedFetch 192, .fmoveFinish 192 0, .gangAdmit 192 0 0 [], .gangAdmit 0 0 128 [], .gangAdmit 0 0 0 [4],
   .gangRetire 192 0, .gangRetire 0 128, .gangParkSwap 192, .coreFltCauseClear (.host 0) 192 0, .chunkStart 16,
   .chunkLanded 16 0, .patrolRead (2 ^ 48) 0, .patrolRead 0 3, .vaultRefresh 16 0, .vaultRefresh 0 121,
   .vaultRetrainEnd 16 false, .cardFetch 16384, .parcelTake 16384, .ethFrameRx 4 [] false, .ethFrameTxStart 5,
   .gateControlEntry 4, .qbvConfigChange 4, .linkDown 4 false, .linkUp 4 false, .fdbAgeOut 8192, .cbHistoryReset 512,
   .sakRekey 4, .mkaTimer 4, .gptpMessageInterval 2, .flowTxTake 16384, .mailboxDeliver 16384, .mailboxTxTake 16384,
   .reassemblyTimeout 4096, .dvfsStepEnd 17, .clusterWake 16, .droopDetect 17, .droopStretchEnd 17, .tempSample [],
   .reflexCoreReady 16, .reflexTick 16 0, .reflexTick 0 4, .reflexArriveLatch 16 0, .reflexArriveLatch 0 4,
   .reflexStepStart 16, .reflexStepEnd 16 0, .reflexStepEnd 0 4, .reflexOutputFrame 16 0, .reflexOutputFrame 0 4,
   .reflexGroupEnd 16 0, .reflexGroupEnd 0 4, .reflexHoldExpiry 16 0, .reflexHoldExpiry 0 4, .reflexResume 16 0,
   .reflexResume 0 4, .micClockStart 4]
  fun i => !i.wf) = true := by decide

theorem test_operand_checked_2 : (List.all (α := Instr)
  [.micBlockDeliver 16384 [], .outputBlockPlay 16384, .cameraFrameStart 8 0 0 false, .cameraFrameStart 0 4 0 false,
   .cameraFrameStart 0 0 65536 false, .csiLine 8 0 0 [] false false, .csiLine 0 4 0 [] false false,
   .csiLine 0 0 64 [] false false, .embeddedDataPacket 8 0 [] ⟨false, true⟩,
   .embeddedDataPacket 0 4 [] ⟨false, true⟩,
   .cameraFrameEnd 8 0 false, .cameraFrameEnd 0 4 false, .frameWatchdogExpiry 16384, .csiPacketDiscard 8 1,
   .csiPacketDiscard 0 3, .csiLinkStateChange 8 0 false, .csiLinkStateChange 0 4 false, .ispLineProcess 2, .fsyncEdge 8,
   .i3cXferStart 4, .i3cXferDone 4 false [], .loupeFrame 4 (.replicate 160 0), .loupeFrame 0 [], .lensHop 4 0,
   .frameDeliver 16384, .verdictDeadline 32, .demotionExpiry 32, .periodicSubmit 32, .cardTakeUp 16384, .fwpRestartEnd 5,
   .watchdogExpiry 5, .leaseExpiry 4096, .holdExpiry 4096, .sessionRelease 4096, .coreFence 192 1, .coreFence 0 0,
   .hangDetect 192, .supplyMonitorFence 16, .entryCheckEnd 192 false, .spareBistStart 192, .bistEnd 192 0 0, .bistEnd 0 3 0,
   .reinstateBist 192, .rowSparing (2 ^ 48) 0, .rowSparing 0 2001, .vaultAccessTimeout (.agent (.host 0)) 0 (2 ^ 48) false,
   .fwpRestartRequest (.host 0) 5, .fwpKick 5, .dvfsTargetWrite (.host 0) 17 0, .dvfsVselWrite (.host 0) 17 0,
   .clkDivWrite (.host 0) 16 0, .tallyWatchTimeout 4096 0]
  fun i => !i.wf) = true := by decide

/-! ## Words written out field by field from the encodings of the ISA (R44 to R72) -/

/-- A lane and a host core. -/
abbrev ln : Agent := .lane 3 5

abbrev hc : Agent := .host 1

/-- R49's worked examples: FFMA g7, g2, g9 guarded by !p3, and LI g5, 0x0000_4000. -/
theorem test_words_of_R49 :
    isaDecode ln 0 0x167125C3#32 0 = some (.ffma ln ⟨7, 2, 9, 0b0111⟩) ∧
    isaDecode hc 0 0xE0500000#32 0x00004000#32 = some (.li hc ⟨5, 0, 0, 0, 0, 0x4000⟩) := by decide

/-- R32: length bit, major, D, A, B, guard, func. -/
theorem test_words_r32 :
    isaDecode hc 0 0b0_000001_00101_00110_00111_0000_100001#32 0 = some (.sub hc true ⟨5, 6, 7, 0⟩) ∧
    isaDecode ln 0 0b0_001001_00011_00010_00001_0000_001011#32 0 = some (.cmp ln 11 ⟨3, 2, 1, 0⟩) ∧
    isaDecode ln 0 0b0_001111_00111_00001_00000_0010_000100#32 0 = some (.pnot ln ⟨7, 1, 0, 2⟩) ∧
    isaDecode hc 0 0b0_001011_00001_00010_00011_0000_000001#32 0 = some (.fsub hc ⟨1, 2, 3, 0⟩) ∧
    isaDecode hc 0 0b0_001110_00001_00010_00000_0000_000100#32 0 = some (.fsig hc ⟨1, 2, 0, 0⟩) ∧
    isaDecode ln 0 0b0_001101_00100_00010_00010_0000_000110#32 0 = some (.cvt ln 6 ⟨4, 2, 2, 0⟩) ∧
    isaDecode ln 0 0b0_101010_00001_00010_00011_0000_000011#32 0 = some (.mul2 ln true ⟨1, 2, 3, 0⟩) ∧
    isaDecode ln 0 0b0_101001_00010_00011_00000_0000_000001#32 0 = some (.ballot ln ⟨2, 3, 0, 0⟩) := by decide

/-- R32 words of memory, control flow, SYS and tallies. -/
theorem test_words_r32_memory :
    isaDecode hc 0 0b0_011100_00001_00010_00000_0000_000010#32 0 = some (.ldwAcq hc 2 ⟨1, 2, 0, 0⟩) ∧
    isaDecode hc 0 0b0_011100_00000_00000_00000_0000_110100#32 0 = some (.fenceAr hc 4 ⟨0, 0, 0, 0⟩) ∧
    isaDecode hc 0 0b0_011101_00001_00010_00011_0000_111111#32 0 = some (.atomCas hc true 3 ⟨1, 2, 3, 0⟩) ∧
    isaDecode hc 0 0b0_011110_00001_00010_00011_0000_000001#32 0 = some (.atomArMin hc false 0 ⟨1, 2, 3, 0⟩) ∧
    isaDecode hc 0 0b0_100010_11111_00010_00000_0000_000000#32 0 = some (.jr hc ⟨31, 2, 0, 0⟩) ∧
    isaDecode hc 0 0b0_100011_00000_00000_00000_0000_000110#32 0 = some (.tret hc ⟨0, 0, 0, 0⟩) ∧
    isaDecode hc 0 0b0_101000_00001_00010_00011_0000_100010#32 0 = some (.twait hc 4 ⟨1, 2, 3, 0⟩) := by decide

/-- I32 and S32: length bit, major, D or B, A, guard, imm11; B32: length bit, major, guard, off21. -/
theorem test_words_i32_s32_b32 :
    isaDecode hc 0 0b0_000010_00001_00010_0000_11111111111#32 0 = some (.addi hc ⟨1, 2, 0, 0x7FF⟩) ∧
    isaDecode hc 0 0b0_010100_00001_00010_0000_11111111100#32 0 = some (.ldw hc ⟨1, 2, 0, 0x7FC⟩) ∧
    isaDecode ln 0 0b0_011011_00100_00010_0000_00000001000#32 0 = some (.std ln ⟨4, 2, 0, 8⟩) ∧
    isaDecode hc 0 0b0_100100_00011_00000_0000_00001001010#32 0 = some (.crd hc ⟨3, 0, 0, 0x04A⟩) ∧
    isaDecode ln 0 0b0_100111_00011_00000_0000_00000000101#32 0 = some (.rds ln ⟨3, 0, 0, 5⟩) ∧
    isaDecode ln 0 0b0_100000_0111_111111111111111111111#32 0 = some (.bra ln ⟨7, 0x1FFFFF⟩) := by decide

/-- X64 and T64: length bit, major, then D, A, B, guard and func, or tdA, tdB, tdC, bank, G and func. -/
theorem test_words_x64_t64 :
    isaDecode hc 0 0b1_110101_00001_00010_00011_0000_000000#32 0x108#32 = some (.cmsk hc ⟨1, 2, 3, 0, 0, 0x108⟩) ∧
    isaDecode ln 0 0b1_111000_0000_0000_0101_00_00111_000001#32 7#32 = some (.tdw ln ⟨0, 0, 5, 0, 7, 7⟩) ∧
    isaDecode ln 0 0b1_111001_0001_0010_0000_10_00000_000000#32 1#32 = some (.tmma ln ⟨1, 2, 0, 2, 0, 1⟩) ∧
    isaDecode ln 0 0b1_111011_0011_0000_0000_01_00000_000000#32 0 = some (.accScale ln ⟨3, 0, 0, 1, 0, 0⟩) ∧
    isaDecode ln 3 0b1_111101_0001_0000_0000_00_00100_000010#32 0 = some (.tsmaxInit ln ⟨1, 0, 0, 0, 4, 0⟩) := by decide

/-- Words that are no instruction: zeros (R45), a reserved major (R49), a length bit that disagrees with the major (R45), func 22 of
the ALU group (R50) and operation 7 of the ORD group (R59). -/
theorem test_words_refused :
    isaDecode hc 0 0#32 0 = none ∧ isaDecode ln 0 0#32 0 = none ∧
    isaDecode hc 0 0b0_000111_00000_00000_00000_0000_000000#32 0 = none ∧
    isaDecode hc 0 0b1_000001_00101_00110_00111_0000_000001#32 0 = none ∧
    isaDecode hc 0 0b0_000001_00101_00110_00111_0000_010110#32 0 = none ∧
    isaDecode hc 0 0b0_011100_00000_00000_00000_0000_111000#32 0 = none := by decide


/-! ## States that meet the hypotheses of the statements about instructions -/

/-- A value that an evaluation gives. -/
def okAnd {ε α : Type} (e : Except ε α) (p : α → Bool) : Bool :=
  match e with
  | .ok a => p a
  | .error _ => false

theorem ok_of {ε α : Type} (e : Except ε α) (p : α → Bool) (h : okAnd e p = true) : ∃ a, e = .ok a ∧ p a = true := by
  cases e with
  | ok a => exact ⟨a, rfl, h⟩
  | error => cases h

/-- What a hart that issues an instruction must be (R77). -/
abbrev Issues (s : State) (ag : Agent) (key : Nat) : Prop :=
  s.halted = false ∧ hartOf ag = some key ∧ awake s = true ∧ (s.hart key).running = true ∧ (s.hart key).snoozing = false ∧
    hartWaits s key = false

/-- A hart where an instruction issues, from facts that evaluation decides. -/
theorem onHart_of (s : State) (ag : Agent) (key : Nat) (w : Words) (p : Run s → Bool)
    (h : Issues s ag key)
    (f : okAnd (hartFetch (Run.start s) key (s.hart key) (w.at (s.hart key).pc.toNat)) p = true) : ∃ r, OnHart s ag key w r ∧ p r = true := by
  obtain ⟨r, e, q⟩ := ok_of _ _ f
  exact ⟨r, ⟨h.1, h.2.1, h.2.2.1, h.2.2.2.1, h.2.2.2.2.1, h.2.2.2.2.2, e⟩, q⟩

/-- A gang where an instruction issues, from facts that evaluation decides. -/
theorem onLane_of (s : State) (c g : Nat) (w : Words) (regs tds : List Nat) (x : Gang) (p : Run s → Bool)
    (h : s.halted = false ∧ s.gang? c g = some x ∧ gangReady s c g = true ∧ issueTurn s c g = true ∧
      regs.any (· ≥ x.nreg) = false ∧ tds.any (· ≥ x.ntd) = false)
    (f : okAnd (laneFetch (Run.start s) (gangX s x) (w.at (x.minPc.getD 0))) p = true) : ∃ r, OnLane s c g w regs tds x r ∧ p r = true := by
  obtain ⟨r, e, q⟩ := ok_of _ _ f
  exact ⟨r, ⟨h.1, h.2.1, h.2.2.1, h.2.2.2.1, e, h.2.2.2.2.1, h.2.2.2.2.2⟩, q⟩

/-- Host core 0 and firmware processor 0 run in Monitor mode, with a base register and FPEN as given. -/
def up (base : W64 := 0x2000) (fpen : Bool := true) (mode : Mode := .mon) : State := {
  harts := [(0, { running := true, pc := 0x1000, g := [(2, base)], fpen := fpen, mode := mode }),
    (16, { running := true, pc := 0x017500000000 })]
  regs := [(fwReg 0 4, 0)] }

/-- Page tables that map page 1 onto itself, and a page the threads may not write, page 2 (R94 to R97). -/
def tables : SMap Byte := [
  (0x100003000, 1), (0x100003001, 0x30), (0x100003004, 1), (0x100003008, 0xDA), (0x100003009, 0x11), (0x100003010, 0xC2), (0x100003011, 0x20)]

/-- The root of context 0. -/
def rootRegs : SMap W32 := [(schedReg 0x10004, 0x3000), (schedReg 0x10008, 1)]

/-- A gang at 0x1000, its pair g2:g3 at an address. -/
def gang (base : W32) : Gang := {
  parcel := 0, gridIdx := 0, nreg := 32, ntd := 16, banks := [0, 1]
  threads := List.replicate 64 { pc := 0x1000, g := if base = 0 then [] else [(2, base)], p := 1 } }

/-- That gang with one thread left. -/
def gang1 (base : W32) : Gang := {
  gang base with threads := { pc := 0x1000, g := [(2, base)], p := 1 } :: List.replicate 63 { exited := true } }

/-- A state with that gang on core 0. -/
def gs (base : W32 := 0x1800) (cores : SMap Machine.Core := []) : State :=
  { mem := tables, regs := rootRegs, gangs := [(0, gang base)], cores := cores }

abbrev h0 : Agent := .host 0

abbrev l0 : Agent := .lane 0 0

/-- The states are sound, and an instruction of 32 or 64 bits issues on each kind of hart: the hypotheses of the rows of arithmetic,
floating point, jumps and SYS (AluInstructions to BranchInstructions, ExceptionInstructions, PrivilegedInstructions). -/
theorem test_hyp_hart_issue :
    (up.Sound ∧ (gs).Sound) ∧
    (∃ r, OnHart up h0 0 (wordsOf (.add h0 false z3)) r ∧ true = true) ∧
    (∃ r, OnHart up h0 0 (wordsOf (.li h0 zx)) r ∧ true = true) ∧
    (∃ r, OnHart up (.fw 0) 16 (wordsOf (.add (.fw 0) true z3)) r ∧ true = true) ∧
    (fpHart h0 ((up).hart 0) ∧ noFpHart h0 ((up (fpen := false)).hart 0) ∧ noFpHart (.fw 0) ((up).hart 16)) ∧
    ((((up).hart 0).issued (wordsOf (.tret h0 z3))).trapReturn.isSome = true ∧ ((up (mode := .user)).hart 0).mode = .user ∧
      ((up (mode := .sup)).hart 0).trapReturn.isSome = true) := by
  refine ⟨⟨⟨by decide +kernel, by decide +kernel, by decide +kernel, by decide +kernel⟩,
    ⟨by decide +kernel, by decide +kernel, by decide +kernel, by decide +kernel⟩⟩, onHart_of _ _ _ _ (fun _ => true) (by decide +kernel) (by decide +kernel),
    onHart_of _ _ _ _ (fun _ => true) (by decide +kernel) (by decide +kernel), onHart_of _ _ _ _ (fun _ => true) (by decide +kernel) (by decide +kernel),
    ⟨⟨⟨0, rfl⟩, rfl⟩, .inr rfl, .inl ⟨0, rfl⟩⟩, by decide +kernel⟩

/-- A 32-bit and a 64-bit instruction issue in a gang that has the registers and descriptors they name, at the top of their ranges: the
hypotheses of the rows of lanes (AluInstructions to BranchInstructions, GangControl), enabled threads or none (BREAK). -/
theorem test_hyp_lane_issue :
    (∃ r, OnLane gs 0 0 (wordsOf (.add l0 false z3)) [31, 30] [] (gang 0x1800) r ∧ true = true) ∧
    (∃ r, OnLane gs 0 0 (wordsOf (.li l0 zx)) [31] [15] (gang 0x1800) r ∧ true = true) ∧
    (gang 0).enabled 0 = (gang 0).active ∧ (gang 0).active ≠ [] ∧ (gang 0).enabled 1 = [] ∧ (gang 0).threads.length = 64 := by
  refine ⟨onLane_of _ _ _ _ _ _ _ (fun _ => true) (by decide +kernel) (by decide +kernel), onLane_of _ _ _ _ _ _ _ (fun _ => true) (by decide +kernel) (by decide +kernel),
    by decide +kernel, by decide +kernel, by decide +kernel, by decide +kernel⟩


/-- An access of host core 0 is fetched and translated, and what it finds meets a test. -/
theorem hartAt_of (s : State) (i : Instr) (k : Access) (a n : Nat) (q : Nat → Run s → Bool) (h : Issues s h0 0)
    (f : okAnd (hartFetch (Run.start s) 0 (s.hart 0) ((wordsOf i).at (s.hart 0).pc.toNat)) (fun r =>
      okAnd (r.hartAddr 0 ((s.hart 0).issued (wordsOf i)) k a n) fun p => q p.1 p.2) = true) :
    ∃ r, OnHart s h0 0 (wordsOf i) r ∧ ∃ pa r', r.hartAddr 0 ((s.hart 0).issued (wordsOf i)) k a n = .ok (pa, r') ∧
      q pa r' = true := by
  obtain ⟨r, o, t⟩ := onHart_of s h0 0 (wordsOf i) _ h f
  obtain ⟨p, e, t⟩ := ok_of _ _ t
  exact ⟨r, o, p.1, p.2, e, t⟩

/-- LDW from g2, STW of g2 to it, and an atomic there. -/
abbrev ldw2 : Instr := .ldw h0 ⟨1, 2, 0, 0⟩

abbrev stw2 : Instr := .stw h0 ⟨1, 2, 0, 0⟩

abbrev atom2 : Instr := .atomCas h0 false 0 ⟨1, 2, 3, 0⟩

/-- Loads, stores and atomics of a hart (LoadStoreInstructions, AtomicInstructions): an address that is not aligned; one that translation
refuses, at the end of the 48-bit space; memory, with and without an uncorrectable word; a register; and a hole of the map. -/
theorem test_hyp_hart_access :
    (0x2001 % 4 ≠ 0 ∧ 0x2004 % 4 = 0) ∧
    (∃ r, OnHart (up (2 ^ 48)) h0 0 (wordsOf ldw2) r ∧
      (match r.hartAddr 0 (((up (2 ^ 48)).hart 0).issued (wordsOf ldw2)) .load (2 ^ 48) 4 with
        | .ok _ => false
        | .error _ => true) = true) ∧
    (∃ r, OnHart up h0 0 (wordsOf ldw2) r ∧ ∃ pa r', r.hartAddr 0 (((up).hart 0).issued (wordsOf ldw2)) .load 0x2000 4 = .ok (pa, r') ∧
      (place r'.s h0 false true pa == some (.mem 0x2000) && !r'.s.isUe 0x2000 &&
        place r'.s h0 true true pa == some (.mem 0x2000)) = true) ∧
    (∃ r, OnHart { up with vault := { ue := [(0x100, 1)] } } h0 0 (wordsOf ldw2) r ∧ ∃ pa r',
      r.hartAddr 0 (({ up with vault := { ue := [(0x100, 1)] } } : State).hart 0 |>.issued (wordsOf ldw2)) .load 0x2000 4 = .ok (pa, r') ∧
      (place r'.s h0 false true pa == some (.mem 0x2000) && r'.s.isUe 0x2000) = true) ∧
    (∃ r, OnHart (up 0x018000300020) h0 0 (wordsOf stw2) r ∧ ∃ pa r',
      r.hartAddr 0 (((up 0x018000300020).hart 0).issued (wordsOf stw2)) .store (regBase + secReg 0x020) 4 = .ok (pa, r') ∧
      (place r'.s h0 true true pa == some (.reg (secReg 0x020)) && place r'.s h0 false true pa == some (.reg (secReg 0x020)) &&
        place r'.s h0 true false pa == none) = true) ∧
    (∃ r, OnHart (up 0x020000000000) h0 0 (wordsOf atom2) r ∧ ∃ pa r',
      r.hartAddr 0 (((up 0x020000000000).hart 0).issued (wordsOf atom2)) .atomic 0x020000000000 4 = .ok (pa, r') ∧
      (place r'.s h0 true false pa == none && place r'.s h0 false true pa == none) = true) := by
  refine ⟨by decide +kernel, ?_, hartAt_of _ _ _ _ _ (fun pa r' => _) (by decide +kernel) (by decide +kernel),
    hartAt_of _ _ _ _ _ (fun pa r' => _) (by decide +kernel) (by decide +kernel),
    hartAt_of _ _ _ _ _ (fun pa r' => _) (by decide +kernel) (by decide +kernel),
    hartAt_of _ _ _ _ _ (fun pa r' => _) (by decide +kernel) (by decide +kernel)⟩
  exact onHart_of _ _ _ _ (fun r => _) (by decide +kernel) (by decide +kernel)

/-- Loads, stores and atomics of a gang: all places found, and some thread's refused, for a page without rights and for a pair with bits
63:48 set; g2 holds the address. -/
theorem test_hyp_lane_access :
    (∃ r, OnLane { gs with gangs := [(0, gang1 0x1800)] } 0 0 (wordsOf (.ldw l0 ⟨1, 2, 0, 0⟩)) (laneRegs 4 1 ++ laneRegs 8 2) [] (gang1 0x1800) r ∧
      ((lanesAt r l0 (gangX r.s (gang1 0x1800)) .load ⟨4, true, true⟩ ((gang1 0x1800).advanced (wordsOf (.ldw l0 ⟨1, 2, 0, 0⟩)))
        ((gang1 0x1800).enabled 0) 2 0).2.2 == []) = true) ∧
    (∃ r, OnLane { gs with gangs := [(0, gang1 0x2000)] } 0 0 (wordsOf (.std l0 ⟨30, 2, 0, 0⟩)) (laneRegs 8 30 ++ laneRegs 8 2) [] (gang1 0x2000) r ∧
      (!(lanesAt r l0 (gangX r.s (gang1 0x2000)) .store ⟨8, true, false⟩ ((gang1 0x2000).advanced (wordsOf (.std l0 ⟨30, 2, 0, 0⟩)))
        ((gang1 0x2000).enabled 0) 2 0).2.2.isEmpty) = true) := by
  refine ⟨onLane_of _ _ _ _ _ _ _ (fun r => _) (by decide +kernel) (by decide +kernel),
    onLane_of _ _ _ _ _ _ _ (fun r => _) (by decide +kernel) (by decide +kernel)⟩

/-- Tally 5, allocated with generation 1 and value 3, and its handle. -/
def ts (waits : List TWait := []) (base : W64 := 0x10005) : State :=
  { up base with tallies := [(5, { allocated := true, value := 3 })], waits := waits, now := 100 }

/-- TallySignals, TallyInstructions: handles that are good, stale and malformed; values below, at and above; a generation that is not 0. -/
theorem test_hyp_tally :
    (ts).Sound ∧ tallyOf ts 0x10005 = some 5 ∧ ((ts).tally 5).gen ≠ 0 ∧ tallyOf ts 0x20005 = none ∧ tallyOf ts 0x14005 = none ∧
    (∃ r, OnHart ts h0 0 (wordsOf (.tsig h0 4 ⟨1, 2, 3, 0⟩)) r ∧
      (tallyOf r.s (((ts).hart 0).rg 2).toNat == some 5 && (tallyAct r 5 (.sig 9)).1 == some 3 &&
        (tallyAct r 5 (.wait (.hart 0) 4 100 1)).1 == none) = true) ∧
    (∃ r, OnHart (ts [] 0x20005) h0 0 (wordsOf (.twait h0 5 ⟨1, 2, 3, 0⟩)) r ∧
      (tallyOf r.s (((ts [] 0x20005).hart 0).rg 2).toNat == none) = true) ∧
    (∃ r, OnLane (gs) 0 0 (wordsOf (.twait l0 0 ⟨1, 2, 4, 0⟩)) [1, 2, 4, 5] [] (gang 0x1800) r ∧ true = true) := by
  refine ⟨⟨by decide +kernel, by decide +kernel, by decide +kernel, by decide +kernel⟩, by decide +kernel, by decide +kernel,
    by decide +kernel, by decide +kernel, onHart_of _ _ _ _ (fun r => _) (by decide +kernel) (by decide +kernel),
    onHart_of _ _ _ _ (fun r => _) (by decide +kernel) (by decide +kernel),
    onLane_of _ _ _ _ _ _ _ (fun _ => true) (by decide +kernel) (by decide +kernel)⟩

/-- TallyWaits: the threshold met exactly; a deadline of 99 passed at time 100 and one of 100 not yet; the waits of a hart and of the last
thread of a gang that have run out. -/
theorem test_hyp_tally_waits :
    ((3 : W32).toNat ≤ ((ts).tally 5).value.toNat ∧ ((ts).tally 5).value.toNat < (4 : W32).toNat ∧
      (99 : W64).toNat < (ts).now ∧ (ts).now ≤ (100 : W64).toNat) ∧
    (let s := ts [⟨.hart 0, 5, 4, 99, 1⟩]
     s.halted = false ∧ s.memWf ∧ s.regsWf ∧ s.unitsWf ∧ hartOf h0 = some 0 ∧
      (s.waits.filter fun x => decide (x.who = .hart 0)) = [⟨.hart 0, 5, 4, 99, 1⟩]) ∧
    (let s : State := { gs with waits := [⟨.thread 0 0 63, 5, 4, 0, 1⟩], now := 1 }
     s.halted = false ∧ s.memWf ∧ s.regsWf ∧ s.unitsWf ∧ s.gang? 0 0 = some (gang 0x1800) ∧
      (s.waits.filter fun x => decide (x.who = .thread 0 0 63)) = [⟨.thread 0 0 63, 5, 4, 0, 1⟩] ∧
      63 < (gang 0x1800).threads.length) := by decide +kernel

/-- ControlRegisterInstructions and ControlRegisterRules: registers that may be read and written in each mode, and ones that may not, at
the ends of their ranges; Interrupts: an alarm that has come, an interrupt that is chosen. -/
theorem test_hyp_control :
    (let h : Hart := { mode := .user }
     csrCheck 0 h 0x040 true = none ∧ csrCheck 0 h 0x04B false = none ∧ csrCheck 0 h 0x04B true = some .illegal ∧
      csrCheck 0 h 0x100 false = some .privileged) ∧
    (let h : Hart := { mode := .sup }
     csrCheck 0 h 0x100 true = none ∧ csrCheck 0 h 0x300 false = some .privileged) ∧
    (let h : Hart := {}
     csrCheck 0 h 0x30C true = none ∧ csrCheck 16 h 0x32F true = none ∧ csrCheck 0 h 0x320 false = some .illegal ∧
      csrCheck 16 h 0x100 false = some .illegal ∧ csrCheck 0 h 0 false = some .illegal) ∧
    ((up).hart 0).alarm.toNat ≤ (up).now ∧
    (let h : Hart := { running := true, pc := 0x1000, irqen := 4, softIrq := true, ieM := true }
     let s : State := { harts := [(0, h)] }
     s.halted = false ∧ s.memWf ∧ s.regsWf ∧ s.unitsWf ∧ (s.hart 0).running = true ∧ irqChoice s (s.hart 0) = some 2) := by
  decide +kernel

/-- TrapEntryAndReturn: the ranks of R73 from User to Monitor, codes and classes at their ends. BarAndYield: all threads at one BAR, and one
that is not; a gang whose hold of 64 ARITH cycles has run out. -/
theorem test_hyp_trap_bar_yield :
    (Mode.sup ≠ Mode.user ∧ Mode.user.rank ≤ Mode.sup.rank ∧ Mode.mon.rank ≤ Mode.mon.rank ∧ 255 < 256 ∧ 7 < 8) ∧
    (let x : Gang := { gang 0 with threads := List.replicate 64 { pc := 0x1000, atBar := true } }
     x.threads.length = 64 ∧ ∀ l, l < 64 → (x.thread l).exited = false ∧ (x.thread l).atBar = true ∧ (x.thread l).pc = 0x1000) ∧
    ((gang 0).thread 63).exited = false ∧ ((gang 0).thread 63).atBar = false ∧
    (let x : Gang := { gang 0 with yieldTo := [1], blockedAt := some 0 }
     let s : State := { gangs := [(0, x)], now := 1000 }
     s.halted = false ∧ s.gang? 0 0 = some x ∧ x.yieldTo ≠ [] ∧ 0 + arithNs s 0 64 ≤ s.now) := by decide +kernel

/-- A gang where tensor instructions issue, from facts that evaluation decides. -/
theorem tensor_of (s : State) (c g : Nat) (w : Words) (regs tds : List Nat) (x : Gang) (bank : Option Nat)
    (h : s.halted = false ∧ s.gang? c g = some x ∧ gangReady s c g = true ∧ issueTurn s c g = true ∧
      regs.any (· ≥ x.nreg) = false ∧ tds.any (· ≥ x.ntd) = false)
    (ready : (x.advanced w).liveLanes = x.active ∧ bank.all (fun b => decide (b < x.banks.length)) = true ∧ (s.core c).queue.length < 16)
    (f : okAnd (laneFetch (Run.start s) (gangX s x) (w.at (x.minPc.getD 0))) (fun _ => true) = true) :
    ∃ r, OnLane s c g w regs tds x r ∧ TensorReady s c x w bank := by
  obtain ⟨r, o, -⟩ := onLane_of s c g w regs tds x _ h f
  refine ⟨r, o, ready.1, ?_, ready.2.2⟩
  rintro b rfl
  simpa using ready.2.1

/-- TensorInstructionsEnqueue and TensorDescriptorInstructions: the last descriptor, the last bank that the gang holds, and a G that names
each MODE of TSMAX. -/
theorem test_hyp_tensor_issue :
    (∃ r, OnLane gs 0 0 (wordsOf (.tmma l0 { tdA := 15, bank := 1 })) [31] [15, 0] (gang 0x1800) r ∧
      TensorReady gs 0 (gang 0x1800) (wordsOf (.tmma l0 { tdA := 15, bank := 1 })) (some 1)) ∧
    (∃ r, OnLane gs 0 0 (wordsOf (.tdw l0 { tdC := 15, g := 31, imm := 7 })) [31] [15] (gang 0x1800) r ∧
      TensorReady gs 0 (gang 0x1800) (wordsOf (.tdw l0 { tdC := 15, g := 31, imm := 7 })) none) ∧
    (bits (((gang 0x1FFFF).thread 0).rg 2).toNat 17 16 = 1 ∧ bits (((gang 0x20000).thread 0).rg 2).toNat 17 16 = 2 ∧
      bits (((gang 0x30000).thread 0).rg 2).toNat 17 16 = 3 ∧ bits (((gang 0).thread 0).rg 2).toNat 17 16 = 0) ∧
    (∃ r, OnLane gs 0 0 (wordsOf (.tdld l0 { g := 2 })) [2, 3] [0] (gang 0x1800) r ∧
      (tdAddr ((gang 0x1800).advanced (wordsOf (.tdld l0 { g := 2 }))) { g := 2 } % 32 == 0 &&
        okAnd ((r.scrubWalk (gangX r.s ((gang 0x1800).advanced (wordsOf (.tdld l0 { g := 2 })))) 0x1800).translate
          (gangX r.s ((gang 0x1800).advanced (wordsOf (.tdld l0 { g := 2 })))) .store 0x1800) fun p =>
          (region p.1).isMem && !laneBarred p.2.s p.1 && !p.2.s.isUe p.1) = true) := by
  refine ⟨tensor_of _ _ _ _ _ _ _ _ (by decide +kernel) (by decide +kernel) (by decide +kernel),
    tensor_of _ _ _ _ _ _ _ _ (by decide +kernel) (by decide +kernel) (by decide +kernel), by decide +kernel,
    onLane_of _ _ _ _ _ _ _ (fun r => _) (by decide +kernel) (by decide +kernel)⟩

/-- TensorIssueChecks: a thread that has not exited and is elsewhere; a bank that is not held; a queue with 16 entries. -/
theorem test_hyp_tensor_checks :
    (let x : Gang := { gang 0 with threads := { pc := 0x1004 } :: List.replicate 63 { pc := 0x1000 } }
     (x.advanced (wordsOf (.tclr l0 {}))).liveLanes ≠ x.active ∧ gangReady { gangs := [(0, x)] } 0 0 = true) ∧
    (gang 0).banks.length ≤ (2 : BitVec 2).toNat ∧
    16 ≤ ((gs 0x1800 [(0, { queue := List.replicate 16 { seq := 0, gang := 0, op := .tclr } })]).core 0).queue.length := by
  decide +kernel

/-- An entry of the tensor queue of core 0, and the state that holds it, queued and running. -/
def tq (t : TInstr) (x : Gang := gang 0) : State := { gangs := [(0, x)], cores := [(0, { queue := [t], running := [t] })] }

/-- TensorStartAndFinish: entries that may start and run, are refused, are EMPTY and fault; one that finishes, a move, and a fetch of the
Prism feed. -/
theorem test_hyp_tensor_start :
    (let t : TInstr := { seq := 0, gang := 0, op := .tclr, bank := 0 }
     let s : State := { tq t with cores := [(0, { queue := [t] })] }
     s.halted = false ∧ s.memWf ∧ s.regsWf ∧ s.unitsWf ∧ mayStart s 0 t = true ∧ startPlan s 0 (gang 0) t = .go [] [] ∧
      folioPages s (gangX s (gang 0)) 0 false .load [] = some [] ∧ startPlan s 0 { gang 0 with bounds := true } t = .refuse ∧ s.vault.weak = [] ∧ s.timesWf ∧
      (s.core 0).queue.find? (fun e => decide (e.seq = 0)) = some t) ∧
    (let t : TInstr := { seq := 0, gang := 0, op := .tmma }
     ∃ c v, startPlan (tq t) 0 (gang 0) t = .fault c v) ∧
    (let t : TInstr := { seq := 0, gang := 0, op := .audit, tdC := BitVec.ofNat 256 (14 * 2 ^ 252 + 2 ^ 128 + 2 ^ 112 + 2 ^ 96) }
     startPlan (tq t) 0 (gang 0) t = .empty) ∧
    (let t : TInstr := { seq := 0, gang := 0, op := .fmove }
     (tq t).halted = false ∧ (((tq t).core 0).running.find? fun e => decide (e.seq = 0 ∧ e.op = .fmove)) = some t ∧
      (((Run.start (tq t)).finished 0 t).moveFolios (moveOverlaps t) (t.reads.zip t.writes)).2 = none) ∧
    (let t : TInstr := { seq := 0, gang := 0, op := .tmma, imm := 2, map := [(0, 1)] }
     ∃ w, ((prismWanted (tq t) 0).find? fun w => !((tq t).core 0).prism.any fun i => i.key = w.key) = some w ∧
      ((prismRoom w.bytes (prismWanted (tq t) 0) ((tq t).core 0).prism).map (·.bytes)).sum + w.bytes ≤ 16384) := by
  refine ⟨by decide +kernel, ⟨.tensorDesc, _, rfl⟩, by decide +kernel, by decide +kernel, ⟨_, rfl, by decide +kernel⟩⟩

/-! ## States that meet the hypotheses of the statements about messages -/

/-- Registers, with the five firmware processors running. -/
def runRegs (l : List (Nat × W32)) : SMap W32 :=
  ((List.range 5).map (fun p => (fwReg p 4, (0 : W32))) ++ rootRegs ++ l).foldl (fun m p => SMap.set (regReset p.1) m p.1 p.2) []

/-- A message of session 0 with an opcode and a payload of words, and the session. -/
def msg (op : Nat) (ws : List Nat) (extra : List Byte := []) : Msg := {
  peer := ⟨.eth 0 0, 0, 0, 0⟩, session := 0, token := 7, seq := 1, opcode := op, minor := 0, nocrc := true
  payload := ws.flatMap (leBytes 4) ++ extra, stamp := 0 }

def ses : Sess := { token := 7, peer := ⟨.eth 0 0, 0, 0, 0⟩, feats := [0xFF], minor := 0, nocrc := true }

/-- A queue's card: kind QUEUE, enabled, its ring of four slots at 0x1000, one entry behind the head. -/
def queueCard : Card := { words := [(0, 0x18000000), (4, 0x1000), (8, 2), (10, 1)], taken := true, cached := true }

/-- A tenancy that admits address 0 with UPD and REG and grants every window. -/
def tenant : List Byte := [1, 0, 0, 0, 0, 0, 0, 0, 0xFF, 0xFF, 0, 0, 0, 0, 0, 0, 0, 0, 0, 0x70]

/-- A message at the front of an owner's queue. -/
def ms (q : Nat) (m : Msg) (x : Sess := ses) (watches : List Watch := []) (jobs : List Job := []) : State := {
  mem := tables, regs := runRegs [(schedReg 0x10000, 0x80000000)], tallies := [(5, { allocated := true, value := 3 })]
  sched := { cards := [(0, queueCard)] }, mhy := { sess := [(0, x)], queues := [(q, [m])], watches := watches, jobs := jobs }
  sec := { tenancy := tenant }, now := 100 }

abbrev all : Msg → Bool := fun _ => true

/-- What Taken says, in a form that evaluation decides. -/
abbrev TakenFacts (s : State) (q op : Nat) (test len : Msg → Bool) (x : Sess) (m : Msg) : Prop :=
  s.halted = false ∧ frontMsg s q (fun m => isOp op m && test m) = some m ∧ sess? s m.session = some x ∧ x.releasing = false ∧
    (s.sec.recovery = true ∨ mayUse s x.peer.bind op = true) ∧ len m = true

theorem taken_of (s : State) (q op : Nat) (test len : Msg → Bool) (x : Sess) (m : Msg) (h : TakenFacts s q op test len x m) :
    Taken s q op test len x m := ⟨h.1, h.2.1, h.2.2.1, h.2.2.2.1, h.2.2.2.2.1, h.2.2.2.2.2⟩

/-- A row's message taken. -/
abbrev Takes (q : Nat) (m : Msg) (test len : Msg → Bool) : Prop := TakenFacts (ms q m) q m.opcode test len ses m

/-- SessionMessages: each message taken, at the edges of what it accepts, and the three refusals before it. -/
theorem test_hyp_session_messages :
    frontMsg (ms 4 (msg 1 [])) 4 (isOp 1) = some (msg 1 []) ∧
    Takes 0 (msg 3 []) all (lenIs 0) ∧ Takes 0 (msg 4 []) all (lenIs 0) ∧
    (Takes 0 (msg 5 [0x1000A]) all (lenIs 4) ∧ leaseOk 0x1000A = true ∧ leaseOk 0x10009 = false ∧ leaseOk 0xA = false) ∧
    (Takes 0 (msg 0x0100 [1, 0] (List.replicate 64 0)) all submitLen ∧
      submitStatus (ms 0 (msg 0x0100 [1, 0] (List.replicate 64 0))) (msg 0x0100 [1, 0] (List.replicate 64 0)) = stOk ∧
      submitStatus (ms 0 (msg 0x0100 [0x100, 0])) (msg 0x0100 [0x100, 0]) = stBounds ∧
      submitStatus (ms 0 (msg 0x0100 [4, 0])) (msg 0x0100 [4, 0]) = stBounds) ∧
    (Takes 0 (msg 0x0101 [0x3FFF]) all (lenIs 4) ∧ 0x3FFF < 2 ^ 14) ∧
    (Takes 0 (msg 0x0102 [4]) all (lenIs 4) ∧ bellOk (ms 0 (msg 0x0102 [4])) 4 0 = true ∧ bellOk (ms 0 (msg 0x0102 [0])) 0 0 = false ∧
      bellOk (ms 0 (msg 0x0102 [5])) 5 0 = false) ∧
    frontMsg (ms 5 (msg 0x7777 [])) 5 (fun _ => true) = some (msg 0x7777 []) ∧
    (let s := ms 0 (msg 4 []) { ses with releasing := true }
     frontMsg s 0 (fun m => isOp 4 m && true) = some (msg 4 []) ∧ sess? s 0 = some { ses with releasing := true }) ∧
    (let s : State := { ms 0 (msg 0x0101 []) with sec := {} }
     mayUse s ses.peer.bind 0x0101 = false ∧ lenIs 4 (msg 0x0101 []) = false ∧ s.sec.recovery = false) := by and_intros <;> decide +kernel

/-- WorkMessages: each message taken, with tallies, memory, watches and jobs at the edges of what it accepts. -/
theorem test_hyp_work_messages :
    (let m := msg 0x0103 [64]
     Takes 0 m all (lenIs 4) ∧ replyFits (ms 0 m) ses m (4 * 64) = true ∧ bits (m.w 0) 31 28 = 0 ∧ bits (m.w 0) 7 0 ≤ 64 ∧
      ((ms 0 m).tallies.filter fun t => t.2.allocated).length + 64 ≤ 16384) ∧
    (let m := msg 0x0104 [0x10005]
     Takes 0 m all (fun m => m.payload.length % 4 = 0 && decide (m.payload.length ≤ 256)) ∧
      freeHandles m = [0x10005] ∧ tallyOf (ms 0 m) 0x10005 = some 5 ∧ tallyOf (ms 0 m) 0x10006 = none ∧
      (freeHandles (msg 0x0104 [0x10005, 0x10005])).eraseDups.length ≠ 2) ∧
    (Takes 0 (msg 0x0105 [0, 0x10005, 9]) (fun m => bits (m.w 0) 1 0 = 0) (lenIs 12) ∧
      Takes 0 (msg 0x0105 [1, 0x10005, 9]) (fun m => bits (m.w 0) 1 0 = 1) (lenIs 12) ∧
      Takes 0 (msg 0x0105 [2, 0x10005, 9]) (fun m => decide (2 ≤ bits (m.w 0) 1 0)) (lenIs 12)) ∧
    (Takes 0 (msg 0x0106 [0x10005, 3, 99, 0]) all (lenIs 16) ∧ (msg 0x0106 [0x10005, 3, 99, 0]).w 0 = 0x10005) ∧
    (let w : Watch := ⟨0, 1, 5, 4, 99⟩
     let s := ms 0 (msg 4 []) ses [w]
     (s.mhy.watches.find? fun w => w.session = 0 && w.seq = 1) = some w ∧ w.deadline < s.now) ∧
    (let m := msg 0x0200 [16, 0x1FF0, 0]
     Takes 1 m all (lenIs 12) ∧ readStatus (ms 1 m) ses m = stOk ∧ readStatus (ms 1 m) ses (msg 0x0200 [16, 0x3000, 0]) = stBounds ∧
      readStatus (ms 1 m) ses (msg 0x0200 [0x10000010, 0x1000, 0]) = stBounds) ∧
    (let m := msg 0x0201 [1, 0x1FFF, 0] [7]
     Takes 1 m all writeLen ∧ memRsv m = false ∧ ctxSession (ms 1 m) (memCtx m) = 0 ∧
      mapped (ms 1 m) (ctxX (ms 1 m) (memCtx m)) .store (memAddr m) (memLen m) = true ∧
      memAddr (msg 0x0201 [1, 0x1FFFFF, 0] [7]) + 1 ≤ 0x200000) ∧
    (let m := msg 0x0410 ([0x100, 0x10005] ++ List.replicate 12 0)
     Takes 0 m all (lenIs 56) ∧ paceOk m = true ∧ (paceJob m).n = 2) ∧
    (let j : Job := { job := 0, n := 2, self_ := 0, arrive := 0x10005, peerTally := [], peerSess := [] }
     let m := msg 0x0411 [1, 9]
     let s := ms 0 m ses [] [j]
     TakenFacts s 0 0x0411 all (lenIs 8) ses m ∧ (s.mhy.jobs.find? fun j => j.job = bits (m.w 0) 31 16) = some j ∧
      bits (m.w 0) 15 3 = 0 ∧ bits (m.w 0) 2 0 ≠ j.self_ ∧ bits (m.w 0) 2 0 < j.n) ∧
    fwRuns (Run.start (ms 0 (msg 4 []))).mhyFlush.s 0 = true := by and_intros <;> decide +kernel

/-- ServiceMessages: each message taken, at the edges of what it accepts. -/
theorem test_hyp_service_messages :
    Takes 0 (msg 0x0300 [0, 0]) all (lenIs 8) ∧
    (let m := msg 0x0301 [0x100, 2]
     Takes 0 m all (lenIs 8) ∧ addrKey (m.w 0) = 0x100 ∧ replyFits (ms 0 m) ses m 8 = true ∧
      reaches (ms 0 m) none (addrKey (m.w 0)) false = true ∧ reaches (ms 0 m) none (addrKey (m.w 0) + 4) false = true) ∧
    (let m := msg 0x0302 [0x324, 0]
     Takes 0 m all (fun m => m.payload.length % 8 = 0 && decide (m.payload.length ≤ 1024)) ∧
      reaches (ms 0 m) none (addrKey 0x324) true = true) ∧
    (let m := msg 0x0303 [4, 0, 40]
     Takes 0 m all (lenIs 12) ∧ fwState (ms 0 m) 4 = 0 ∧ replyFits (ms 0 m) ses m (logRecords (ms 0 m) 4 0 40).length = true) ∧
    Takes 3 (msg 0x0400 [4]) all (lenIs 4) ∧ Takes 3 (msg 0x0401 [20]) all (lenIs 4) ∧ Takes 3 (msg 0x0401 [120]) all (lenIs 4) ∧
    Takes 4 (msg 0x0500 []) all all ∧ (Takes 4 (msg 0x0501 []) all all ∧ (ms 4 (msg 0x0501 [])).power.entering = none) ∧
    (let m := msg 0x0503 [0, 0x1000, 0, 16]
     Takes 4 m all (lenIs 16) ∧ ctxSession (ms 4 m) (memCtx m) = 0) ∧
    (Takes 4 (msg 0x0504 [4]) all (lenIs 4) ∧ (ms 4 (msg 0x0504 [4])).sec.recovery = false) := by and_intros <;> decide +kernel

/-! ## States that meet the hypotheses of the statements about registers and events -/

/-- A state with the firmware running and registers as given; host core 0 runs and the tenant's grant reaches every window. -/
def rs (l : List (Nat × W32)) (now : Nat := 0) : State := {
  regs := runRegs l, harts := [(0, { running := true })], sec := { tenancy := tenant }, now := now }

/-- The registers whose writes the register rows name, at the ends of their ranges. -/
def writtenRegs : List Nat := [
  schedReg 0x028, schedReg 0x018, schedReg 0x10000, schedReg (0x10000 + 0x10 * 4095), schedReg 0, schedReg 0x034, rfxCoreReg 0,
  rfxCoreReg 15, rfxReg 63 0x24, rfxReg 63 0x20, pidxReg 0x00C, vltReg 0x024, vltReg 0x034, vltReg 0x1000, vltReg 0x1FFC,
  vltReg (0x808 + 0x20 * 15), topReg 0x108, coreReg 191 0x010, portReg 3 0x050, ethReg 0x5000, audReg 0x134, audReg 0x500,
  csiReg 0x4000, ispReg 15 0x004, csiReg 0x3304, audReg 0x600, audReg 0x61C, pwrReg 0, dvfsReg 16, pwrReg 0x300,
  pwrReg 0x304, fixReg 0x00C, secReg 0x020, topReg 0x200, obsReg 0x118, obsReg 0x200, topReg 0x320]

/-- RegisterCommands and BlockRegisterCommands: an agent that can make accesses, whom each register admits or refuses; words with values that
occur, and one with a value that does not; a register pair of LO and HI; the windows of a firmware processor. -/
theorem test_hyp_registers :
    ((rs []).halted = false ∧ canAccess (rs []) h0 = true ∧ (rs []).memWf ∧ (rs []).regsWf ∧ (rs []).unitsWf) ∧
    (writtenRegs.all fun k => accessOk (rs []) h0 k true && (regDesc k).isSome) = true ∧
    (accessOk (rs []) h0 (schedReg 0x020) false = true ∧ accessOk (rs []) h0 (topReg 0x320) false = true ∧
      accessOk (rs []) h0 (fwReg 0 0) true = false ∧ accessOk (rs []) h0 (fwReg 0 0) false = false) ∧
    (match regDesc (pwrReg 0) with
      | some d => d.occurs (2 ^ 31) && !d.occurs (2 ^ 31 + 7)
      | none => false) = true ∧
    (isHi (topReg 0x100 + 4) = true ∧ isHi (topReg 0x100) = false ∧ (regDesc (topReg 0x100)).isSome = true) ∧
    (let s : State := { rs [] with harts := [(16, { running := true }), (20, { running := true })] }
     canAccess s (.fw 0) = true ∧ accessOk s (.fw 0) (fwReg 0 0x014) true = true ∧ accessOk s (.fw 0) (fwReg 1 0x014) true = false) := by
  and_intros <;> decide +kernel

/-- TimeCommands and BootCommands: a master from which three intervals bring no Sync, a domain with a message due, a boot that stops (one
that passes rests on the free verification of signatures, R305), a recovery that is restarted, and a device that is halted. -/
theorem test_hyp_time_boot :
    (let s : State := { rs [(topReg 0x10C, 2)] with now := 3 * Config.syncInterval }
     s.halted = false ∧ s.fld (topReg 0x10C) 1 0 = 2 ∧ s.memWf ∧ s.regsWf ∧ s.unitsWf) ∧
    (rs []).eth.lastSync + 3 * Config.syncInterval ≤ 3 * Config.syncInterval ∧
    (rs [(ethReg 0x2040, 0x80000000)]).fld (ethReg (0x2000 + 0x40 * 1)) 31 31 = 1 ∧
    accessionOk ((Run.start (bootBase {} {} 0)).setNow 0).s = false ∧
    (let s : State := { ms 4 (msg 0x0504 [4]) with sec := { recovery := true } }
     s.halted = false ∧ isReboot s = true) ∧
    ({ power := { tripped := true } } : State).halted = true := by
  refine ⟨by decide +kernel, Nat.le_of_eq (Nat.zero_add _), ?_⟩
  and_intros <;> decide +kernel

/-- A parcel of one gang whose placement is every core, running. -/
def par (ec : Nat := 0) (stage : PStage := .running) : Parcel := {
  ctx := 0, origin := .queue 0 0, taken := 0, stage := stage, nreg := 8, ntd := 0, nbanks := 1
  desc := [BitVec.ofNat 32 (2 ^ 24 + ec * 2 ^ 25), 0, 0, 0, 0, 0, 0, 0, 1, 0, 0, 0, 0, 0, 0, 0] }

/-- A state with parcel 0, core 0 backing logical number 0. -/
def ps (p : Parcel) (gangs : SMap Gang := []) : State := {
  rs [(coreReg 0 0, 0)] 2000 with sched := { parcels := [(0, p)] }, gangs := gangs }

/-- GangEvents: a gang of each class that could be admitted, with its permit and without; one that has ended; a swap; a parcel that is not
to run again. -/
theorem test_hyp_gang_events :
    (let s := ps (par)
     s.halted = false ∧ s.parcel? 0 = some (par) ∧ couldAdmit s 0 (par) = true ∧ nextIndex (par) = some 0 ∧
      (∀ q ∈ s.sched.parcels, q.1 ≠ 0 → couldAdmit s 0 q.2 = true → gangLeftFor s 0 q.1 q.2 = true →
        rankLt (parcelRank s q.2) (parcelRank s (par)) = false) ∧
      s.gang? 0 127 = none ∧ [3].length = (par).nbanks ∧ [3].eraseDups = [3] ∧ (∀ b ∈ [3], b < 4 ∧ ∀ kg ∈ gangsOf s 0, b ∉ kg.2.banks)) ∧
    (couldAdmit (ps (par 2)) 0 (par 2) = true ∧ 0 ∉ (par 2).permits ∧
      couldAdmit (ps { par 2 with permits := [0] }) 0 { par 2 with permits := [0] } = true) ∧
    (let x : Gang := { gang 0 with stopped := true }
     let s := ps (par) [(0, x)]
     s.gang? 0 0 = some x ∧ ∀ t ∈ (s.core 0).queue ++ (s.core 0).running, t.gang ≠ 0) ∧
    (let a : Gang := { gang 0 with nreg := 8, ntd := 0, blockedAt := some 0 }
     let b : Gang := { gang 0 with nreg := 8, ntd := 0, parked := true, readyAt := some 5 }
     let s : State := { rs [(coreReg 0 4, 0x10000)] 5000 with gangs := [(0, a), (1, b)] }
     s.halted = false ∧ s.memWf ∧ s.regsWf ∧ s.unitsWf ∧
      leastBy (fun kg => kg.2.blockedAt.getD 0) ((gangsOf s 0).filter (mayPark s 0)) = some (0, a) ∧
      leastBy (fun kg => kg.2.readyAt.getD 0) ((gangsOf s 0).filter (parkedReady s 0)) = some (1, b) ∧
      s.fld (coreReg 0 4) 20 16 ≠ 0 ∧
      parkedStorage s 0 + storageOf a.nreg a.ntd - storageOf b.nreg b.ntd ≤ s.fld (coreReg 0 4) 20 16 * 8192 ∧
      liveStorage s 0 + storageOf b.nreg b.ntd - storageOf a.nreg a.ntd ≤ 131072) := by
  and_intros <;> decide +kernel

/-- ParcelEvents: a queue that is next, the fourth take of a microsecond; waits that have ended and run out; work that has ended; a permit
that the bucket can pay exactly, and one that waited too long. -/
theorem test_hyp_parcel_events :
    (let s : State := { ms 0 (msg 4 []) with sched := { cards := [(0, queueCard)], takeUs := 0, takeN := 3 } }
     s.halted = false ∧ fwRuns s 0 = true ∧ nextQueue s = some 0 ∧ 3 = (if s.sched.takeUs = s.now / 1000 then s.sched.takeN else 0)) ∧
    (let p := { par 0 .waiting with met0 := some 0, met1 := some 0 }
     let s := ps p
     s.halted = false ∧ s.parcel? 0 = some p ∧ fwRuns s 0 = true ∧ waitsMet p = true ∧ workHeld s = false ∧ sessionHolds s p.ctx = false ∧
      waitsMet (par 0 .waiting) = false ∧ (par).taken + ((par).desc.getD 9 0).toNat * 1000 < s.now) ∧
    (let p := par 0 .ending
     (ps p).parcel? 0 = some p ∧ p.origin = .queue 0 0 ∧ fwRuns (ps p) 0 = true ∧ workEnded (ps p) p = true) ∧
    (let q : PermitReq := { parcel := 0, core := 0, eclass := 2, since := 0 }
     let s : State := { ps (par 2) with
       regs := runRegs [(pwrReg 0x30C, BitVec.ofNat 32 (permitPrice 2))], ledger := { reqs := [q], grantUs := 2, grants := 23 } }
     s.halted = false ∧ s.memWf ∧ s.regsWf ∧ s.unitsWf ∧ 23 = (if s.ledger.grantUs = s.now / 1000 then s.ledger.grants else 0) ∧
      permitPrice q.eclass ≤ (s.reg (pwrReg 0x30C)).toNat ∧ stretched s (q.core / 12) = false ∧ s.parcel? q.parcel = some (par 2)) ∧
    (let q : PermitReq := { parcel := 0, core := 0, eclass := 2, since := 0 }
     let s : State := { ps (par 2) with ledger := { reqs := [q] }, now := 10 ^ 9 }
     s.parcel? 0 = some (par 2) ∧ q.since + 1000 * s.fld (pwrReg 0x314) 15 0 < s.now) := by
  and_intros <;> decide +kernel

/-- CardAndSessionEvents: a take-up that is due, a card out of the cache; leases that have expired by each policy, a hold, a release, and a
message whose parts stopped. -/
theorem test_hyp_card_session :
    (let s : State := { rs [] with sched := { cards := [(16383, { syncs := 1 })] } }
     s.halted = false ∧ (cardOf s 16383).syncs ≠ 0 ∧ fwRuns s 0 = true ∧ atBoundary s 16383 = true ∧
      ∀ i, i < 32 → s.isUe (catAddr s 16383 i) = false) ∧
    (let s : State := { rs [] with sched := { cards := [(0, { queueCard with cached := false })] } }
     (cardOf s 0).taken = true ∧ (cardOf s 0).cached = false ∧ SMap.wf (fun _ => ({} : Card)) s.sched.cards = true) ∧
    ((List.range 3).all fun pol =>
      let s : State := { rs [(sessReg 0 0, BitVec.ofNat 32 (2 ^ 30 + pol * 2 ^ 28 + 2 ^ 24 + 10))] 10000001 with mhy := { sess := [(0, ses)] } }
      sess? s 0 == some ses && sessState s 0 == 1 && decide (leaseEnd s 0 < s.now) && s.fld (sessReg 0 0) 29 28 == pol) = true ∧
    (let x : Sess := { ses with releasing := true, reasm := none }
     let s : State := { rs [] with mhy := { sess := [(0, x)] } }
     sess? s 0 = some x ∧ fwRuns s 0 = true ∧ fwRuns s 1 = true ∧ openParcels s (ctxsOf s 0) = []) ∧
    (let s : State := { rs [(sessReg 0 0, 0x80000000)] 60000000001 with mhy := { sess := [(0, ses)] } }
     sessState s 0 = 2 ∧ leaseEnd s 0 + 60000000000 < s.now) := by
  and_intros <;> decide +kernel

/-- A mailbox card: kind MAILBOX, enabled, rings at 0x1000 and 0x1100 of one slot of 64 bytes, one message to send behind the head. -/
def boxCard : Card := {
  words := [(0, 0x78000000), (4, 0x1000), (6, 0x1100), (8, 0x600), (10, 1)], taken := true, cached := true }

/-- A state with a card as card 0 and memory that context 0 maps; the context and session 0 are open. -/
def cs (c : Card) (now : Nat := 0) : State := {
  mem := tables, regs := runRegs [(schedReg 0x10000, 0x80000000)], sched := { cards := [(0, c)] }, now := now }

/-- MailboxEvents: a message that fits its slot and one that is cut; a slot taken from the ring, whose length must be its message's. -/
theorem test_hyp_mailbox :
    (let s : State := { cs boxCard with mhy := { outbox := [(0, [1]), (0, List.replicate 300 0)] } }
     let m := (Run.start s).mhyFlush
     s.halted = false ∧ m.s.mhy.outbox.find? (fun o => o.1 = 0) = some (0, [1]) ∧ cardKind m.s 0 = 7 ∧ cardActive m.s 0 = true ∧
      awake m.s = true ∧
      (bits (cardW s 0 9) 15 0 + 65536 - bits (cardW s 0 9) 31 16) % 65536 < 2 ^ bits (cardW s 0 8) 7 4 ∧
      (m.writeVirtBytes (ctxX m.s 0) 0x1000 (List.replicate 17 0)).isOk = true) ∧
    (let s : State := { cs boxCard with mem := (0x1100, 0x20) :: tables }
     cardKind s 0 = 7 ∧ cardActive s 0 = true ∧ awake s = true ∧ bits (cardW s 0 10) 31 16 ≠ bits (cardW s 0 10) 15 0 ∧
      (match readVirt s (ctxX s 0) 0x1100 64 with
        | .ok w => w == 0x20
        | .error _ => false) = true ∧
      le (leBytes 64 0x20) 0 2 = 32 + (Hdr.parse (slice (leBytes 64 0x20) 16 48)).length) := by
  and_intros <;> decide +kernel

/-- FirmwareEvents: a restart that finds no component, a watchdog that expires on time, an update whose image is read again; one whose
digest matches, for any value of the free digest (R305). -/
theorem test_hyp_firmware :
    (let s : State := { regs := [(fwReg 0 4, 0x40000000)], mem := [(flashBase + 0xC, 0), (flashBase + 0xD, 0)] }
     s.halted = false ∧ s.memWf ∧ s.regsWf ∧ s.unitsWf ∧ fwState s 0 = 1 ∧ compOf s flashBase 0 = none) ∧
    (let s := rs [(fwReg 4 0, 0xF0)] (2 ^ 15 * 1000000)
     fwRuns s 4 = true ∧ SMap.get 0 s.fw.kicks 4 + 2 ^ s.fld (fwReg 4 0) 7 4 * 1000000 ≤ s.now) ∧
    (let u : FwUpdate := { image := 0x1000, len := 0, digest := Config.shake256 [] }
     let s : State := { rs [] with fw := { update := some u } }
     s.fw.update = some u ∧ u.written = false ∧ [] = stageBytes s u.ctx u.image u.len ∧ Config.shake256 [] = u.digest ∧
      fwRuns s 4 = true ∧ s.sec.recovery = false) := by
  refine ⟨?_, ?_, rfl, rfl, rfl, rfl, ?_, rfl⟩ <;> decide +kernel

/-- A ring with one entry of an OP on sequence 0, the memory processor awake. -/
def ks (op : Nat) : State := {
  rs [(pidxReg 8, 0x80000000), (pidxReg 0, 0x1000)] with mem := (0x1003, BitVec.ofNat 8 op) :: tables, kv := { awake := true } }

/-- KvCommands: an entry of each OP at the ring's front; sequences that are not open, and open ones with no pages, tokens or pins; a
recompute that succeeds or fails while a request waits for it. -/
theorem test_hyp_kv :
    (kvRequest (ks 1)).op = 1 ∧ (kvRequest (ks 9)).op = 9 ∧
    ((ks 1).halted = false ∧ fwRuns (ks 1) 1 = true ∧ (ks 1).fld (pidxReg 8) 31 31 = 1) ∧
    seqState (ks 2) 0 = 0 ∧
    (let s : State := { ks 2 with mem := tables ++ [(seqTableBase + 3, 0x40)] }
     seqState s 0 = 1 ∧ seqPins s 0 = 0 ∧ seqTok s 0 = 0 ∧ seqTok s 0 ≤ seqRes s 0 ∧ seqTent s 0 = 0) ∧
    (let s : State := { ks 2 with mem := tables ++ [(seqTableBase, 255), (seqTableBase + 3, 0x40), (seqTableBase + 4, 1), (seqTableBase + 8, 2)] }
     seqPins s 0 = 255 ∧ seqRes s 0 < seqTok s 0 ∧ 0 < seqTent s 0) ∧
    (let p : Parcel := { par 0 .ending with origin := .recompute 0 }
     let q : KvReq := { op := 3, seq := 0, count := 0, addr := 0, tally := 0, va := 0 }
     let s : State := { ps p with kv := { waiting := [q] } }
     s.parcel? 0 = some p ∧ fwRuns s 1 = true ∧ workEnded s p = true ∧ isSuccess (finalStatus p) = true ∧
      isSuccess (finalStatus { p with status := stInternal }) = false ∧
      (((((Run.start s).leaveFlight 0 p).deviceAdd (p.desc.getD 14 0).toNat).deviceAdd (p.desc.getD 15 0).toNat).s.kv.waiting.find?
        fun q => q.seq = 0) = some q) := by
  and_intros <;> decide +kernel

/-- A reflex group of one channel on slot 0: timed, with a period of 1,000 ns, or of arrivals. -/
def rg (timed : Bool) : RGroup := {
  parcel := 0, desc := [if timed then 0x2000 else 0, 0x20, 0, 1000, 0, 0, 1], cards := [], cardNums := [] }

/-- A state with that group, its slot RESERVED on logical number 0, which core 0 backs. -/
def gr (g : RGroup) (now : Nat := 5000) : State := {
  rs [(rfxCoreReg 0, 0x82000000), (coreReg 0 0, 0)] now with
    rfx := { groups := [(0, g)], landing := [(0, [])] }, sched := { parcels := [(0, par)] } }

/-- ReflexInputs: a slot whose core is empty, a landing, ticks at their times for each state of the group, an arrival, the newest record. -/
theorem test_hyp_reflex_inputs :
    (let s := rs [(rfxCoreReg 15, 0x81000000)]
     s.halted = false ∧ s.memWf ∧ s.regsWf ∧ s.unitsWf ∧ s.fld (rfxCoreReg 15) 31 31 = 1 ∧ rfxState s 15 = 1 ∧ fwRuns s 0 = true ∧
      gangsOf s 0 = []) ∧
    ((gr (rg true)).rfx.landing = [(0, [])] ∧ awake (gr (rg true)) = true) ∧
    (RGroup.timed (rg true).desc = true ∧ RGroup.timed (rg false).desc = false ∧ RGroup.phase (rg true).desc = 0 ∧
      rfxGroup? (gr (rg true)) 0 = some (rg true) ∧ rfxIdle (rg true) = false ∧ rfxIdle { rg true with hold := true } = true) ∧
    (let g := { rg false with trig := some 5000 }
     g.trig = some 5000 ∧ 5000 ≤ (gr g).now) ∧
    (let x : RRec := ⟨0, 10, false, [1]⟩
     newestRec { rg true with inbox := [x] } 0 10 = some x ∧ 0 < RGroup.nch (rg true).desc) := by
  and_intros <;> decide +kernel

/-- ReflexSteps: a step that is due, one that ends, an output that waits for a stream's frame, and groups that end, expire and go on. -/
theorem test_hyp_reflex_steps :
    (let x : RLatch := ⟨4000, 1, [[0]], [false]⟩
     let g := { rg true with latch := some x }
     let s := gr g
     s.halted = false ∧ rfxDue s 0 = some (0, g, x) ∧ rfxPhys s 0 = some 0 ∧ awake s = true ∧ g.fenced = none ∧
      ∀ o ∈ rfxGroupsOf s 0, o.2.step = none ∧ o.2.busy ≤ s.now) ∧
    (let st : RStep := ⟨⟨4000, 0, [[0]], [false]⟩, 4000, 5000⟩
     let g := { rg true with step := some st }
     let s := gr g
     rfxGroup? s 0 = some g ∧ rfxPhys s 0 = some 0 ∧ st.ends ≤ s.now ∧
      ∀ o ∈ rfxGroupsOf s 0, s.now < o.2.ckBusy → ∀ b ∈ RGroup.stateBanks o.2.desc, b ∉ RGroup.stateBanks g.desc) ∧
    (let g := { rg true with stop := some 0 }
     rfxGroup? (gr g) 0 = some g ∧ g.step = none ∧ g.out = []) ∧
    (let g := { rg true with held := some 0 }
     rfxGroup? (gr g 60000000001) 0 = some g ∧ 0 + 60000000000 < (gr g 60000000001).now) ∧
    (let g := { rg true with fenced := some 0 }
     rfxGroup? (gr g) 0 = some g ∧ g.fenced.isSome = true ∧ (gr g).parcel? 0 = some par) := by
  and_intros <;> decide +kernel

/-- WindowAndVaultEvents: windows with room, without, at their limit and stopping; a chunk that lands; vaults, rows and addresses at the
ends of their ranges. -/
theorem test_hyp_window_vault :
    (let w : Window := { xen := false, xroot := 0, xuser := false, src := 0x1000, sizes := [1, 1], again := false, cap := 1, wfirst := 0
                         ncons := 1, fill := 0, free := 0, inflight := [0], next := 1 }
     let s : State := { rs [] with vault := { windows := [(15, w)] } }
     s.halted = false ∧ s.memWf ∧ s.regsWf ∧ s.unitsWf ∧ SMap.find? s.vault.windows 15 = some w ∧ fwRuns s 1 = true ∧
      w.inflight.length < 4 ∧ w.next < w.sizes.length ∧ w.ncons * (w.next + 1) ≤ 0xFFFFFFFF ∧
      w.cap < w.before (w.next + 1) - w.before 0 ∧ w.before (w.next + 1) - w.before 1 ≤ w.cap ∧ 0 ∈ w.inflight ∧
      ¬ (({ w with ncons := 2 ^ 31 } : Window).ncons * (w.next + 1) ≤ 0xFFFFFFFF)) ∧
    (let pa := 2 ^ 35 - 1
     let s := rs [(vltReg 0x010, 0x100)]
     pa < 2 ^ 35 ∧ s.fld (vltReg 0x010) 15 8 ≠ 0 ∧ vaultState s (vaultOf s pa).1 = 0 ∧ s.isUe pa = false ∧
      ({ s with vault := { ue := [(pa / 32, 1)] } } : State).isUe pa = true) ∧
    ((up).hart 0).running = true ∧ fwRuns (rs []) 4 = true ∧ (gs).gang? 0 0 = some (gang 0x1800) ∧
    (let s := rs [(vltReg (0x100 + 0x20 * 15), 0x40000000)]
     vaultState s 15 = 1 ∧ SMap.get 0 s.vault.fails 15 + 1 < 3 ∧ SMap.get 0 [(15, 2)] 15 + 1 = 3) ∧
    (let s : State := { rs [] with vault := { rowUe := [(rowOf (rs []) 0, 1)] } }
     fwRuns s 1 = true ∧ vaultState s (vaultOf s 0).1 ≠ 2 ∧ s.fix.rows < 16384 ∧ (SMap.find? s.vault.rowUe (rowOf s 0)).isSome = true) := by
  and_intros <;> decide +kernel

/-- EthernetPortEvents and EthernetFrames: links up and down, gates that turn, keys that run out, table commands, entries that age; frames
that fit, at 60 and 1,518 octets, and that do not; queues, streams and flows. -/
theorem test_hyp_ethernet :
    (let s := rs [(portReg 3 4, 0x40000000), (portReg 0 0, 0x80000000), (portReg 1 0, 0x02000000)]
     s.halted = false ∧ s.memWf ∧ s.regsWf ∧ s.unitsWf ∧ s.fld (portReg 3 4) 31 30 = 1 ∧ linkUp s 3 = true ∧ linkUp s 0 = false ∧
      bit (s.reg (portReg 0 0)).toNat 31 = true ∧ s.fld (portReg 0 4) 31 30 ≠ 1 ∧ s.fld (portReg 1 0) 25 25 ≠ 0) ∧
    (let g : GateList := ⟨0, 1000, 0, [(500, 0, 1), (500, 0, 2)]⟩
     let p : EthPort := { oper := some g, pend := some g, entEnds := 10, sak := some 1, pn := 3 * 2 ^ 30 }
     let s : State := { rs [] 10 with eth := { ports := [(3, p)] } }
     (ethPort s 3).oper.isSome = true ∧ (ethPort s 3).entEnds ≤ s.now ∧ (ethPort s 3).pend = some g ∧ g.base ≤ s.now ∧ g.cycle ≠ 0 ∧
      (ethPort s 3).sak.isSome = true ∧ 3 * 2 ^ 32 ≤ 4 * max (ethPort s 3).pn (ethPort s 3).rxPn) ∧
    (let s := rs [(ethReg 0x1000, 0x80000000), (ethReg 0x30C0, 0x80000000)]
     bit (s.reg (ethReg 0x1000)).toNat 31 = true ∧ bit (s.reg (ethReg 0x1000)).toNat 30 = false ∧ tblRead s 0 0 0 = none ∧
      (tblRead s 1 0 1).isSome = true ∧ s.fld (ethReg (0x3000 + 0x40 * 3)) 31 30 ≠ 0) ∧
    (let e : FdbEnt := { mac := 1, vid := 1, static_ := false, ports := 1, last := 0 }
     let s : State := { rs [] 600000000000 with eth := { fdb := [(8191, e)], cbs := [(511, (0xA0000000, 0))] } }
     SMap.find? s.eth.fdb 8191 = some e ∧ e.last + s.fld (ethReg 0x800) 15 0 * 1000000000 ≤ s.now ∧
      bit (SMap.get (0, 0) s.eth.cbs 511).1 31 = true ∧ bit (SMap.get (0, 0) s.eth.cbs 511).1 29 = true ∧
      (cbState s 511).last + bits (SMap.get (0, 0) s.eth.cbs 511).2 15 0 * 1000000 ≤ s.now) ∧
    ((List.replicate 60 (0 : Byte)).length = 60 ∧ 1518 ≤ 1518 ∧
      ((Run.start (rs [])).unprotect 0 (List.replicate 60 0)).isSome = true ∧
      vlanMember (rs []) (Frame.parse (List.replicate 60 0) 2).vid 0 = false) ∧
    (let f := Frame.parse (List.replicate 60 0) 1
     let s : State := { rs [(portReg 0 4, 0x40000000)] with eth := { ports := [(0, { queues := [(7, [f])] })] } }
     nextClass s 0 = some (7, f, []) ∧ txMayStart s 0 7 f = true) ∧
    (let f : Frame := { dst := 0, src := 0, vid := 1, pcp := 0, etype := 0xF1C1, body := List.replicate 60 0 }
     rtagSeq f = some 0) ∧
    (let s := cs { boxCard with words := [(0, 0x68000000), (6, 0x1000), (9, 0x600), (11, 1)] }
     cardKind s 0 = 6 ∧ cardActive s 0 = true ∧ bits (cardW s 0 11) 31 16 ≠ bits (cardW s 0 11) 15 0 ∧
      (readVirt s (ctxX s 0) 0x1000 4).isOk = true) := by
  and_intros <;> decide +kernel

/-- AudioEvents: a microphone powered for its delay, a row that ends, a copy, a block that is due, an output period with and without a
block, and the mute at each position. -/
theorem test_hyp_audio :
    (let s : State := { rs [] 31984000 with aud := { ports := [(3, { pwrAt := some 0 })], copy := some ⟨0, false, 0, 0, 0, 0, 0, 0⟩ } }
     s.halted = false ∧ (audPort s 3).pwrAt = some 0 ∧ (audPort s 3).clockAt = none ∧ 0 + micPwrDly s 3 ≤ s.now ∧
      s.aud.rowStart + 31984000 ≤ s.now ∧ s.aud.copy = some ⟨0, false, 0, 0, 0, 0, 0, 0⟩ ∧ awake s = true ∧ muted s = false) ∧
    muted (rs [(audReg 0x300, 0x80000000)]) = true ∧
    (let s := cs { boxCard with words := [(0, 0x38000000), (6, 0x800100)] } 1000000
     cardKind s 0 = 3 ∧ cardActive s 0 = true ∧ micPlanes s 0 = [7] ∧
      (SMap.get (512 * s.aud.rowSeq, 0) s.aud.mic 0).1 + 16 * blkMs s 0 - 1 ≤ archNow s) ∧
    (let s := cs { boxCard with words := [(0, 0x48000000), (4, 0x1000), (6, 0), (7, 1)] } 2000000
     cardKind s 0 = 4 ∧ cardActive s 0 = true ∧ SMap.find? s.aud.out 0 = none ∧
      (∀ tail, tail = 1 → (tail + 65536 - bits (cardW s 0 7) 31 16) % 65536 ≠ 0) ∧ bits (cardW s 0 7) 31 16 = 0) := by
  and_intros <;> first | decide +kernel | (intro t h; subst h; decide +kernel)

/-- LadderEvents: an island frame and hop that are due, a verdict that is late, a demotion and a period that are due, and a ticket with room
in the ring. The level of a Loupe frame is a free value (R371). -/
theorem test_hyp_ladders :
    (let s : State := { rs [(audReg 0x108, 512)] 10000000 with
       aud := { loupe := [(3, { acts := [(0, none)] })], lens := [(3, { runs := [1, 1, 1, 1] })] }
       lad := { ladders := [(3, { rung := 1 })] } }
     s.halted = false ∧ SMap.find? s.aud.loupe 3 = some { acts := [(0, none)] } ∧ muted s = false ∧ stampOf s 160 ≤ s.now ∧
      SMap.find? s.aud.lens 3 = some { runs := [1, 1, 1, 1] } ∧ 0 + 160 ≤ archNewest s ∧ ladder? s 3 = some { rung := 1 }) ∧
    (let l : Ladder := { rung := 2, hold := 0, subs := [{ rung := 2, card := 0, idx := 0, args := 0, at_ := 0 }] }
     let tab : List W32 := (List.replicate 160 0).set (16 + 16 * 2) 0x400 |>.set (16 + 16 * 2 + 1) 1
     let s : State := { rs [] 2000000 with lad := { table := tab, ladders := [(3, l)] } }
     let q := (Run.start s).ladFlush
     s.halted = false ∧ ladder? q.s 3 = some l ∧ demotionAt q.s 3 l = some 1000000 ∧ fwRuns q.s 2 = true ∧ 1000000 < q.s.now ∧
      ladMode q.s 2 = 1 ∧ l.due + max 1 (ladW q.s 2 2) * 1000000 ≤ q.s.now) ∧
    (let s : State := { rs [(audReg 0x600, 0x80000000)] with lad := { queue := [[1]] } }
     s.lad.queue = [1] :: [] ∧ Run.ringRoom s = true) ∧
    (baseRung 3 ≤ 4 ∧ baseRung 16 ≤ 0x11 ∧ lowerRung {} 3 { rung := 2 } = 1) ∧
    (let s := cs { boxCard with words := [(0, 0x28000000)] }
     cardKind s 0 = 2 ∧ awake s = true ∧ ((Run.start s).frameDeliver 0).1.isNone = true) := by
  and_intros <;> decide +kernel

/-- A camera card on port 7, virtual channel 3, RAW8, one pixel by one line, and a frame of it. -/
def camCard7 : Card := {
  words := [(0, 0x28000000), (4, 0xFAA01000), (5, 0x00010001), (8, 0x00010001)], taken := true, cached := true }

def camFrame : CamFrame := { cfg := (List.range 32).map fun i => SMap.get 0 camCard7.words i, seq := 0, fnum := 0, fs := 0, keyed := true }

/-- A state where the port receives and the stream has the frames given. -/
def cams (fs : List CamFrame) (now : Nat := 0) : State := {
  rs [(camPortReg 7 0, 0x80000000), (camPortReg 7 4, 0x40000000), (schedReg 0x10000, 0x80000000)] now with
    sched := { cards := [(0, camCard7)] }, cam := { streams := if fs = [] then [] else [(0, { frames := fs })] } }

/-- CameraPackets: a port that does not receive, a packet without a stream, with no open frame, and with one in time and past its
watchdog; a line of image data and one that is none; a frame that may start. -/
theorem test_hyp_camera_packets :
    (let s := cams [camFrame]
     s.halted = false ∧ s.memWf ∧ s.regsWf ∧ s.unitsWf ∧ camReceives s 7 = true ∧ camReceives s 0 = false ∧ camOf s 7 3 = some 0 ∧
      camOf s 7 2 = none ∧ openFrame s 0 = some camFrame ∧ s.now ≤ frameExpiry camFrame ∧ camFrame.dropped = false ∧
      frameExpiry camFrame < (cams [camFrame] (10 ^ 12)).now) ∧
    (openFrame (cams []) 0 = none ∧ camOf (cams []) 7 3 = some 0 ∧ cardActive (cams []) 0 = true ∧
      cardActive { cams [] with sched := {} } 0 = false) ∧
    (imageType 0x2A = true ∧ imageType 0x12 = false ∧ (CamCfg.of camFrame.cfg).dt = 0x2A ∧ camFrame.lines.length = 0) ∧
    (let f := { camFrame with lines := List.replicate (CamCfg.of camFrame.cfg).height [] }
     (CamCfg.of f.cfg).height ≤ f.lines.length ∧ openFrame (cams [f]) 0 = some f) ∧
    ((camCard (cams []) 0).keyed = true ∧ (bits (cardW (cams []) 0 16) 15 0 + 65536 - bits (cardW (cams []) 0 16) 31 16) % 65536 + 0 <
      2 ^ (camCard (cams []) 0).log2n) := by
  and_intros <;> decide +kernel

/-- CameraControl: a line that a pipe holds, a port whose link changes, edges of a train in force and of a new one, transfers armed and
done. -/
theorem test_hyp_camera_control :
    (let f := { camFrame with slots := [0] }
     let s := cams [f] 1000000
     s.halted = false ∧ nextLine s 0 = some (0, 0, f, 0) ∧ awake s = true ∧
      max 0 (SMap.get 0 s.cam.pipeFree 0) + cdiv ((cdiv (CamCfg.of f.cfg).aw 2 + 8) * 1000) 480 ≤ s.now) ∧
    (cams []).fld (camPortReg 7 0) 31 31 = 1 ∧
    (let f : Fsync := { period := 1000, phase := 0, pend := some (1000, 7, 2000) }
     let s : State := { rs [(csiReg (0x2000 + 0x20 * 7), 0x80000000)] 3000 with cam := { fsync := [(7, f)] } }
     s.memWf ∧ s.regsWf ∧ s.unitsWf ∧ awake s = true ∧ s.fld (csiReg (0x2000 + 0x20 * 7)) 31 31 ≠ 0 ∧ SMap.get {} s.cam.fsync 7 = f ∧
      edgeFrom 7 1000 (max 2000 0) ≤ s.now ∧ edgeFrom f.phase f.period 0 ≤ s.now) ∧
    (let x : I3c := { xfer := 2 ^ 30, at_ := 0 }
     let s : State := { rs [(csiReg 0x3300, 0x80000000)] with cam := { i3c := [(3, x)] } }
     SMap.find? s.cam.i3c 3 = some x ∧ awake s = true ∧ s.fld (csiReg (0x3000 + 0x100 * 3)) 31 31 ≠ 0 ∧ x.at_ ≤ s.now) := by
  and_intros <;> decide +kernel

/-- PowerStates: requests that drain and that ran out, an entry and a wake within it, a return, an idle device, wakes by pin and timer. -/
theorem test_hyp_power_states :
    (let q : PwrReq := { target := 3, deadline := 10 }
     let s : State := { rs [] 10 with harts := [], power := { req := some q } }
     s.halted = false ∧ s.power.req = some q ∧ fwRuns s 3 = true ∧ drained s = true ∧ s.now ≤ q.deadline ∧ q.deadline < 11) ∧
    (let s : State := { regs := [(pwrReg 4, 0x40000000)], power := { last := 3 } }
     powerState s = 2 ∧ s.power.last = 3 ∧ s.power.entering = none ∧ s.power.ret = none ∧ ∀ l ∈ s.aud.loupe, l.2.active = false) ∧
    (let s : State := { aud := { fast := false }, power := { entering := some ⟨2, 0, none⟩, ret := some 0 } }
     s.halted = false ∧ s.power.entering = some ⟨2, 0, none⟩ ∧ s.aud.fast = false ∧ s.power.ret = some 0) ∧
    (let s := rs [(pwrReg 8, 0x80000000)] (2 ^ 30)
     powerState s = 0 ∧ fwRuns s 3 = true ∧ bit (s.reg (pwrReg 8)).toNat 31 = true ∧ s.gangs = [] ∧ claimState s ≠ 0 ∧
      s.power.req = none ∧ s.power.idleSince + bits (s.reg (pwrReg 8)).toNat 23 16 * 1000000 ≤ s.now) ∧
    (let s := rs [(pwrReg 0xC, 0xC0000001)]
     s.fld (pwrReg 0xC) 31 31 = 1 ∧ s.fld (pwrReg 0xC) 1 0 = 1 ∧ s.fld (pwrReg 0xC) 30 30 = 1 ∧ s.reg64 (pwrReg 0x10) ≤ s.now ∧
      s.power.entering = none ∧ awake s = true ∧ s.memWf ∧ s.regsWf ∧ s.unitsWf) := by
  and_intros <;> decide +kernel

/-- PowerControl: a dormant cluster with work, a step under way, a step of the HOST supply in time and late, refills, a droop and a stretch
that ends. -/
theorem test_hyp_power_control :
    (let s : State := { ps par with regs := runRegs [(dvfsReg 0, 0xA0000000), (coreReg 0 0, 0)] }
     s.halted = false ∧ s.fld (dvfsReg 0) 29 29 = 1 ∧ s.fld (dvfsReg 0) 31 31 = 1 ∧ (nextIndex par).isSome = true ∧ 0 < 12 ∧
      logicalOf s (12 * 0 + 0) < 176 ∧ placed par (logicalOf s (12 * 0 + 0)) = true ∧ reflexReserved s (logicalOf s (12 * 0 + 0)) = false) ∧
    (let s : State := { rs [] 1000000 with power := { vstep := some (0, 1, 2) } }
     s.power.vstep = some (0, 1, 2) ∧ 0 + 1000000 ≤ s.now ∧ s.now / 1000 - s.ledger.us = 1000 ∧ s.power.capNow ≤ 4294967 ∧
      s.memWf ∧ s.regsWf ∧ s.unitsWf ∧ fwRuns s 3 = true ∧ s.power.rateMs < s.now / 1000000) ∧
    (let s : State := { rs [] 1000000 with power := { stretch := [(16, 0)] } }
     stretched s 16 = true ∧ stretched s 0 = false ∧ SMap.find? s.power.stretch 16 = some 0 ∧
      0 + 256000 / ((match s.fld (dvfsReg 16) 17 16 with
          | 0 => 1920
          | 1 => 1280
          | 2 => 960
          | _ => 640) / 2) ≤ s.now) ∧
    (rs [(pwrReg 0x304, 0x80000000)]).fld (pwrReg 0x304) 31 31 = 1 := by
  and_intros <;> decide +kernel

/-- FenceEvents and TestAndLedgerEvents: cores in each state, checks and swaps in time, tests of each kind, records owed and a half of the
Fence Ledger that is full. -/
theorem test_hyp_repair :
    (let s : State := { rs [] 1000000 with gangs := [(0, gang 0)], regs := runRegs [(fixReg 0x100, 0)] }
     s.halted = false ∧ fixState s 0 = 0 ∧ (s.core 0).quiet + 1000000 ≤ s.now ∧ gangReady s 0 0 = true) ∧
    (let w : FixSwap := { logical := 0, old := 0, new := 5, start := 0 }
     let s : State := { rs [] 40000 with fix := { swap := some w, checks := [⟨7, 0, 0⟩] } }
     s.fix.swap = some w ∧ w.start + 40000 ≤ s.now ∧ w.new ≠ 7 ∧ (s.fix.checks.find? fun k => k.core = 7) = some ⟨7, 0, 0⟩) ∧
    (let p := { par with degradedAt := some 0 }
     let s : State := { ps p with regs := runRegs [(coreReg 0 0, 0xFF000000)], now := 10 ^ 12 }
     s.parcel? 0 = some p ∧ fwRuns s 0 = true ∧ 0 + s.fld (fixReg 8) 31 16 * 1000000 ≤ s.now) ∧
    (let x : FixTest := { core := 3, start := 0 }
     (List.range 8).all fun st => decide (
       let s : State := { rs [(fixReg (0x100 + 12), BitVec.ofNat 32 (st * 2 ^ 29))] 40000000 with fix := { tests := [x] } }
       (s.fix.tests.find? fun t => t.core = 3) = some x ∧ x.start + 40000000 ≤ s.now ∧ fixState s 3 = st)) = true ∧
    (let s : State := { rs [(fixReg 8, 0x100), (fixReg 0x100, 0x20000000)] 3600000000000 with
       fix := { passed := [(1, 0)], owed := [{ kind := 1, arg0 := 0 }], seq := 24575 } }
     fixState s 0 = 1 ∧ s.fld (fixReg 8) 15 8 ≠ 0 ∧ SMap.get 0 s.fix.tested 0 + s.fld (fixReg 8) 15 8 * 3600000000000 ≤ s.now ∧
      SMap.find? s.fix.passed 1 = some 0 ∧ 0 + 3600000000000 ≤ s.now ∧ fwRuns s 4 = true ∧ s.fix.seq < 24576 ∧ s.fix.seq ≠ 0 ∧
      s.memWf ∧ s.lost = 0 ∧ s.fix.half < 2) ∧
    (let w : FixSwap := { logical := 0, old := 0, new := 5, start := 0, drain := some 0 }
     let s : State := { rs [] 10000000 with fix := { swap := some w } }
     w.drain = some 0 ∧ 0 + 10000000 ≤ s.now ∧ gangsOf s 0 = [] ∧ fwRuns s 1 = true ∧ gangsOf { s with gangs := [(0, gang 0)] } 0 ≠ []) ∧
    (let s := rs [(fixReg 4, 4), (fixReg 8, 1), (coreReg 0 0, 0), (fixReg 0x104, 0x20000000)] (86400000000000)
     s.fld (fixReg 4) 2 2 ≠ 0 ∧ s.fld (fixReg 8) 7 0 ≠ 0 ∧ awake s = true ∧ s.fix.swap = none ∧
      s.fix.rollAt + s.fld (fixReg 8) 7 0 * 86400000000000 / 176 ≤ s.now ∧ coreOfLogical s 0 = some 0 ∧ swapSpare s 0 = some 1) := by
  and_intros <;> decide +kernel

/-- SecurityEvents: a switch that settles and one that ends, to a partner and to a mailbox, a measurement of memory that is mapped, not
mapped and unreadable, a snapshot that is due, and the buffers of UART1 at their ends. -/
theorem test_hyp_security :
    (let sw : Switch := { at_ := 0, next := [0, 0, 0, 0, 0, 0, 0, 0x40], peer := ses.peer, session := 0, seq := 0, minor := 0, nocrc := true }
     let s : State := { rs [] 60000000 with sec := { switch := some sw } }
     s.halted = false ∧ s.sec.switch = some sw ∧ settleEn sw.next = true ∧ sw.settled = false ∧ switchReleased s = true ∧ fwRuns s 4 = true ∧
      settleStart s + settleMax sw.next * 1000000000 ≤ s.now ∧ sw.at_ + 60000000 ≤ s.now ∧ settleEn [] = false) ∧
    (let m : Measure := { ctx := 0, tag := 1, addr := 0x1FFF, len := 1 }
     let s : State := { rs [] with mem := tables, sec := { mm := some m } }
     s.sec.mm = some m ∧ fwRuns s 4 = true ∧ mapped s (ctxX s 0) .load 0x1FFF 1 = true ∧ mapped s (ctxX s 0) .load 0x3000 1 = false ∧
      (readVirt s (ctxX s 0) 0x1FFF 1).isOk = true ∧
      (readVirt { s with vault := { ue := [(0xFF, 1)] } } (ctxX s 0) 0x1FFF 1).isOk = false) ∧
    (let s := rs [(topReg 0x200, 0x80000000)]
     s.fld (topReg 0x200) 31 31 = 1 ∧ s.reg64 (topReg 0x204) ≤ s.now) ∧
    (let s : State := { rs [(topReg 0x324, 0x80000000)] with obs := { uartRx := List.replicate 63 0, uartTx := [7] } }
     s.memWf ∧ s.regsWf ∧ s.unitsWf ∧ s.fld (topReg 0x324) 31 31 = 1 ∧ s.obs.uartRx.length < 64 ∧ s.obs.uartTx = [7] ∧
      64 ≤ (List.replicate 64 (0 : Byte)).length) := by
  and_intros <;> decide +kernel

/-! ## States that meet the hypotheses of the clauses that say what an accepted write, request or message does -/

/-- What an accepted write of host core 0 must meet, in a form that evaluation decides. -/
abbrev Accepts (s : State) (k v : Nat) : Prop :=
  s.halted = false ∧ s.memWf ∧ s.regsWf ∧ s.unitsWf ∧ s.timesWf ∧ canAccess s h0 = true ∧ accessOk s h0 k true = true ∧
    (match regDesc k with
      | some d => d.occurs v
      | none => false) = true

/-- A state with a card as card 0, whose memory context 0 maps, in which host core 0 may write every register. -/
def ws (c : Card) (l : List (Nat × W32) := []) (now : Nat := 0) : State := {
  rs ((schedReg 0x10000, 0x80000000) :: l) now with mem := tables, sched := { cards := [(0, c)] } }

/-- A card with its kind and words, enabled. -/
def kc (kind : Nat) (l : List (Nat × W32)) : Card := {
  words := (0, BitVec.ofNat 32 (kind * 2 ^ 28 + 2 ^ 27)) :: l, taken := true, cached := true }

/-- AcceptedWrites, doorbells and indexes: one index on within the ring, for each kind of card; tickets and trace records that wait. -/
theorem test_hyp_accepted_doorbells :
    (let s := ws queueCard
     Accepts s (schedReg 0) 2 ∧ s.sec.switch = none ∧ cardEn s 0 = true ∧ cardKind s 0 = 1 ∧
      queueBellOk ((Run.start s).touchCard 0).s 0 2 s.now = true) ∧
    (let s := ws { boxCard with words := [(0, 0x78000000), (4, 0x1000), (6, 0x1100), (8, 0x600), (9, 1)] }
     Accepts s (schedReg 0) (2 ^ 30 + 1) ∧ cardEn s 0 = true ∧ cardKind s 0 = 7 ∧ mailboxBellOk s 0 true 1 = true) ∧
    (let s := ws (kc 6 [(9, 0x10), (10, 1)])
     Accepts s (ethReg 0x5000) (2 ^ 30 + 1) ∧ Accepts s (ethReg 0x5000) 1 ∧ cardEn s 0 = true ∧ cardKind s 0 = 6 ∧
      bits (cardW s 0 10) 15 0 = 1 ∧ bits (cardW s 0 11) 15 0 = 0 ∧ 1 ≤ 2 ^ bits (cardW s 0 9) 7 4) ∧
    (let s := ws (kc 3 [(7, 1)])
     Accepts s (audReg 0x500) (2 ^ 30 + 1) ∧ cardEn s 0 = true ∧ cardKind s 0 = 3 ∧ bits (cardW s 0 7) 15 0 = 1) ∧
    (let s := ws (kc 4 [])
     Accepts s (audReg 0x500) 1 ∧ cardKind s 0 = 4 ∧ 1 ≤ 2 ^ bits (cardW s 0 6) 15 12) ∧
    (let s := ws (kc 2 [(16, 1)])
     Accepts s (csiReg 0x4000) (2 ^ 30 + 1) ∧ cardEn s 0 = true ∧ cardKind s 0 = 2 ∧ bits (cardW s 0 16) 15 0 = 1) ∧
    (let s := rs [(audReg 0x618, 1), (obsReg 0x114, 1)]
     Accepts s (audReg 0x61C) 1 ∧ s.fld (audReg 0x618) 15 0 = 1 ∧ Accepts s (obsReg 0x118) 1 ∧ s.fld (obsReg 0x114) 15 0 = 1) := by
  and_intros <;> decide +kernel

/-- AcceptedWrites, the scheduler, the reflex lane, the vaults and the archive: a tally that is allocated, a context that is closed and
one that is open, a lease in time, a slot that is free, groups, an idle TLB, windows, a copy and parameters. -/
theorem test_hyp_accepted_units :
    (let s : State := { ws queueCard with tallies := [(5, { allocated := true })] }
     Accepts s (schedReg 0x028) 0x10005 ∧ tallyOf s 0x10005 = some 5 ∧ accessOk s h0 (schedReg 0x020) false = true ∧ fwRuns s 0 = true) ∧
    (∀ n, nextFreeTally (rs []) 16384 n = some (n % 16384)) ∧
    (Accepts (rs []) (schedReg 0x10010) (2 ^ 31) ∧ (rs []).fld (schedReg 0x10010) 30 29 = 0 ∧
      Accepts (rs [(schedReg 0x10010, 0xA0000000)]) (schedReg 0x10010) (2 ^ 29) ∧
      (rs [(schedReg 0x10010, 0xA0000000)]).fld (schedReg 0x10010) 30 29 ≠ 0) ∧
    (let s : State := { rs [(sessReg 0 0, 0x4100000A)] with mhy := { sess := [(0, ses)] } }
     Accepts s (schedReg 0x034) 0 ∧ sessState s 0 = 1 ∧ s.now ≤ leaseEnd s 0) ∧
    (Accepts (rs []) (rfxCoreReg 15) (2 ^ 31 + 7) ∧ (rs []).fld (rfxCoreReg 15) 31 31 = 0 ∧
      (∀ m, m < 16 → m ≠ 15 → (rs []).fld (rfxCoreReg m) 31 31 ≠ 1) ∧
      Accepts (rs [(rfxCoreReg 15, 0x82000007)]) (rfxCoreReg 15) 7 ∧ rfxState (rs [(rfxCoreReg 15, 0x82000007)]) 15 ≠ 3) ∧
    (Accepts (gr (rg true)) (rfxReg 0 0x24) 1 ∧ Accepts (gr (rg true)) (rfxReg 0 0x20) (2 ^ 31) ∧
      rfxGroup? (gr (rg true)) 0 = some (rg true)) ∧
    (Accepts (rs []) (vltReg 0x034) 0 ∧ Accepts (rs []) (vltReg 0x030) 0 ∧ (rs []).fld (vltReg 0x038) 31 31 = 0) ∧
    (let w : Window := { xen := false, xroot := 0, xuser := false, src := 0x1000, sizes := [1], again := false, cap := 1, wfirst := 0
                         ncons := 1, fill := 0, free := 0, inflight := [], next := 1 }
     let s : State := { rs [] with vault := { windows := [(15, w)] } }
     Accepts s (vltReg (0x808 + 0x20 * 15)) (2 ^ 30) ∧ SMap.find? s.vault.windows 15 = some w ∧ w.inflight = [] ∧
      ({ w with inflight := [0] } : Window).inflight ≠ []) ∧
    (let s := ws queueCard [(audReg 0x108, 512), (audReg 0x110, 1), (audReg 0x128, 1), (audReg 0x12C, 0x1000)]
     let t := ((Run.start s).setRegN (audReg 0x134) 1).s
     Accepts s (audReg 0x134) (2 ^ 31 + 1) ∧ t.fld (audReg 0x138) 31 31 = 0 ∧
      (copyStatus t { ctx := 0, whole := false, first := 0, count := 1, dst := 0x1000, mask := 1, tally := 0 }) = stOk) ∧
    (Accepts (rs []) (ispReg 15 0x004) 0 ∧ (SMap.get [] (rs []).cam.pend 15).length < 4) := by
  and_intros <;> first | decide +kernel | exact fun _ => rfl

/-- AcceptedWrites, transfers, ladders, power, measurement, snapshots, restarts and UART1. -/
theorem test_hyp_accepted_rest :
    (Accepts (rs []) (csiReg 0x3304) (2 ^ 31) ∧ (rs []).fld (csiReg 0x3310) 31 31 = 0) ∧
    (Accepts (rs []) (audReg 0x600) (2 ^ 31 + 4) ∧ (rs []).fld (audReg 0x600) 31 31 = 0 ∧
      Accepts (rs [(audReg 0x600, 0x8000000A)]) (audReg 0x600) 10 ∧
      Accepts (rs [(audReg 0x600, 0x8000000A)]) (audReg 0x600) 0xC000000A ∧ (rs [(audReg 0x600, 0x8000000A)]).fld (audReg 0x600) 31 31 = 1) ∧
    (let s := rs [(pwrReg 4, 0x20000000)]
     Accepts s (pwrReg 0) (2 ^ 31) ∧ s.power.req = none ∧ s.power.asked = none ∧ s.power.entering = none ∧ s.sec.switch = none ∧
      powerState s = 1 ∧ fwState s 3 = 0 ∧ anySensor s (tAlert s) = false) ∧
    (let s := rs []
     Accepts s (pwrReg 0) (2 ^ 31 + 2) ∧ powerState s ≤ 1 ∧ 2 ≤ claimState s ∧ reflexInFlight s = false ∧ s.vault.windows = [] ∧
      powerState s ≠ 1 ∧ 1 ≤ claimState s) ∧
    (Accepts (rs []) (dvfsReg 16) (3 * 2 ^ 20) ∧ (3 ≠ (rs []).fld (dvfsReg 16) 21 20 ∧ pinned (rs []) 16 = false) ∧
      (∃ k, k < 4 ∧ k ≠ (rs []).fld (dvfsReg 0) 13 12 ∧ k ≤ max ((rs []).fld (dvfsReg 0) 13 12) ((rs []).fld (dvfsReg 0) 17 16)) ∧
      Accepts (rs []) (regKey 2 0x140) 3 ∧ (rs []).fld (dvfsReg 16) 17 16 ≤ 3) ∧
    (Accepts (rs []) (pwrReg 0x300) 60 ∧ Accepts (rs []) (pwrReg 0x304) (2 ^ 31 + 3) ∧ (rs []).mhy.jobs = [] ∧
      anySensor (rs []) (tAlert (rs [])) = false) ∧
    (let s := ws queueCard [(secReg 0x10, 0x1000), (secReg 0x18, 1)]
     let u := ((Run.start s).setRegN (secReg 0x20) 1).s
     Accepts s (secReg 0x20) (2 ^ 31 + 1) ∧ s.sec.mm = none ∧ s.sec.meas.length < 64 ∧ mapped u (ctxX u 0) .load 0x1000 1 = true) ∧
    Accepts (rs []) (coreReg 191 0x010) (2 ^ 31) ∧
    (let s := rs [(topReg 0x204, 2000)]
     Accepts s (topReg 0x200) (2 ^ 31) ∧ s.now + 2000 ≤ s.reg64 (topReg 0x204) ∧ s.fld (topReg 0x200) 31 31 = 0) ∧
    (let s : State := { rs [(fwReg 4 0x100, 0x00400014), (fwReg 4 0x104, 0x83000180)] with harts := [(20, { running := true })] }
     canAccess s (.fw 4) = true ∧ accessOk s (.fw 4) (fwReg 4 0) true = true ∧ fwState s 4 = 0 ∧ fwFree s 4 = true ∧ s.fw.queue = []) ∧
    (let s : State := { rs [] with obs := { uartRx := [7], uartTx := List.replicate 63 0 } }
     Accepts s (topReg 0x320) 0xFF ∧ s.obs.uartTx.length < 64 ∧ accessOk s h0 (topReg 0x320) false = true) := by
  and_intros <;> decide +kernel

/-- A ring whose front entry, the last of a mapped page, has an OP on sequence 0 with COUNT 1, beside bytes given, and a pool of one
page. -/
def kq (op : Nat) (bytes : SMap Byte) : State := {
  regs := [(fwReg 1 4, 0), (schedReg 0x10004, 0x3000), (schedReg 0x10008, 1), (pidxReg 0, 0x1FE0), (pidxReg 8, 0x80000001), (pidxReg 0x048, 1)]
  mem := (0x1FE3, BitVec.ofNat 8 op) :: (0x1FE4, 1) :: tables.take 5 ++ bytes, kv := { awake := true } }

/-- What a request must meet to be served at once. -/
def serves (s : State) (op : Nat) (ok : KvReq → State → Bool) : Bool :=
  !s.halted && fwRuns s 1 && s.fld (pidxReg 8) 31 31 == 1 && s.kv.awake && (kvRequest s).op == op && bits (kvHead s) 23 12 == 0 &&
    bits (kvHead s) 222 208 == 0 && kvHead s / 2 ^ 224 == 0 && s.kv.waiting == [] && ok (kvRequest s) (kvPopped (Run.start s)).s

/-- KvCommands, requests that complete: an OPEN whose block is at 0x1100, and requests on a sequence that is open and resident, with the
tokens, pins and tentative tokens that each needs. -/
theorem test_hyp_kv_open : serves { kq 1 [] with mem := (0x1FE3, 1) :: (0x1FE9, 0x11) :: tables.take 5 } 1 (fun q s =>
    q.seq == 0 && (openBlock s q.addr).isSome && closedSeq ((Run.start s).markRange (ctxX s 0) .load q.addr 64).s == some 0) = true := by
  decide +kernel

/-- Requests on a sequence that is open and resident, with the tokens, pins and tentative tokens that each needs. -/
abbrev opened : SMap Byte := [(seqTableBase + 3, 0x40)]

def resident (q : KvReq) (s : State) : Bool := seqState s q.seq != 0 && decide (seqTok s q.seq ≤ seqRes s q.seq)

theorem test_hyp_kv_close : serves (kq 2 opened) 2 (fun q s => resident q s && seqPins s q.seq == 0) = true := by decide +kernel

theorem test_hyp_kv_pin : serves (kq 3 opened) 3 (fun q s => resident q s && decide (seqPins s q.seq < 255)) = true := by decide +kernel

theorem test_hyp_kv_unpin : serves (kq 4 ((seqTableBase, 1) :: opened)) 4 (fun q s => resident q s && decide (0 < seqPins s q.seq)) = true := by
  decide +kernel

theorem test_hyp_kv_append : serves (kq 5 opened) 5 (fun q s =>
    resident q s && q.count == 1 && seqTent s q.seq == 0 && canCover s q.seq (missingPages s q.seq 1).length) = true := by decide +kernel

theorem test_hyp_kv_tentative : ([6, 7, 8].all fun op => serves (kq op (opened ++ [(seqTableBase + 8, 1)])) op fun q s =>
    resident q s && q.count == 1 && seqTent s q.seq == 1 && (op != 6 || canCover s q.seq (missingPages s q.seq 2).length)) = true := by
  decide +kernel

theorem test_hyp_kv_bad : serves (kq 9 []) 9 (fun _ _ => true) = true := by decide +kernel

/-- SessionMessages, ServiceMessages: a HELLO that is accepted, a snapshot armed 2 µs ahead, power states that are free to be entered, a
restart that begins at once; an ATTEST whose reply fits when the free signature is empty. -/
theorem test_hyp_messages_done :
    (let m : Msg := { msg 1 [0x1000A, 1, 1, 0, 0, 0] with token := 0 }
     let s := ms 4 m
     frontMsg s 4 (isOp 1) = some m ∧ ((Run.start s).popMsg 4).s.mhy.execs = [] ∧ closedSess ((Run.start s).popMsg 4).s = some 1 ∧
      helloStatus ((Run.start s).popMsg 4).s m = stOk) ∧
    (let m := msg 0x0300 [2000, 0]
     Takes 0 m all (lenIs 8) ∧ m.stamp + 2000 ≤ m.w 0 + 2 ^ 32 * m.w 1 ∧ (ms 0 m).fld (topReg 0x200) 31 31 = 0) ∧
    ([0, 1, 2, 4].all fun t =>
      let s := ms 3 (msg 0x0400 [t])
      s.power.req == none && s.power.asked == none && s.power.entering == none && s.sec.switch == none && reflexInFlight s == false &&
        s.vault.windows == [] && decide (t ≤ claimState s) && anySensor s (tAlert s) == false && powerState s == 0) = true ∧
    powerState { ms 3 (msg 0x0400 [0]) with regs := runRegs [(pwrReg 4, 0x20000000)] } = 1 ∧
    (let m := msg 0x0504 [3]
     Takes 4 m all (lenIs 4) ∧ fwState (ms 4 m) 3 = 0 ∧ (ms 4 m).fw.queue = [] ∧ fwFree (ms 4 m) 3 = true) := by
  and_intros <;> decide +kernel

/-- GangEvents and ParcelEvents: a swap of a full core, a kernel that is to run again; an entry that is read, and a kernel whose header is. -/
theorem test_hyp_gangs_done :
    (let a : Gang := { gang 0 with nreg := 32, ntd := 0, blockedAt := some 0 }
     let b : Gang := { gang 0 with nreg := 32, ntd := 0, parked := true, readyAt := some 5 }
     let s : State := { rs [(coreReg 0 4, 0x10000)] 5000 with gangs := (List.range 16).map (fun i => (i, a)) ++ [(16, b)] }
     leastBy (fun kg => kg.2.blockedAt.getD 0) ((gangsOf s 0).filter (mayPark s 0)) = some (0, a) ∧
      leastBy (fun kg => kg.2.readyAt.getD 0) ((gangsOf s 0).filter (parkedReady s 0)) = some (16, b) ∧
      131072 < liveStorage s 0 + storageOf b.nreg b.ntd ∧ parkedStorage s 0 ≤ s.fld (coreReg 0 4) 20 16 * 8192 ∧
      liveStorage s 0 ≤ 131072) ∧
    (let p := { par with retired := 1, desc := ((par).desc.set 0 (BitVec.ofNat 32 (2 ^ 24 + 2 ^ 29))) }
     (ps p).parcel? 0 = some p) := by
  and_intros <;> decide +kernel

/-- IdleStepCounts: the power states in which time passes by crystal steps or stands. -/
theorem test_hyp_idle : ([0, 1, 2, 3, 4].all fun k => powerState (rs [(pwrReg 4, BitVec.ofNat 32 (k * 2 ^ 29))]) == k) = true ∧
    (rs []).pending = [] ∧ (rs []).now = 625 * 0 / 24 := by and_intros <;> decide +kernel

/-- PowerControl: no sensor is hot, and one is, in each mode; a cut that stands and one at its end; thirty-four temperatures. -/
theorem test_hyp_heat :
    (let r := Run.start (rs [(pwrReg 0x304, 0x80000000)] 1000000)
     fwRuns r.s 3 = true ∧ r.s.power.tempMs < r.s.now / 1000000 ∧ r.s.fld (pwrReg 0x304) 31 31 = 1 ∧ hotSensors r.s = [] ∧ r.s.power.cut = 0) ∧
    hotSensors (rs [(pwrReg 0x610, 0x7F), (pwrReg 0x660, 0x7F)]) ≠ [] ∧ (rs []).fld (pwrReg 0x304) 31 31 ≠ 1 ∧ awake (rs []) = true ∧
    (List.replicate 34 (0 : BitVec 8)).length = 34 ∧ ({ rs [] with power := { cut := 10 } } : State).power.cut = 10 := by
  and_intros <;> decide +kernel

/-- GangEvents and ParcelEvents: a kernel that is to run again, whose statistics block counts a value that left its range; the entry at a
ring's front, at the end of a mapped page, is read; a kernel's header is. -/
theorem test_hyp_parcels_done :
    (let p := { par with retired := 1, desc := ((par).desc.set 0 (BitVec.ofNat 32 (2 ^ 24 + 2 ^ 28))).set 6 0x1F00 }
     let s : State := { ps p with mem := (0x1F03, 0x80) :: (0x1F24, 1) :: tables }
     s.parcel? 0 = some p ∧ fwRuns s 0 = true ∧ rerunDue s p = true) ∧
    (let s : State := { cs queueCard with sched := { cards := [(0, queueCard)] } }
     nextQueue s = some 0 ∧ ((((Run.start s).touchCard 0).readIn (ctxX s 0) 0x1000 64).1).isOk = true) ∧
    (let p := { par 0 .waiting with desc := (par).desc.set 2 0x1000, met0 := some 0, met1 := some 0 }
     let s : State := { ps p with mem := (0x1000, 8) :: tables }
     (match ((Run.start s).readIn (ctxX s 0) 0x1000 16).1 with
       | .ok v => kernelHeader v == some (0, 0, 8)
       | .error _ => false) = true ∧ p.desc.getD 8 0 ≠ 0 ∧ statsVa p = 0 ∧ isReflex p = false) := by
  and_intros <;> decide +kernel

/-- AcceptedWrites, WindowAndVaultEvents: a window of one chunk of a folio of the Stacks that starts, and the chunk that lands. -/
theorem test_hyp_window_start :
    (let s : State := { rs [(vltReg 0x800, 0x1000)] with
       mem := [(0x1002, 0x10), (0x1004, 1), (0x1005, 1), (0x1009, 0x11), (0x1010, 1), (0x1018, 1), (0x101C, 5), (0x101E, 1), (0x1020, 5),
         (0x1022, 1), (0x1100, 1)]
       tallies := [(5, { allocated := true })] }
     let p := (Run.start s).readBlock (s.hart 0).xctx (s.reg64 (vltReg 0x800)) 64
     Accepts s (vltReg 0x808) (2 ^ 31) ∧ SMap.find? s.vault.windows 0 = none ∧
      (Run.windowOf p.2.s (s.hart 0).xctx 0).isOk = true) ∧
    (let w : Window := { xen := false, xroot := 0, xuser := false, src := 0x10000100000, sizes := [1], again := false, cap := 1, wfirst := 0
                         ncons := 1, fill := 0, free := 0, inflight := [0], next := 1 }
     (chunkCopy (Run.start (rs [])) w 0).isOk = true ∧
      (chunkCopy (Run.start { rs [] with vault := { stackUe := [(0x10000100000 / 8, 1)] } }) w 0).isOk = false) := by
  and_intros <;> decide +kernel

/-- MailboxEvents, FirmwareEvents, ReflexSteps: a ring that is not mapped; restarts that wait in their order; an output frame whose
template is read. -/
theorem test_hyp_units_done :
    (let s := cs { boxCard with words := [(0, 0x78000000), (4, 0x1000), (6, 0x3000), (8, 0x600), (10, 1)] }
     let r := (((Run.start s).touchCard 0).setHw 0 10 65537).readBlock (ctxX s 0) 0x3000 64
     cardKind s 0 = 7 ∧ cardActive s 0 = true ∧ awake s = true ∧ r.1.isOk = false) ∧
    (let a : FwReq := { p := 1, cause := 1, forced := false, at_ := 5 }
     let b : FwReq := { p := 2, cause := 1, forced := false, at_ := 5 }
     fwEnqueue a [b] = [a, b] ∧ a.at_ = b.at_ ∧ a.p ≤ b.p ∧ (rs []).fw.queue = [] ∧
      (let s : State := { rs [] with fw := { queue := [a] } }
       (s.fw.queue.find? fun q => fwFree s q.p) = some a)) ∧
    (let c : List W32 := [0x8000, 0, 0x1FF0, 0]
     let o : ROut := { step := 1, time := 0, late := false, restarted := false, nan := 0, latch := ⟨0, 0, [], []⟩, outs := [], streams := [0] }
     let g := { rg true with out := [o], cards := [c] }
     let s := { gr g with mem := tables }
     rfxGroup? s 0 = some g ∧ s.parcel? g.parcel = some par ∧ g.busy ≤ s.now ∧ (g.cards.find? fun c => bindOut c && bindStream c = 0) = some c ∧
      (((Run.start s).setRfx 0 { g with out := [] }).readIn (ctxX s 0) (egressTmpl c) (egressTlen c)).1.isOk = true) := by
  and_intros <;> decide +kernel

/-- WindowAndVaultEvents: words that stand corrected, the readers of an access without an answer, a vault that retrains. -/
theorem test_hyp_vault_done :
    (let s : State := { rs [] with vault := { weak := [(0, 1)] } }
     (SMap.find? s.vault.weak 0).isSome = true ∧ (SMap.find? (rs []).vault.weak 0).isSome = false) ∧
    (let w : Window := { xen := false, xroot := 0, xuser := false, src := 0, sizes := [1], again := false, cap := 1, wfirst := 0
                         ncons := 1, fill := 0, free := 0, inflight := [0], next := 1 }
     let s : State := { rs [] with vault := { windows := [(15, w)] } }
     SMap.find? s.vault.windows 15 = some w ∧ w.inflight ≠ []) ∧
    (let t : TInstr := { seq := 0, gang := 0, op := .fmove, reads := [7] }
     (((tq t).core 0).running.find? fun e => e.seq = 0 && e.op = .fmove && e.reads.contains (0x7FFF / 4096)) = some t ∧
      vaultState (tq t) (vaultOf (tq t) 0x7FFF).1 = 0) ∧
    SMap.get 0 (rs []).vault.spares 0 < 64 := by
  and_intros <;> decide +kernel

/-- EthernetPortEvents, EthernetFrames: a key server whose numbers run out, a port that protects nothing yet, a VLAN that is written, a
frame that arrives without its protection, a list whose entries turn within its cycle. -/
theorem test_hyp_ethernet_done :
    (let s : State := { rs [] with eth := { ports := [(3, { sak := some 1, pn := 3 * 2 ^ 62, server := true })] } }
     (ethPort s 3).sak.isSome = true ∧ (ethPort s 3).server = true ∧
      3 * (if s.fld (ethReg (0x3000 + 0x40 * 3)) 29 29 = 1 then 2 ^ 64 else 2 ^ 32) ≤ 4 * max (ethPort s 3).pn (ethPort s 3).rxPn) ∧
    (let s := rs [(portReg 0 0, 0x82000000)]
     bit (s.reg (portReg 0 0)).toNat 31 = true ∧ awake s = true ∧ s.fld (portReg 0 4) 31 30 ≠ 1 ∧ s.fld (ethReg 0x3000) 31 30 ≠ 2) ∧
    (let s := rs [(ethReg 0x1000, 0xC1000001)]
     let d := (List.range 8).map fun k => (s.reg (ethReg (0x1004 + 4 * k))).toNat
     bit (s.reg (ethReg 0x1000)).toNat 31 = true ∧ bit (s.reg (ethReg 0x1000)).toNat 30 = true ∧
      bits (s.reg (ethReg 0x1000)).toNat 29 24 = 1 ∧ (tblRead s 1 0 1).isSome = true ∧ tblValid s 1 1 d = true) ∧
    (let s := rs [(portReg 0 0, 0x82000000)]
     ((Run.start s).unprotect 0 (List.replicate 60 0)).isNone = true) ∧
    (let g : GateList := ⟨0, 1000, 0, [(500, 0, 1), (500, 0, 2)]⟩
     g.cycle ≠ 0 ∧ 7 < 8) ∧
    (let s : State := rs []
     (cbState s 0).top = none ∧ (cbState s 0).seen = []) := by
  and_intros <;> decide +kernel

/-- AudioEvents: a card that is due while the clocks run fast, and a block that is ready. -/
theorem test_hyp_audio_done :
    (let s := cs { boxCard with words := [(0, 0x38000000), (6, 0x800100)] } 1000000
     ({ s with aud := { s.aud with fast := true } } : State).aud.fast = true ∧ micPlanes s 0 ≠ []) ∧
    (let s : State := { cs { boxCard with words := [(0, 0x48000000), (4, 0x1000), (6, 0), (7, 1)] } 2000000 with
       aud := { tails := [(0, [(1, 0)])] } }
     (SMap.get [] s.aud.tails 0).find? (fun x => decide (x.2 + 1000000 ≤ 2000000)) = some (1, 0) ∧ bits (cardW s 0 7) 31 16 = 0) := by
  and_intros <;> decide +kernel

/-- LadderEvents: the level of a frame is a free value within 0.25 dB, and so is the score of a hop. A first frame sets the floor: with a
threshold of 0 it is active and triggers, with one of 1 it is not, and ends an activity. The ladder is found after the frame, triggered
or not; a hop whose score is 255 completes a keyword. -/
theorem test_hyp_loupe (e : Int) :
    ((loupeStep 0 {} e).2.1 = true ∧ (loupeStep 0x04000000 {} e).2.1 = false ∧ (loupeStep 0x04000000 {} e).1.run = 0 ∧
      (loupeStep 0x04000000 {} e).1.active = false ∧ (loupeStep 0x04000000 { active := true } e).2.2 = true) ∧
    (let s : State := { rs [] with lad := { ladders := [(3, { rung := 1 })] } }
     let q := (Run.start s).setAud { loupe := [(3, { next := 1, run := 1, active := true, acts := [(0, none)] })] }
     ladder? q.s 3 = some { rung := 1 } ∧ ladder? (q.loupeTrigger 3 160).s 3 = some { rung := 1 } ∧ ladder? q.s 4 = none) := by
  refine ⟨by simp [loupeStep, bits], by decide +kernel⟩

theorem test_hyp_lens (h : ∀ a b, Config.lensModel a b = (0, 255)) :
    let l : Lens := { runs := [0, 0, 0, 0] }
    let u : Loupe := { acts := [(0, none)] }
    let s : State := { rs [(audReg 0x108, 512), (audReg 0x204, 0)] with
      aud := { loupe := [(3, u)], lens := [(3, l)] }, lad := { ladders := [(3, { rung := 1 })] } }
    let out := (List.range 4).map fun b => Config.lensModel (l.state.getD b 0) ((List.range 160).map fun i => islandBeam s 3 b i)
    let runs := (List.range 4).map fun b =>
      if bits (s.reg (audReg 0x204)).toNat 31 24 ≤ ((out.getD b (0, 0)).2).toNat then l.runs.getD b 0 + 1 else 0
    ((List.range 4).find? fun b => decide (bits (s.reg (audReg 0x204)).toNat 23 20 ≤ runs.getD b 0)) = some 0 ∧
      0 + 160 ≤ archNewest s ∧
      ladder? (((Run.start s).setAud { s.aud with
        lens := SMap.insert s.aud.lens 3 { next := 1, runs := [0, 0, 0, 0], state := out.map (·.1) } }).wakeTo 4 1).s 3 = some { rung := 1 } ∧
      ¬ (2 ≤ 1 ∨ rungBusy { rung := 1 } 2 = true) := by
  simp only [h]
  decide +kernel

/-- CameraControl: an output that pulses, one past its pulse, one that is held and one that is off. -/
theorem test_hyp_fsync :
    let at_ := fun (ctrl : W32) (period now : Nat) => ({ rs [(csiReg 0x2000, ctrl)] now with
      cam := { fsync := [(0, { period := period, phase := 0, last := some 0 })] } } : State)
    camRuns (rs []) = true ∧ fsyncHigh (at_ 0x80000001 2000 999) 0 = true ∧ fsyncHigh (at_ 0x80000001 2000 1000) 0 = false ∧
      fsyncHigh (at_ 0xC0000001 1000 5000) 0 = false ∧ fsyncHigh (at_ 0x40000001 2000 0) 0 = true ∧
      bits (0x80000001#32).toNat 15 0 * 1000 < 2000 ∧ 1000 ≤ bits (0xC0000001#32).toNat 15 0 * 1000 := by
  decide +kernel

/-- ServiceMessages and FirmwareEvents: changes proposed and countersigned when the free verification accepts every signature and the free
digest is zero, an image of one component whose digest matches, and an ATTEST whose reply fits when the free signature is empty. -/
theorem test_hyp_propose (h : ∀ k m g, Config.falconVerify k m g = true) :
    let p : List Byte := [0, 0, 1, 8] ++ List.replicate 4 0 ++ serial {} ++ [1] ++ List.replicate 7 0 ++ [1] ++ List.replicate 31 0 ++ [7]
    let s : State := { sec := { enrolled := true } }
    s.sec.switch = none ∧ proposeStatus ((Run.start s).popMsg 4).s p = stNeedCountersign := by
  refine ⟨rfl, ?_⟩
  simp only [proposeStatus, signedBy, h]
  decide +kernel

theorem test_hyp_countersign (h : ∀ k m g, Config.falconVerify k m g = true) (d : ∀ b, Config.shake256 b = List.replicate 64 0) :
    let p : List Byte := [0, 0, 2, 0] ++ List.replicate 4 0 ++ serial {} ++ [1] ++ List.replicate 7 0 ++ [1] ++ List.replicate 95 0 ++ [7]
    let held := fun (kind : Nat) => ({ kind := kind, party := 1, ctr := 1, head := [], body := [], at_ := 0 } : Proposal)
    ∀ kind, kind < 9 → let s : State := { sec := { held := some (held kind) } }
      countersignStatus ((Run.start s).popMsg 4).s p 0 = stOk ∧ s.sec.env.storeWrites = true := by
  simp only [countersignStatus, signedBy, h, d]
  decide +kernel

theorem test_hyp_restart (d : ∀ b, Config.shake256 b = List.replicate 64 0xFF) :
    let s : State := {
      regs := [(fwReg 0 4, 0x40000000), (fwReg 4 4, 0)]
      mem := [(flashBase + 0xC, 1), (flashBase + 0xD, 0), (flashBase + 0x10, 0x10), (flashBase + 0x11, 0), (flashBase + 0x12, 0), (flashBase + 0x13, 0)] }
    fwState s 0 = 1 ∧ fwState s 4 = 0 ∧ (compOf s flashBase 0).isSome = true ∧
      ∀ c, compOf s flashBase 0 = some c → c = imgComp s flashBase 0 ∧ compOk s flashBase c = true := by
  intro s
  have e : compOf s flashBase 0 = some (imgComp s flashBase 0) := by decide +kernel
  refine ⟨by decide +kernel, by decide +kernel, by rw [e]; rfl, fun c hc => ?_⟩
  rw [e] at hc
  obtain rfl := Option.some.inj hc
  refine ⟨rfl, ?_⟩
  simp only [compOk, d]
  decide +kernel

theorem test_hyp_attest (h : ∀ m, Config.falconSign m = []) (c : ∀ a b, Config.certPart a b = []) :
    let m := msg 0x0502 (List.replicate 8 0)
    Takes 4 m all (lenIs 32) ∧ replyFits ((Run.start (ms 4 m)).popMsg 4).s ses m
      (attestation ((Run.start (ms 4 m)).popMsg 4).s m.session m.payload).length = true := by
  simp only [attestation, tbsCertificate, h, c]
  decide +kernel

/-! ## The machine as a whole, and single steps worked by hand from the rules -/

/-- What a command leaves. -/
def after (c : Instr) (s : State) : State :=
  match exec c s with
  | .next t => t
  | _ => {}

/-- StepKeepsSound, ResetSound, IdleStepCounts, EncodingAgrees, MemoryBytes, FetchAndIssue: a sound state that steps, words that an
instruction has, a write to the last byte of the vaults and to the boot ROM. -/
theorem test_hyp_machine :
    step State.reset = .next { now := 1 } ∧
    (instrWords (.li hc ⟨5, 0, 0, 0, 0, 0x4000⟩) = some (hc, { w0 := 0xE0500000, w1 := 0x4000, long := true })) ∧
    (readOnly (2 ^ 35 - 1) = false ∧ fencedCarrel {} (2 ^ 35 - 1) = false ∧ ({} : State).isUe (2 ^ 35 - 1) = false ∧
      readOnly 0x017000000000 = true) ∧
    ((∃ r, hartFetch (Run.start up) 0 ((up).hart 0) [0x1000] = .ok r ∧ true = true) ∧
      ∃ r, laneFetch (Run.start gs) (gangX gs (gang 0x1800)) [0x1000, 0x1004] = .ok r ∧ true = true) := by
  refine ⟨rfl, by decide +kernel, by decide +kernel, ok_of _ (fun _ => true) (by decide +kernel),
    ok_of _ (fun _ => true) (by decide +kernel)⟩

/-- A hart with values in g2 and g3. -/
def hv (a b : W64) : State := {
  harts := [(0, { running := true, pc := 0x1000, g := [(2, a), (3, b)] })] }

/-- Register 1 and the program counter of host core 0 after a command. -/
def out1 (c : Instr) (s : State) : W64 × W64 := (((after c s).hart 0).rg 1, ((after c s).hart 0).pc)

abbrev r123 : R3 := ⟨1, 2, 3, 0⟩

/-- R50, R51: SUB on the low words with its result sign-extended, division by zero and of the most negative value, the high half of a
product of unsigned words. -/
theorem test_alu :
    out1 (.sub h0 true r123) (hv 0 1) = (0xFFFFFFFFFFFFFFFF, 0x1004) ∧
    out1 (.div h0 false r123) (hv 7 0) = (0xFFFFFFFFFFFFFFFF, 0x1004) ∧
    out1 (.div h0 false r123) (hv 0x8000000000000000 0xFFFFFFFFFFFFFFFF) = (0x8000000000000000, 0x1004) ∧
    out1 (.rem h0 false r123) (hv (-7) 2) = (-1, 0x1004) ∧
    out1 (.mulhu h0 false r123) (hv 0xFFFFFFFFFFFFFFFF 0xFFFFFFFFFFFFFFFF) = (0xFFFFFFFFFFFFFFFE, 0x1004) ∧
    out1 (.shi h0 ⟨1, 2, 0, 0xBF⟩) (hv 0x8000000000000000 0) = (0xFFFFFFFFFFFFFFFF, 0x1004) ∧
    out1 (.addi h0 ⟨1, 2, 0, 0x7FF⟩) (hv 0 0) = (0xFFFFFFFFFFFFFFFF, 0x1004) := by
  and_intros <;> decide +kernel

/-- R58, R60: a byte load sign-extends; a store writes the least significant byte first; CAS stores only where the old value matches gD. -/
theorem test_memory :
    (let s : State := { hv 0x2000 0 with mem := [(0x2000, 0x80)] }
     out1 (.ldb h0 ⟨1, 2, 0, 0⟩) s = (0xFFFFFFFFFFFFFF80, 0x1004) ∧ out1 (.ldbu h0 ⟨1, 2, 0, 0⟩) s = (0x80, 0x1004) ∧
      (after (.atomCas h0 false 0 r123) s).mem = [(0x2000, 0x80)]) ∧
    (after (.sth h0 ⟨3, 2, 0, 0⟩) (hv 0x2000 0x12345)).mem = [(0x2000, 0x45), (0x2001, 0x23)] ∧
    (after (.atomCas h0 false 0 r123) (hv 0x2000 5)).mem = [(0x2000, 5)] := by
  and_intros <;> decide +kernel

/-- R62: a branch of off21 × 4 bytes, backwards; JR with D = A goes to the old value. -/
theorem test_control :
    ((after (.bra h0 ⟨0, 0x1FFFFF⟩) (hv 0 0)).hart 0).pc = 0xFFC ∧
    (let h := (after (.jr h0 ⟨2, 2, 0, 0⟩) (hv 0x3007 0)).hart 0
     h.pc = 0x3004 ∧ h.rg 2 = 0x1004) := by
  and_intros <;> decide +kernel

/-- R73, R77: UPCALL from Monitor mode saves the pc and goes to entry 64 × class of the trap table. -/
theorem test_upcall :
    let h := (after (.upcall h0 ⟨0, 0, 0, 0⟩) (hv 0 0)).hart 0
    h.trapM.ret = 0x1000 ∧ h.mode = .mon ∧ h.pc = 64 * (Cause.upcallM.cls) := by
  and_intros <;> decide +kernel

/-- R109: TSIG leaves the larger value and gives the old one; TADD stops at 0xFFFF_FFFF. -/
theorem test_tally :
    (let s : State := { hv 0x10005 2 with tallies := [(5, { allocated := true, value := 3 })] }
     out1 (.tsig h0 4 r123) s = (3, 0x1004) ∧ ((after (.tsig h0 4 r123) s).tally 5).value = 3 ∧
      ((after (.tadd h0 4 r123) { s with tallies := [(5, { allocated := true, value := 0xFFFFFFFE })] }).tally 5).value = 0xFFFFFFFF) := by
  and_intros <;> decide +kernel

/-- R63, R65: EXIT ends the enabled threads alone; BALLOT gives the mask of all 64 threads. -/
theorem test_gang :
    (match (after (.exit l0 ⟨0, 0, 0, 0⟩) gs).gang? 0 0 with
      | some x => x.allExited
      | none => false) = true ∧
    (match (after (.ballot l0 ⟨4, 0, 0, 0⟩) gs).gang? 0 0 with
      | some x => (x.thread 63).rg 4 == 0xFFFFFFFF && (x.thread 0).rg 5 == 0xFFFFFFFF
      | none => false) = true := by
  and_intros <;> decide +kernel

end Sys2Proof.Tests
end

section
/-! PROOFS. The hard-wired registers (R41), and the integer, immediate, compare and predicate instructions (R50 to R53). Each group
of the model has one lemma for each profile that says when an encoding is legal and what its instruction then does; a row follows
from the equation of its instruction with its group. -/

namespace Sys2Proof.Machine

/-! ## g0 and p0 (R41) -/

@[simp] theorem Hart.rg_zero (h : Hart) : h.rg 0 = 0 := rfl
@[simp] theorem Hart.wg_zero (h : Hart) (v : W64) : h.wg 0 v = h := rfl
@[simp] theorem Thread.rg_zero (t : Thread) : t.rg 0 = 0 := rfl
@[simp] theorem Thread.wg_zero (t : Thread) (v : W32) : t.wg 0 v = t := rfl
@[simp] theorem Thread.rp_zero (t : Thread) : t.rp 0 = true := rfl
@[simp] theorem Thread.wp_zero (t : Thread) (b : Bool) : t.wp 0 b = t := rfl

/-- A write of a general register leaves the predicates. -/
@[simp] theorem Thread.rp_wg (t : Thread) (n : Nat) (v : W32) (k : Nat) : (t.wg n v).rp k = t.rp k := by
  unfold Thread.wg
  split <;> rfl

/-- In a thread as it is made, p1 to p7 are 0. -/
theorem Thread.rp_fresh (pc : BitVec 48) {n : Nat} (h : n ≠ 0) : ({ pc := pc } : Thread).rp n = false := by
  simp [Thread.rp, h]

/-- The threads of a new gang are 64 copies of one, whose general registers alone have been written. -/
theorem newGang_threads (i : Nat) (p : Parcel) (gi : Nat) (banks : List Nat) :
    ∃ (pc : BitVec 48) (a b c : W32), (newGang i p gi banks).threads =
      List.replicate 64 (((({ pc := pc } : Thread).wg 1 a).wg 2 b).wg 3 c) :=
  ⟨_, _, _, _, rfl⟩

/-- Settles O6: each hard-wired register by its own equation, and the threads of a new gang are copies of one whose predicates
nothing has written. -/
theorem hardwiredRegisters : Obligations.HardwiredRegisters := by
  refine ⟨fun h v => ⟨h.rg_zero, h.wg_zero v⟩,
    fun t v b => ⟨t.rg_zero, t.wg_zero v, t.rp_zero, t.wp_zero b⟩, fun i p gi banks => ?_⟩
  obtain ⟨pc, a, b, c, ht⟩ := newGang_threads i p gi banks
  rw [ht]
  refine ⟨List.length_replicate, fun t hm n h0 _ => ?_⟩
  rw [List.eq_of_mem_replicate hm]
  simp only [Thread.rp_wg]
  exact Thread.rp_fresh pc (by omega)

/-! ## The ALU group (R50) -/

/-- A hart after a row of the ALU group: 64-bit operands, or low words with a sign-extended result. -/
def aluHart (w32 : Bool) (f : R3) (op : (w : Nat) → BitVec w → BitVec w → BitVec w) (h : Hart) : Hart :=
  h.wg f.d (if w32 then (op 32 ((h.rg f.a).truncate 32) ((h.rg f.b).truncate 32)).signExtend 64
    else op 64 (h.rg f.a) (h.rg f.b))

/-- A thread after a row of the ALU group. -/
def aluLane (f : R3) (op : (w : Nat) → BitVec w → BitVec w → BitVec w) (t : Thread) : Thread :=
  t.wg f.d.toNat (op 32 (t.rg f.a.toNat) (t.rg f.b.toNat))

/-- A row of the ALU group is spelt well: B is 0 where it is unused. -/
def aluLegal (unary : Bool) (f : R3) : Bool := !unary || f.b = 0

section
variable {unary : Bool} {op : (w : Nat) → BitVec w → BitVec w → BitVec w}

/-- On a hart a row of the ALU group is legal unless an unused B is not 0. -/
theorem aluGroup_hart (i : Instr) {ag : Agent} (ha : hartOf ag ≠ none) (w32 : Bool) (f : R3) (s : State) :
    aluGroup i ag w32 f unary op s = done (compute (Run.start s) i ag .both (aluLegal unary f) f.guard
      [f.d.toNat, f.a.toNat, f.b.toNat] (fun _ h => .next (aluHart w32 f op h)) fun _ => aluLane f op) := by
  cases ag with
  | lane c g => exact absurd rfl ha
  | _ =>
    have legal : aluLegal unary f = (aluLegal unary f && !(false && w32)) := by simp
    rw [legal]
    rfl

/-- In a lane there is no form with func bit 5 set besides. -/
theorem aluGroup_lane (i : Instr) (c g : Nat) (w32 : Bool) (f : R3) (s : State) :
    aluGroup i (.lane c g) w32 f unary op s = done (compute (Run.start s) i (.lane c g) .both (aluLegal unary f && !w32) f.guard
      [f.d.toNat, f.a.toNat, f.b.toNat] (fun _ h => .next (aluHart w32 f op h)) fun _ => aluLane f op) := rfl

/-- A command that is a row of the ALU group has the results, the illegal forms and the frame of one. -/
theorem aluRow_of_exec {mk : Agent → Bool → R3 → Instr}
    (he : ∀ ag w32 f s, exec (mk ag w32 f) s = aluGroup (mk ag w32 f) ag w32 f unary op s) : AluRow mk unary op := by
  have onHart := fun w32 f s ag (ha : hartOf ag ≠ none) =>
    (he ag w32 f s).trans (aluGroup_hart (mk ag w32 f) ha w32 f s)
  have inLane := fun w32 f s c g => (he (.lane c g) w32 f s).trans (aluGroup_lane (mk (.lane c g) w32 f) c g w32 f s)
  refine ⟨fun w32 f hu => ?_, fun f => ?_, fun w32 f hu hb => ?_⟩
  · have legal : aluLegal unary f = true := by
      cases unary with
      | false => rfl
      | true => simp [aluLegal, hu rfl]
    exact ⟨fun hg => hartResult_compute (onHart w32 f) (by simp [legal, hg]) fun _ _ _ _ _ _ => rfl,
      laneResult_compute (onHart := fun _ _ h => .next (aluHart false f op h)) (inLane false f) (by simp [legal])
        fun _ _ => rfl⟩
  · exact laneIllegal_compute (onHart := fun _ _ h => .next (aluHart true f op h)) (inLane true f) (by simp)
  · have illegal : aluLegal unary f = false := by simp [aluLegal, hu, show ¬ f.b = 0#5 from hb]
    exact ⟨hartIllegal_compute (onHart w32 f) (by simp [illegal]),
      laneIllegal_compute (onHart := fun _ _ h => .next (aluHart w32 f op h)) (inLane w32 f) (by simp [illegal])⟩

/-- A row's result may be written in other words. -/
theorem AluRow.congr {mk : Agent → Bool → R3 → Instr} {op' : (w : Nat) → BitVec w → BitVec w → BitVec w}
    (h : AluRow mk unary op) (e : ∀ w a b, op w a b = op' w a b) : AluRow mk unary op' := by
  obtain rfl : op = op' := by funext w a b; exact e w a b
  exact h

end

/-! ### The order of signed and of unsigned words, as MIN to MAXU choose by it -/

theorem ite_slt {w : Nat} (a b x y : BitVec w) : (if a.slt b then x else y) = if a.toInt < b.toInt then x else y := by
  simp only [BitVec.slt, decide_eq_true_eq]

theorem ite_ult {w : Nat} (a b x y : BitVec w) : (if a.ult b then x else y) = if a.toNat < b.toNat then x else y := by
  simp only [BitVec.ult, decide_eq_true_eq]

/-! ### The count of leading zeros -/

/-- The count of leading zeros of 0 is the width. -/
theorem toNat_leadingZeros_zero (w : Nat) : (leadingZeros (0 : BitVec w)).toNat = w := by
  simp [leadingZeros, Nat.mod_eq_of_lt Nat.lt_two_pow_self]

/-- The top bit that is set stands within the width. -/
theorem log2_toNat_lt {w : Nat} {a : BitVec w} (ha : a ≠ 0) : Nat.log2 a.toNat < w :=
  (Nat.log2_lt fun h => ha (BitVec.eq_of_toNat_eq h)).mpr a.isLt

/-- The count of leading zeros of another word is what stands above its top bit that is set. -/
theorem toNat_leadingZeros {w : Nat} {a : BitVec w} (ha : a ≠ 0) : (leadingZeros a).toNat = w - 1 - Nat.log2 a.toNat := by
  have : w < 2 ^ w := Nat.lt_two_pow_self
  rw [leadingZeros, if_neg ha, BitVec.toNat_ofNat, Nat.mod_eq_of_lt (by omega)]

/-- The bits above the count of leading zeros are clear. -/
theorem getMsbD_of_lt_leadingZeros {w : Nat} (a : BitVec w) {k : Nat} (hk : k < (leadingZeros a).toNat) :
    a.getMsbD k = false := by
  by_cases ha : a = 0
  · simp [ha]
  · have := log2_toNat_lt ha
    rw [toNat_leadingZeros ha] at hk
    have above : a.getLsbD (w - 1 - k) = false :=
      Nat.testBit_lt_two_pow <| (Nat.log2_lt fun h => ha (BitVec.eq_of_toNat_eq h)).mp (by omega)
    rw [BitVec.getMsbD, above, Bool.and_false]

/-- The bit at the count of leading zeros is set, where there is one. -/
theorem getMsbD_leadingZeros {w : Nat} (a : BitVec w) (h : (leadingZeros a).toNat < w) :
    a.getMsbD (leadingZeros a).toNat = true := by
  have ha : a ≠ 0 := by
    rintro rfl
    exact absurd h (by rw [toNat_leadingZeros_zero]; omega)
  have hl := log2_toNat_lt ha
  have top : a.getLsbD (Nat.log2 a.toNat) = true := Nat.testBit_log2 fun h => ha (BitVec.eq_of_toNat_eq h)
  rw [BitVec.getMsbD, toNat_leadingZeros ha, show w - 1 - (w - 1 - Nat.log2 a.toNat) = Nat.log2 a.toNat by omega, top,
    Bool.and_true, decide_eq_true_eq]
  omega

/-- Settles O8: every row by its equation with the ALU group, ADDP by its own of the lane profile, and CLZ's count by the place of
the top bit that is set. MIN to MAXU choose by the library's orders of words, which the statement spells by the values. -/
theorem aluInstructions : Obligations.AluInstructions := by
  refine ⟨⟨aluRow_of_exec fun _ _ _ _ => rfl, aluRow_of_exec fun _ _ _ _ => rfl, aluRow_of_exec fun _ _ _ _ => rfl,
    aluRow_of_exec fun _ _ _ _ => rfl, aluRow_of_exec fun _ _ _ _ => rfl, aluRow_of_exec fun _ _ _ _ => rfl,
    aluRow_of_exec fun _ _ _ _ => rfl, aluRow_of_exec fun _ _ _ _ => rfl, aluRow_of_exec fun _ _ _ _ => rfl,
    aluRow_of_exec fun _ _ _ _ => rfl, aluRow_of_exec fun _ _ _ _ => rfl, aluRow_of_exec fun _ _ _ _ => rfl,
    aluRow_of_exec fun _ _ _ _ => rfl, aluRow_of_exec fun _ _ _ _ => rfl, aluRow_of_exec fun _ _ _ _ => rfl,
    (aluRow_of_exec fun _ _ _ _ => rfl).congr fun _ a b => ite_slt a b a b,
    (aluRow_of_exec fun _ _ _ _ => rfl).congr fun _ a b => ite_ult a b a b,
    (aluRow_of_exec fun _ _ _ _ => rfl).congr fun _ a b => ite_slt a b b a,
    (aluRow_of_exec fun _ _ _ _ => rfl).congr fun _ a b => ite_ult a b b a,
    aluRow_of_exec fun _ _ _ _ => rfl, aluRow_of_exec fun _ _ _ _ => rfl,
    fun f hd ha => ?_, fun w32 f => ?_, fun f => ?_⟩, fun w _ a =>
      ⟨fun _ => getMsbD_of_lt_leadingZeros a, getMsbD_leadingZeros a, toNat_leadingZeros_zero w⟩⟩
  · exact laneResult_compute (onHart := fun _ _ _ => .stall) (fun _ _ _ => rfl) (by simp [pairOk, hd, ha]) fun _ _ => rfl
  · exact hartIllegal_compute (fun _ _ _ => rfl) (by simp)
  · exact laneIllegal_compute (onHart := fun _ _ _ => .stall) (fun _ _ _ => rfl) (by simp)

/-! ## The immediate forms (R51) -/

section
variable {mk : Agent → Instr} {legal : Bool} {guard : BitVec 4} {d a : BitVec 5} {op : (w : Nat) → BitVec w → BitVec w}

/-- A command that is an immediate form, spelt legally, has the result of one in both profiles. -/
theorem immRow_of_exec (he : ∀ ag s, exec (mk ag) s = immGroup (mk ag) ag legal guard d a op s) (hl : legal = true) :
    ImmRow mk guard d a op :=
  ⟨fun hg => hartResult_compute (fun s ag _ => he ag s) (by simp [hl, hg]) fun _ _ _ _ _ _ => rfl,
    laneResult_compute (onHart := fun _ _ h => .next (h.wg d (op 64 (h.rg a)))) (fun s c g => he (.lane c g) s)
      (by simp [hl]) fun _ _ => rfl⟩

/-- An immediate form that is not spelt legally is illegal in both profiles. -/
theorem immIllegal_of_exec (he : ∀ ag s, exec (mk ag) s = immGroup (mk ag) ag legal guard d a op s) (hl : legal = false) :
    HartIllegal mk ∧ LaneIllegal mk :=
  ⟨hartIllegal_compute (fun s ag _ => he ag s) (by simp [hl]),
    laneIllegal_compute (onHart := fun _ _ h => .next (h.wg d (op 64 (h.rg a)))) (fun s c g => he (.lane c g) s)
      (by simp [hl])⟩

end

/-! ### The shift of SHI by its kind, imm11[7:6] -/

theorem shiftImm_left {imm : BitVec 11} (h : bits imm.toNat 7 6 = 0) :
    shiftImm imm = fun w (a : BitVec w) => a <<< (bits imm.toNat 5 0 % w) := by
  funext w a; simp only [shiftImm, h]

theorem shiftImm_right {imm : BitVec 11} (h : bits imm.toNat 7 6 = 1) :
    shiftImm imm = fun w (a : BitVec w) => a >>> (bits imm.toNat 5 0 % w) := by
  funext w a; simp only [shiftImm, h]

theorem shiftImm_arith {imm : BitVec 11} (h : bits imm.toNat 7 6 = 2) :
    shiftImm imm = fun w (a : BitVec w) => a.sshiftRight (bits imm.toNat 5 0 % w) := by
  funext w a; simp only [shiftImm, h]

/-- SHI with a kind that exists and its reserved bits 0 gives the shift of its kind. -/
theorem immRow_shi (f : I3) (hr : bits f.imm.toNat 10 8 = 0) (hk : bits f.imm.toNat 7 6 ≠ 3)
    {op : (w : Nat) → BitVec w → BitVec w} (ho : shiftImm f.imm = op) :
    ImmRow (fun ag => .shi ag f) f.guard f.d f.a op := by
  subst ho
  exact immRow_of_exec (fun _ _ => rfl) (by simp [hr, hk])

/-! ### Quotients and remainders at their corners -/

/-- The most negative value divided by -1 leaves no remainder (R51). -/
theorem srem_intMin_allOnes {w : Nat} (hw : 0 < w) : (BitVec.intMin w).srem (BitVec.allOnes w) = 0 := by
  apply BitVec.eq_of_toInt_eq
  rw [BitVec.toInt_srem, BitVec.toInt_allOnes, if_pos hw]
  simp

/-- The fixed quotients and remainders of R51. -/
theorem quotients_at_corners {w : Nat} (hw : 0 < w) (a : BitVec w) :
    divS a 0 = BitVec.allOnes w ∧ divU a 0 = BitVec.allOnes w ∧ remS a 0 = a ∧ remU a 0 = a ∧
      divS (BitVec.intMin w) (BitVec.allOnes w) = BitVec.intMin w ∧ remS (BitVec.intMin w) (BitVec.allOnes w) = 0 := by
  have divisor : BitVec.allOnes w ≠ 0 := mt BitVec.allOnes_eq_zero_iff.mp hw.ne'
  refine ⟨if_pos rfl, if_pos rfl, if_pos rfl, if_pos rfl, ?_, ?_⟩
  · rw [divS, if_neg divisor, ← BitVec.neg_one_eq_allOnes, BitVec.intMin_sdiv_neg_one]
  · rw [remS, if_neg divisor, srem_intMin_allOnes hw]

/-- Settles O9: the immediate forms by their equations with their group, SHI by the kind of its shift, and the corners by the
signed quotient and remainder of the library. -/
theorem immediateInstructions : Obligations.ImmediateInstructions := by
  refine ⟨⟨aluRow_of_exec fun _ _ _ _ => rfl, aluRow_of_exec fun _ _ _ _ => rfl, aluRow_of_exec fun _ _ _ _ => rfl,
    aluRow_of_exec fun _ _ _ _ => rfl, fun w hw a => quotients_at_corners hw a⟩,
    fun f => immRow_of_exec (fun _ _ => rfl) rfl, fun f => immRow_of_exec (fun _ _ => rfl) rfl,
    fun f => immRow_of_exec (fun _ _ => rfl) rfl, fun f => immRow_of_exec (fun _ _ => rfl) rfl,
    fun f hr => ⟨fun hk => immRow_shi f hr (by omega) (shiftImm_left hk),
      fun hk => immRow_shi f hr (by omega) (shiftImm_right hk), fun hk => immRow_shi f hr (by omega) (shiftImm_arith hk)⟩,
    fun f hk => immIllegal_of_exec (fun _ _ => rfl) ?_,
    fun f ha hb hf => immRow_of_exec (fun _ _ => rfl) (by simp [ha, hb, hf]),
    fun f hb hf => immRow_of_exec (fun _ _ => rfl) (by simp [hb, hf])⟩
  rcases hk with hr | hk
  · simp [hr]
  · simp [hk]

/-! ## CMP (R52) -/

/-- A truth value as a word is 1 or 0. -/
theorem ofNat_b2n (w : Nat) (b : Bool) : BitVec.ofNat w (b2n b) = if b then 1 else 0 := by cases b <;> rfl

/-- What CMP ends in on a hart. -/
def cmpHart (func : BitVec 6) (f : R3) (ag : Agent) (fw : Bool) (h : Hart) : HEnd :=
  if condIsFp func.toNat then
    if fw || !h.fpen then .trap .fpDisabled (wordsOf (.cmp ag func f)).w0.toNat
    else .next ((h.wg f.d (BitVec.ofNat 64 (b2n (Fp.fcmp func.toNat (h.rf f.a) (h.rf f.b)).1))).addFlags
      (Fp.fcmp func.toNat (h.rf f.a) (h.rf f.b)).2)
  else .next (h.wg f.d (BitVec.ofNat 64 (b2n (intCond func.toNat (h.rg f.a) (h.rg f.b)))))

/-- A thread after CMP. -/
def cmpLane (func : BitVec 6) (f : R3) (t : Thread) : Thread :=
  t.wp f.d.toNat (if condIsFp func.toNat then (Fp.fcmp func.toNat (t.rg f.a.toNat) (t.rg f.b.toNat)).1
    else intCond func.toNat (t.rg f.a.toNat) (t.rg f.b.toNat))

/-- On a hart CMP is legal where its condition exists. -/
theorem execCmp_hart (func : BitVec 6) (f : R3) (s : State) (ag : Agent) (ha : hartOf ag ≠ none) :
    exec (.cmp ag func f) s = done (compute (Run.start s) (.cmp ag func f) ag .both (condOk func) f.guard
      [f.a.toNat, f.b.toNat] (cmpHart func f ag) fun _ => cmpLane func f) := by
  cases ag with
  | lane c g => exact absurd rfl ha
  | _ =>
    have legal : condOk func = (condOk func && !(false && decide (f.d.toNat ≥ 8))) := by simp
    rw [legal]
    rfl

/-- In a lane it names a predicate besides. -/
theorem execCmp_lane (func : BitVec 6) (f : R3) (s : State) (c g : Nat) :
    exec (.cmp (.lane c g) func f) s = done (compute (Run.start s) (.cmp (.lane c g) func f) (.lane c g) .both
      (condOk func && !decide (f.d.toNat ≥ 8)) f.guard [f.a.toNat, f.b.toNat] (cmpHart func f (.lane c g))
      fun _ => cmpLane func f) := rfl

/-- CMP in a lane under a condition that exists, into a predicate. -/
theorem laneResult_cmp {func : BitVec 6} {f : R3} {out : Thread → Thread} (hc : condOk func = true) (hd : f.d.toNat < 8)
    (ho : ∀ t, cmpLane func f t = out t) :
    LaneResult (fun ag => .cmp ag func f) [f.a.toNat, f.b.toNat] f.guard out :=
  laneResult_compute (execCmp_lane func f) (by simp [hc, hd]) fun _ t => ho t

/-- An integer condition, by what it says of two words. -/
theorem cmpRow_of_intCond {func : BitVec 6} {rel : (w : Nat) → BitVec w → BitVec w → Bool} (hc : func.toNat ≤ 5)
    (hr : ∀ w (a b : BitVec w), intCond func.toNat a b = rel w a b) : CmpRow func rel := by
  have legal : condOk func = true := by simp [condOk, hc]
  have isInt : condIsFp func.toNat = false := by simp [condIsFp]; omega
  intro f
  refine ⟨fun hg => hartResult_compute (execCmp_hart func f) (by simp [legal, hg]) fun ag key h w _ _ => ?_,
    fun hd => laneResult_cmp legal hd fun t => ?_⟩
  · simp only [cmpHart, isInt, hr, ofNat_b2n, Bool.false_eq_true, if_false]
  · simp only [cmpLane, isInt, hr, Bool.false_eq_true, if_false]

/-- An FP32 condition. -/
theorem fcmpRow_of_condIsFp {func : BitVec 6} (isFp : condIsFp func.toNat = true) : FcmpRow func := by
  have legal : condOk func = true := by simp [condOk, isFp]
  intro f
  refine ⟨fun hg => hartResult_compute (execCmp_hart func f) (by simp [legal, hg]) fun ag key h w ha hok => ?_,
    fun hd => laneResult_cmp legal hd fun t => ?_⟩
  · obtain ⟨hfw, hen⟩ := fpHart_isFw ha hok
    have hen' : (h.issued w).fpen = true := hen
    simp [cmpHart, isFp, hfw, hen', ofNat_b2n]
  · simp only [cmpLane, isFp, if_true]

/-- An FP32 condition on a hart without floating point. -/
theorem hartTraps_cmp {func : BitVec 6} (f : R3) (isFp : condIsFp func.toNat = true) (hg : f.guard = 0) :
    HartTraps (fun ag => .cmp ag func f) noFpHart (fun _ => .fpDisabled)
      fun _ => (wordsOf (.cmp (.host 0) func f)).w0.toNat := by
  refine hartTraps_compute (execCmp_hart func f) (by simp [condOk, isFp, hg]) fun ag key h w ha hok => ?_
  have off : (isFw key || !(h.issued w).fpen) = true := fw_fpen ha hok
  simp only [cmpHart, isFp, off, if_true]
  rfl

/-! ### FP32 conditions on a NaN -/

/-- An FP32 code is a NaN where its exponent is all ones and its fraction, the part below 2^23, is not 0. -/
theorem isNan_value_fp32 (n : Nat) :
    (Fp.fp32.value n).isNan = decide (bits n 30 23 = 255 ∧ bits n 22 0 ≠ 0) := by
  by_cases he : n / 8388608 % 256 = 255
  · by_cases hm : n % 8388608 = 0 <;> simp [Fp.Format.value, Fp.fp32, bits, he, hm, Fp.Val.isNan]
  · by_cases hz : n / 8388608 % 256 = 0 <;> simp [Fp.Format.value, Fp.fp32, bits, he, hz, Fp.Val.isNan]

/-- FEQ, FLT and FLE are false with a NaN. -/
theorem fcmp_nan {cond : Nat} {a b : W32} (hc : cond = 8 ∨ cond = 9 ∨ cond = 10)
    (h : ((Fp.fp32.value a.toNat).isNan || (Fp.fp32.value b.toNat).isNan) = true) : (Fp.fcmp cond a b).1 = false := by
  rcases hc with rfl | rfl | rfl <;> simp [Fp.fcmp, h]

/-! ## The PRED group (R53) -/

/-- A command that is a row of the PRED group, whose legal spelling is the one stated. -/
theorem predRow_of_exec {mk : Agent → R3 → Instr} {legal : R3 → Bool} {ok : R3 → Prop} {regs : R3 → List Nat}
    {op op' : R3 → Thread → Thread}
    (he : ∀ ag f s, exec (mk ag f) s = predGroup (mk ag f) ag (legal f) f.guard (regs f) (op f) s)
    (hl : ∀ f, legal f = true ↔ ok f) (ho : ∀ f t, op f t = op' f t) : PredRow mk ok regs op' := fun f =>
  ⟨fun hok => laneResult_compute (onHart := fun _ _ _ => .stall) (fun s c g => he (.lane c g) f s) (by simp [(hl f).mpr hok])
      fun _ t => ho f t,
    fun hok => laneIllegal_compute (onHart := fun _ _ _ => .stall) (fun s c g => he (.lane c g) f s)
      (by simp [mt (hl f).mp hok]),
    hartIllegal_compute (fun s ag _ => he ag f s) (by simp)⟩

/-! ## Predicate fields of the XLANE group (R53) -/

/-- An illegal encoding takes ILLEGAL_INSTR in every active thread. -/
theorem OnLane.illegal {s : State} {c g : Nat} {w : Words} {x : Gang} {r : Run s} (h : OnLane s c g w [] [] x r)
    (guard : BitVec 4) (regs tds : List Nat) (body : LCtx → Gang → Run s → Run s × LEnd) :
    laneIssue (Run.start s) c g w false guard regs tds body =
      faultLanes (Run.start s) c g (x.minPc.getD 0) (x.active.map fun l => (l, .illegal, w.w0.toNat)) := by
  unfold laneIssue
  simp only [Run.start_s, h.gang, h.ready, h.turn, h.fetched]
  simp

/-- A command of the XLANE group that is not spelt legally is illegal in a lane. -/
theorem xlaneIllegal_of_exec {mk : Agent → Instr} {legal : Bool} {guard : BitVec 4} {regs : List Nat}
    {write : LCtx → Gang → Nat → Thread → Thread}
    (he : ∀ ag s, exec (mk ag) s = xlaneGroup (mk ag) ag legal guard regs write s) (hl : legal = false) : LaneIllegal mk := by
  subst hl
  intro s c g x r h
  rw [he]
  simp only [xlaneGroup, done_next h.up, h.illegal]

/-- The predicate fields of CMP, BALLOT, ANY and ALL. -/
theorem laneIllegal_predicateFields :
    (∀ (func : BitVec 6) (f : R3), 8 ≤ f.d.toNat → LaneIllegal (fun ag => .cmp ag func f)) ∧
      (∀ f : R3, 8 ≤ f.a.toNat →
        LaneIllegal (fun ag => .ballot ag f) ∧ LaneIllegal (fun ag => .any ag f) ∧ LaneIllegal (fun ag => .all ag f)) ∧
      (∀ f : R3, 8 ≤ f.d.toNat → LaneIllegal (fun ag => .any ag f) ∧ LaneIllegal (fun ag => .all ag f)) := by
  refine ⟨fun func f hd => laneIllegal_compute (execCmp_lane func f) (by simp [hd]), fun f ha => ?_, fun f hd => ?_⟩
  · have ha' : ¬ f.a.toNat < 8 := Nat.not_lt.mpr ha
    exact ⟨xlaneIllegal_of_exec (fun _ _ => rfl) (by simp [ha']), xlaneIllegal_of_exec (fun _ _ => rfl) (by simp [ha']),
      xlaneIllegal_of_exec (fun _ _ => rfl) (by simp [ha'])⟩
  · have hd' : ¬ f.d.toNat < 8 := Nat.not_lt.mpr hd
    exact ⟨xlaneIllegal_of_exec (fun _ _ => rfl) (by simp [hd']), xlaneIllegal_of_exec (fun _ _ => rfl) (by simp [hd'])⟩

/-- A condition that CMP does not have is illegal in both profiles. -/
theorem illegal_cmp {func : BitVec 6} (f : R3) (hc : condOk func = false) :
    HartIllegal (fun ag => .cmp ag func f) ∧ LaneIllegal (fun ag => .cmp ag func f) :=
  ⟨hartIllegal_compute (execCmp_hart func f) (by simp [hc]), laneIllegal_compute (execCmp_lane func f) (by simp [hc])⟩

/-- Settles O10: CMP by what each condition says of its operands, a NaN by the fields of its code, and the PRED group by its
equation. -/
theorem compareInstructions : Obligations.CompareInstructions := by
  refine ⟨⟨cmpRow_of_intCond (by decide) fun _ _ _ => rfl, cmpRow_of_intCond (by decide) fun _ a b => ?ne,
    cmpRow_of_intCond (by decide) fun _ _ _ => rfl, cmpRow_of_intCond (by decide) fun _ a b => ?ge,
    cmpRow_of_intCond (by decide) fun _ _ _ => rfl, cmpRow_of_intCond (by decide) fun _ a b => ?geu,
    fcmpRow_of_condIsFp rfl, fcmpRow_of_condIsFp rfl, fcmpRow_of_condIsFp rfl, fcmpRow_of_condIsFp rfl,
    fun func f isFp hg => hartTraps_cmp f isFp hg, fun func f hc => illegal_cmp f ?reserved, fun a b => ?nan⟩,
    laneIllegal_predicateFields, ?pred⟩
  case ne => exact decide_not.symm
  case ge => exact decide_not.symm.trans (decide_eq_decide.mpr Int.not_lt)
  case geu => exact decide_not.symm.trans (decide_eq_decide.mpr Nat.not_lt)
  case reserved => simpa [condOk, condIsFp] using hc
  case nan =>
    intro nan
    have isNan : ∀ w : W32, nan w = (Fp.fp32.value w.toNat).isNan := fun w => (isNan_value_fp32 w.toNat).symm
    simp only [isNan]
    exact ⟨rfl, fun h => ⟨fcmp_nan (by decide) h, fcmp_nan (by decide) h, fcmp_nan (by decide) h⟩⟩
  case pred =>
    intro p3
    have legal : ∀ f, pred3 f = true ↔ p3 f := fun f => by simp [pred3, p3, and_assoc]
    refine ⟨predRow_of_exec (fun _ _ _ => rfl) legal fun _ _ => rfl, predRow_of_exec (fun _ _ _ => rfl) legal fun _ _ => rfl,
      predRow_of_exec (fun _ _ _ => rfl) legal fun _ _ => rfl, predRow_of_exec (fun _ _ _ => rfl) legal fun _ _ => rfl,
      predRow_of_exec (fun _ _ _ => rfl) (fun f => ?_) fun _ _ => rfl,
      predRow_of_exec (fun _ _ _ => rfl) (fun f => by simp) fun f t => by rw [ofNat_b2n],
      predRow_of_exec (fun _ _ _ => rfl) (fun f => by simp) fun f t => ?_⟩
    · simp only [pred3, Bool.and_eq_true, decide_eq_true_eq]
      exact ⟨fun ⟨⟨⟨hd, ha⟩, _⟩, hb⟩ => ⟨hd, ha, hb⟩, fun ⟨hd, ha, hb⟩ => ⟨⟨⟨hd, ha⟩, by simp [hb]⟩, hb⟩⟩
    · exact congrArg (t.wp f.d.toNat) decide_not.symm

end Sys2Proof.Machine
end

section
/-! PROOFS. The machine as a whole: a step and its idle form, the state invariant, the queue of commands and fabric time. -/

namespace Sys2Proof.SMap

variable {α : Type}

/-- Removing a key leaves what another key is listed with, in any list. -/
theorem find?_erase_ne (m : SMap α) {key j : Nat} (h : j ≠ key) : find? (erase m key) j = find? m j := by
  induction m with
  | nil => rfl
  | cons c m ih =>
    obtain ⟨k, v⟩ := c
    unfold erase
    split
    · next hk => simp [find?, hk, Ne.symm h]
    · simp only [find?, ih]

/-- A write leaves what another key reads as, in any list. -/
theorem get_set_ne [DecidableEq α] (m : SMap α) (d x e : α) {key j : Nat} (h : j ≠ key) :
    get e (set d m key x) j = get e m j := by
  unfold get set
  split
  · rw [find?_erase_ne m h]
  · rw [find?_insert, if_neg h]

end Sys2Proof.SMap

namespace Sys2Proof.Machine

/-! ## Runs that change registers in effect alone -/

/-- Only registers in effect differ, and only those of the keys given. -/
structure RegsOnly (K : Nat → Prop) (s t : State) : Prop where
  rest : t = { s with regs := t.regs }
  same : ∀ k, ¬ K k → t.reg k = s.reg k

namespace RegsOnly

variable {K L : Nat → Prop} {s t u : State}

theorem refl (s : State) : RegsOnly K s s := ⟨rfl, fun _ _ => rfl⟩

theorem trans (h : RegsOnly K s t) (g : RegsOnly K t u) : RegsOnly K s u := by
  refine ⟨?_, fun k hk => (g.same k hk).trans (h.same k hk)⟩
  have a := h.rest
  have b := g.rest
  rw [a] at b
  exact b

theorem mono (h : RegsOnly K s t) (hk : ∀ k, K k → L k) : RegsOnly L s t :=
  ⟨h.rest, fun k hl => h.same k (mt (hk k) hl)⟩

/-- A register that is set, whatever the state. -/
theorem reg {k : Nat} (hk : K k) (v : W32) (s : State) : RegsOnly K s (Upd.apply (.reg k v) s) := by
  refine ⟨rfl, fun j hj => ?_⟩
  have : j ≠ k := fun h => hj (h ▸ hk)
  simp only [State.reg, Upd.apply_regs]
  exact SMap.get_set_ne _ _ _ _ this

section
variable {z : State} {r : Run z}

theorem setRegN (h : RegsOnly K s r.s) {k : Nat} (hk : K k) (v : Nat) : RegsOnly K s (r.setRegN k v).s :=
  h.trans (reg hk _ _)

theorem setFld (h : RegsOnly K s r.s) {k : Nat} (hk : K k) (hi lo v : Nat) : RegsOnly K s (r.setFld k hi lo v).s :=
  h.setRegN hk _

theorem bump (h : RegsOnly K s r.s) {k : Nat} (hk : K k) (n : Nat) : RegsOnly K s (r.bump k n).s :=
  h.setRegN hk _

theorem when (h : RegsOnly K s r.s) (c : Bool) {f : Run z → Run z} (hf : RegsOnly K s r.s → RegsOnly K s (f r).s) :
    RegsOnly K s (r.when c f).s := by
  cases c with
  | false => exact h
  | true => exact hf h

theorem each {α : Type} {l : List α} {f : α → Run z → Run z} (h : RegsOnly K s r.s)
    (hf : ∀ a ∈ l, ∀ r : Run z, RegsOnly K s r.s → RegsOnly K s (f a r).s) : RegsOnly K s (r.each l f).s := by
  induction l generalizing r with
  | nil => exact h
  | cons a l ih => exact ih (hf a (.head _) r h) fun b hb => hf b (.tail _ hb)

end

end RegsOnly

/-! ## Steps -/

/-- Settles O1: a step on a queue that is not empty is the command at its front. -/
theorem stepRunsFront : Obligations.StepRunsFront := fun _ _ _ => rfl

/-- The counters that an idle step may change: those of cores, and those of the windows of a list. -/
def IdleCounter (ws : List Nat) (k : Nat) : Prop :=
  (∃ c, c < 192 ∧ (k = coreReg c 0x08C ∨ k = coreReg c 0x090 ∨ k = coreReg c 0x094)) ∨
    ∃ n ∈ ws, k = vltReg (0x818 + 0x20 * n) ∨ k = vltReg (0x81C + 0x20 * n)

section
variable {z : State} {s : State} {ws : List Nat} {r : Run z}

theorem RegsOnly.countStalls (h : RegsOnly (IdleCounter ws) s r.s) {core : Nat} (hc : core < 192) (t : Nat) :
    RegsOnly (IdleCounter ws) s (r.countStalls core t).s := by
  unfold Run.countStalls
  refine RegsOnly.when (RegsOnly.when (RegsOnly.when h _ fun h => ?_) _ fun h => ?_) _ fun h => ?_
  · exact h.bump (.inl ⟨core, hc, .inl rfl⟩) _
  · exact h.bump (.inl ⟨core, hc, .inr (.inl rfl)⟩) _
  · exact h.bump (.inl ⟨core, hc, .inr (.inr rfl)⟩) _

theorem RegsOnly.countWindow (h : RegsOnly (IdleCounter ws) s r.s) {n : Nat} (hn : n ∈ ws) (w : Window) (t : Nat) :
    RegsOnly (IdleCounter ws) s (r.countWindow n w t).s := by
  unfold Run.countWindow
  refine RegsOnly.when (RegsOnly.when h _ fun h => ?_) _ fun h => ?_
  · exact h.bump (.inr ⟨n, hn, .inl rfl⟩) _
  · exact h.bump (.inr ⟨n, hn, .inr rfl⟩) _

end

/-- What an idle step is: time to its tick, after counters that run only in a device that is up and awake. -/
theorem idle_cases (s : State) : ∃ r : Run s, (Run.start s).idle = r.setNow s.tick ∧
    RegsOnly (IdleCounter (s.vault.windows.map Prod.fst)) s r.s ∧ (s.halted = true ∨ awake s = false → r = Run.start s) := by
  refine ⟨_, rfl, ?_, fun h => ?_⟩
  · dsimp only
    split
    · exact .refl s
    · have hcores : RegsOnly (IdleCounter (s.vault.windows.map Prod.fst)) s ((Run.start s).each
          ((List.range 192).filter fun c => (SMap.find? s.cores c).isSome || s.gangs.any fun kg => kg.1 / 128 = c)
          fun core r => r.countStalls core s.tick).s := by
        refine RegsOnly.each (.refl s) fun c hc r h => h.countStalls ?_ _
        exact List.mem_range.mp (List.mem_filter.mp hc).1
      refine RegsOnly.when hcores _ fun h => RegsOnly.each h fun w hw r h => h.countWindow ?_ _ _
      refine List.mem_map_of_mem ?_
      rwa [hcores.rest] at hw
  · refine if_pos ?_
    rcases h with h | h <;> simp [h]

/-- The tick of RUN and IDLE, of SLEEP and DEEP_SLEEP, and of OFF. -/
theorem tick_run {s : State} (h : powerState s ≤ 1) : s.tick = s.now + 1 := by
  unfold State.tick
  split <;> first | rfl | omega

theorem tick_off {s : State} (h : powerState s = 4) : s.tick = s.now := by
  unfold State.tick
  simp only [h]

theorem tick_sleep {s : State} (h : powerState s = 2 ∨ powerState s = 3) :
    s.tick = ((s.now + 1) * 24 + 624) / 625 * 625 / 24 := by
  unfold State.tick
  rcases h with h | h <;> simp only [h]

/-- Settles O2: the tick of each power state by its crystal step, and the counters by the frame of the idle step. -/
theorem idleStepCounts : Obligations.IdleStepCounts := by
  intro s hp
  obtain ⟨r, hr, hregs, hstill⟩ := idle_cases s
  have hnow : r.s.now = s.now := by rw [hregs.rest]
  have htick : (r.setNow s.tick).s.now = max s.now s.tick := by
    rw [Run.setNow_s, Upd.apply_now, hnow]
  refine ⟨(r.setNow s.tick).s, by simp only [step, hp, hr], fun h => ?_, fun h => ?_, fun h => ?_, fun k hc hw => ?_,
    fun h => ?_, ?_⟩
  · rw [htick, tick_run h]; omega
  · rw [htick, tick_off h, Nat.max_self]
  · rw [htick, tick_sleep h]
    refine ⟨by omega, by omega, fun k hk => ?_⟩
    have hstep : ((s.now + 1) * 24 + 624) / 625 = k + 1 := by omega
    rw [hstep, Nat.mul_comm]
    omega
  · have : ¬ IdleCounter (s.vault.windows.map Prod.fst) k := by
      rintro (⟨c, hlt, h⟩ | ⟨n, hn, h⟩)
      · obtain ⟨h1, h2, h3⟩ := hc c hlt
        exact h.elim h1 fun h => h.elim h2 h3
      · obtain ⟨h1, h2⟩ := hw n hn
        exact h.elim h1 h2
    exact hregs.same k this
  · have : s.halted = true ∨ awake s = false := h.imp_right fun h => by simp [awake]; omega
    rw [hstill this]
    rfl
  · have h := hregs.rest
    calc (r.setNow s.tick).s = { r.s with now := (r.setNow s.tick).s.now } := rfl
      _ = { s with now := (r.setNow s.tick).s.now, regs := r.s.regs } := by rw [h]

/-! ## The invariant, the queue and time -/

/-- Settles O3: every map is empty. -/
theorem resetSound : Obligations.ResetSound :=
  ⟨rfl, ⟨rfl, rfl, rfl⟩, ⟨rfl, rfl, rfl, rfl⟩, fun _ h => absurd h List.not_mem_nil⟩

/-- What a start of the device keeps of memory, SLEEP does not lose: the boot ROM, the flashes and the archive. -/
theorem sleepLoses_of_readOnly {a : Nat} (h : readOnly a = true) : sleepLoses a = false := by
  unfold readOnly inFlash at h
  unfold sleepLoses
  simp only [Bool.or_eq_true, Bool.and_eq_true, decide_eq_true_eq] at h
  simp only [Bool.or_eq_false_iff, Bool.and_eq_false_iff, decide_eq_false_iff_not]
  omega

theorem sleepLoses_of_archive {a : Nat} (h : archBase ≤ a) : sleepLoses a = false := by
  unfold archBase at h
  unfold sleepLoses
  simp only [Bool.or_eq_false_iff, Bool.and_eq_false_iff, decide_eq_false_iff_not]
  omega

/-- A start of the device from a sound state begins in a sound one. -/
theorem bootBase_sound {s : State} (h : s.Sound) (env : BootEnv) (now : Nat) (island : Bool) :
    (bootBase s env now island).Sound := by
  refine ⟨?_, ⟨rfl, rfl, rfl⟩, ⟨rfl, rfl, rfl, rfl⟩, fun _ h => absurd h List.not_mem_nil⟩
  have hf := (SMap.wf_iff _ _).mp (SMap.wf_filter h.mem fun c =>
    (nonvolatile c.1 && !(decide (flashBase ≤ c.1) && decide (c.1 < flashBase + (match s.fw.update with
      | some u => if u.written then 0 else u.len
      | none => 0)))) || (island && decide (archBase ≤ c.1) && decide (c.1 < archBase + 524288)))
  refine (SMap.wf_iff _ _).mpr ⟨hf.1, fun c hc => ?_⟩
  have stays : sleepLoses c.1 = false := by
    have hk := (List.mem_filter.mp hc).2
    simp only [Bool.or_eq_true, Bool.and_eq_true, decide_eq_true_eq] at hk
    rcases hk with hk | hk
    · exact sleepLoses_of_readOnly hk.1
    · exact sleepLoses_of_archive hk.1.2
  rw [memDefault_kept stays _ s.lost]
  exact hf.2 c hc

/-- Every command answers a next state, at the end of a run: from its own state, or from the start of the device. -/
theorem exec_reaches (c : Instr) (s : State) : ∃ b t, exec c s = .next t ∧ Reach b t ∧ b.pending = s.pending ∧
    (s.Sound → b.Sound) ∧ (¬ Reboots c → b = s) := by
  by_cases hb : Reboots c
  case neg =>
    obtain ⟨t, he, hr⟩ := (exec_fromRun c s hb).elim
    exact ⟨s, t, he, hr, rfl, id, fun _ => rfl⟩
  case pos =>
    cases c with
    | powerOnReset env =>
      exact ⟨_, _, rfl, Run.ok _, rfl, fun h => bootBase_sound h env 0 false, absurd hb⟩
    | supplyBelowRange =>
      refine ⟨_, _, rfl, .refl, rfl, fun h => ?_, absurd hb⟩
      obtain ⟨hm, hr, hu, ht⟩ := bootBase_sound h s.sec.env s.now false
      exact ⟨hm, hr, hu, ht⟩
    | fwRestart =>
      show ∃ b t, execFwRestart s = .next t ∧ _
      unfold execFwRestart
      split
      · exact ⟨s, s, rfl, .refl, rfl, id, fun _ => rfl⟩
      split
      · refine ⟨_, _, rfl, Run.ok _, rfl, fun h => ?_, absurd hb⟩
        obtain ⟨hm, hr, hu, ht⟩ := bootBase_sound h s.sec.env s.now true
        exact ⟨hm, hr, hu, ht⟩
      · obtain ⟨t, he, hr⟩ := (FromRun.of_run _).elim
        exact ⟨s, t, he, hr, rfl, id, fun _ => rfl⟩
    | _ => exact hb.elim

/-- Settles O4: an idle step is a run, and a command is a run from its own state or from a start of the device; a run keeps a state
sound. -/
theorem stepKeepsSound : Obligations.StepKeepsSound := by
  intro s t hs ht
  unfold step at ht
  split at ht
  · cases ht
    exact (Run.start s).idle.ok.sound hs
  · next c rest _ =>
    obtain ⟨b, u, he, hr, _, hb, _⟩ := exec_reaches c { s with pending := rest }
    obtain rfl : u = t := by rw [he] at ht; exact Host.Outcome.next.inj ht
    exact hr.sound (hb ⟨hs.mem, hs.regs, hs.units, hs.times⟩)

/-- Settles O5: a run touches no queue and takes no time back, and only a start of the device begins elsewhere. -/
theorem commandsKeepQueueAndTime : Obligations.CommandsKeepQueueAndTime := by
  intro c s
  obtain ⟨b, t, he, hr, hp, _, hb⟩ := exec_reaches c s
  refine ⟨t, he, hr.pending.trans hp, fun h => ?_⟩
  rw [← hb h]
  exact hr.now_le

end Sys2Proof.Machine
end

section
/-! PROOFS. Decoding and encoding of instructions (R44 to R49): the fields of the words that each format makes, the words that the
fields of a word make again, and one lemma for each group of instructions that says what its decoder finds. -/

namespace Sys2Proof.Laws

open Sys2Proof.Machine

/-! ## Parts of a word -/

/-- A field of one bit. -/
theorem bv1_getLsbD {w : Nat} (x : BitVec w) (i : Nat) : bv1 (x.getLsbD i) = x.extractLsb' i 1 := by
  ext j hj
  obtain rfl : j = 0 := by omega
  cases h : x.getLsbD i <;> simp [bv1, h]

/-- A field of a word joins what stands above it in the word. -/
theorem append_field {n k : Nat} {x : BitVec n} {y : BitVec k} (s a : Nat) (h : y = x.extractLsb' (s + a) k) :
    y ++ x.extractLsb' s a = x.extractLsb' s (k + a) := by
  rw [h, BitVec.extractLsb'_append_extractLsb'_eq_extractLsb' rfl]

/-! ## What the fields of a word make -/

section
variable {w : W32}

/-- The length bit of a word, as the field above its other fields. -/
theorem length_field {b : Bool} (h : w.getLsbD 31 = b) : bv1 b = w.extractLsb' 31 1 := by rw [← h, bv1_getLsbD]

/-- A word of format R32 is made of its fields. -/
theorem encR_of_fields (h : w.getLsbD 31 = false) : encR (w.extractLsb' 25 6)
    ⟨w.extractLsb' 20 5, w.extractLsb' 15 5, w.extractLsb' 10 5, w.extractLsb' 6 4⟩ (w.extractLsb' 0 6) = { w0 := w } :=
  congrArg (fun x => ({ w0 := x } : Words)) <| (append_field 0 6 <| append_field 6 4 <| append_field 10 5 <|
    append_field 15 5 <| append_field 20 5 <| append_field 25 6 <| length_field h).trans BitVec.extractLsb'_eq_self

/-- A word of formats I32 and S32. -/
theorem encI_of_fields (h : w.getLsbD 31 = false) : encI (w.extractLsb' 25 6)
    ⟨w.extractLsb' 20 5, w.extractLsb' 15 5, w.extractLsb' 11 4, w.extractLsb' 0 11⟩ = { w0 := w } :=
  congrArg (fun x => ({ w0 := x } : Words)) <| (append_field 0 11 <| append_field 11 4 <| append_field 15 5 <|
    append_field 20 5 <| append_field 25 6 <| length_field h).trans BitVec.extractLsb'_eq_self

/-- A word of format B32. -/
theorem encB_of_fields (h : w.getLsbD 31 = false) : encB (w.extractLsb' 25 6) ⟨w.extractLsb' 21 4, w.extractLsb' 0 21⟩ =
    { w0 := w } :=
  congrArg (fun x => ({ w0 := x } : Words)) <| (append_field 0 21 <| append_field 21 4 <| append_field 25 6 <|
    length_field h).trans BitVec.extractLsb'_eq_self

/-- The words of format X64. -/
theorem encX_of_fields (h : w.getLsbD 31 = true) (w1 : W32) : encX (w.extractLsb' 25 6)
    ⟨w.extractLsb' 20 5, w.extractLsb' 15 5, w.extractLsb' 10 5, w.extractLsb' 6 4, w.extractLsb' 0 6, w1⟩ =
      { w0 := w, w1 := w1, long := true } :=
  congrArg (fun x => ({ w0 := x, w1 := w1, long := true } : Words)) <| (append_field 0 6 <| append_field 6 4 <|
    append_field 10 5 <| append_field 15 5 <| append_field 20 5 <| append_field 25 6 <| length_field h).trans
      BitVec.extractLsb'_eq_self

/-- The words of format T64. -/
theorem encT_of_fields (h : w.getLsbD 31 = true) (w1 : W32) : encT (w.extractLsb' 25 6)
    ⟨w.extractLsb' 21 4, w.extractLsb' 17 4, w.extractLsb' 13 4, w.extractLsb' 11 2, w.extractLsb' 6 5, w1⟩ (w.extractLsb' 0 6) =
      { w0 := w, w1 := w1, long := true } :=
  congrArg (fun x => ({ w0 := x, w1 := w1, long := true } : Words)) <| (append_field 0 6 <| append_field 6 5 <|
    append_field 11 2 <| append_field 13 4 <| append_field 17 4 <| append_field 21 4 <| append_field 25 6 <|
      length_field h).trans BitVec.extractLsb'_eq_self

end

/-! ## What a word that a format makes is made of -/

section
variable (m : BitVec 6) (g : BitVec 6)

/-- A part of func. -/
theorem encR_func (f : R3) {s l : Nat} (h : s + l ≤ 6) : (encR m f g).w0.extractLsb' s l = g.extractLsb' s l :=
  BitVec.extractLsb'_append_eq_of_add_le h

/-- A bit of func. -/
theorem encR_bit (f : R3) {i : Nat} (h : i < 6) : (encR m f g).w0.getLsbD i = g.getLsbD i := by
  show BitVec.getLsbD (_ ++ g) i = _
  rw [BitVec.getLsbD_append, if_pos h]

/-- The fields of each format, as its decoder gathers them. -/
theorem encR_operands (f : R3) : (⟨(encR m f g).w0.extractLsb' 20 5, (encR m f g).w0.extractLsb' 15 5,
    (encR m f g).w0.extractLsb' 10 5, (encR m f g).w0.extractLsb' 6 4⟩ : R3) = f := by
  obtain ⟨_, _, hd, ha, hb, hg, _⟩ := encR_fields m f g
  rw [hd, ha, hb, hg]

theorem encI_operands (f : I3) : (⟨(encI m f).w0.extractLsb' 20 5, (encI m f).w0.extractLsb' 15 5,
    (encI m f).w0.extractLsb' 11 4, (encI m f).w0.extractLsb' 0 11⟩ : I3) = f := by
  obtain ⟨_, _, hd, ha, hg, hi⟩ := encI_fields m f
  rw [hd, ha, hg, hi]

theorem encB_operands (f : B3) : (⟨(encB m f).w0.extractLsb' 21 4, (encB m f).w0.extractLsb' 0 21⟩ : B3) = f := by
  obtain ⟨_, _, hg, ho⟩ := encB_fields m f
  rw [hg, ho]

theorem encX_operands (f : X3) : (⟨(encX m f).w0.extractLsb' 20 5, (encX m f).w0.extractLsb' 15 5,
    (encX m f).w0.extractLsb' 10 5, (encX m f).w0.extractLsb' 6 4, (encX m f).w0.extractLsb' 0 6, (encX m f).w1⟩ : X3) = f := by
  obtain ⟨_, _, hd, ha, hb, hg, hf⟩ := encX_fields m f
  rw [hd, ha, hb, hg, hf]
  rfl

theorem encT_operands (f : T3) : (⟨(encT m f g).w0.extractLsb' 21 4, (encT m f g).w0.extractLsb' 17 4,
    (encT m f g).w0.extractLsb' 13 4, (encT m f g).w0.extractLsb' 11 2, (encT m f g).w0.extractLsb' 6 5, (encT m f g).w1⟩ : T3) =
      f := by
  obtain ⟨_, _, ha, hb, hc, hbank, hg, _⟩ := encT_fields m f g
  rw [ha, hb, hc, hbank, hg]
  rfl

end

/-! ### The parts of func -/

section
variable (b : Bool) {a c : Nat} (P : BitVec a) (Q : BitVec c)

/-- A bit between two fields, and at either end of one. -/
theorem getLsbD_bv1 : (bv1 b).getLsbD 0 = b := by cases b <;> rfl

theorem bit_above : (bv1 b ++ Q).getLsbD c = b := by rw [BitVec.getLsbD_append, if_neg (by omega), Nat.sub_self, getLsbD_bv1]

theorem bit_below : (P ++ bv1 b).getLsbD 0 = b := by rw [BitVec.getLsbD_append, if_pos Nat.zero_lt_one, getLsbD_bv1]

theorem bit_between : (P ++ bv1 b ++ Q).getLsbD c = b := by
  rw [BitVec.getLsbD_append, if_neg (by omega), Nat.sub_self, bit_below]

/-- The highest of two and of three fields. -/
theorem field_high : (P ++ Q).extractLsb' c a = P := by rw [field_next, BitVec.extractLsb'_eq_self]

theorem field_highest : (P ++ bv1 b ++ Q).extractLsb' (c + 1) a = P := by rw [field_above, field_high]

end

/-! ## Words of an instruction decode to it -/

section
variable (ag : Agent) (mode : Nat) (w1 : W32)

/-- Words decode by their length bit. -/
theorem isaDecode_short {w0 : W32} (h : w0.getLsbD 31 = false) : isaDecode ag mode w0 w1 = decode32 ag w0 := by
  rw [isaDecode, h]; rfl

theorem isaDecode_long {w0 : W32} (h : w0.getLsbD 31 = true) : isaDecode ag mode w0 w1 = decode64 ag mode w0 w1 := by
  rw [isaDecode, h]; rfl

theorem isaDecode_encR (m g : BitVec 6) (f : R3) : isaDecode ag mode (encR m f g).w0 w1 = decode32 ag (encR m f g).w0 :=
  isaDecode_short ag mode w1 (Words.encR_long m f g).symm
theorem isaDecode_encI (m : BitVec 6) (f : I3) : isaDecode ag mode (encI m f).w0 w1 = decode32 ag (encI m f).w0 :=
  isaDecode_short ag mode w1 (Words.encI_long m f).symm
theorem isaDecode_encB (m : BitVec 6) (f : B3) : isaDecode ag mode (encB m f).w0 w1 = decode32 ag (encB m f).w0 :=
  isaDecode_short ag mode w1 (Words.encB_long m f).symm
theorem isaDecode_encX (m : BitVec 6) (f : X3) : isaDecode ag mode (encX m f).w0 w1 = decode64 ag mode (encX m f).w0 w1 :=
  isaDecode_long ag mode w1 (Words.encX_long m f).symm
theorem isaDecode_encT (m g : BitVec 6) (f : T3) : isaDecode ag mode (encT m f g).w0 w1 = decode64 ag mode (encT m f g).w0 w1 :=
  isaDecode_long ag mode w1 (Words.encT_long m f g).symm

end

/-- The rows of formats I32, B32 and X64, one to a major (R45, R49). -/
def rowI : Nat → Option (Agent → I3 → Instr)
  | 0x02 => some .addi | 0x03 => some .andi | 0x04 => some .ori | 0x05 => some .xori | 0x06 => some .shi
  | 0x10 => some .ldb | 0x11 => some .ldbu | 0x12 => some .ldh | 0x13 => some .ldhu | 0x14 => some .ldw | 0x15 => some .ldwu
  | 0x16 => some .ldd | 0x18 => some .stb | 0x19 => some .sth | 0x1A => some .stw | 0x1B => some .std
  | 0x24 => some .crd | 0x25 => some .cwr | 0x27 => some .rds
  | _ => none

def rowX : Nat → Option (Agent → X3 → Instr)
  | 0x30 => some .li | 0x31 => some .addx | 0x34 => some .bral | 0x35 => some .cmsk
  | _ => none

section
variable {ag : Agent} {mode : Nat} {w1 : W32}

theorem isaDecode_rowI {m : BitVec 6} {f : I3} {mk : Agent → I3 → Instr} (h : rowI m.toNat = some mk) :
    isaDecode ag mode (encI m f).w0 w1 = some (mk ag f) := by
  rw [isaDecode_encI]
  unfold rowI at h
  split at h <;> cases h
  all_goals
    next hm => simp only [decode32, (encI_fields m f).2.1, encI_operands, hm]

theorem isaDecode_rowX {m : BitVec 6} {f : X3} {mk : Agent → X3 → Instr} (h : rowX m.toNat = some mk) :
    isaDecode ag mode (encX m f).w0 (encX m f).w1 = some (mk ag f) := by
  rw [isaDecode_encX]
  unfold rowX at h
  split at h <;> cases h
  all_goals
    next hm => simp only [decode64, (encX_fields m f).2.1, encX_operands, hm]

theorem isaDecode_alu (b : Bool) (n : BitVec 5) (f : R3) :
    isaDecode ag mode (encR 0x01 f (bv1 b ++ n)).w0 w1 = decAlu n.toNat ag b f := by
  simp only [isaDecode_encR, decode32, (encR_fields _ _ _).2.1, encR_operands, encR_func _ _ _ (show 0 + 5 ≤ 6 by decide),
    encR_bit _ _ _ (show 5 < 6 by decide), field_low, bit_above]
  rfl

theorem isaDecode_pk (b : Bool) (n : BitVec 5) (f : R3) :
    isaDecode ag mode (encR 0x2A f (n ++ bv1 b)).w0 w1 = decPk n.toNat ag b f := by
  simp only [isaDecode_encR, decode32, (encR_fields _ _ _).2.1, encR_operands, encR_func _ _ _ (show 1 + 5 ≤ 6 by decide),
    encR_bit _ _ _ (show 0 < 6 by decide), field_high, bit_below]
  rfl

theorem isaDecode_ord (n sc : BitVec 3) (f : R3) :
    isaDecode ag mode (encR 0x1C f (n ++ sc)).w0 w1 = decOrd n.toNat ag sc f := by
  simp only [isaDecode_encR, decode32, (encR_fields _ _ _).2.1, encR_operands, encR_func _ _ _ (show 0 + 3 ≤ 6 by decide),
    encR_func _ _ _ (show 3 + 3 ≤ 6 by decide), field_high, field_low]
  rfl

theorem isaDecode_tally (n sc : BitVec 3) (f : R3) :
    isaDecode ag mode (encR 0x28 f (sc ++ n)).w0 w1 = decTally n.toNat ag sc f := by
  simp only [isaDecode_encR, decode32, (encR_fields _ _ _).2.1, encR_operands, encR_func _ _ _ (show 0 + 3 ≤ 6 by decide),
    encR_func _ _ _ (show 3 + 3 ≤ 6 by decide), field_high, field_low]
  rfl

/-- The parts of func of an atomic. -/
theorem atom_parts (b : Bool) (n : BitVec 3) (sc : BitVec 2) (m : BitVec 6) (f : R3) :
    let w := (encR m f (sc ++ bv1 b ++ n)).w0
    w.extractLsb' 0 3 = n ∧ w.getLsbD 3 = b ∧ w.extractLsb' 4 2 = sc := by
  refine ⟨?_, ?_, ?_⟩
  · rw [encR_func _ _ _ (by decide), field_low]
  · rw [encR_bit _ _ _ (by decide), bit_between]
  · rw [encR_func _ _ _ (by decide), field_highest]

theorem isaDecode_atom (b : Bool) (n : BitVec 3) (sc : BitVec 2) (f : R3) :
    isaDecode ag mode (encR 0x1D f (sc ++ bv1 b ++ n)).w0 w1 = decAtom n.toNat ag b sc f := by
  obtain ⟨hn, hb, hs⟩ := atom_parts b n sc 0x1D f
  simp only [isaDecode_encR, decode32, (encR_fields _ _ _).2.1, encR_operands, hn, hb, hs]
  rfl

theorem isaDecode_atomAr (b : Bool) (n : BitVec 3) (sc : BitVec 2) (f : R3) :
    isaDecode ag mode (encR 0x1E f (sc ++ bv1 b ++ n)).w0 w1 = decAtomAr n.toNat ag b sc f := by
  obtain ⟨hn, hb, hs⟩ := atom_parts b n sc 0x1E f
  simp only [isaDecode_encR, decode32, (encR_fields _ _ _).2.1, encR_operands, hn, hb, hs]
  rfl

/-- The groups of format R32 whose func is one number. -/
def groupR (ag : Agent) (f : R3) (func : BitVec 6) : Nat → Option Instr
  | 0x09 => some (.cmp ag func f)
  | 0x0B => decFpu func.toNat ag f
  | 0x0D => some (.cvt ag func f)
  | 0x0E => decSfu func.toNat ag f
  | 0x0F => decPred func.toNat ag f
  | 0x22 => if func = 0 then some (.jr ag f) else none
  | 0x23 => decSys func.toNat ag f
  | 0x29 => decXlane func.toNat ag f
  | _ => none

theorem isaDecode_groupR {m func : BitVec 6} {f : R3} {i : Instr} (h : groupR ag f func m.toNat = some i) :
    isaDecode ag mode (encR m f func).w0 w1 = some i := by
  rw [isaDecode_encR]
  unfold groupR at h
  split at h
  case h_9 => cases h
  all_goals
    next hm => simpa only [decode32, (encR_fields _ _ _).2.1, encR_operands, encR_func _ _ _ (show 0 + 6 ≤ 6 by decide),
      BitVec.extractLsb'_eq_self, hm] using h

theorem isaDecode_bra (f : B3) : isaDecode ag mode (encB 0x20 f).w0 w1 = some (.bra ag f) := by
  simp only [isaDecode_encB, decode32, (encB_fields _ _).2.1, encB_operands]
  rfl

theorem isaDecode_call (f : B3) : isaDecode ag mode (encB 0x21 f).w0 w1 = some (.call ag f) := by
  simp only [isaDecode_encB, decode32, (encB_fields _ _).2.1, encB_operands]
  rfl

/-- The groups of format T64. -/
def groupT (ag : Agent) (mode : Nat) (f : T3) (func : BitVec 6) : Nat → Option Instr
  | 0x38 => decTdesc func.toNat ag f
  | 0x39 => if func = 0 then some (.tmma ag f) else none
  | 0x3A => if func = 0 then some (.tdrain ag f) else none
  | 0x3B => decTacc func.toNat ag f
  | 0x3D => match func.toNat with
    | 0 => some (.rope ag f)
    | 1 => some (.tmask ag f)
    | 2 => decTsmax mode ag f
    | _ => none
  | _ => none

theorem isaDecode_groupT {m func : BitVec 6} {f : T3} {i : Instr} (h : groupT ag mode f func m.toNat = some i) :
    isaDecode ag mode (encT m f func).w0 (encT m f func).w1 = some i := by
  rw [isaDecode_encT]
  unfold groupT at h
  split at h
  case h_6 => cases h
  all_goals
    next hm =>
      simp only [decode64, (encT_fields _ _ _).2.1, encT_operands, (encT_fields _ _ _).2.2.2.2.2.2.2, hm]
      exact h

end

/-- The MODE of G under which TSMAX's one word is a row of it (R196). -/
def modeOf : Instr → Nat
  | .tsmaxFinal _ _ => 1
  | .tsmaxMerge _ _ => 2
  | .tsmaxInit _ _ => 3
  | _ => 0

theorem modeOf_lt (i : Instr) : modeOf i < 4 := by
  unfold modeOf
  split <;> decide

/-- Its words decode to an instruction, under its MODE. -/
theorem isaDecode_of_spells {i : Instr} {ag : Agent} {w : Words} (h : Spells i ag w) :
    isaDecode ag (modeOf i) w.w0 w.w1 = some i := by
  obtain ⟨hw, hi⟩ := h
  cases i with
  | add | sub | mul | mulh | mulhu | div | divu | rem | remu | and | or | xor | shl | shr | sra | min | minu | max | maxu | clz
  | popc | addp => cases hw; exact isaDecode_alu ..
  | addi | andi | ori | xori | shi | ldb | ldbu | ldh | ldhu | ldw | ldwu | ldd | stb | sth | stw | std | crd | cwr | rds =>
    cases hw; exact isaDecode_rowI rfl
  | li | addx | bral | cmsk => cases hw; exact isaDecode_rowX rfl
  | cmp | pand | por | pxor | pandn | pnot | p2g | g2p | fadd | fsub | fmul | ffma | fmin | fmax | fabs | fneg | fmvGf | fmvFg
  | fexp2 | flog2 | frcp | frsq | fsig | ftanh | cvt | jr | nop | exit | bar | yield | upcall | brk | tret | snooze | iflush
  | shfl | ballot | any | all | radd | rmin | rmax | fradd | frmin | frmax => cases hw; exact isaDecode_groupR rfl
  | add2 | mul2 | fma2 | min2 | max2 => cases hw; exact isaDecode_pk ..
  | ldwAcq | lddAcq | stwRel | stdRel | fenceAcq | fenceRel | fenceAr => cases hw; exact isaDecode_ord ..
  | atomAdd | atomMin | atomMax | atomAnd | atomOr | atomXor | atomSwap | atomCas => cases hw; exact isaDecode_atom ..
  | atomArAdd | atomArMin | atomArMax | atomArAnd | atomArOr | atomArXor | atomArSwap | atomArCas =>
    cases hw; exact isaDecode_atomAr ..
  | bra => cases hw; exact isaDecode_bra _
  | call => cases hw; exact isaDecode_call _
  | tsig | tadd | twait | tread => cases hw; exact isaDecode_tally ..
  | tdld | tdw | tdst | fmove | tmma | tdrain | accScale | tclr | trec | stateAudit | tsync | rope | tmask | tsmaxStep
  | tsmaxFinal | tsmaxMerge | tsmaxInit => cases hw; exact isaDecode_groupT rfl
  | illegalInstr => exact absurd rfl (hi _ _ _)
  | _ => cases hw

/-! ## Words that decode to an instruction are its words -/

section
variable {ag : Agent} {i : Instr} {n : Nat} {f : R3}

theorem decAlu_spells {b : Bool} (h : decAlu n ag b f = some i) : Spells i ag (encR 0x01 f (bv1 b ++ BitVec.ofNat 5 n)) := by
  unfold decAlu at h
  split at h <;> cases h <;> exact ⟨rfl, nofun⟩

theorem decPk_spells {b : Bool} (h : decPk n ag b f = some i) : Spells i ag (encR 0x2A f (BitVec.ofNat 5 n ++ bv1 b)) := by
  unfold decPk at h
  split at h <;> cases h <;> exact ⟨rfl, nofun⟩

theorem decOrd_spells {sc : BitVec 3} (h : decOrd n ag sc f = some i) : Spells i ag (encR 0x1C f (BitVec.ofNat 3 n ++ sc)) := by
  unfold decOrd at h
  split at h <;> cases h <;> exact ⟨rfl, nofun⟩

theorem decTally_spells {sc : BitVec 3} (h : decTally n ag sc f = some i) :
    Spells i ag (encR 0x28 f (sc ++ BitVec.ofNat 3 n)) := by
  unfold decTally at h
  split at h <;> cases h <;> exact ⟨rfl, nofun⟩

theorem decAtom_spells {b : Bool} {sc : BitVec 2} (h : decAtom n ag b sc f = some i) :
    Spells i ag (encR 0x1D f (sc ++ bv1 b ++ BitVec.ofNat 3 n)) := by
  unfold decAtom at h
  split at h <;> cases h <;> exact ⟨rfl, nofun⟩

theorem decAtomAr_spells {b : Bool} {sc : BitVec 2} (h : decAtomAr n ag b sc f = some i) :
    Spells i ag (encR 0x1E f (sc ++ bv1 b ++ BitVec.ofNat 3 n)) := by
  unfold decAtomAr at h
  split at h <;> cases h <;> exact ⟨rfl, nofun⟩

theorem decFpu_spells (h : decFpu n ag f = some i) : Spells i ag (encR 0x0B f (BitVec.ofNat 6 n)) := by
  unfold decFpu at h
  split at h <;> cases h <;> exact ⟨rfl, nofun⟩

theorem decSfu_spells (h : decSfu n ag f = some i) : Spells i ag (encR 0x0E f (BitVec.ofNat 6 n)) := by
  unfold decSfu at h
  split at h <;> cases h <;> exact ⟨rfl, nofun⟩

theorem decPred_spells (h : decPred n ag f = some i) : Spells i ag (encR 0x0F f (BitVec.ofNat 6 n)) := by
  unfold decPred at h
  split at h <;> cases h <;> exact ⟨rfl, nofun⟩

theorem decSys_spells (h : decSys n ag f = some i) : Spells i ag (encR 0x23 f (BitVec.ofNat 6 n)) := by
  unfold decSys at h
  split at h <;> cases h <;> exact ⟨rfl, nofun⟩

theorem decXlane_spells (h : decXlane n ag f = some i) : Spells i ag (encR 0x29 f (BitVec.ofNat 6 n)) := by
  unfold decXlane at h
  split at h <;> cases h <;> exact ⟨rfl, nofun⟩

theorem rowI_spells {f : I3} {mk : Agent → I3 → Instr} (h : rowI n = some mk) : Spells (mk ag f) ag (encI (BitVec.ofNat 6 n) f) := by
  unfold rowI at h
  split at h <;> cases h <;> exact ⟨rfl, nofun⟩

theorem rowX_spells {f : X3} {mk : Agent → X3 → Instr} (h : rowX n = some mk) : Spells (mk ag f) ag (encX (BitVec.ofNat 6 n) f) := by
  unfold rowX at h
  split at h <;> cases h <;> exact ⟨rfl, nofun⟩

theorem decTdesc_spells {f : T3} (h : decTdesc n ag f = some i) : Spells i ag (encT 0x38 f (BitVec.ofNat 6 n)) := by
  unfold decTdesc at h
  split at h <;> cases h <;> exact ⟨rfl, nofun⟩

theorem decTacc_spells {f : T3} (h : decTacc n ag f = some i) : Spells i ag (encT 0x3B f (BitVec.ofNat 6 n)) := by
  unfold decTacc at h
  split at h <;> cases h <;> exact ⟨rfl, nofun⟩

theorem decTsmax_spells {f : T3} (h : decTsmax n ag f = some i) : Spells i ag (encT 0x3D f 2) := by
  unfold decTsmax at h
  split at h <;> cases h <;> exact ⟨rfl, nofun⟩

end

section
variable {ag : Agent} {i : Instr} {w : W32} {k : Nat}

/-- A field, given as a number. -/
theorem ofNat_field {n s : Nat} (h : (w.extractLsb' s n).toNat = k) : BitVec.ofNat n k = w.extractLsb' s n := by
  rw [← h, BitVec.ofNat_toNat, BitVec.setWidth_eq]

/-- What the words of a row are, when they have a word's major and func. -/
theorem spells_short_encR {func : BitVec 6} (hl : w.getLsbD 31 = false) (hm : (w.extractLsb' 25 6).toNat = k)
    (h : Spells i ag (encR (BitVec.ofNat 6 k)
      ⟨w.extractLsb' 20 5, w.extractLsb' 15 5, w.extractLsb' 10 5, w.extractLsb' 6 4⟩ func)) (hf : func = w.extractLsb' 0 6) :
    Spells i ag { w0 := w } := by
  rwa [ofNat_field hm, hf, encR_of_fields hl] at h

theorem spells_short_encI (hl : w.getLsbD 31 = false) (hm : (w.extractLsb' 25 6).toNat = k)
    (h : Spells i ag (encI (BitVec.ofNat 6 k)
      ⟨w.extractLsb' 20 5, w.extractLsb' 15 5, w.extractLsb' 11 4, w.extractLsb' 0 11⟩)) : Spells i ag { w0 := w } := by
  rwa [ofNat_field hm, encI_of_fields hl] at h

theorem spells_short_encB (hl : w.getLsbD 31 = false) (hm : (w.extractLsb' 25 6).toNat = k)
    (h : Spells i ag (encB (BitVec.ofNat 6 k) ⟨w.extractLsb' 21 4, w.extractLsb' 0 21⟩)) : Spells i ag { w0 := w } := by
  rwa [ofNat_field hm, encB_of_fields hl] at h

theorem spells_long_encX {w1 : W32} (hl : w.getLsbD 31 = true) (hm : (w.extractLsb' 25 6).toNat = k)
    (h : Spells i ag (encX (BitVec.ofNat 6 k) ⟨w.extractLsb' 20 5, w.extractLsb' 15 5, w.extractLsb' 10 5, w.extractLsb' 6 4,
      w.extractLsb' 0 6, w1⟩)) : Spells i ag { w0 := w, w1 := w1, long := true } := by
  rwa [ofNat_field hm, encX_of_fields hl] at h

theorem spells_long_encT {w1 : W32} {func : BitVec 6} (hl : w.getLsbD 31 = true) (hm : (w.extractLsb' 25 6).toNat = k)
    (h : Spells i ag (encT (BitVec.ofNat 6 k) ⟨w.extractLsb' 21 4, w.extractLsb' 17 4, w.extractLsb' 13 4, w.extractLsb' 11 2,
      w.extractLsb' 6 5, w1⟩ func)) (hf : func = w.extractLsb' 0 6) : Spells i ag { w0 := w, w1 := w1, long := true } := by
  rwa [ofNat_field hm, hf, encT_of_fields hl] at h

/-- func, from its parts. -/
theorem func_whole : BitVec.ofNat 6 (w.extractLsb' 0 6).toNat = w.extractLsb' 0 6 := ofNat_field rfl

theorem func_low_bit : bv1 (w.getLsbD 5) ++ BitVec.ofNat 5 (w.extractLsb' 0 5).toNat = w.extractLsb' 0 6 := by
  rw [ofNat_field rfl]
  exact append_field 0 5 (bv1_getLsbD w 5)

theorem func_high_bit : BitVec.ofNat 5 (w.extractLsb' 1 5).toNat ++ bv1 (w.getLsbD 0) = w.extractLsb' 0 6 := by
  rw [ofNat_field rfl, bv1_getLsbD]
  exact append_field 0 1 rfl

theorem func_halves : w.extractLsb' 3 3 ++ w.extractLsb' 0 3 = w.extractLsb' 0 6 := append_field 0 3 rfl

theorem func_atom : w.extractLsb' 4 2 ++ bv1 (w.getLsbD 3) ++ BitVec.ofNat 3 (w.extractLsb' 0 3).toNat = w.extractLsb' 0 6 := by
  rw [ofNat_field rfl, bv1_getLsbD]
  exact append_field 0 3 (append_field 3 1 rfl)

/-- A word of 32 bits that decodes to an instruction is its word. -/
theorem spells_of_decode32 (hl : w.getLsbD 31 = false) (h : decode32 ag w = some i) : Spells i ag { w0 := w } := by
  unfold decode32 at h
  dsimp only at h
  split at h
  case h_1 hm => exact spells_short_encR hl hm (decAlu_spells h) func_low_bit
  case h_2 hm | h_3 hm | h_4 hm | h_5 hm | h_6 hm | h_12 hm | h_13 hm | h_14 hm | h_15 hm | h_16 hm | h_17 hm | h_18 hm | h_19 hm
    | h_20 hm | h_21 hm | h_22 hm | h_30 hm | h_31 hm | h_32 hm => cases h; exact spells_short_encI hl hm (rowI_spells rfl)
  case h_7 hm | h_9 hm => cases h; exact spells_short_encR hl hm ⟨rfl, nofun⟩ rfl
  case h_8 hm => exact spells_short_encR hl hm (decFpu_spells h) func_whole
  case h_10 hm => exact spells_short_encR hl hm (decSfu_spells h) func_whole
  case h_11 hm => exact spells_short_encR hl hm (decPred_spells h) func_whole
  case h_23 hm => exact spells_short_encR hl hm (decOrd_spells h) (by rw [ofNat_field rfl]; exact func_halves)
  case h_24 hm => exact spells_short_encR hl hm (decAtom_spells h) func_atom
  case h_25 hm => exact spells_short_encR hl hm (decAtomAr_spells h) func_atom
  case h_26 hm | h_27 hm => cases h; exact spells_short_encB hl hm ⟨rfl, nofun⟩
  case h_28 hm =>
    split at h <;> cases h
    next hf => exact spells_short_encR hl hm ⟨rfl, nofun⟩ hf.symm
  case h_29 hm => exact spells_short_encR hl hm (decSys_spells h) func_whole
  case h_33 hm => exact spells_short_encR hl hm (decTally_spells h) (by rw [ofNat_field rfl]; exact func_halves)
  case h_34 hm => exact spells_short_encR hl hm (decXlane_spells h) func_whole
  case h_35 hm => exact spells_short_encR hl hm (decPk_spells h) func_high_bit
  case h_36 => cases h

/-- Two words that decode to an instruction are its words. -/
theorem spells_of_decode64 {mode : Nat} {w1 : W32} (hl : w.getLsbD 31 = true) (h : decode64 ag mode w w1 = some i) :
    Spells i ag { w0 := w, w1 := w1, long := true } := by
  unfold decode64 at h
  dsimp only at h
  split at h
  case h_1 hm | h_2 hm | h_3 hm | h_4 hm => cases h; exact spells_long_encX hl hm (rowX_spells rfl)
  case h_5 hm => exact spells_long_encT hl hm (decTdesc_spells h) func_whole
  case h_6 hm | h_7 hm =>
    split at h <;> cases h
    next hf => exact spells_long_encT hl hm ⟨rfl, nofun⟩ hf.symm
  case h_8 hm => exact spells_long_encT hl hm (decTacc_spells h) func_whole
  case h_9 hm =>
    split at h
    case h_1 hf | h_2 hf => cases h; exact spells_long_encT hl hm ⟨rfl, nofun⟩ (ofNat_field hf)
    case h_3 hf => exact spells_long_encT hl hm (decTsmax_spells h) (ofNat_field hf)
    case h_4 => cases h
  case h_10 => cases h

end

/-- MODE decides only among the rows of TSMAX. -/
theorem isaDecode_mode (ag : Agent) (m n : Nat) (w0 w1 : W32)
    (h : ¬ (w0.getLsbD 31 = true ∧ w0.extractLsb' 25 6 = 0x3D#6 ∧ w0.extractLsb' 0 6 = 2#6)) :
    isaDecode ag m w0 w1 = isaDecode ag n w0 w1 := by
  unfold isaDecode
  split
  case isFalse => rfl
  case isTrue hl =>
    unfold decode64
    dsimp only
    split
    case h_9 hm =>
      split
      case h_3 hf => exact absurd ⟨hl, (ofNat_field hm).symm, (ofNat_field hf).symm⟩ h
      all_goals rfl
    all_goals rfl

/-- The words that a decoded instruction has. -/
theorem spells_of_isaDecode {ag : Agent} {mode : Nat} {w0 w1 : W32} {i : Instr} (h : isaDecode ag mode w0 w1 = some i) :
    ∃ w, Spells i ag w ∧ w.w0 = w0 ∧ w.long = w0.getLsbD 31 ∧ (w.long = true → w.w1 = w1) := by
  unfold isaDecode at h
  split at h
  case isTrue hl => exact ⟨_, spells_of_decode64 hl h, rfl, hl.symm, fun _ => rfl⟩
  case isFalse hl =>
    have hl : w0.getLsbD 31 = false := eq_false_of_ne_true hl
    exact ⟨_, spells_of_decode32 hl h, rfl, hl.symm, nofun⟩

/-- An instruction's words say their length in bit 31 (R44). -/
theorem long_of_spells {i : Instr} {ag : Agent} {w : Words} (h : Spells i ag w) : w.long = w.w0.getLsbD 31 := by
  obtain ⟨v, hv, _, hl, _⟩ := spells_of_isaDecode (isaDecode_of_spells h)
  obtain rfl : v = w := congrArg Prod.snd (Option.some.inj (hv.1.symm.trans h.1))
  exact hl

/-- Settles O7: decoding finds an instruction again by its fields; what is decoded is spelt by the fields of its words; and two
instructions of the same words are what these decode to, under one MODE but for TSMAX. -/
theorem encodingAgrees : Obligations.EncodingAgrees := by
  refine ⟨fun i ag w h => ⟨modeOf i, modeOf_lt i, isaDecode_of_spells h⟩, fun ag mode w0 w1 i h => spells_of_isaDecode h,
    fun i j ag w hi hj => ?_⟩
  by_cases ht : w.w0.getLsbD 31 = true ∧ w.w0.extractLsb' 25 6 = 0x3D#6 ∧ w.w0.extractLsb' 0 6 = 2#6
  · exact .inr ⟨(long_of_spells hi).trans ht.1, ht.2⟩
  · have found : some i = some j := by
      rw [← isaDecode_of_spells hi, ← isaDecode_of_spells hj, isaDecode_mode _ _ _ _ _ ht]
    exact .inl (Option.some.inj found)

end Sys2Proof.Laws
end


section
/-! PROOFS. The floating-point instructions (R54 to R57) and the cross-lane instructions (R65, R66), each group by one lemma that
says what a command of it is. -/

namespace Sys2Proof.Machine

/-! ## Where a hart's instruction issues -/

/-- A hart that issues an instruction is a host core under its own key, or a firmware processor. -/
theorem OnHart.agent_cases {s : State} {ag : Agent} {key : Nat} {w : Words} {r : Run s} (h : OnHart s ag key w r) :
    (ag = .host key ∧ hostKey key = key ∧ isFw key = false) ∨ ∃ p, ag = .fw p ∧ fwKey p = key ∧ isFw key = true := by
  have ha := h.agent
  cases ag with
  | host n =>
    obtain ⟨hk, rfl⟩ := hartKey_host ha
    refine .inl ⟨rfl, hk, ?_⟩
    by_cases hn : n < 8
    · simp [isFw]; omega
    · simp [hartOf, hn] at ha
  | fw p =>
    refine .inr ⟨p, rfl, hartKey_fw ha, ?_⟩
    rw [← hartKey_fw ha]
    simp [isFw, fwKey]
  | lane c g => simp [hartOf] at ha

/-- An instruction that is written apart for host cores and for firmware processors issues on the hart of its agent. -/
theorem OnHart.exec_issue {s : State} {i : Instr} {ag : Agent} {key : Nat} {w : Words} {r : Run s} (h : OnHart s ag key w r)
    {legal : Bool} {body : Nat → Bool → Hart → Run s → Run s × HEnd}
    (hh : ∀ n, ag = .host n → hostKey n = n → exec i s = done (hartIssue (Run.start s) (hostKey n) w legal (body n false)))
    (hf : ∀ p, ag = .fw p → exec i s = done (hartIssue (Run.start s) (fwKey p) w legal (body (fwKey p) true))) :
    exec i s = .next (hartIssue (Run.start s) key w legal (body key (isFw key))).s := by
  obtain ⟨rfl, hk, hw⟩ | ⟨p, rfl, hk, hw⟩ := h.agent_cases
  · rw [hh key rfl hk, done_next h.up, hk, hw]
  · rw [hf p rfl, done_next h.up, hk, hw]

/-- An instruction that the host profile does not have. -/
theorem hartIllegal_of_issue {mk : Agent → Instr} {body : Hart → {s : State} → Run s → Run s × HEnd}
    (hh : ∀ s n, exec (mk (.host n)) s =
      done (hartIssue (Run.start s) (hostKey n) (wordsOf (mk (.host n))) false fun h r => body h r))
    (hf : ∀ s p, exec (mk (.fw p)) s =
      done (hartIssue (Run.start s) (fwKey p) (wordsOf (mk (.fw p))) false fun h r => body h r)) : HartIllegal mk := by
  intro s ag key r h
  rw [h.exec_issue (body := fun _ _ h r => body h r) (by rintro n rfl _; exact hh s n) (by rintro p rfl; exact hf s p), h.illegal]

/-! ## The FPU and SFU groups (R54, R55) -/

/-- What a floating instruction ends in on a hart. -/
def fpHartEnd (w0 : Nat) (f : R3) (op : Fp.Rnd → W32 → W32 → W32 → W32 × Fp.Flags) (fw : Bool) (h : Hart) : HEnd :=
  if fw || !h.fpen then .trap .fpDisabled w0 else .next (h.withFp f.d (op h.rnd (h.rf f.a) (h.rf f.b) (h.rf f.d)))

/-- A floating instruction is a computation, on harts by `fpHartEnd`. -/
theorem fpGroup_eq (i : Instr) (ag : Agent) (legal : Bool) (f : R3) (op : Fp.Rnd → W32 → W32 → W32 → W32 × Fp.Flags) (s : State) :
    fpGroup i ag legal f op s = done (compute (Run.start s) i ag .both legal f.guard [f.d.toNat, f.a.toNat, f.b.toNat]
      (fpHartEnd (wordsOf i).w0.toNat f op)
      fun _ t => t.wg f.d.toNat (op .nearest (t.rg f.a.toNat) (t.rg f.b.toNat) (t.rg f.d.toNat)).1) := rfl

/-- A host core with floating point is no firmware processor and has FPEN set, as its instruction's effect begins. -/
theorem fpHart_issued {ag : Agent} {key : Nat} {h : Hart} (w : Words) (ha : hartOf ag = some key) (hok : fpHart ag h) :
    (isFw key || !(h.issued w).fpen) = false := by
  obtain ⟨hfw, hen⟩ := fpHart_isFw ha hok
  have hen' : (h.issued w).fpen = true := hen
  simp [hfw, hen']

/-- A command that is a row of the FPU or SFU group. -/
theorem fpRow_of_exec {mk : Agent → R3 → Instr} {unary : Bool} {op : Fp.Rnd → W32 → W32 → W32 → W32 × Fp.Flags}
    {legal : R3 → Bool} (he : ∀ ag f s, exec (mk ag f) s = fpGroup (mk ag f) ag (legal f) f op s)
    (hl : ∀ f, (unary = true → f.b = 0) → legal f = true)
    (hw : ∀ ag f, (wordsOf (mk ag f)).w0 = (wordsOf (mk (.host 0) f)).w0) : FpRow mk unary op := by
  intro f hu
  have onHart := fun s ag (_ : hartOf ag ≠ none) => (he ag f s).trans (fpGroup_eq (mk ag f) ag (legal f) f op s)
  refine ⟨fun hg => ⟨hartResult_compute onHart (by simp [hl f hu, hg]) fun ag key h w ha hok => ?_,
    hartTraps_compute onHart (by simp [hl f hu, hg]) fun ag key h w ha hok => ?_⟩,
    laneResult_compute (onHart := fun ag => fpHartEnd (wordsOf (mk ag f)).w0.toNat f op)
      (fun s c g => (he (.lane c g) f s).trans (fpGroup_eq ..)) (by simp [hl f hu]) fun _ _ => rfl⟩
  · simp only [fpHartEnd, fpHart_issued w ha hok, Bool.false_eq_true, if_false]
  · have off : (isFw key || !(h.issued w).fpen) = true := fw_fpen ha hok
    simp only [fpHartEnd, off, if_true, hw ag f]

/-- What a move between g and f registers ends in on a hart. -/
def moveHartEnd (w0 : Nat) (move : Hart → Hart) (fw : Bool) (h : Hart) : HEnd :=
  if fw || !h.fpen then .trap .fpDisabled w0 else .next (move h)

/-- A command that is a move between g and f registers, which the lane profile does not have. -/
theorem move_of_exec {mk : Agent → Instr} {guard : BitVec 4} {move : Hart → Hart} {legal : Bool}
    (he : ∀ ag s, exec (mk ag) s = done (compute (Run.start s) (mk ag) ag .host legal guard []
      (moveHartEnd (wordsOf (mk ag)).w0.toNat move) fun _ t => t)) (hl : legal = true) (hg : guard = 0) :
    HartResult mk fpHart move ∧ LaneIllegal mk := by
  refine ⟨hartResult_compute (fun s ag _ => he ag s) (by simp [hl, hg]) fun ag key h w ha hok => ?_,
    laneIllegal_compute (onHart := fun ag => moveHartEnd (wordsOf (mk ag)).w0.toNat move) (fun s c g => he (.lane c g) s)
      (by simp)⟩
  simp only [moveHartEnd, fpHart_issued w ha hok, Bool.false_eq_true, if_false]

/-! ## CVT (R56) -/

/-- A hart's rounding for CVT, and the hart with its generator stepped where the rounding is stochastic (R151). -/
def cvtHartRnd (key : Nat) (func : BitVec 6) (h : Hart) : Hart × Fp.Rnd :=
  let d := drawRng (h.rng.getD (BitVec.ofNat 32 (key + 1)))
  let mode := bits func.toNat 1 0
  (if mode = 2 then { h with rng := some d.1 } else h,
    if mode = 0 then .nearest else if mode = 1 then .zero else if mode = 2 then .stochastic d.2 else h.rnd)

/-- Where CVT does not lack its floating point, it converts under its rounding. -/
theorem cvtHart_eq {fw : Bool} {func : BitVec 6} {f : R3} {h : Hart} (w0 key : Nat)
    (hok : ((bits func.toNat 5 2 = 0 || bits f.b.toNat 3 0 = 0) && (fw || !h.fpen)) = false) :
    cvtHart fw w0 key func f h =
      let p := cvtHartRnd key func h
      let c := cvtValue (bits func.toNat 5 2) (bits f.b.toNat 3 0) p.2
        (if bits func.toNat 5 2 = 0 then (h.rf f.a).toNat else (h.rg f.a).toNat) ((h.rg (f.a + 1)).toNat % 256)
      let h' := p.1.addFlags c.flags
      .next (if bits f.b.toNat 3 0 = 0 then h'.wf f.d (BitVec.ofNat 32 c.bits)
        else h'.wg f.d (cvtImage (bits f.b.toNat 3 0) 64 c.bits)) := by
  have hm : bits func.toNat 1 0 < 4 := Nat.mod_lt _ (by decide)
  simp only [cvtHart, hok, Bool.false_eq_true, if_false]
  unfold cvtHartRnd
  generalize bits func.toNat 1 0 = mode at hm
  obtain rfl | rfl | rfl | rfl : mode = 0 ∨ mode = 1 ∨ mode = 2 ∨ mode = 3 := by omega
  all_goals rfl

/-- The encodings that CVT has in both profiles. -/
def cvtLegal (func : BitVec 6) (f : R3) : Bool :=
  bits func.toNat 5 2 ≤ 9 && bits f.b.toNat 3 0 ≤ 9 && f.b.toNat < 16 &&
    (!(Fp.isBlock (bits func.toNat 5 2) || Fp.isBlock (bits f.b.toNat 3 0)) || pairOk f.a)

/-- CVT is legal for formats that exist, with an even A where a block scale is read. -/
theorem cvtLegal_of {func : BitVec 6} {f : R3} (hs : bits func.toNat 5 2 ≤ 9) (hd : bits f.b.toNat 3 0 ≤ 9)
    (hb : f.b.toNat < 16)
    (ha : (Fp.isBlock (bits func.toNat 5 2) || Fp.isBlock (bits f.b.toNat 3 0)) = true → f.a.toNat % 2 = 0) :
    cvtLegal func f = true := by
  simp only [cvtLegal, hs, hd, hb, decide_true, Bool.true_and, pairOk]
  cases hbl : Fp.isBlock (bits func.toNat 5 2) || Fp.isBlock (bits f.b.toNat 3 0) with
  | false => rfl
  | true => simp [ha hbl]

/-- CVT in a gang: no form takes the rounding of csr_fpctl. -/
theorem execCvt_lane (func : BitVec 6) (f : R3) (s : State) (c g : Nat) :
    exec (.cvt (.lane c g) func f) s = done (laneIssue (Run.start s) c g (wordsOf (.cvt (.lane c g) func f))
      (cvtLegal func f && bits func.toNat 1 0 ≠ 3) f.guard ([f.d.toNat, f.a.toNat] ++
        (if (Fp.isBlock (bits func.toNat 5 2) || Fp.isBlock (bits f.b.toNat 3 0)) = true then [f.a.toNat + 1] else [])) []
      fun cx x r => (r, .next (cvtLanes func f cx.enabled x))) := rfl

/-! ## The PK group (R57) -/

/-- A command that is a row of the PK group. -/
theorem pkRow_of_exec {mk : Agent → Bool → R3 → Instr} {func : Nat}
    (he : ∀ ag fp16 f s, exec (mk ag fp16 f) s = pkGroup (mk ag fp16 f) ag fp16 func f s) : PkRow mk func := fun fp16 f =>
  ⟨laneResult_compute (onHart := fun _ _ _ => .stall) (fun s c g => he (.lane c g) fp16 f s) rfl fun _ _ => rfl,
    hartIllegal_compute (fun s ag _ => he ag fp16 f s) (by simp)⟩

/-- Settles O11: the FPU, SFU and PK groups by their equations, the moves as computations of the host profile, and CVT by its
rounding apart from its conversion. -/
theorem floatInstructions : Obligations.FloatInstructions := by
  refine ⟨⟨fpRow_of_exec (fun _ _ _ => rfl) (fun _ _ => rfl) fun _ _ => rfl,
    fpRow_of_exec (fun _ _ _ => rfl) (fun _ _ => rfl) fun _ _ => rfl,
    fpRow_of_exec (fun _ _ _ => rfl) (fun _ _ => rfl) fun _ _ => rfl,
    fpRow_of_exec (fun _ _ _ => rfl) (fun _ _ => rfl) fun _ _ => rfl,
    fpRow_of_exec (fun _ _ _ => rfl) (fun _ _ => rfl) fun _ _ => rfl,
    fpRow_of_exec (fun _ _ _ => rfl) (fun _ _ => rfl) fun _ _ => rfl,
    fpRow_of_exec (fun _ _ _ => rfl) (fun _ hu => decide_eq_true (hu rfl)) fun _ _ => rfl,
    fpRow_of_exec (fun _ _ _ => rfl) (fun _ hu => decide_eq_true (hu rfl)) fun _ _ => rfl,
    fpRow_of_exec (fun _ _ _ => rfl) (fun _ hu => decide_eq_true (hu rfl)) fun _ _ => rfl,
    fpRow_of_exec (fun _ _ _ => rfl) (fun _ hu => decide_eq_true (hu rfl)) fun _ _ => rfl,
    fpRow_of_exec (fun _ _ _ => rfl) (fun _ hu => decide_eq_true (hu rfl)) fun _ _ => rfl,
    fpRow_of_exec (fun _ _ _ => rfl) (fun _ hu => decide_eq_true (hu rfl)) fun _ _ => rfl,
    fpRow_of_exec (fun _ _ _ => rfl) (fun _ hu => decide_eq_true (hu rfl)) fun _ _ => rfl,
    fpRow_of_exec (fun _ _ _ => rfl) (fun _ hu => decide_eq_true (hu rfl)) fun _ _ => rfl,
    fun f hb hg => ?moves⟩,
    fun func f => ?cvt,
    pkRow_of_exec fun _ _ _ _ => rfl, pkRow_of_exec fun _ _ _ _ => rfl, pkRow_of_exec fun _ _ _ _ => rfl,
    pkRow_of_exec fun _ _ _ _ => rfl, pkRow_of_exec fun _ _ _ _ => rfl⟩
  case moves =>
    obtain ⟨gf, gfLane⟩ := move_of_exec (mk := fun ag => .fmvGf ag f) (guard := f.guard)
      (move := fun h => h.wf f.d ((h.rg f.a).truncate 32)) (fun _ _ => rfl) (decide_eq_true hb) hg
    obtain ⟨fg, fgLane⟩ := move_of_exec (mk := fun ag => .fmvFg ag f) (guard := f.guard)
      (move := fun h => h.wg f.d ((h.rf f.a).zeroExtend 64)) (fun _ _ => rfl) (decide_eq_true hb) hg
    exact ⟨gf, fg, gfLane, fgLane⟩
  case cvt =>
    intro src dst block hs hd hb ha
    have legal := cvtLegal_of hs hd hb ha
    refine ⟨fun hg s ag key r h hok => ?_, fun hm s c g x r h => ?_⟩
    · have hen : ((src = 0 || dst = 0) && (isFw key || !((s.hart key).issued (wordsOf (.cvt ag func f))).fpen)) = false := by
        rcases hok with ⟨h1, h2⟩ | hfp
        · simp [h1, h2]
        · simp [fpHart_issued _ h.agent hfp]
      have legalHere : (cvtLegal func f && decide (f.guard = 0)) = true := by rw [legal, hg]; rfl
      rw [h.exec_issue (legal := cvtLegal func f && decide (f.guard = 0))
        (body := fun n fw h r => (r, cvtHart fw (wordsOf (.cvt ag func f)).w0.toNat n func f h))
        (by rintro n rfl _; rfl) (by rintro p rfl; rfl), legalHere, h.issue]
      simp only [cvtHart_eq _ _ hen]
      rfl
    · have legalHere : (cvtLegal func f && bits func.toNat 1 0 ≠ 3) = true := by rw [legal]; simpa using hm
      rw [execCvt_lane, legalHere, done_next h.up, h.issue]

/-! ## The XLANE group (R65, R66) -/

/-- A command of the XLANE group, whose legal spelling is the one stated. -/
theorem xlaneRow_of_exec {mk : Agent → R3 → Instr} {legal : R3 → Bool} {ok : R3 → Prop} {regs : R3 → List Nat}
    {write : R3 → LCtx → Gang → Nat → Thread → Thread} {write' : R3 → List Nat → Gang → Thread → Thread}
    (he : ∀ ag f s, exec (mk ag f) s = xlaneGroup (mk ag f) ag (legal f) f.guard (regs f) (write f) s)
    (hl : ∀ f, ok f → legal f = true) (hw : ∀ f cx y, write f cx y = fun _ t => write' f cx.enabled y t) :
    XlaneRow mk ok regs write' := by
  intro f hok
  refine ⟨fun s c g x r h => ?_, fun s ag key r h => ?_⟩
  · rw [he, hl f hok]
    simp only [xlaneGroup]
    rw [done_next h.up, h.issue]
    simp only [hw]
  · rw [he]
    obtain ⟨rfl, _, _⟩ | ⟨p, rfl, _, _⟩ := h.agent_cases
    · simp only [xlaneGroup, h.agent, done_next h.up, h.illegal]
    · simp only [xlaneGroup, h.agent, done_next h.up, h.illegal]

/-- A sum from its first value is the sum from 0. -/
theorem foldVals_add (vs : List W32) : foldVals (· + ·) vs = vs.foldl (· + ·) 0 := by
  cases vs with
  | nil => rfl
  | cons v vs => exact congrArg (vs.foldl (· + ·)) (BitVec.zero_add v).symm

/-- Settles O12: every row by its equation with the XLANE group; what a row writes to a thread depends on the enabled threads and the
gang alone. -/
theorem crossLaneInstructions : Obligations.CrossLaneInstructions :=
  ⟨xlaneRow_of_exec (legal := fun _ => true) (fun _ _ _ => rfl) (fun _ _ => rfl) fun _ _ _ => rfl,
    xlaneRow_of_exec (fun _ _ _ => rfl) (fun _ ⟨hd, ha, hb⟩ => by simp [pairOk, hd, ha, hb]) fun _ _ _ => rfl,
    xlaneRow_of_exec (fun _ _ _ => rfl) (fun _ ⟨hd, ha, hb⟩ => by simp [hd, ha, hb]) fun _ _ _ => rfl,
    xlaneRow_of_exec (fun _ _ _ => rfl) (fun _ ⟨hd, ha, hb⟩ => by simp [hd, ha, hb]) fun _ _ _ => rfl,
    xlaneRow_of_exec (fun _ _ _ => rfl) (fun _ hb => decide_eq_true hb) fun _ _ _ => by rw [foldVals_add]; rfl,
    xlaneRow_of_exec (fun _ _ _ => rfl) (fun _ hb => decide_eq_true hb) fun _ _ _ => rfl,
    xlaneRow_of_exec (fun _ _ _ => rfl) (fun _ hb => decide_eq_true hb) fun _ _ _ => rfl,
    xlaneRow_of_exec (fun _ _ _ => rfl) (fun _ hb => decide_eq_true hb) fun _ _ _ => rfl,
    xlaneRow_of_exec (fun _ _ _ => rfl) (fun _ hb => decide_eq_true hb) fun _ _ _ => rfl,
    xlaneRow_of_exec (fun _ _ _ => rfl) (fun _ hb => decide_eq_true hb) fun _ _ _ => rfl⟩

end Sys2Proof.Machine
end


section
/-! PROOFS. What the state reads as after one of its parts has been written, and what a sequence of actions leaves as it was. -/

namespace Sys2Proof.Machine

/-! ## Sequences of actions -/

namespace Run

variable {z : State} {α β : Type}

/-- What each action of a sequence leaves as it was, the sequence leaves as it was. -/
theorem each_keep (g : State → β) {l : List α} {f : α → Run z → Run z} (hf : ∀ a ∈ l, ∀ r : Run z, g (f a r).s = g r.s)
    (r : Run z) : g (r.each l f).s = g r.s := by
  induction l generalizing r with
  | nil => rfl
  | cons a l ih => exact (ih (fun b hb => hf b (.tail _ hb)) (f a r)).trans (hf a (.head _) r)

/-- What an action leaves as it was, it leaves as it was when it is done under a condition. -/
theorem when_keep (g : State → β) (c : Bool) {f : Run z → Run z} {r : Run z} (hf : g (f r).s = g r.s) :
    g (r.when c f).s = g r.s := by
  cases c with
  | false => rfl
  | true => exact hf

end Run

/-! ## Harts, cores, gangs and tallies after a write -/

section
variable {s : State}

theorem hart_hart_self (h : s.unitsWf) (k : Nat) (x : Hart) : (Upd.apply (.hart k x) s).hart k = x := by
  obtain ⟨hh, _, _, _⟩ := h
  simp only [State.hart, Upd.apply_harts, SMap.get_set ((SMap.wf_iff _ _).mp hh).1 {} k x {} k fun _ => rfl, if_true]

theorem hart_hart_ne (s : State) {k j : Nat} (x : Hart) (h : j ≠ k) : (Upd.apply (.hart k x) s).hart j = s.hart j := by
  simp only [State.hart, Upd.apply_harts, SMap.get_set_ne _ _ _ _ h]

theorem core_core_self (h : s.unitsWf) (k : Nat) (x : Core) : (Upd.apply (.core k x) s).core k = x := by
  obtain ⟨_, hc, _, _⟩ := h
  simp only [State.core, Upd.apply_cores, SMap.get_set ((SMap.wf_iff _ _).mp hc).1 {} k x {} k fun _ => rfl, if_true]

theorem core_core_ne (s : State) {k j : Nat} (x : Core) (h : j ≠ k) : (Upd.apply (.core k x) s).core j = s.core j := by
  simp only [State.core, Upd.apply_cores, SMap.get_set_ne _ _ _ _ h]

theorem gang_gang (s : State) (k : Nat) (x : Gang) (c g : Nat) :
    (Upd.apply (.gang k (some x)) s).gang? c g = if 128 * c + g = k then some x else s.gang? c g := by
  simp only [State.gang?, Upd.apply_gangs, SMap.find?_insert]

theorem gang_gang_self (s : State) (c g : Nat) (x : Gang) :
    (Upd.apply (.gang (128 * c + g) (some x)) s).gang? c g = some x := by
  rw [gang_gang, if_pos rfl]

end

/-! ## Runs by updates of some kinds -/

/-- A state comes from another by updates of the kinds given. -/
inductive Via (P : Upd → Prop) (s : State) : State → Prop where
  | refl : Via P s s
  | upd {t : State} (h : Via P s t) (u : Upd) (hu : P u) : Via P s (u.apply t)

namespace Via

variable {P Q : Upd → Prop} {s t v : State}

theorem trans (h : Via P s t) (g : Via P t v) : Via P s v := by
  induction g with
  | refl => exact h
  | upd _ u hu ih => exact ih.upd u hu

theorem mono (hPQ : ∀ u, P u → Q u) (h : Via P s t) : Via Q s t := by
  induction h with
  | refl => exact .refl
  | upd _ u hu ih => exact ih.upd u (hPQ u hu)

/-- What no update of the kinds given changes is as it was. -/
theorem keep {β : Type} (h : Via P s t) (g : State → β) (hg : ∀ u, P u → ∀ x, g (u.apply x) = g x) : g t = g s := by
  induction h with
  | refl => rfl
  | upd _ u hu ih => exact (hg u hu _).trans ih

section
variable {z : State} {r : Run z}

theorem put (h : Via P s r.s) {u : Upd} (hu : P u) : Via P s (r.put u).s := h.upd u hu

theorem each {α : Type} {l : List α} {f : α → Run z → Run z} (h : Via P s r.s)
    (hf : ∀ a ∈ l, ∀ r : Run z, Via P s r.s → Via P s (f a r).s) : Via P s (r.each l f).s := by
  induction l generalizing r with
  | nil => exact h
  | cons a l ih => exact ih (hf a (.head _) r h) fun b hb => hf b (.tail _ hb)

theorem when (h : Via P s r.s) (c : Bool) {f : Run z → Run z} (hf : ∀ r : Run z, Via P s r.s → Via P s (f r).s) :
    Via P s (r.when c f).s := by
  cases c with
  | false => exact h
  | true => exact hf r h

theorem ite {q : Run z} {c : Prop} [Decidable c] (h : c → Via P s r.s) (g : ¬ c → Via P s q.s) :
    Via P s (if c then r else q).s := by
  split
  · exact h ‹_›
  · exact g ‹_›

end

end Via

/-- The updates that a signal at a tally's home may lead to, and the count of an error: none of them is of fabric time, of the free
values, or of a unit that no signal reaches, and of tallies only those of the numbers given. -/
def SignalUpd (K : Nat → Prop) : Upd → Prop
  | .tally k _ => K k
  | .mem _ _ | .reg _ _ | .hart _ _ | .core _ _ | .gang _ (some _) | .waits _ | .sched _ | .lad _ | .mhy _ | .vault _ | .obs _ => True
  | _ => False

section
variable {z : State} {s : State} {K : Nat → Prop} {r : Run z}

theorem SignalUpd.mono {L : Nat → Prop} (hKL : ∀ k, K k → L k) {u : Upd} (h : SignalUpd K u) : SignalUpd L u := by
  cases u with
  | tally k _ => exact hKL k h
  | gang _ x =>
    cases x with
    | none => exact h
    | some _ => trivial
  | _ => exact h

namespace Via

theorem wake (h : Via (SignalUpd K) s r.s) (key : Nat) : Via (SignalUpd K) s (r.wake key).s  :=
  .ite (fun _ => h.put (u := .hart key _) trivial) fun _ => h

theorem noteReady (h : Via (SignalUpd K) s r.s) (c : Nat) : Via (SignalUpd K) s (r.noteReady c).s  :=
  .ite (fun _ => h) fun _ => h.put (u := .core c _) trivial

theorem endWait (h : Via (SignalUpd K) s r.s) (w : TWait) (st : Nat) : Via (SignalUpd K) s (r.endWait w st).s := by
  have hw : Via (SignalUpd K) s (r.put (.waits (r.s.waits.filter fun x => !(x.who = w.who)))).s := h.put trivial
  unfold Run.endWait
  dsimp only
  split
  · exact hw.put trivial
  · split
    · exact hw
    · exact (hw.noteReady _).put trivial

theorem wakeTally (h : Via (SignalUpd K) s r.s) (i : Nat) : Via (SignalUpd K) s (r.wakeTally i).s :=
  h.each fun w _ _ h => h.endWait w stOk

theorem endWindow (h : Via (SignalUpd K) s r.s) (n st : Nat) : Via (SignalUpd K) s (r.endWindow n st).s :=
  ((h.put (u := .vault _) trivial).put (u := .reg _ _) trivial).put (u := .reg _ _) trivial

theorem windowsFreed (h : Via (SignalUpd K) s r.s) (i : Nat) : Via (SignalUpd K) s (r.windowsFreed i).s :=
  h.each fun w _ _ h => h.endWindow w.1 stOk

theorem parcelsMet (h : Via (SignalUpd K) s r.s) (i : Nat) : Via (SignalUpd K) s (r.parcelsMet i).s :=
  h.each fun _ _ _ h => .ite (fun _ => h) fun _ => h.put (u := .sched _) trivial

theorem watchesMet (h : Via (SignalUpd K) s r.s) (i : Nat) (old v : W32) : Via (SignalUpd K) s (r.watchesMet i old v).s  :=
  .ite (fun _ => h) fun _ => h.put (u := .mhy _) trivial

theorem setBytes (h : Via (SignalUpd K) s r.s) (a : Nat) (bs : List Byte) : Via (SignalUpd K) s (r.setBytes a bs).s := by
  induction bs generalizing r a with
  | nil => exact h
  | cons b bs ih => exact ih (h.put (u := .mem a b) trivial) (a + 1)

theorem markUsed (h : Via (SignalUpd K) s r.s) (c : XCtx) (k : Access) (l : Leaf) :
    Via (SignalUpd K) s (r.markUsed c k l).s  :=
  .ite (fun _ => h) fun _ => h.setBytes _ _

theorem markRange (h : Via (SignalUpd K) s r.s) (c : XCtx) (k : Access) (va n : Nat) :
    Via (SignalUpd K) s (r.markRange c k va n).s := by
  refine .ite (fun _ => h) fun _ => h.each fun i _ r h => ?_
  split
  · exact h.markUsed c k _
  · exact h

theorem verdictSignal (h : Via (SignalUpd K) s r.s) (i : Nat) : Via (SignalUpd K) s (r.verdictSignal i).s := by
  refine h.each fun kl _ r h => ?_
  dsimp only
  split
  · exact h
  · split
    · exact h
    · exact (h.markRange _ _ _ _).put trivial

end Via

/-- What follows the new value of a tally changes no tally. -/
theorem signalTo_via (r : Run z) (i : Nat) (v : W32) :
    Via (SignalUpd fun _ => False) (r.setTally i { r.s.tally i with value := v }).s (r.signalTo i v).s :=
  ((((((Via.refl.wakeTally i).windowsFreed i).parcelsMet i).watchesMet i _ v).verdictSignal i))

namespace Via

theorem signalTo (h : Via (SignalUpd K) s r.s) {i : Nat} (hi : K i) (v : W32) : Via (SignalUpd K) s (r.signalTo i v).s :=
  (h.put (u := .tally i _) hi).trans ((signalTo_via r i v).mono fun _ => SignalUpd.mono fun _ => False.elim)

end Via

end

/-! ## Reads of memory take no fabric time -/

/-- The updates of an error's count: a signal's, on any tally. -/
abbrev ErrorUpd : Upd → Prop := SignalUpd fun _ => True

section
variable {z : State} {s : State} {r : Run z}

namespace Via

theorem setFld (h : Via ErrorUpd s r.s) (k hi lo v : Nat) : Via ErrorUpd s (r.setFld k hi lo v).s :=
  h.put (u := .reg k _) trivial

theorem setReg64 (h : Via ErrorUpd s r.s) (k v : Nat) : Via ErrorUpd s (r.setReg64 k v).s :=
  (h.put (u := .reg k _) trivial).put (u := .reg _ _) trivial

theorem deviceAdd (h : Via ErrorUpd s r.s) (hd : Nat) : Via ErrorUpd s (r.deviceAdd hd).s := by
  refine .ite (fun _ => h) fun _ => ?_
  split
  · exact h.signalTo trivial _
  · exact h

theorem raiseExt (h : Via ErrorUpd s r.s) (n : Nat) : Via ErrorUpd s (r.raiseExt n).s :=
  (h.put (u := .hart n _) trivial).wake n

theorem errFirst (h : Via ErrorUpd s r.s) (b : Nat) : Via ErrorUpd s (r.errFirst b).s :=
  h.when _ fun _ h => (h.put (u := .reg _ _) trivial).setReg64 _ _

theorem errEvent (h : Via ErrorUpd s r.s) (b : Nat) : Via ErrorUpd s (r.errEvent b).s := by
  have hl := ((h.errFirst b).setFld (obsReg 0x200) b b 1).put (u := .obs { (((r.errFirst b).setFld (obsReg 0x200) b b 1).s.obs) with
    errLast := SMap.set 0 (((r.errFirst b).setFld (obsReg 0x200) b b 1).s.obs).errLast b
      ((r.errFirst b).setFld (obsReg 0x200) b b 1).s.now }) trivial
  exact .ite (fun _ => hl) fun _ => (hl.when _ fun _ h => h.raiseExt _).deviceAdd _

theorem countErr (h : Via ErrorUpd s r.s) (k b n : Nat) : Via ErrorUpd s (r.countErr k b n).s :=
  (h.put (u := .reg k _) trivial).errEvent b

theorem correct (h : Via ErrorUpd s r.s) (pa : Nat) : Via ErrorUpd s (r.correct pa).s :=
  (h.put (u := .vault _) trivial).countErr _ _ _

theorem scrub (h : Via ErrorUpd s r.s) (pa n : Nat) : Via ErrorUpd s (r.scrub pa n).s :=
  h.each fun _ _ _ h => h.correct _

theorem scrubWalk (h : Via ErrorUpd s r.s) (c : XCtx) (va : Nat) : Via ErrorUpd s (r.scrubWalk c va).s :=
  .ite (fun _ => h) fun _ => h.each fun a _ _ h => h.scrub a 8

theorem translate (h : Via ErrorUpd s r.s) {c : XCtx} {k : Access} {va pa : Nat} {r' : Run z}
    (ht : r.translate c k va = .ok (pa, r')) : Via ErrorUpd s r'.s := by
  unfold Run.translate at ht
  split at ht
  · cases ht
  · cases ht
    exact h.markUsed c k _

theorem laneFetch {c : XCtx} {l : List Nat} {r' : Run z} (h : Via ErrorUpd s r.s) (hf : laneFetch r c l = .ok r') :
    Via ErrorUpd s r'.s := by
  induction l generalizing r with
  | nil => cases hf; exact h
  | cons a l ih =>
    unfold Machine.laneFetch at hf
    split at hf
    · cases hf
    · next pa r₁ ht =>
      split at hf
      · exact ih (((h.scrubWalk c a).translate ht).scrub pa 4) hf
      · cases hf

end Via

/-- The count of an error takes no fabric time. -/
theorem Via.now (h : Via ErrorUpd s r.s) : r.s.now = s.now :=
  h.keep State.now fun u hu x => by
    rw [Upd.apply_now]
    cases u with
    | now _ => exact hu.elim
    | _ => rfl

end

/-- A gang's instruction begins at the time at which its fetch began. -/
theorem OnLane.now {s : State} {c g : Nat} {w : Words} {regs tds : List Nat} {x : Gang} {r : Run s}
    (h : OnLane s c g w regs tds x r) : r.s.now = s.now :=
  (Via.refl.laneFetch (r := Run.start s) h.fetched).now

end Sys2Proof.Machine
end


section
/-! PROOFS. Branches, the control of gangs, exceptions and the control registers (R61 to R64, R73 to R77, R90). -/

namespace Sys2Proof.Machine

/-! ## Branches (R62) -/

/-- A hart's branch, from its program counter. -/
theorem hartJumps_of_issue {mk : Agent → Instr} {legal : Bool} {out : W64 → Hart → Hart}
    (hh : ∀ s n, exec (mk (.host n)) s = done (hartIssue (Run.start s) (hostKey n) (wordsOf (mk (.host n))) legal
      fun h r => (r, .next (out (s.hart (hostKey n)).pc h))))
    (hf : ∀ s p, exec (mk (.fw p)) s = done (hartIssue (Run.start s) (fwKey p) (wordsOf (mk (.fw p))) legal
      fun h r => (r, .next (out (s.hart (fwKey p)).pc h)))) (hl : legal = true) : HartJumps mk out := by
  intro s ag key r h
  rw [h.exec_issue (legal := legal) (body := fun k _ h r => (r, .next (out (s.hart k).pc h)))
    (by rintro n rfl hk; rw [hh, hk]) (by rintro p rfl; exact hf s p), hl, h.issue]

/-- A gang's branch. -/
theorem laneJumps_of_issue {mk : Agent → Instr} {guard : BitVec 4} {regs : List Nat} {target : Nat → Thread → Int}
    {link : Nat → Thread → Thread}
    (he : ∀ s c g, exec (mk (.lane c g)) s = done (laneIssue (Run.start s) c g (wordsOf (mk (.lane c g))) true guard regs []
      fun cx x r => laneBranch r cx x (fun _ t => target cx.pc t) (link cx.pc))) : LaneJumps mk guard regs target link := by
  intro s c g x r h pc y out
  have hout : ((x.enabled guard).filter fun l => decide (target pc (y.thread l) < 0) ||
      decide ((target pc (y.thread l)).toNat / 2 ^ 32 ≠ pc / 2 ^ 32)) = out := by
    simp only [out, Bool.decide_or]
  rw [he, done_next h.up, h.issue]
  simp only [laneBranch]
  rw [hout]
  refine ⟨fun ho => ?_, fun ho => ?_⟩
  · rw [ho]; rfl
  · rw [if_neg (by simpa using ho)]

/-- Settles O17: each branch by its issue on a hart and in a gang. -/
theorem branchInstructions : Obligations.BranchInstructions := by
  refine ⟨fun f => ⟨fun hg => hartJumps_of_issue (fun _ _ => rfl) (fun _ _ => rfl) (decide_eq_true hg),
      laneJumps_of_issue fun _ _ _ => rfl⟩,
    fun f => ⟨fun hg => hartJumps_of_issue (fun _ _ => rfl) (fun _ _ => rfl) (decide_eq_true hg),
      laneJumps_of_issue fun _ _ _ => rfl⟩,
    fun f hd ha hb hfn hi => ?bral, fun f hb => ?jr⟩
  case bral =>
    have legal : (f.d = 0 && f.a = 0 && f.b = 0 && f.func = 0 && f.imm.toNat % 4 = 0) = true := by simp [hd, ha, hb, hfn, hi]
    refine ⟨fun hg => hartJumps_of_issue (fun _ _ => rfl) (fun _ _ => rfl) ?_, laneJumps_of_issue fun s c g => ?_⟩
    · rw [legal, hg]; rfl
    · show done (branchLanes _ _ _ _ (_ && _) _ _ _) = _
      rw [legal]; rfl
  case jr =>
    refine ⟨fun hg => hartJumps_of_issue (legal := f.b = 0 && f.guard = 0) (fun _ _ => rfl) (fun _ _ => rfl) (by simp [hb, hg]),
      fun s c g x r h => ?_⟩
    show done (laneIssue _ _ _ _ (decide (f.b = 0)) _ _ _ _) = _
    rw [decide_eq_true hb, done_next h.up, h.issue]

/-! ## Threads of a gang -/

namespace Gang

/-- The lanes of a whole gang are its 64 threads by number. -/
theorem mem_lanes {x : Gang} (hx : x.threads.length = 64) {l : Nat} {t : Thread} :
    (l, t) ∈ x.lanes ↔ l < 64 ∧ x.thread l = t := by
  have hl : x.lanes.length = 64 := by simp [lanes, hx]
  constructor
  · intro h
    obtain ⟨i, hi, he⟩ := List.mem_iff_getElem.mp h
    simp only [lanes, List.getElem_zip, List.getElem_range, Prod.mk.injEq] at he
    obtain ⟨rfl, rfl⟩ := he
    rw [hl] at hi
    exact ⟨hi, by simp [thread, hx, hi]⟩
  · rintro ⟨h, rfl⟩
    refine List.mem_iff_getElem.mpr ⟨l, by omega, ?_⟩
    simp [lanes, thread, hx, h]

/-- A change of some lanes, thread by thread. -/
theorem thread_mapLanes {x : Gang} (hx : x.threads.length = 64) (ls : List Nat) (f : Nat → Thread → Thread) {l : Nat}
    (h : l < 64) : (x.mapLanes ls f).thread l = if l ∈ ls then f l (x.thread l) else x.thread l := by
  simp [mapLanes, lanes, thread, hx, h]

/-- The threads that have not exited. -/
def live (x : Gang) : List (Nat × Thread) := x.lanes.filter fun p => !p.2.exited

theorem mem_live {x : Gang} (hx : x.threads.length = 64) {l : Nat} {t : Thread} :
    (l, t) ∈ x.live ↔ (l < 64 ∧ x.thread l = t) ∧ t.exited = false := by
  simp [live, List.mem_filter, mem_lanes hx]

end Gang

/-- A BAR that every live thread has reached at one instruction releases them. -/
theorem barRelease_all {x : Gang} {p : Nat × Thread} {l : List (Nat × Thread)} (hp : x.live = p :: l)
    (h : ∀ q ∈ x.live, q.2.atBar = true ∧ q.2.pc = p.2.pc) : barRelease x =
      { x.mapLanes (x.live.map (·.1)) (fun _ t => { t with atBar := false, pc := t.pc + 4 }) with blockedAt := none } := by
  have all : ((p :: l).all fun q => q.2.atBar && q.2.pc = p.2.pc) = true := by
    rw [hp] at h
    simpa using h
  unfold barRelease
  rw [show (x.lanes.filter fun p => !p.2.exited) = p :: l from hp]
  simp only [all, if_true, hp]

/-- A BAR that a live thread has not reached releases none. -/
theorem barRelease_none {x : Gang} {q : Nat × Thread} (hq : q ∈ x.live) (h : q.2.atBar = false) : barRelease x = x := by
  unfold barRelease
  rw [show (x.lanes.filter fun p => !p.2.exited) = x.live from rfl]
  generalize x.live = live at hq
  cases live with
  | nil => rfl
  | cons p l =>
    have some_not : ((p :: l).all fun q => q.2.atBar && q.2.pc = p.2.pc) = false :=
      List.all_eq_false.mpr ⟨q, hq, by simp [h]⟩
    simp only [some_not, Bool.false_eq_true, if_false]

/-- Settles O19: a BAR by whether all live threads stand at it, and the expiry of a YIELD by its conditions. -/
theorem barAndYield : Obligations.BarAndYield := by
  refine ⟨fun x hx => ⟨fun pc h l hl => ?_, fun ⟨l, ⟨hl, he⟩, hb⟩ => ?_⟩, fun s c g x t hup hg hb hy ht => ?_⟩
  · have hmem : (l, x.thread l) ∈ x.live := (Gang.mem_live hx).mpr ⟨⟨hl.1, rfl⟩, hl.2⟩
    have hall : ∀ q ∈ x.live, q.2.atBar = true ∧ q.2.pc = pc := fun ⟨m, u⟩ hq => by
      obtain ⟨⟨hm, rfl⟩, he⟩ := (Gang.mem_live hx).mp hq
      exact h m ⟨hm, he⟩
    obtain ⟨p, rest, hlive⟩ := List.exists_cons_of_ne_nil (List.ne_nil_of_mem hmem)
    have hp : p.2.pc = pc := (hall p (by simp [hlive])).2
    rw [barRelease_all hlive fun q hq => ⟨(hall q hq).1, (hall q hq).2.trans hp.symm⟩]
    refine (Gang.thread_mapLanes hx (x.live.map (·.1)) (fun _ t => { t with atBar := false, pc := t.pc + 4 }) hl.1).trans ?_
    rw [if_pos (List.mem_map.mpr ⟨_, hmem, rfl⟩), (h l hl).2]
  · exact barRelease_none ((Gang.mem_live hx).mpr ⟨⟨hl, rfl⟩, he⟩) hb
  · have due : (!x.yieldTo.isEmpty && decide (s.now ≥ t + arithNs s c 64)) = true := by simp [hy, ht]
    show execYieldExpiry c g s = _
    simp only [execYieldExpiry, hg, hb, due, if_true, done_next hup]
    rfl

/-! ## EXIT, BAR, YIELD and RDS (R63, R64, R90) -/

/-- A SYS instruction whose unused fields are 0 is spelt well. -/
theorem sysOk_of {f : R3} (hd : f.d = 0) (ha : f.a = 0) (hb : f.b = 0) : sysOk f = true := by simp [sysOk, hd, ha, hb]

/-- RDS by the seven values of its selector. -/
theorem rdsValue_cases (s : State) (c g l : Nat) {imm : BitVec 11} (h : imm.toNat ≤ 6) (d : Nat) (t : Thread) :
    (rdsValue s c g l imm.toNat t).2.wg d (BitVec.ofNat 32 (rdsValue s c g l imm.toNat t).1) =
      if imm = 0 then t.wg d (BitVec.ofNat 32 (64 * g + l))
      else if imm = 1 then t.wg d (BitVec.ofNat 32 g)
      else if imm = 2 then t.wg d (BitVec.ofNat 32 l)
      else if imm = 3 then t.wg d (BitVec.ofNat 32 (logicalOf s c))
      else if imm = 4 then t.wg d (BitVec.ofNat 32 (c / 12))
      else if imm = 5 then
        ({ t with ftHi := BitVec.ofNat 32 (s.timeAt (tbCore c) / 2 ^ 32) }).wg d (BitVec.ofNat 32 (s.timeAt (tbCore c)))
      else t.wg d t.ftHi := by
  obtain ⟨n, hn, rfl⟩ : ∃ n, n ≤ 6 ∧ imm = BitVec.ofNat 11 n := ⟨imm.toNat, h, by simp⟩
  obtain rfl | rfl | rfl | rfl | rfl | rfl | rfl : n = 0 ∨ n = 1 ∨ n = 2 ∨ n = 3 ∨ n = 4 ∨ n = 5 ∨ n = 6 := by omega
  all_goals simp [rdsValue]

/-- Settles O18: each instruction by its issue in a gang; BAR notes the time of its issue, at which its fetch began. -/
theorem gangControl : Obligations.GangControl := by
  refine ⟨fun f hd ha hb => ⟨fun s c g x r h => ?_, fun s c g x r h => ?_, fun s c g x r h => ?_,
    hartIllegal_of_issue (body := fun h _ r => (r, .next h)) (fun _ _ => rfl) fun _ _ => rfl,
    hartIllegal_of_issue (body := fun h _ r => (r, .next h)) (fun _ _ => rfl) fun _ _ => rfl,
    hartIllegal_of_issue (body := fun h _ r => (r, .next h)) (fun _ _ => rfl) fun _ _ => rfl⟩,
    fun f ha hi => ⟨fun s c g x r h => ?_,
      hartIllegal_of_issue (body := fun h _ r => (r, .next h)) (fun _ _ => rfl) fun _ _ => rfl⟩⟩
  · show done (laneIssue _ _ _ _ (sysOk f) _ _ _ _) = _
    rw [sysOk_of hd ha hb, done_next h.up, h.issue]
  · show done (laneIssue _ _ _ _ (sysOk f) _ _ _ _) = _
    rw [sysOk_of hd ha hb, done_next h.up, h.issue]
    simp only [h.now, List.isEmpty_iff]
  · show done (laneIssue _ _ _ _ (sysOk f) _ _ _ _) = _
    rw [sysOk_of hd ha hb, done_next h.up, h.issue]
    simp only [h.now, Bool.decide_and, Bool.decide_eq_true]
    by_cases hy : x.enabled f.guard = [] ∨ ((List.range 128).filter fun o => decide (o ≠ g) && gangReady s c o) = []
    · rw [if_pos hy, if_pos (by simpa using hy)]
    · rw [if_neg hy, if_neg (by simpa using hy)]
  · show done (laneIssue _ _ _ _ (_ && _) _ _ _ _) = _
    rw [show (decide (f.a = 0) && decide (f.imm.toNat ≤ 6)) = true by simp [ha, hi], done_next h.up, h.issue]
    simp only [rdsValue_cases _ _ _ _ hi]

end Sys2Proof.Machine
end


section
/-! PROOFS. Traps, the instructions that raise or return from one, the control registers and interrupts (R45, R63, R73 to R79). -/

namespace Sys2Proof.Machine

/-! ## Taking a trap and returning from it (R73) -/

/-- The information that a trap saves: INT, FROM, PRIOR_IE, LONG, class and code. -/
def trapInfo (int prior long : Bool) (from_ cls code : Nat) : Nat :=
  (if int then 2 ^ 63 else 0) + from_ * 2 ^ 22 + (if prior then 2 ^ 21 else 0) + (if long then 2 ^ 20 else 0) + cls * 2 ^ 8 + code

/-- The fields of what a trap saves, where its code and class fit theirs. -/
theorem trapInfo_fields (int prior long : Bool) {from_ cls code : Nat} (hf : from_ < 4) (hcl : cls < 8) (hc : code < 256) :
    trapInfo int prior long from_ cls code < 2 ^ 64 ∧
    bits (trapInfo int prior long from_ cls code) 7 0 = code ∧ bits (trapInfo int prior long from_ cls code) 10 8 = cls ∧
    bit (trapInfo int prior long from_ cls code) 63 = int ∧ bit (trapInfo int prior long from_ cls code) 20 = long ∧
    bit (trapInfo int prior long from_ cls code) 21 = prior ∧ bits (trapInfo int prior long from_ cls code) 23 22 = from_ := by
  unfold trapInfo bits bit
  cases int <;> cases prior <;> cases long <;> simp <;> omega

theorem Mode.code_lt (m : Mode) : m.code < 4 := by cases m <;> decide

theorem Mode.ofCode_code (m : Mode) : Mode.ofCode m.code = m := by cases m <;> rfl

section
variable (h : Hart) (int : Bool) (code cls : Nat) (ret tval : W64) (long : Bool)

/-- The hart after a trap that Monitor mode serves. -/
theorem trapTo_mon : h.trapTo .mon int code cls ret tval long = { h with
    trapM := { h.trapM with
      ret := ret, info := BitVec.ofNat 64 (trapInfo int h.ieM long h.mode.code cls code), data := tval }
    ieM := false, mode := .mon
    pc := h.trapM.base + BitVec.ofNat 64 (64 * (if int then 8 + code else cls)) } := rfl

/-- The hart after a trap that Supervisor mode serves. -/
theorem trapTo_sup : h.trapTo .sup int code cls ret tval long = { h with
    trapS := { h.trapS with
      ret := ret, info := BitVec.ofNat 64 (trapInfo int h.ieS long h.mode.code cls code), data := tval }
    ieS := false, mode := .sup
    pc := h.trapS.base + BitVec.ofNat 64 (64 * (if int then 8 + code else cls)) } := rfl

end

/-- Settles O20: an entry by what each serving mode saves, and the return by the fields of what was saved. -/
theorem trapEntryAndReturn : Obligations.TrapEntryAndReturn := by
  refine ⟨fun h t int code cls ret tval long ht hc hcl => ?_, fun h t int code cls tval long ht hc hcl hr => ?_⟩
  · have fields := fun prior => trapInfo_fields int prior long (from_ := h.mode.code) h.mode.code_lt hcl hc
    cases t with
    | user => exact absurd rfl ht
    | sup =>
      obtain ⟨fits, fcode, fcls, fint, flong, fprior, ffrom⟩ := fields h.ieS
      simp only [trapTo_sup, Hart.trapSet, Hart.ie, BitVec.toNat_ofNat, Nat.mod_eq_of_lt fits, fcode, fcls, fint, flong, fprior,
        ffrom]
      simp
    | mon =>
      obtain ⟨fits, fcode, fcls, fint, flong, fprior, ffrom⟩ := fields h.ieM
      simp only [trapTo_mon, Hart.trapSet, Hart.ie, BitVec.toNat_ofNat, Nat.mod_eq_of_lt fits, fcode, fcls, fint, flong, fprior,
        ffrom]
      simp
  · have fields := fun prior => trapInfo_fields int prior long (from_ := h.mode.code) h.mode.code_lt hcl hc
    cases t with
    | user => exact absurd rfl ht
    | sup =>
      obtain ⟨fits, _, _, _, _, fprior, ffrom⟩ := fields h.ieS
      simp only [trapTo_sup, Hart.trapReturn, Hart.trapSet, BitVec.toNat_ofNat, Nat.mod_eq_of_lt fits, fprior, ffrom,
        Mode.ofCode_code, if_neg (Nat.not_lt.mpr hr)]
      rfl
    | mon =>
      obtain ⟨fits, _, _, _, _, fprior, ffrom⟩ := fields h.ieM
      simp only [trapTo_mon, Hart.trapReturn, Hart.trapSet, BitVec.toNat_ofNat, Nat.mod_eq_of_lt fits, fprior, ffrom,
        Mode.ofCode_code, if_neg (Nat.not_lt.mpr hr)]
      rfl

/-! ## Instructions that raise a cause (R45, R63, R77) -/

/-- What UPCALL ends in on a hart: the cause of the mode it executes in. -/
def upcallEnd (h : Hart) : HEnd := .trap (match h.mode with | .user => .upcallU | .sup => .upcallS | .mon => .upcallM) 0

/-- Settles O21: UPCALL as a computation that ends in its cause, BREAK and the words of no instruction by their issue. -/
theorem exceptionInstructions : Obligations.ExceptionInstructions := by
  refine ⟨fun f hd ha hb => ⟨fun hg => ⟨?upcall, ?brk⟩, ?lane, fun s c g x r h => ?brkLane⟩, fun w0 w1 hw => ⟨?illegal, ?illegalLane⟩⟩
  case upcall =>
    refine hartTraps_compute (onHart := fun _ _ => upcallEnd) (fun s ag _ => rfl) (by simp [sysOk_of hd ha hb, hg])
      fun ag key h w _ _ => ?_
    show upcallEnd h = _
    unfold upcallEnd
    cases h.mode <;> rfl
  case lane =>
    exact laneIllegal_compute (onHart := fun _ _ => upcallEnd) (fun s c g => rfl) (by simp)
  case brk =>
    intro s ag key r h _
    have legal : (sysOk f && decide (f.guard = 0)) = true := by simp [sysOk_of hd ha hb, hg]
    rw [h.exec_issue (legal := sysOk f && decide (f.guard = 0))
      (body := fun k _ _ r => (r, .trap .breakpoint (s.hart k).pc.toNat)) (by rintro n rfl _; rfl) (by rintro p rfl; rfl), legal, h.issue]
  case brkLane =>
    have he : exec (.brk (.lane c g) f) s = done (laneIssue (Run.start s) c g (wordsOf (.brk (.lane c g) f)) (sysOk f) f.guard
      [] [] fun cx x r => if cx.enabled.isEmpty then (r, .next x)
        else (r, .fault (cx.enabled.map fun l => (l, .breakpoint, cx.pc)))) := rfl
    rw [he, sysOk_of hd ha hb, done_next h.up, h.issue]
    refine ⟨fun hn => ?_, fun hn => ?_⟩
    · simp only [List.isEmpty_iff, if_neg hn]
    · simp only [List.isEmpty_iff, if_pos hn]
  case illegal =>
    intro s ag key r h
    rw [show exec (.illegalInstr ag w0 w1) s = execIllegalInstr ag w0 w1 s from rfl]
    obtain ⟨rfl, _, _⟩ | ⟨p, rfl, _, _⟩ := h.agent_cases
    · simp only [execIllegalInstr, hw, Option.isSome_none, Bool.false_eq_true, if_false, h.agent, done_next h.up]
      rw [← h.illegal]; rfl
    · simp only [execIllegalInstr, hw, Option.isSome_none, Bool.false_eq_true, if_false, h.agent, done_next h.up]
      rw [← h.illegal]; rfl
  case illegalLane =>
    intro s c g x r h
    rw [show exec (.illegalInstr (.lane c g) w0 w1) s = execIllegalInstr (.lane c g) w0 w1 s from rfl]
    simp only [execIllegalInstr, hw, Option.isSome_none, Bool.false_eq_true, if_false, done_next h.up]
    rw [← h.illegal 0 [] []]; rfl

/-! ## TRET and SNOOZE (R63, R73) -/

/-- What TRET ends in on a hart. -/
def tretEnd (w0 : Nat) (h : Hart) : HEnd :=
  if h.mode = .user then .trap .privileged w0
  else match h.trapReturn with
    | some h' => .next h'
    | none => .trap .privileged w0

/-- What SNOOZE ends in on a hart. -/
def snoozeEnd (s : State) (w0 : Nat) (h : Hart) : HEnd :=
  if h.mode = .user then .trap .privileged w0 else .next { h with snoozing := !([1, 2, 3, 4].any (irqPending s h)) }

theorem tretEnd_next {w0 : Nat} {h h' : Hart} (hm : h.mode ≠ .user) (hr : h.trapReturn = some h') : tretEnd w0 h = .next h' := by
  simp only [tretEnd, if_neg hm, hr]

theorem tretEnd_trap {w0 : Nat} {h : Hart} (ho : h.mode = .user ∨ h.trapReturn = none) :
    tretEnd w0 h = .trap .privileged w0 := by
  unfold tretEnd
  split
  · rfl
  · next hm => rw [ho.resolve_left hm]

/-- An issue changes neither what a return gives up on, nor what is pending. -/
theorem trapReturn_issued_none (h : Hart) (w : Words) : h.trapReturn = none → (h.issued w).trapReturn = none := by
  unfold Hart.trapReturn Hart.issued
  dsimp only [Hart.trapSet]
  cases h.mode <;> simp

/-- A computation that raises a cause on a hart traps there. -/
theorem OnHart.trap_compute {s : State} {i : Instr} {ag : Agent} {key : Nat} {r : Run s} (h : OnHart s ag key (wordsOf i) r)
    {prof : Prof} {legal : Bool} {guard : BitVec 4} {regs : List Nat} {onHart : Bool → Hart → HEnd}
    {onLane : Nat → Thread → Thread} (hl : (legal && prof ≠ .lane && guard = 0) = true) {c : Cause} {v : Nat}
    (hr : ∀ b, onHart b ((s.hart key).issued (wordsOf i)) = .trap c v) :
    done (Machine.compute (Run.start s) i ag prof legal guard regs onHart onLane) =
      .next (r.hartTrap key (s.hart key) c v (wordsOf i).long).s := by
  obtain ⟨rfl, hk, _⟩ | ⟨p, rfl, hk, _⟩ := h.agent_cases
  · simp only [Machine.compute, hl, hk, h.issue, hr, done_next h.up]
  · simp only [Machine.compute, hl, hk, h.issue, hr, done_next h.up]

/-- Settles O22: both instructions as computations of the host profile. -/
theorem privilegedInstructions : Obligations.PrivilegedInstructions := by
  intro f hd ha hb hg
  have legal : sysOk f = true := sysOk_of hd ha hb
  have tret : ∀ s ag, exec (.tret ag f) s = done (compute (Run.start s) (.tret ag f) ag .host (sysOk f) f.guard []
    (fun _ => tretEnd (wordsOf (.tret ag f)).w0.toNat) fun _ t => t) := fun _ _ => rfl
  have snooze : ∀ s ag, exec (.snooze ag f) s = done (compute (Run.start s) (.snooze ag f) ag .host (sysOk f) f.guard []
    (fun _ => snoozeEnd s (wordsOf (.snooze ag f)).w0.toNat) fun _ t => t) := fun _ _ => rfl
  refine ⟨fun s ag key r h hm h' hr => ?_, ?_, fun s ag key r h hm => ?_, ?_, ?_, ?_⟩
  · rw [tret, h.compute (by simp [legal, hg]) fun _ _ => tretEnd_next hm hr]
  · refine hartTraps_compute (fun s ag _ => tret s ag) (by simp [legal, hg]) fun ag key h w _ ho => ?_
    exact tretEnd_trap (ho.imp id (trapReturn_issued_none h w))
  · rw [snooze, h.compute (by simp [legal, hg]) fun _ _ => if_neg hm, List.not_any_eq_all_not]
  · intro s ag key r h hm
    rw [snooze, h.trap_compute (by simp [legal, hg]) fun _ => if_pos hm]
    rfl
  · exact laneIllegal_compute (onHart := fun _ _ _ => .stall) (fun _ _ _ => rfl) (by simp)
  · exact laneIllegal_compute (onHart := fun _ _ _ => .stall) (fun _ _ _ => rfl) (by simp)

/-! ## The control registers (R75, R79) -/

/-- The meaning of a control-register instruction whose encoding is legal, on a hart. -/
theorem csrAccess_of_exec {mk : Agent → Instr} {n : Nat} {d : BitVec 5} {write : Bool} {next : Hart → W64 → Option W64}
    {legal : Bool} (he : ∀ s ag, exec (mk ag) s = done (hostOnly (Run.start s) ag (wordsOf (mk ag)) fun k r =>
      csrInstr r k (wordsOf (mk ag)) legal n d next write)) (hl : legal = true) : CsrAccess mk n d write next := by
  intro s ag key r h
  have hi : exec (mk ag) s = .next (csrInstr (Run.start s) key (wordsOf (mk ag)) true n d next write).s := by
    rw [he, hl, done_next h.up]
    obtain ⟨rfl, _, _⟩ | ⟨p, rfl, _, _⟩ := h.agent_cases
    · simp only [hostOnly, h.agent]
    · simp only [hostOnly, h.agent]
  unfold csrInstr at hi
  rw [h.issue] at hi
  refine ⟨fun c hc => ?_, fun hc => ?_⟩
  · rw [hi, hc]
  · rw [hi, hc] <;> rfl

/-- An encoding that a gang takes as illegal at its issue. -/
theorem laneIllegal_of_issue {mk : Agent → Instr} {guard : BitVec 4} {regs : List Nat}
    {body : {s : State} → LCtx → Gang → Run s → Run s × LEnd}
    (he : ∀ s c g, exec (mk (.lane c g)) s =
      done (laneIssue (Run.start s) c g (wordsOf (mk (.lane c g))) false guard regs [] fun cx x r => body cx x r)) :
    LaneIllegal mk := by
  intro s c g x r h
  rw [he, done_next h.up, h.illegal]

/-- Settles O23: the three instructions by what an access of a control register does. -/
theorem controlRegisterInstructions : Obligations.ControlRegisterInstructions := by
  refine ⟨fun f hg => ⟨fun ha => csrAccess_of_exec (fun _ _ => rfl) (by simp [ha, hg]),
    csrAccess_of_exec (fun _ _ => rfl) (by simp [hg]),
      laneIllegal_of_issue (guard := 0) (body := fun _ x r => (r, .next x)) fun _ _ _ => rfl,
      laneIllegal_of_issue (guard := 0) (body := fun _ x r => (r, .next x)) fun _ _ _ => rfl⟩,
    fun f hg hfn hi => ⟨csrAccess_of_exec (fun _ _ => rfl) (by simp [hg, hfn, hi]),
      laneIllegal_of_issue (guard := 0) (body := fun _ x r => (r, .next x)) fun _ _ _ => rfl⟩⟩

/-- What a control register that exists is by its number: its lowest mode, and who has it. -/
theorem csrOf_ranges {n : Nat} {c : Csr} (h : csrOf n = some c) :
    (0x300 ≤ n → c.mode = .mon) ∧ (0x100 ≤ n → n < 0x300 → c.mode = .sup) ∧ (0x320 ≤ n → c.fwOnly = true) ∧
      (0x048 ≤ n → n ≤ 0x04B → c.ro = true) := by
  unfold csrOf at h
  split at h
  · cases h; omega
  split at h
  · cases h; exact ⟨by omega, by omega, by omega, fun _ _ => rfl⟩
  split at h
  · cases h; exact ⟨by omega, fun _ _ => rfl, by omega, by omega⟩
  split at h
  · cases h; exact ⟨fun _ => rfl, by omega, by omega, by omega⟩
  split at h
  · cases h; exact ⟨fun _ => rfl, by omega, fun _ => rfl, by omega⟩
  · cases h

/-- An access of a control register that raises nothing is to one that the hart has, from a mode high enough, and no write of one
that is read-only. -/
theorem csrCheck_none {key n : Nat} {h : Hart} {write : Bool} (hc : csrCheck key h n write = none) :
    ∃ c, csrOf n = some c ∧ (c.ro = true → write = false) ∧ (c.fwOnly = true → isFw key = true) ∧
      (c.mode = .sup → isFw key = false) ∧ c.mode.rank ≤ h.mode.rank := by
  unfold csrCheck at hc
  split at hc
  · cases hc
  · next c hn =>
    refine ⟨c, hn, ?_⟩
    split at hc
    · cases hc
    · next hdenied =>
      split at hc
      · cases hc
      · next hrank =>
        simp only [Bool.or_eq_true, Bool.and_eq_true, decide_eq_true_eq, not_or, not_and, Bool.not_eq_true, Bool.not_eq_true',
          Bool.not_eq_false] at hdenied
        obtain ⟨⟨hro, hfw⟩, hsup⟩ := hdenied
        refine ⟨hro, hfw, fun hm => ?_, by omega⟩
        by_contra hk
        exact hsup (by simpa using hk) hm

theorem Mode.eq_mon_of_rank {m : Mode} (h : Mode.mon.rank ≤ m.rank) : m = .mon := by
  cases m with
  | mon => rfl
  | _ => exact absurd h (by decide)

theorem Mode.rank_le_mon (m : Mode) : m.rank ≤ Mode.mon.rank := by cases m <;> decide

theorem Mode.ne_user_of_rank {m : Mode} (h : Mode.sup.rank ≤ m.rank) : m ≠ .user := by
  rintro rfl
  exact absurd h (by decide)

/-- Settles O24: the reach of an access by what its register is, and a write of each register by the model's equation for it. -/
theorem controlRegisterRules : Obligations.ControlRegisterRules := by
  refine ⟨fun key h n write hc => ?_, fun key h v => ⟨rfl, rfl, rfl, rfl, rfl, rfl, rfl, rfl, rfl, rfl, rfl, rfl, fun hm => ?_⟩⟩
  · obtain ⟨c, hn, hro, hfw, hsup, hrank⟩ := csrCheck_none hc
    obtain ⟨hmon, hs, hfwOnly, hcount⟩ := csrOf_ranges hn
    refine ⟨fun hge => Mode.eq_mon_of_rank (hmon hge ▸ hrank), fun hge => ?_, fun hge hlt => hsup (hs hge hlt),
      fun hge => hfw (hfwOnly hge), fun hge hle => hro (hcount hge hle)⟩
    by_cases hlt : n < 0x300
    · exact Mode.ne_user_of_rank (hs hge hlt ▸ hrank)
    · have hm : h.mode = .mon := Mode.eq_mon_of_rank (hmon (by omega) ▸ hrank)
      rw [hm]
      decide
  · simp only [csrWrite, hm, if_true]

/-! ## Interrupts (R74) -/

/-- An interrupt that can be taken is one of four. -/
theorem irqTakeable_iff {s : State} {h : Hart} {n : Nat} : irqTakeable s h n = true ↔
    irqPending s h n = true ∧ bit h.irqen.toNat n = true ∧
      (h.mode.rank < (irqTarget h n).rank ∨ (irqTarget h n = h.mode ∧ h.ie (irqTarget h n) = true)) := by
  simp [irqTakeable, and_assoc]

theorem irqPending_mem {s : State} {h : Hart} {n : Nat} (hp : irqPending s h n = true) : n ∈ [1, 2, 3, 4] := by
  unfold irqPending at hp
  split at hp <;> simp at *

/-- An interrupt's target is Monitor or Supervisor mode. -/
theorem irqTarget_cases (h : Hart) (n : Nat) : irqTarget h n = .mon ∨ irqTarget h n = .sup := by
  unfold irqTarget
  split
  · exact .inl rfl
  · exact .inr rfl

/-- The first of the interrupt codes with a property is the least with it. -/
theorem le_of_head_filter {p : Nat → Bool} {n m : Nat} {l : List Nat} (h : [1, 2, 3, 4].filter p = n :: l)
    (hm : m ∈ [1, 2, 3, 4].filter p) : n ≤ m := by
  have sorted : ([1, 2, 3, 4].filter p).Pairwise (· < ·) := List.Pairwise.filter p (by decide)
  rw [h] at sorted hm
  rcases List.mem_cons.mp hm with rfl | hm
  · exact Nat.le_refl _
  · exact Nat.le_of_lt (List.rel_of_pairwise_cons sorted hm)

/-- The interrupt chosen can be taken, by a mode as high as any other that can, and is the least by that mode. -/
theorem irqChoice_spec {s : State} {h : Hart} {n : Nat} (hn : irqChoice s h = some n) : irqTakeable s h n = true ∧
    ∀ m, irqTakeable s h m = true →
      (irqTarget h m).rank ≤ (irqTarget h n).rank ∧ (irqTarget h m = irqTarget h n → n ≤ m) := by
  have mem : ∀ m, irqTakeable s h m = true → m ∈ [1, 2, 3, 4].filter (irqTakeable s h) := fun m hm =>
    List.mem_filter.mpr ⟨irqPending_mem (irqTakeable_iff.mp hm).1, hm⟩
  unfold irqChoice at hn
  dsimp only at hn
  split at hn
  · next k l hk =>
    cases hn
    have hmem : n ∈ ([1, 2, 3, 4].filter (irqTakeable s h)).filter fun n => irqTarget h n == .mon := by
      rw [hk]; exact .head _
    obtain ⟨hcan, hmon⟩ := List.mem_filter.mp hmem
    have hmon' : irqTarget h n = .mon := by simpa using hmon
    refine ⟨(List.mem_filter.mp hcan).2, fun m hm => ⟨?_, fun ht => ?_⟩⟩
    · rw [hmon']
      exact Mode.rank_le_mon _
    · rw [List.filter_filter] at hk
      refine le_of_head_filter hk ?_
      rw [← List.filter_filter]
      exact List.mem_filter.mpr ⟨mem m hm, by simp [ht, hmon']⟩
  · next hk =>
    have sup : ∀ m, irqTakeable s h m = true → irqTarget h m = .sup := fun m hm =>
      (irqTarget_cases h m).resolve_left fun ht =>
        List.not_mem_nil (hk ▸ List.mem_filter.mpr ⟨mem m hm, by simp [ht]⟩)
    obtain ⟨l, hl⟩ := List.head?_eq_some_iff.mp hn
    have hcan : irqTakeable s h n = true := (List.mem_filter.mp (by rw [hl]; exact .head _)).2
    refine ⟨hcan, fun m hm => ⟨?_, fun _ => le_of_head_filter hl (mem m hm)⟩⟩
    rw [sup m hm, sup n hcan]

/-- Settles O25: the wake of a hart and the take of an interrupt by what each writes, and the choice by the order in which it is
made. -/
theorem interrupts : Obligations.Interrupts := by
  refine ⟨⟨fun s ag key hup hs ha ht => ?_, fun s ag key n hup hs ha hr hn => ?_⟩, fun s h n hn => ?_⟩
  · have pending : [1, 2, 3, 4].any (irqPending s (s.hart key)) = true :=
      List.any_eq_true.mpr ⟨1, by simp, decide_eq_true ht⟩
    have timer : timerPending s (s.hart key) = true := decide_eq_true ht
    show ∃ t, execTimerInterruptPending ag s = _ ∧ _
    simp only [execTimerInterruptPending, ha, timer, if_true, done_next hup, Run.wake, Run.start_s, pending, Bool.and_true]
    cases hz : (s.hart key).snoozing with
    | true => exact ⟨_, rfl, hart_hart_self hs.units _ _, fun k hk => hart_hart_ne s _ hk, rfl, rfl⟩
    | false =>
      refine ⟨_, rfl, ?_, fun _ _ => rfl, rfl, rfl⟩
      show s.hart key = _
      generalize s.hart key = h at hz
      cases h
      cases hz
      rfl
  · show ∃ t, execInterruptTake ag s = _ ∧ _
    simp only [execInterruptTake, ha, hr, hn, Bool.not_true, Bool.false_eq_true, if_false, done_next hup]
    refine ⟨_, rfl, hart_hart_self hs.units _ _, fun k hk => hart_hart_ne _ _ hk, ?_, rfl, rfl⟩
    simp
  · obtain ⟨hcan, hall⟩ := irqChoice_spec hn
    obtain ⟨hp, hb, ht⟩ := irqTakeable_iff.mp hcan
    refine ⟨hp, hb, ?_, fun hm => ?_, hall⟩
    · rcases ht with hlt | ⟨he, _⟩
      · exact Nat.le_of_lt hlt
      · rw [he]
    · rcases ht with hlt | ⟨_, hie⟩
      · rw [hm] at hlt
        exact absurd hlt (Nat.lt_irrefl _)
      · rwa [hm] at hie

end Sys2Proof.Machine
end


section
/-! PROOFS. Loads, stores and atomics (R58 to R60), on a hart and in a gang. -/

namespace Sys2Proof.Machine

/-! ## Loads and stores (R58, R59) -/

section
variable {mk : Agent → Instr} {m : MemOp} {legal lane : Bool} {guard : BitVec 4} {d a b : BitVec 5} {off : Int}

/-- A load on a hart, by the outcome of its translation and the place of its access. -/
theorem hartLoads_of_exec (he : ∀ s ag, exec (mk ag) s = done (loadOp (Run.start s) (mk ag) ag m legal lane guard d a off))
    (hl : legal = true) (hg : guard = 0) : HartLoads mk m d fun h => h.rg a + BitVec.ofInt 64 off := by
  intro s ag key r h h' ea trap
  have hi : exec (mk ag) s = .next (hartLoad (Run.start s) ag key (wordsOf (mk ag)) true m d
      fun h => h.rg a + BitVec.ofInt 64 off).s := by
    rw [he, hl, hg, done_next h.up]
    obtain ⟨rfl, hk, _⟩ | ⟨p, rfl, hk, _⟩ := h.agent_cases
    · simp only [loadOp, hk]; rfl
    · simp only [loadOp, hk]; rfl
  unfold hartLoad at hi
  rw [h.issue] at hi
  dsimp only at hi
  refine ⟨fun hm => ?_, fun hm => ⟨fun e ha => ?_,
    fun pa r' ha => ⟨fun hp => ?_, fun p hp => ⟨fun hu => ?_, fun hu => ?_⟩, fun k hp => ?_⟩⟩⟩
  · rw [hi, if_pos hm]
  · rw [hi, if_neg (not_not.mpr hm), ha]
  · rw [hi, if_neg (not_not.mpr hm), ha]
    simp only [hp]; rfl
  · rw [hi, if_neg (not_not.mpr hm), ha]
    simp only [hp, hu]; rfl
  · rw [hi, if_neg (not_not.mpr hm), ha]
    simp only [hp, hu]; rfl
  · rw [hi, if_neg (not_not.mpr hm), ha]
    simp only [hp]; rfl

/-- A store on a hart, by the outcome of its translation and the place of its access. -/
theorem hartStores_of_exec (he : ∀ s ag, exec (mk ag) s = done (storeOp (Run.start s) (mk ag) ag m legal guard b a off))
    (hl : legal = true) (hg : guard = 0) : HartStores mk m b fun h => h.rg a + BitVec.ofInt 64 off := by
  intro s ag key r h h' ea trap
  have hi : exec (mk ag) s = .next (hartStore (Run.start s) ag key (wordsOf (mk ag)) true m b
      fun h => h.rg a + BitVec.ofInt 64 off).s := by
    rw [he, hl, hg, done_next h.up]
    obtain ⟨rfl, hk, _⟩ | ⟨p, rfl, hk, _⟩ := h.agent_cases
    · simp only [storeOp, hk]; rfl
    · simp only [storeOp, hk]; rfl
  unfold hartStore at hi
  rw [h.issue] at hi
  dsimp only at hi
  refine ⟨fun hm => ?_, fun hm => ⟨fun e ha => ?_, fun pa r' ha => ⟨fun hp => ?_, fun p hp => ?_, fun k hp => ?_⟩⟩⟩
  · rw [hi, if_pos hm]
  · rw [hi, if_neg (not_not.mpr hm), ha]
  · rw [hi, if_neg (not_not.mpr hm), ha]
    simp only [hp]; rfl
  · rw [hi, if_neg (not_not.mpr hm), ha]
    simp only [hp]; rfl
  · rw [hi, if_neg (not_not.mpr hm), ha]
    simp only [hp]
    exact ⟨_, rfl, rfl⟩

/-- A register may hold a value of a size where it is even for a doubleword. -/
theorem sizedOk_of {n : BitVec 5} {size : Nat} (h : size = 8 → n.toNat % 2 = 0) : sizedOk size n = true := by
  by_cases h8 : size = 8
  · simp [sizedOk, pairOk, h h8]
  · simp [sizedOk, h8]

/-- A load of a gang. -/
theorem laneLoads_of_exec (he : ∀ s ag, exec (mk ag) s = done (loadOp (Run.start s) (mk ag) ag m legal lane guard d a off))
    (hl : (legal && lane) = true) (ha : a.toNat % 2 = 0) (hd : m.size = 8 → d.toNat % 2 = 0) :
    LaneAccess mk guard (laneRegs m.size d ++ laneRegs 8 a) .load m a off (laneLoaded m d) := by
  intro s c g x r h y found
  have hi : exec (mk (.lane c g)) s =
      .next (lanesLoad (Run.start s) c g (wordsOf (mk (.lane c g))) (legal && lane) guard m d a off).s := by
    rw [he, done_next h.up]; rfl
  have ok : (legal && lane && pairOk a && sizedOk m.size d) = true := by
    rw [hl, sizedOk_of hd, pairOk, ha]; rfl
  unfold lanesLoad at hi
  rw [ok, show sizedRegs m.size d ++ pairRegs a = laneRegs m.size d ++ laneRegs 8 a from rfl, h.issue] at hi
  dsimp only at hi
  rw [hi]
  dsimp only [found, y]
  generalize lanesAt r _ _ _ _ _ _ _ _ = q
  obtain ⟨r₁, places, fs⟩ := q
  cases fs with
  | nil => exact ⟨fun hn => absurd rfl hn, fun _ => rfl⟩
  | cons f fs => exact ⟨fun _ => rfl, fun hn => nomatch hn⟩

/-- A store of a gang. -/
theorem laneStores_of_exec (he : ∀ s ag, exec (mk ag) s = done (storeOp (Run.start s) (mk ag) ag m legal guard b a off))
    (hl : legal = true) (ha : a.toNat % 2 = 0) (hb : m.size = 8 → b.toNat % 2 = 0) :
    LaneAccess mk guard (laneRegs m.size b ++ laneRegs 8 a) .store m a off (laneStored m b) := by
  intro s c g x r h y found
  have hi : exec (mk (.lane c g)) s =
      .next (lanesStore (Run.start s) c g (wordsOf (mk (.lane c g))) legal guard m b a off).s := by
    rw [he, done_next h.up]; rfl
  have ok : (legal && pairOk a && sizedOk m.size b) = true := by
    rw [hl, sizedOk_of hb, pairOk, ha]; rfl
  unfold lanesStore at hi
  rw [ok, show sizedRegs m.size b ++ pairRegs a = laneRegs m.size b ++ laneRegs 8 a from rfl, h.issue] at hi
  dsimp only at hi
  rw [hi]
  dsimp only [found, y]
  generalize lanesAt r _ _ _ _ _ _ _ _ = q
  obtain ⟨r₁, places, fs⟩ := q
  cases fs with
  | nil => exact ⟨fun hn => absurd rfl hn, fun _ => rfl⟩
  | cons f fs => exact ⟨fun _ => rfl, fun hn => nomatch hn⟩

/-- A load that the lane profile does not have is illegal there. -/
theorem laneIllegal_load (he : ∀ s ag, exec (mk ag) s = done (loadOp (Run.start s) (mk ag) ag m legal lane guard d a off))
    (hn : lane = false) : LaneIllegal mk := by
  intro s c g x r h
  have bad : (legal && lane && pairOk a && sizedOk m.size d) = false := by simp [hn]
  rw [he, done_next h.up]
  show Host.Outcome.next (laneIssue (Run.start s) c g (wordsOf (mk (.lane c g)))
    (legal && lane && pairOk a && sizedOk m.size d) guard _ _ _).s = _
  rw [bad, h.illegal]

/-- A command that is a load. -/
theorem loadRow_of_exec (he : ∀ s ag, exec (mk ag) s = done (loadOp (Run.start s) (mk ag) ag m legal lane guard d a off))
    (hl : legal = true) : LoadRow mk m lane guard d a off :=
  ⟨fun hg => hartLoads_of_exec he hl hg, fun hn ha hd => laneLoads_of_exec he (by rw [hl, hn]; rfl) ha hd,
    fun hn => laneIllegal_load he hn⟩

/-- A command that is a store. -/
theorem storeRow_of_exec (he : ∀ s ag, exec (mk ag) s = done (storeOp (Run.start s) (mk ag) ag m legal guard b a off))
    (hl : legal = true) : StoreRow mk m guard b a off :=
  ⟨fun hg => hartStores_of_exec he hl hg, fun ha hb => laneStores_of_exec he hl ha hb⟩

end

/-- A scope that exists, with the unused field 0. -/
theorem scopeOk_of {scope : BitVec 3} {n : BitVec 5} (hs : scope.toNat ≤ 5) (hn : n = 0) : (scopeOk scope && n = 0) = true := by
  simp [scopeOk, hs, hn]

/-- Settles O15: every row by its equation with a load or a store. -/
theorem loadStoreInstructions : Obligations.LoadStoreInstructions :=
  ⟨⟨fun _ => loadRow_of_exec (fun _ _ => rfl) rfl, fun _ => loadRow_of_exec (fun _ _ => rfl) rfl,
    fun _ => loadRow_of_exec (fun _ _ => rfl) rfl, fun _ => loadRow_of_exec (fun _ _ => rfl) rfl,
    fun _ => loadRow_of_exec (fun _ _ => rfl) rfl, fun _ => loadRow_of_exec (fun _ _ => rfl) rfl,
    fun _ => loadRow_of_exec (fun _ _ => rfl) rfl,
    fun _ _ hs hb => ⟨loadRow_of_exec (fun _ _ => rfl) (scopeOk_of hs hb), loadRow_of_exec (fun _ _ => rfl) (scopeOk_of hs hb)⟩⟩,
    fun _ => storeRow_of_exec (fun _ _ => rfl) rfl, fun _ => storeRow_of_exec (fun _ _ => rfl) rfl,
    fun _ => storeRow_of_exec (fun _ _ => rfl) rfl, fun _ => storeRow_of_exec (fun _ _ => rfl) rfl,
    fun _ _ hs hd => ⟨storeRow_of_exec (fun _ _ => rfl) (scopeOk_of hs hd), storeRow_of_exec (fun _ _ => rfl) (scopeOk_of hs hd)⟩⟩

/-! ## Atomics and fences (R59, R60, R102) -/

section
variable {mk : Agent → Bool → BitVec 2 → R3 → Instr} {op : AtomOp}

/-- An atomic on a hart, by the outcome of its translation and the place of its access. -/
theorem hartAtoms_of_exec (he : ∀ s ag dw scope f, exec (mk ag dw scope f) s =
      done (atomOp (Run.start s) (mk ag dw scope f) ag op dw f)) (dw : Bool) (scope : BitVec 2) (f : R3) (hg : f.guard = 0) :
    HartAtoms (fun ag => mk ag dw scope f) op { size := if dw then 8 else 4 } f := by
  intro s ag key r h h' ea trap
  have hi : exec (mk ag dw scope f) s = .next (hartAtom (Run.start s) ag key (wordsOf (mk ag dw scope f)) op
      { size := if dw then 8 else 4 } f).s := by
    rw [he, done_next h.up]
    obtain ⟨rfl, hk, _⟩ | ⟨p, rfl, hk, _⟩ := h.agent_cases
    · simp only [atomOp, hk]
    · simp only [atomOp, hk]
  unfold hartAtom at hi
  rw [decide_eq_true hg, h.issue] at hi
  dsimp only at hi
  refine ⟨fun hm => ?_, fun hm => ⟨fun e ha => ?_, fun pa r' ha => ⟨fun hp => ?_, fun p hp => ⟨fun hu => ?_, fun hu => ?_⟩⟩⟩⟩
  · rw [hi, if_pos hm]
  · rw [hi, if_neg (not_not.mpr hm), ha]
  · rw [hi, if_neg (not_not.mpr hm), ha]
    rcases hpl : place r'.s ag true false pa with _ | ⟨p⟩ | ⟨k⟩
    · simp only [hpl]; rfl
    · exact absurd hpl (hp p)
    · simp only [hpl]; rfl
  · rw [hi, if_neg (not_not.mpr hm), ha]
    simp only [hp, hu]; rfl
  · rw [hi, if_neg (not_not.mpr hm), ha]
    simp only [hp, hu]; rfl

/-- An atomic of a gang. -/
theorem laneAtoms_of_exec (he : ∀ s ag dw scope f, exec (mk ag dw scope f) s =
      done (atomOp (Run.start s) (mk ag dw scope f) ag op dw f)) (dw : Bool) (scope : BitVec 2) (f : R3)
    (ha : f.a.toNat % 2 = 0) (hbd : dw = true → f.b.toNat % 2 = 0 ∧ f.d.toNat % 2 = 0) (m : MemOp)
    (hm : m = { size := if dw then 8 else 4 }) :
    LaneAccess (fun ag => mk ag dw scope f) f.guard (laneRegs m.size f.d ++ laneRegs 8 f.a ++ laneRegs m.size f.b) .atomic m
      f.a 0 (laneAtoms op m f) := by
  intro s c g x r h y found
  have h8 : m.size = 8 → dw = true := by
    rw [hm]; cases dw <;> simp
  have ok : (pairOk f.a && sizedOk m.size f.b && sizedOk m.size f.d) = true := by
    rw [sizedOk_of fun h => (hbd (h8 h)).1, sizedOk_of fun h => (hbd (h8 h)).2, pairOk, ha]; rfl
  have hi : exec (mk (.lane c g) dw scope f) s =
      .next (lanesAtom (Run.start s) c g (wordsOf (mk (.lane c g) dw scope f)) op m f).s := by
    rw [he, done_next h.up, hm]; rfl
  unfold lanesAtom at hi
  rw [ok, show sizedRegs m.size f.d ++ pairRegs f.a ++ sizedRegs m.size f.b =
    laneRegs m.size f.d ++ laneRegs 8 f.a ++ laneRegs m.size f.b from rfl, h.issue] at hi
  dsimp only at hi
  rw [hi]
  dsimp only [found, y]
  generalize lanesAt r _ _ _ _ _ _ _ _ = q
  obtain ⟨r₁, places, fs⟩ := q
  cases fs with
  | nil => exact ⟨fun hn => absurd rfl hn, fun _ => rfl⟩
  | cons f fs => exact ⟨fun _ => rfl, fun hn => nomatch hn⟩

/-- A command that is an atomic. -/
theorem atomRow_of_exec (he : ∀ s ag dw scope f, exec (mk ag dw scope f) s =
    done (atomOp (Run.start s) (mk ag dw scope f) ag op dw f)) : AtomRow mk op := fun dw scope f =>
  ⟨hartAtoms_of_exec he dw scope f, fun ha hbd => laneAtoms_of_exec he dw scope f ha hbd _ rfl⟩

end

/-- A command that only advances. -/
theorem advanceRow_of_exec {mk : Agent → Instr} {guard : BitVec 4} {prof : Prof} {legal lane : Bool}
    (he : ∀ s ag, exec (mk ag) s = done (compute (Run.start s) (mk ag) ag prof legal guard [] (fun _ h => .next h) fun _ t => t))
    (hl : legal = true) (hp : prof = if lane then .both else .host) : AdvanceRow mk guard lane := by
  subst hl hp
  refine ⟨fun hg => hartResult_compute (fun s ag _ => he s ag) (by cases lane <;> simp [hg]) fun _ _ _ _ _ _ => rfl,
    fun hn => ?_, fun hn => ?_⟩
  · exact laneResult_compute (onHart := fun _ _ h => .next h) (fun s c g => he s (.lane c g)) (by simp [hn]) fun _ _ => rfl
  · exact laneIllegal_compute (onHart := fun _ _ h => .next h) (fun s c g => he s (.lane c g)) (by simp [hn])

/-- Settles O16: the atomics by their equation, and what only advances as a computation that changes nothing. -/
theorem atomicInstructions : Obligations.AtomicInstructions := by
  refine ⟨⟨atomRow_of_exec fun _ _ _ _ _ => rfl, atomRow_of_exec fun _ _ _ _ _ => rfl, atomRow_of_exec fun _ _ _ _ _ => rfl,
    atomRow_of_exec fun _ _ _ _ _ => rfl, atomRow_of_exec fun _ _ _ _ _ => rfl, atomRow_of_exec fun _ _ _ _ _ => rfl,
    atomRow_of_exec fun _ _ _ _ _ => rfl, atomRow_of_exec fun _ _ _ _ _ => rfl, atomRow_of_exec fun _ _ _ _ _ => rfl,
    atomRow_of_exec fun _ _ _ _ _ => rfl, atomRow_of_exec fun _ _ _ _ _ => rfl, atomRow_of_exec fun _ _ _ _ _ => rfl,
    atomRow_of_exec fun _ _ _ _ _ => rfl, atomRow_of_exec fun _ _ _ _ _ => rfl, atomRow_of_exec fun _ _ _ _ _ => rfl,
    atomRow_of_exec fun _ _ _ _ _ => rfl⟩, fun scope f hs hd ha hb => ?_, fun f hd ha hb =>
      ⟨advanceRow_of_exec (fun _ _ => rfl) (sysOk_of hd ha hb) rfl, advanceRow_of_exec (fun _ _ => rfl) (sysOk_of hd ha hb) rfl⟩⟩
  have legal : (scopeOk scope && f.d = 0 && f.a = 0 && f.b = 0) = true := by simp [scopeOk, hs, hd, ha, hb]
  exact ⟨advanceRow_of_exec (fun _ _ => rfl) legal rfl, advanceRow_of_exec (fun _ _ => rfl) legal rfl,
    advanceRow_of_exec (fun _ _ => rfl) legal rfl⟩

end Sys2Proof.Machine
end


section
/-! PROOFS. Memory as bytes: what a store of bytes leaves, the fetch of an instruction, and the end of an issue (R58, R89, R90, R94,
R98, R266). -/

namespace Sys2Proof.Machine

/-! ## Bytes of a store -/

theorem length_leBytes (n v : Nat) : (leBytes n v).length = n := by
  induction n generalizing v with
  | zero => rfl
  | succ n ih => simp [leBytes, ih]

theorem getElem?_leBytes {n i : Nat} (v : Nat) (h : i < n) : (leBytes n v)[i]? = some (BitVec.ofNat 8 (v / 256 ^ i)) := by
  induction n generalizing v i with
  | zero => omega
  | succ n ih =>
    cases i with
    | zero => simp [leBytes]
    | succ i =>
      rw [leBytes, List.getElem?_cons_succ, ih (v / 256) (by omega), Nat.div_div_eq_div_mul, Nat.pow_succ, Nat.mul_comm]

theorem ofLe_lt (bs : List Byte) : ofLe bs < 256 ^ bs.length := by
  induction bs with
  | nil => simp [ofLe]
  | cons b bs ih =>
    have := b.isLt
    simp only [ofLe, List.length_cons, Nat.pow_succ]
    omega

/-- The bytes of the number that bytes spell are those bytes. -/
theorem leBytes_ofLe (bs : List Byte) : leBytes bs.length (ofLe bs) = bs := by
  induction bs with
  | nil => rfl
  | cons b bs ih =>
    have hb := b.isLt
    have h1 : (b.toNat + 256 * ofLe bs) / 256 = ofLe bs := by omega
    have h2 : BitVec.ofNat 8 (b.toNat + 256 * ofLe bs) = b := BitVec.eq_of_toNat_eq (by rw [BitVec.toNat_ofNat]; omega)
    simp only [ofLe, List.length_cons, leBytes, h1, h2, ih]

theorem getElem?_bytes {s : State} {a n i : Nat} (h : i < n) : (s.bytes a n)[i]? = some (s.byte (a + i)) := by
  induction n generalizing a i with
  | zero => omega
  | succ n ih =>
    cases i with
    | zero => simp [State.bytes]
    | succ i => rw [State.bytes, List.getElem?_cons_succ, ih (by omega), Nat.add_assoc, Nat.add_comm 1]

theorem length_bytes (s : State) (a n : Nat) : (s.bytes a n).length = n := by
  induction n generalizing a with
  | zero => rfl
  | succ n ih => simp [State.bytes, ih]

/-- A byte of a loaded number is the byte at its place. -/
theorem load_div_pow {s : State} {a n i : Nat} (h : i < n) : BitVec.ofNat 8 (s.load a n / 256 ^ i) = s.byte (a + i) := by
  have hb := getElem?_leBytes (s.load a n) h
  have he : leBytes n (s.load a n) = s.bytes a n := by
    have := leBytes_ofLe (s.bytes a n)
    rwa [length_bytes] at this
  rw [he, getElem?_bytes h] at hb
  exact (Option.some.inj hb).symm

/-- Bytes written from an address are there, and every other byte is as it was. -/
theorem byte_setBytes {z : State} {r : Run z} (hs : r.s.memWf) (a : Nat) (bs : List Byte) (j : Nat) :
    (r.setBytes a bs).s.byte j = if a ≤ j then (bs[j - a]?).getD (r.s.byte j) else r.s.byte j := by
  induction bs generalizing r a with
  | nil => simp [Run.setBytes]
  | cons b bs ih =>
    have hb := byte_mem hs a b
    rw [Run.setBytes, ih ((Upd.mem a b).keeps_memWf _ hs), Run.setByte_s, hb j]
    by_cases hj : j = a
    · subst hj; simp
    · by_cases hlt : a ≤ j
      · obtain ⟨k, rfl⟩ : ∃ k, j = a + 1 + k := ⟨j - (a + 1), by omega⟩
        rw [if_pos (by omega), if_neg hj, if_pos hlt, show a + 1 + k - (a + 1) = k by omega, show a + 1 + k - a = k + 1 by omega]
        rfl
      · rw [if_neg (by omega), if_neg hj, if_neg hlt]

/-! ## USED bits (R98) -/

/-- Memory alone differs, by bit 7 of bytes that may have become 1. -/
structure UsedOnly (s t : State) : Prop where
  rest : t = { s with mem := t.mem }
  bytes : ∀ a, t.byte a = s.byte a ∨ t.byte a = s.byte a ||| 0x80#8

namespace UsedOnly

variable {s t u : State}

theorem refl (s : State) : UsedOnly s s := ⟨rfl, fun _ => .inl rfl⟩

theorem trans (h : UsedOnly s t) (g : UsedOnly t u) : UsedOnly s u := by
  refine ⟨?_, fun a => ?_⟩
  · have e₁ := h.rest
    have e₂ := g.rest
    rw [e₁] at e₂
    exact e₂
  · have idem : (s.byte a ||| 0x80#8) ||| 0x80#8 = s.byte a ||| 0x80#8 := by rw [BitVec.or_assoc, BitVec.or_self]
    rcases h.bytes a with e₁ | e₁ <;> rcases g.bytes a with e₂ | e₂ <;> rw [e₂, e₁]
    · exact .inl rfl
    · exact .inr rfl
    · exact .inr rfl
    · exact .inr idem

end UsedOnly

theorem or_used_div (v i : Nat) : BitVec.ofNat 8 ((v ||| 0x80) / 256 ^ (i + 1)) = BitVec.ofNat 8 (v / 256 ^ (i + 1)) := by
  have h256 : 256 ^ (i + 1) = 2 ^ (8 * (i + 1)) := by rw [show 256 = 2 ^ 8 from rfl, ← Nat.pow_mul]
  have small : 0x80 >>> (8 * (i + 1)) = 0 := by
    rw [Nat.shiftRight_eq_div_pow]
    exact Nat.div_eq_of_lt (Nat.lt_of_lt_of_le (by decide : 0x80 < 2 ^ 8) (Nat.pow_le_pow_right (by decide) (by omega)))
  rw [h256, ← Nat.shiftRight_eq_div_pow, Nat.shiftRight_or_distrib, small, Nat.or_zero, Nat.shiftRight_eq_div_pow]

/-- A store of bytes changes memory alone. -/
theorem setBytes_rest {z : State} (r : Run z) (a : Nat) (bs : List Byte) :
    (r.setBytes a bs).s = { r.s with mem := (r.setBytes a bs).s.mem } := by
  induction bs generalizing r a with
  | nil => rfl
  | cons b bs ih => exact ih (r.setByte a b) (a + 1)

/-- Setting bit 7 of a loaded doubleword and storing it sets a USED bit alone. -/
theorem usedOnly_store {z : State} {r : Run z} (hs : r.s.memWf) (a : Nat) :
    UsedOnly r.s (r.store a 8 (r.s.load a 8 ||| 0x80)).s := by
  refine ⟨setBytes_rest r a _, fun j => ?_⟩
  unfold Run.store
  rw [byte_setBytes hs]
  by_cases hj : a ≤ j
  · obtain ⟨i, rfl⟩ : ∃ i, j = a + i := ⟨j - a, by omega⟩
    rw [if_pos hj, Nat.add_sub_cancel_left]
    by_cases hi : i < 8
    · rw [getElem?_leBytes _ hi, Option.getD_some]
      cases i with
      | zero =>
        right
        rw [← load_div_pow hi, Nat.pow_zero, Nat.div_one, Nat.div_one, BitVec.ofNat_or]
      | succ i => exact .inl ((or_used_div _ i).trans (load_div_pow hi))
    · rw [List.getElem?_eq_none (by rw [length_leBytes]; omega)]
      exact .inl rfl
  · rw [if_neg hj]
    exact .inl rfl

/-! ## The fetch of an instruction (R94 to R98) -/

/-- An entry that a walk reads is the doubleword at its address. -/
theorem readEntry_ok {s : State} {a e : Nat} (h : readEntry s a = .ok e) : e = s.load a 8 := by
  unfold readEntry at h
  split at h
  · exact (Except.ok.inj h).symm
  · cases h

/-- The leaf that a walk finds is an entry in memory. -/
theorem walkLevel0_entry {s : State} {t va : Nat} {l : Leaf} (h : walkLevel0 s t va = .ok l) :
    l.entry = s.load l.entryAddr 8 := by
  unfold walkLevel0 at h
  simp only [bind, Except.bind] at h
  split at h
  · cases h
  · next head hhead =>
    split at h
    · split at h
      · exact Except.ok.inj h ▸ readEntry_ok hhead
      · cases h
    · split at h
      · cases h
      · next e he =>
        split at h
        · exact Except.ok.inj h ▸ readEntry_ok he
        · cases h

theorem walk_entry {s : State} {root va : Nat} {l : Leaf} (h : walk s root va = .ok l) : l.entry = s.load l.entryAddr 8 := by
  unfold walk at h
  simp only [bind, Except.bind] at h
  split at h
  · cases h
  split at h
  · cases h
  split at h
  · cases h
  split at h
  · cases h
  split at h
  · cases h
  next e he =>
    split at h
    · split at h
      · exact Except.ok.inj h ▸ readEntry_ok he
      · cases h
    · split at h
      · cases h
      · exact walkLevel0_entry h

/-- The leaf of a fetch through tables is an entry in memory. -/
theorem lookup_fetch_entry {s : State} {c : XCtx} {va : Nat} {l : Leaf} (h : lookup s c .fetch va = .ok l) (hc : c.en = true) :
    l.entry = s.load l.entryAddr 8 := by
  unfold lookup at h
  split at h
  · cases h
  split at h
  · next hen => simp [hc] at hen
  split at h
  · next x hx =>
    unfold seqLeaf at hx
    dsimp only at hx
    split at hx
    · cases hx
    · cases hx; cases h
  · split at h
    · cases h
    · next l' hw =>
      split at h
      · cases h; exact walk_entry hw
      · cases h

/-- A fetch's walk sets a USED bit alone. -/
theorem usedOnly_translate {z : State} {r r' : Run z} {c : XCtx} {va pa : Nat} (hs : r.s.memWf)
    (h : r.translate c .fetch va = .ok (pa, r')) : UsedOnly r.s r'.s := by
  unfold Run.translate at h
  split at h
  · cases h
  · next l hl =>
    cases h
    unfold Run.markUsed
    split
    · exact .refl _
    · next hm =>
      have hen : c.en = true := by
        by_contra hc
        exact hm (by simp [hc])
      have hentry := lookup_fetch_entry hl hen
      have : (l.entry ||| 0x80 ||| if Access.fetch.writes then 0x100 else 0) = r.s.load l.entryAddr 8 ||| 0x80 := by
        rw [hentry]; exact Nat.or_zero _
      dsimp only
      rw [this]
      exact usedOnly_store hs _

section
variable {z : State} {r : Run z}

/-- Where no word has a single-bit error, a read corrects nothing. -/
theorem scrub_of_no_weak (hw : r.s.vault.weak = []) (pa n : Nat) : r.scrub pa n = r := by
  unfold Run.scrub
  rw [hw]
  rfl

theorem scrubWalk_of_no_weak (hw : r.s.vault.weak = []) (c : XCtx) (va : Nat) : r.scrubWalk c va = r := by
  unfold Run.scrubWalk
  rw [hw]
  rfl

theorem UsedOnly.weak {s : State} (h : UsedOnly s r.s) (hw : s.vault.weak = []) : r.s.vault.weak = [] := by
  rw [h.rest]
  exact hw

/-- The translation of a hart's fetch sets a USED bit alone. -/
theorem usedOnly_hartAddr {r' : Run z} {key a n pa : Nat} {h : Hart} (hs : r.s.memWf) (hw : r.s.vault.weak = [])
    (ha : r.hartAddr key h .fetch a n = .ok (pa, r')) : UsedOnly r.s r'.s := by
  unfold Run.hartAddr at ha
  split at ha
  · split at ha
    · cases ha
    · split at ha
      · cases ha
      · cases ha
        simp only [Run.scrubRead, reduceCtorEq, if_false]
        rw [scrub_of_no_weak hw]
        exact .refl _
  · rw [scrubWalk_of_no_weak hw] at ha
    split at ha
    · cases ha
    · next pa₁ r₁ ht =>
      have hu := usedOnly_translate hs ht
      split at ha
      · cases ha
      · cases ha
        simp only [Run.scrubRead, reduceCtorEq, if_false]
        rw [scrub_of_no_weak (hu.weak hw)]
        exact hu

/-- The fetch of a hart's instruction sets USED bits alone. -/
theorem usedOnly_hartFetch {key : Nat} {h : Hart} {l : List Nat} {r' : Run z} (hz : z.Sound) (hw : r.s.vault.weak = [])
    (hf : hartFetch r key h l = .ok r') : UsedOnly r.s r'.s := by
  induction l generalizing r with
  | nil => cases hf; exact .refl _
  | cons a l ih =>
    unfold hartFetch at hf
    split at hf
    · cases hf
    · split at hf
      · cases hf
      · next pa r₁ ht =>
        have hu := usedOnly_hartAddr (r.ok.sound hz).mem hw ht
        split at hf
        · cases hf
        · exact hu.trans (ih (hu.weak hw) hf)

/-- The fetch of a gang's instruction sets USED bits alone. -/
theorem usedOnly_laneFetch {c : XCtx} {l : List Nat} {r' : Run z} (hz : z.Sound) (hw : r.s.vault.weak = [])
    (hf : laneFetch r c l = .ok r') : UsedOnly r.s r'.s := by
  induction l generalizing r with
  | nil => cases hf; exact .refl _
  | cons a l ih =>
    unfold laneFetch at hf
    rw [scrubWalk_of_no_weak hw] at hf
    split at hf
    · cases hf
    · next pa r₁ ht =>
      have hu := usedOnly_translate (r.ok.sound hz).mem ht
      split at hf
      · rw [scrub_of_no_weak (hu.weak hw)] at hf
        exact hu.trans (ih (hu.weak hw) hf)
      · cases hf

end

/-! ## The end of an issue (R89, R90, R483) -/

/-- In a list whose keys rise, an entry is what its key reads as. -/
theorem find?_of_mem {α : Type} {m : SMap α} (h : SMap.rising m = true) {k : Nat} {x : α} (hm : (k, x) ∈ m) :
    SMap.find? m k = some x := by
  induction m with
  | nil => cases hm
  | cons c m ih =>
    obtain ⟨j, y⟩ := c
    obtain ⟨ha, hr⟩ := SMap.rising_cons h
    unfold SMap.find?
    rcases List.mem_cons.mp hm with heq | hm
    · cases heq; exact if_pos rfl
    · rw [if_neg (Nat.ne_of_lt (ha _ hm)), ih hr hm]

/-- What a key reads as is an entry. -/
theorem mem_of_find? {α : Type} {m : SMap α} {k : Nat} {x : α} (h : SMap.find? m k = some x) : (k, x) ∈ m := by
  induction m with
  | nil => cases h
  | cons c m ih =>
    obtain ⟨j, y⟩ := c
    unfold SMap.find? at h
    split at h
    · next hk => cases h; subst hk; exact .head _
    · exact .tail _ (ih h)

/-- The keys of a list whose keys rise are distinct. -/
theorem pairwise_keys_of_rising {α : Type} {m : SMap α} (h : SMap.rising m = true) : m.Pairwise fun a b => a.1 ≠ b.1 := by
  induction m with
  | nil => exact .nil
  | cons c m ih =>
    obtain ⟨j, y⟩ := c
    obtain ⟨ha, hr⟩ := SMap.rising_cons h
    exact .cons (fun b hb => Nat.ne_of_lt (ha b hb)) (ih hr)

section
variable {z : State} {L : List (Nat × Gang)} {f : Gang → Gang} {act : Nat × Gang → Run z → Run z}

/-- Gangs that a sequence of actions does not name are as they were. -/
theorem find?_each_gang_of_not_mem (hact : ∀ kg ∈ L, ∀ r : Run z, act kg r = r.put (.gang kg.1 (some (f kg.2)))) {k : Nat}
    (hk : ∀ y, (k, y) ∉ L) (r : Run z) : SMap.find? (r.each L act).s.gangs k = SMap.find? r.s.gangs k := by
  induction L generalizing r with
  | nil => rfl
  | cons a L ih =>
    rw [Run.each_cons, ih (fun kg h => hact kg (.tail _ h)) (fun y h => hk y (.tail _ h)), hact a (.head _)]
    have : k ≠ a.1 := fun h => hk a.2 (h ▸ .head _)
    simp only [Run.put_s, Upd.apply_gangs, SMap.find?_insert, if_neg this]

/-- A gang that a sequence of actions names once is as its action leaves it. -/
theorem find?_each_gang_of_mem (hact : ∀ kg ∈ L, ∀ r : Run z, act kg r = r.put (.gang kg.1 (some (f kg.2))))
    (hL : L.Pairwise fun a b => a.1 ≠ b.1) {k : Nat} {y : Gang} (hk : (k, y) ∈ L) (r : Run z) :
    SMap.find? (r.each L act).s.gangs k = some (f y) := by
  induction L generalizing r with
  | nil => cases hk
  | cons a L ih =>
    obtain ⟨hne, hL⟩ := List.pairwise_cons.mp hL
    rw [Run.each_cons]
    rcases List.mem_cons.mp hk with rfl | hk
    · rw [find?_each_gang_of_not_mem (f := f) (fun kg h => hact kg (.tail _ h)) (fun y' h => hne _ h rfl), hact _ (.head _)]
      simp only [Run.put_s, Upd.apply_gangs, SMap.find?_insert, if_true]
    · exact ih (fun kg h => hact kg (.tail _ h)) hL hk _

end

section
variable {z : State}

theorem reg_congr {s t : State} (h : s.regs = t.regs) (k : Nat) : s.reg k = t.reg k := by rw [State.reg, State.reg, h]

theorem reg64_congr {s t : State} (h : s.regs = t.regs) (k : Nat) : s.reg64 k = t.reg64 k := by
  rw [State.reg64, State.reg64, reg_congr h, reg_congr h]

/-- A pair of registers that is set holds the number, modulo 2^64. -/
theorem reg64_setReg64 {r : Run z} (hs : r.s.regsWf) (k v : Nat) : (r.setReg64 k v).s.reg64 k = v % 2 ^ 64 := by
  have lo : ∀ i, (r.setRegN k v).s.reg i = if i = k then BitVec.ofNat 32 v else r.s.reg i := fun i => reg_reg hs k _ i
  have hi : ∀ i, (r.setReg64 k v).s.reg i = if i = k + 4 then BitVec.ofNat 32 (v / 2 ^ 32) else (r.setRegN k v).s.reg i :=
    fun i => reg_reg ((Upd.reg k _).keeps_regsWf _ hs) (k + 4) _ i
  unfold State.reg64
  rw [hi, hi, if_pos rfl, if_neg (by omega), lo, if_pos rfl, BitVec.toNat_ofNat, BitVec.toNat_ofNat]
  omega

/-- A pair of registers that is set leaves the others. -/
theorem reg_setReg64_ne (r : Run z) {k i : Nat} (v : Nat) (h : i ≠ k) (h' : i ≠ k + 4) :
    (r.setReg64 k v).s.reg i = r.s.reg i := by
  unfold Run.setReg64 State.reg
  simp only [Run.setRegN_s, Upd.apply_regs]
  rw [SMap.get_set_ne _ _ _ _ h', SMap.get_set_ne _ _ _ _ h]

/-- Two sequences of actions are one where their actions agree, as long as what the actions keep holds. -/
theorem each_congr {α : Type} {l : List α} {f f' : α → Run z → Run z} {r : Run z} (I : Run z → Prop) (hr : I r)
    (h : ∀ a ∈ l, ∀ q, I q → f a q = f' a q ∧ I (f' a q)) : r.each l f = r.each l f' := by
  induction l generalizing r with
  | nil => rfl
  | cons a l ih =>
    obtain ⟨he, hi⟩ := h a (.head _) r hr
    rw [Run.each_cons, Run.each_cons, he]
    exact ih hi fun b hb => h b (.tail _ hb)

/-- The gangs of a core that wait for a gang to issue, as they stand after it has. -/
def yieldedTo (s : State) (core g : Nat) : List (Nat × Gang) :=
  s.gangs.filter fun kg => kg.1 / 128 = core && kg.2.yieldTo.contains g

/-- Before it ends the hold of gangs, an issue sets its count in a pair of registers and is noted. -/
def issueCounted (r : Run z) (k v core g : Nat) : Run z :=
  let r := r.setReg64 k v
  r.setCore core { r.s.core core with quiet := r.s.now, last := g }

section
variable (r : Run z) (k v core g : Nat)

/-- The count and the note are of registers and cores alone. -/
theorem issueCounted_rest : (issueCounted r k v core g).s =
    { r.s with
      regs := (r.setReg64 k v).s.regs
      cores := (Upd.apply (.core core { r.s.core core with quiet := r.s.now, last := g }) r.s).cores } := rfl

/-- The end of an issue, in its two parts. -/
theorem noteIssue_eq : noteIssue r core g =
    (issueCounted r (coreReg core 0x0C0) (r.s.reg64 (coreReg core 0x0C0) + 1) core g).each (yieldedTo r.s core g) fun kg r' =>
      r'.setGang core (kg.1 % 128) (kg.2.yields (kg.2.yieldTo.filter (· ≠ g)) r.s.now) := by
  unfold noteIssue
  generalize r.s.reg64 (coreReg core 0x0C0) + 1 = v
  generalize coreReg core 0x0C0 = k
  have rest := issueCounted_rest r k v core g
  have gangs : (issueCounted r k v core g).s.gangs = r.s.gangs := by rw [rest]
  have now : (issueCounted r k v core g).s.now = r.s.now := by rw [rest]
  rw [yieldedTo, ← gangs]
  exact each_congr (fun q => q.s.now = r.s.now) now fun kg _ q hq => ⟨by rw [hq], hq⟩

end

/-- Each gang that waited waits for one gang less. -/
theorem noteIssue_action {r : Run z} {core g : Nat} {kg : Nat × Gang} (h : kg ∈ yieldedTo r.s core g) (r' : Run z) :
    r'.setGang core (kg.1 % 128) (kg.2.yields (kg.2.yieldTo.filter (· ≠ g)) r.s.now) =
      r'.put (.gang kg.1 (some (kg.2.yields (kg.2.yieldTo.filter (· ≠ g)) r.s.now))) := by
  have hc : kg.1 / 128 = core := by
    have := (List.mem_filter.mp h).2
    simp only [Bool.and_eq_true, decide_eq_true_eq] at this
    exact this.1
  unfold Run.setGang
  rw [show 128 * core + kg.1 % 128 = kg.1 by omega]

/-- What no action on a gang changes, the end of an issue changes as its count and note do. -/
theorem noteIssue_keep {β : Type} (P : State → β) (hP : ∀ (k : Nat) (x : Gang) (s : State), P (Upd.apply (.gang k (some x)) s) = P s)
    (r : Run z) (core g : Nat) :
    P (noteIssue r core g).s = P (issueCounted r (coreReg core 0x0C0) (r.s.reg64 (coreReg core 0x0C0) + 1) core g).s := by
  rw [noteIssue_eq]
  exact Run.each_keep P (fun kg _ r' => hP (128 * core + kg.1 % 128) _ r'.s) _

/-- The gangs after the end of an issue. -/
theorem gang?_noteIssue {r : Run z} (hs : SMap.rising r.s.gangs = true) (core g c' : Nat) {g' : Nat} (hg : g' < 128) :
    (noteIssue r core g).s.gang? c' g' = (r.s.gang? c' g').map fun y =>
      if c' = core ∧ g ∈ y.yieldTo then y.yields (y.yieldTo.filter (· ≠ g)) r.s.now else y := by
  have hmem : ∀ y, (128 * c' + g', y) ∈ yieldedTo r.s core g ↔
      SMap.find? r.s.gangs (128 * c' + g') = some y ∧ c' = core ∧ g ∈ y.yieldTo := fun y => by
    have : (128 * c' + g') / 128 = c' := by omega
    simp only [yieldedTo, List.mem_filter, this, Bool.and_eq_true, decide_eq_true_eq, List.contains_iff_mem]
    exact and_congr_left fun _ => ⟨find?_of_mem hs, mem_of_find?⟩
  have keys : (yieldedTo r.s core g).Pairwise fun a b => a.1 ≠ b.1 := pairwise_keys_of_rising (SMap.rising_filter hs _)
  rw [noteIssue_eq]
  show SMap.find? _ _ = Option.map _ (SMap.find? _ _)
  by_cases hw : ∃ y, (128 * c' + g', y) ∈ yieldedTo r.s core g
  · obtain ⟨y, hy⟩ := hw
    obtain ⟨hf, hcond⟩ := (hmem y).mp hy
    rw [find?_each_gang_of_mem (f := fun y => y.yields (y.yieldTo.filter (· ≠ g)) r.s.now)
      (fun kg h r' => noteIssue_action h r') keys hy, hf, Option.map_some, if_pos hcond]
  · rw [find?_each_gang_of_not_mem (f := fun y => y.yields (y.yieldTo.filter (· ≠ g)) r.s.now)
      (fun kg h r' => noteIssue_action h r') (fun y hy => hw ⟨y, hy⟩)]
    rw [issueCounted_rest]
    cases hf : SMap.find? r.s.gangs (128 * c' + g') with
    | none => rfl
    | some y => rw [Option.map_some, if_neg fun hcond => hw ⟨y, (hmem y).mpr ⟨hf, hcond⟩⟩]

/-- A gang that waits for some waits for them. -/
theorem yields_of_ne_nil (y : Gang) {l : List Nat} (h : l ≠ []) (now : Nat) : y.yields l now = { y with yieldTo := l } := by
  unfold Gang.yields
  rw [if_neg (by simpa using h)]

end

/-- Settles O14: a fetch by what each of its translations leaves, and the end of an issue by its two parts. -/
theorem fetchAndIssue : Obligations.FetchAndIssue := by
  refine ⟨fun s hs hw => ⟨fun key h l r hf => ?_, fun c l r hf => ?_⟩, fun z r c g hs hc => ?_⟩
  · obtain ⟨rest, bytes⟩ := usedOnly_hartFetch (r := Run.start s) hs hw hf
    exact ⟨rest, bytes⟩
  · obtain ⟨rest, bytes⟩ := usedOnly_laneFetch (r := Run.start s) hs hw hf
    exact ⟨rest, bytes⟩
  · intro t
    obtain ⟨_, _, rising, _⟩ := hs.units
    have keep : ∀ {β : Type} (P : State → β), (∀ (k : Nat) (x : Gang) (s : State), P (Upd.apply (.gang k (some x)) s) = P s) →
        P t = P { r.s with
          regs := (r.setReg64 (coreReg c 0x0C0) (r.s.reg64 (coreReg c 0x0C0) + 1)).s.regs
          cores := (Upd.apply (.core c { r.s.core c with quiet := r.s.now, last := g }) r.s).cores } := fun P hP =>
      (noteIssue_keep P hP r c g).trans (by rw [issueCounted_rest])
    have regs : t.regs = (r.setReg64 (coreReg c 0x0C0) (r.s.reg64 (coreReg c 0x0C0) + 1)).s.regs :=
      keep State.regs fun _ _ _ => rfl
    have cores : t.cores = (Upd.apply (.core c { r.s.core c with quiet := r.s.now, last := g }) r.s).cores :=
      keep State.cores fun _ _ _ => rfl
    refine ⟨?_, fun k hk hk' => ?_, keep State.mem fun _ _ _ => rfl, keep State.harts fun _ _ _ => rfl,
      keep State.tallies fun _ _ _ => rfl, keep State.waits fun _ _ _ => rfl, ?_, fun k hk => ?_,
      fun c' g' hg => gang?_noteIssue rising c g c' hg,
      fun y now => ⟨rfl, rfl, rfl, fun l hl => yields_of_ne_nil y hl now⟩⟩
    · exact (reg64_congr regs _).trans (reg64_setReg64 hs.regs _ _)
    · rw [reg_congr regs, reg_setReg64_ne r _ hk hk']
    · rw [← core_core_self hs.units c { r.s.core c with quiet := r.s.now, last := g }]
      exact congrArg (fun m => SMap.get {} m c) cores
    · rw [← core_core_ne r.s { r.s.core c with quiet := r.s.now, last := g } hk]
      exact congrArg (fun m => SMap.get {} m k) cores

/-! ## A store that meets a single-bit error -/

/-- A machine in which a word of vault DRAM has a single-bit error, whose correction is an error event with a tally of its own. On
that tally a SERVICE rung of a ladder speaks its verdict, and the verdict is read through a page whose entry, at address 8, is not
yet USED. -/
def weakVerdict : State where
  mem := [(0, 0x01#8), (8, 0x42#8)]
  regs := [(obsReg 0x204, 1#32), (obsReg 0x20C, 1#32)]
  tallies := [(1, { allocated := true, gen := 0 })]
  vault := { weak := [(2, 1)] }
  lad := {
    table := List.replicate 16 0 ++ [0x800#32] ++ List.replicate 8 0 ++ [1#32]
    ladders := [(0, { rung := 0, subs := [
      { rung := 0, card := 0, idx := 0, args := 0x200000 - 0x80, at_ := 0, service := true }] })] }

theorem weakVerdict_sound : weakVerdict.Sound :=
  ⟨by decide, by decide, by decide, fun _ h => absurd h List.not_mem_nil⟩

/-- A store to the word corrects it first, and the verdict that follows sets the USED bit of the entry. -/
theorem byte_storeMem_weakVerdict : ((Run.start weakVerdict).storeMem 64 1 0).s.byte 8 = 0xC2#8 := by decide

/-- Refutes O13: a store to part of a word with a single-bit error corrects the word (R266), the correction is an error event that
may signal a tally (R492), and on the signal a verdict is read, which sets a USED bit (R98) in a byte far from the store. -/
theorem not_memoryBytes : ¬ Obligations.MemoryBytes := by
  unfold Obligations.MemoryBytes
  rintro ⟨h, _⟩
  obtain ⟨outside, _, _⟩ := h weakVerdict (Run.start weakVerdict) 64 1 0 weakVerdict_sound
  have kept : ((Run.start weakVerdict).storeMem 64 1 0).s.byte 8 = weakVerdict.byte 8 := outside 8 (.inl (by decide))
  rw [byte_storeMem_weakVerdict] at kept
  exact absurd kept (by decide)

end Sys2Proof.Machine
end


section
/-! PROOFS. Tallies: signals, the instructions on them and the end of a wait (R103, R108 to R115, R519). -/

namespace Sys2Proof.Machine

/-! ## The tally instructions (R109 to R113) -/

section
variable {mk : Agent → R3 → Instr} {cause : Cause} {ok : R3 → Prop} {regs : R3 → List Nat} {onHart : R3 → Nat → Hart → TallyAct}
  {onLane : R3 → Nat → Nat → Nat → Thread → TallyAct} {settle : {s : State} → Run s → Run s} {legalHart legalLane : R3 → Bool}

/-- A tally instruction on a hart, by whether its handle is stale and whether its operation is left pending. -/
theorem tallyHart_issue {s : State} {ag : Agent} {key : Nat} {w : Words} {r : Run s} (h : OnHart s ag key w r) (f : R3)
    (cause : Cause) (act : Hart → TallyAct) : tallyHart (Run.start s) key w true f cause act =
      match tallyOf r.s (((s.hart key).rg f.a).toNat % 2 ^ 32) with
      | none => r.hartTrap key (s.hart key) cause (((s.hart key).rg f.a).toNat % 2 ^ 32) w.long
      | some i => match tallyAct r i (act (s.hart key)) with
        | (some v, q) => q.setHart key (((s.hart key).issued w).wg f.d (BitVec.ofNat 64 v))
        | (none, q) => q.setHart key (s.hart key) := by
  unfold tallyHart
  rw [h.issue]
  simp only [Run.start_s]
  cases tallyOf r.s (((s.hart key).rg f.a).toNat % 2 ^ 32) with
  | none => rfl
  | some i =>
    dsimp only
    generalize tallyAct r i (act (s.hart key)) = p
    obtain ⟨v, q⟩ := p
    cases v <;> rfl

/-- A command that is a tally instruction. -/
theorem tallyRow_of_exec
    (hh : ∀ s n f, exec (mk (.host n) f) s = done (settle (tallyHart (Run.start s) (hostKey n) (wordsOf (mk (.host n) f))
      (legalHart f && f.guard = 0) f cause (onHart f n))))
    (hf : ∀ s p f, exec (mk (.fw p) f) s = done (settle (tallyHart (Run.start s) (fwKey p) (wordsOf (mk (.fw p) f))
      (legalHart f && f.guard = 0) f cause (onHart f (fwKey p)))))
    (hl : ∀ s c g f, exec (mk (.lane c g) f) s = done (settle (tallyLanes (Run.start s) c g (wordsOf (mk (.lane c g) f))
      (legalLane f) f (regs f) cause (onLane f c g))))
    (okHart : ∀ f, ok f → legalHart f = true) (okLane : ∀ f, ok f → legalLane f = true) :
    TallyRow mk cause ok regs onHart onLane settle := by
  intro f
  refine ⟨fun hok hg s ag key r h => ?_, fun hok s c g x r h => ?_⟩
  · intro h' hd
    have legal : (legalHart f && decide (f.guard = 0)) = true := by rw [okHart f hok, hg]; rfl
    have hi : exec (mk ag f) s = .next (settle (tallyHart (Run.start s) key (wordsOf (mk ag f)) true f cause (onHart f key))).s := by
      obtain ⟨rfl, hk, _⟩ | ⟨p, rfl, rfl, _⟩ := h.agent_cases
      · rw [hh, legal, hk, done_next h.up]
      · rw [hf, legal, done_next h.up]
    rw [tallyHart_issue h] at hi
    refine ⟨fun hn => ?_, fun i hi' => ?_⟩
    · rw [hi, show tallyOf r.s (((s.hart key).rg f.a).toNat % 2 ^ 32) = none from hn]
    · rw [hi, show tallyOf r.s (((s.hart key).rg f.a).toNat % 2 ^ 32) = some i from hi']
      dsimp only
      generalize tallyAct r i (onHart f key (s.hart key)) = p
      obtain ⟨o, q⟩ := p
      refine ⟨fun v hv => ?_, fun hv => ?_⟩
      · cases hv; rfl
      · cases hv; rfl
  · intro y p q
    have hi : exec (mk (.lane c g) f) s = .next (settle (tallyLanes (Run.start s) c g (wordsOf (mk (.lane c g) f)) true f (regs f)
        cause (onLane f c g))).s := by rw [hl, okLane f hok, done_next h.up]
    unfold tallyLanes at hi
    simp only [Run.start_s, h.gang] at hi
    rw [h.issue] at hi
    rw [hi]
    dsimp only [q, p, y]
    generalize List.foldl _ _ _ = p
    cases lanesRising (x.enabled f.guard) p.2 with
    | nil => rfl
    | cons e rest => rfl

end

/-- Settles O27: each instruction by its equation with the tally instructions of a hart and of a gang. -/
theorem tallyInstructions : Obligations.TallyInstructions := by
  intro scope hs
  have legal : scopeOk scope = true := decide_eq_true hs
  refine ⟨tallyRow_of_exec (fun _ _ _ => rfl) (fun _ _ _ => rfl) (fun _ _ _ _ => rfl) (fun _ _ => legal) fun _ _ => legal,
    tallyRow_of_exec (fun _ _ _ => rfl) (fun _ _ _ => rfl) (fun _ _ _ _ => rfl) (fun _ _ => legal) fun _ _ => legal,
    tallyRow_of_exec (legalHart := fun f => scopeOk scope && f.b = 0) (legalLane := fun f => scopeOk scope && f.b = 0)
      (fun _ _ _ => rfl) (fun _ _ _ => rfl) (fun _ _ _ _ => rfl) (fun f hb => ?_) fun f hb => ?_,
    fun even he => tallyRow_of_exec (legalHart := fun _ => scopeOk scope) (legalLane := fun f => scopeOk scope && pairOk f.b)
      (fun _ _ _ => rfl) (fun _ _ _ => rfl) (fun _ _ _ _ => rfl) (fun _ _ => legal) fun f hb => ?_⟩
  · rw [legal, decide_eq_true hb]; rfl
  · rw [legal, decide_eq_true hb]; rfl
  · rw [legal, pairOk, decide_eq_true ((he f).mp hb)]; rfl

/-! ## Waits (R110) -/

section
variable {z : State} {r : Run z}

/-- The end of a hart's wait: its register takes the status and it goes on past the instruction. -/
theorem endWait_hart {w : TWait} {key : Nat} (hw : w.who = .hart key) (st : Nat) : r.endWait w st =
    (r.put (.waits (r.s.waits.filter fun x => !(x.who = w.who)))).setHart key
      { (r.s.hart key).wg (BitVec.ofNat 5 w.dest) (BitVec.ofNat 64 st) with
        pc := (r.s.hart key).pc + 4, retired := (r.s.hart key).retired + 1 } := by
  unfold Run.endWait
  simp only [hw]
  rfl

/-- The note that a gang is ready is of its core alone. -/
theorem noteReady_rest (r : Run z) (c : Nat) : (r.noteReady c).s = { r.s with cores := (r.noteReady c).s.cores } := by
  unfold Run.noteReady
  split
  · rfl
  · rfl

/-- The end of a thread's wait: its register takes the status. -/
theorem endWait_thread {w : TWait} {c g lane : Nat} {x : Gang} (hw : w.who = .thread c g lane) (hx : r.s.gang? c g = some x)
    (st : Nat) : ∃ y : Gang, y.threads = x.threads.set lane ((x.thread lane).wg w.dest (BitVec.ofNat 32 st)) ∧
      r.endWait w st = ((r.put (.waits (r.s.waits.filter fun x => !(x.who = w.who)))).noteReady c).setGang c g y := by
  unfold Run.endWait
  simp only [hw]
  have hx' : (r.put (.waits (r.s.waits.filter fun x => !(x.who = .thread c g lane)))).s.gang? c g = some x := hx
  rw [hx']
  dsimp only
  refine ⟨_, ?_, rfl⟩
  split
  · rfl
  · rfl

end

/-- The waits of one waiter whose deadline has passed, where it waits once. -/
theorem filter_due {l : List TWait} {who : Waiter} {p : TWait → Bool} {w : TWait}
    (h : (l.filter fun x => decide (x.who = who)) = [w]) (hp : p w = true) :
    (l.filter fun x => decide (x.who = who) && p x) = [w] := by
  have order : (l.filter fun x => decide (x.who = who) && p x) = (l.filter fun x => decide (x.who = who)).filter p := by
    rw [List.filter_filter]
    exact congrArg (l.filter ·) (funext fun x => Bool.and_comm _ _)
  rw [order, h, List.filter_singleton, hp]
  rfl

/-- Settles O28: an operation by the model's equations for it, and the end of a wait by who waits. -/
theorem tallyWaits : Obligations.TallyWaits := by
  refine ⟨fun z r i who th dl dest => ⟨fun h => ?_, fun h hd => ?_, fun h hd => ?_, rfl⟩,
    fun s ag key lane w hup hs ha hw hd hone => ?_, fun s c g lane x w hup hs hx hw hd hone hlane => ?_⟩
  · simp only [tallyAct, if_pos h]
  · simp only [tallyAct, if_neg (Nat.not_le.mpr h), if_pos (show r.s.timeAt (tbHome i) > dl.toNat from hd)]
  · simp only [tallyAct, if_neg (Nat.not_le.mpr h), if_neg (show ¬ r.s.timeAt (tbHome i) > dl.toNat by omega)]
    exact ⟨trivial, rfl⟩
  · have due := filter_due (p := fun w => decide (w.deadline.toNat < s.timeAt (tbHome w.tally))) hone (decide_eq_true hd)
    have he : exec (.twaitTimeout ag lane) s = done ((Run.start s).endWait w stTimeout) := by
      cases ag with
      | host n =>
        obtain ⟨_, rfl⟩ := hartKey_host ha
        show done ((Run.start s).each _ _) = _
        rw [due]; rfl
      | fw p =>
        have hk := hartKey_fw ha
        subst hk
        show done ((Run.start s).each _ _) = _
        rw [due]; rfl
      | lane c g => cases ha
    rw [he, done_next hup, endWait_hart hw]
    refine ⟨_, rfl, ?_, hart_hart_self hs.units _ _, fun k hk => hart_hart_ne _ _ hk, rfl, rfl, rfl⟩
    simp [hw]
  · have due := filter_due (p := fun w => decide (w.deadline.toNat < s.timeAt (tbHome w.tally))) hone (decide_eq_true hd)
    have he : exec (.twaitTimeout (.lane c g) lane) s = done ((Run.start s).endWait w stTimeout) := by
      show done ((Run.start s).each _ _) = _
      rw [due]; rfl
    obtain ⟨y, hy, hend⟩ := endWait_thread (r := Run.start s) hw hx stTimeout
    rw [he, done_next hup, hend]
    have rest := noteReady_rest ((Run.start s).put (.waits (s.waits.filter fun x => !(x.who = w.who)))) c
    refine ⟨_, y, rfl, ?_, gang_gang_self _ _ _ _, hy, ?_, ?_, ?_⟩
    · rw [Run.setGang_s, Upd.apply_waits]
      refine (congrArg State.waits rest).trans ?_
      simp [hw]
    · exact (congrArg State.mem rest :)
    · exact (congrArg State.regs rest :)
    · exact (congrArg State.tallies rest :)

/-! ## A freed tally whose parcel is traced -/

/-- A machine in which a parcel waits on tally 1, trace records of the scheduler are enabled and their ring is full, and the drop of
a record is an error event that signals tally 2. -/
def tracedWait : State where
  regs := [(obsReg 0x100, 0x80000000#32), (obsReg 0x104, 1#32), (obsReg 0x114, 1#32), (obsReg 0x204, 0x8000#32),
    (obsReg 0x20C, 0x10002#32)]
  tallies := [(1, { allocated := true }), (2, { allocated := true })]
  sched := { parcels := [(0, { ctx := 0, origin := .queue 0 0, desc := List.replicate 10 0 ++ [0x10001#32], taken := 0 })] }

theorem tracedWait_sound : tracedWait.Sound :=
  ⟨by decide, by decide, by decide, fun _ h => absurd h List.not_mem_nil⟩

/-- The end of the parcel is traced, the record dropped, and the drop signals tally 2. -/
theorem tally_freeTally_tracedWait : (((Run.start tracedWait).freeTally 1).s.tally 2).value = 1#32 := by decide

/-- Refutes O26: a tally that is freed ends the parcels that wait on it (R284), the end is a trace point (R314), a record that the full
ring drops is an error event (R489), and the error event may signal another tally (R492), whose value rises. -/
theorem not_tallySignals : ¬ Obligations.TallySignals := by
  unfold Obligations.TallySignals
  rintro ⟨_, freed⟩
  obtain ⟨_, _, _, _, _, others⟩ := freed tracedWait (Run.start tracedWait) 1 0x10001 tracedWait_sound (by decide) (by decide)
  have kept : ((Run.start tracedWait).freeTally 1).s.tally 2 = tracedWait.tally 2 := others 2 (by decide)
  have risen := tally_freeTally_tracedWait
  rw [kept] at risen
  exact absurd risen (by decide)

end Sys2Proof.Machine
end


section
/-! PROOFS. Tensor instructions: issue into the queue, descriptors, start and finish (R48, R68 to R72, R127 to R129). -/

namespace Sys2Proof.Machine

/-! ## Issue (R48, R72, R127) -/

section
variable {s : State} {c g : Nat} {x : Gang} {r : Run s}

/-- No tensor instruction issues while the tensor queue is full. -/
theorem tensorIssue_full {i : Instr} (legal : Bool) (regs tds : List Nat) (bank : Option Nat)
    (body : LCtx → Gang → Run s → Run s × LEnd) (hq : 16 ≤ (s.core c).queue.length) :
    tensorIssue (Run.start s) (.lane c g) i legal regs tds bank body = Run.start s := by
  simp [tensorIssue, hq]

/-- A tensor instruction that meets room in the queue issues, with its own checks before its effect. -/
theorem OnLane.tensorIssue {i : Instr} {regs tds : List Nat} (h : OnLane s c g (wordsOf i) regs tds x r)
    (hq : (s.core c).queue.length < 16) (bank : Option Nat) (body : LCtx → Gang → Run s → Run s × LEnd) :
    tensorIssue (Run.start s) (.lane c g) i true regs tds bank body =
      if (x.advanced (wordsOf i)).liveLanes ≠ x.active then
        faultLanes (Run.start s) c g (x.minPc.getD 0) (x.active.map fun l => (l, .tensorDivergent, laneMask x.active))
      else match bank.filter fun b => decide (x.banks.length ≤ b) with
        | some b => faultLanes (Run.start s) c g (x.minPc.getD 0) (x.active.map fun l => (l, .bankNotHeld, b))
        | none => match body ⟨c, g, x.minPc.getD 0, x.active, x.enabled 0⟩ (x.advanced (wordsOf i)) r with
          | (r', .next y) => noteIssue (r'.setGang c g y) c g
          | (r', .set) => noteIssue r' c g
          | (_, .stall) => Run.start s
          | (_, .fault fs) => faultLanes (Run.start s) c g (x.minPc.getD 0) fs := by
  have hb : (x.advanced (wordsOf i)).banks = x.banks := rfl
  simp only [Machine.tensorIssue, Run.start_s, Nat.not_le.mpr hq, h.issue, ge_iff_le, ↓reduceIte]
  by_cases hw : (x.advanced (wordsOf i)).liveLanes = x.active
  · simp only [hw, ne_eq, not_true_eq_false, ↓reduceIte]
    cases bank with
    | none => rfl
    | some b =>
      by_cases hk : x.banks.length ≤ b
      · simp [hb, hk, Option.filter]
      · simp only [hb, hk, Option.filter, ↓reduceIte, decide_false, Bool.false_eq_true] <;> rfl
  · simp [hw]

/-- A tensor instruction on a gang that is ready for it has its own effect. -/
theorem TensorReady.issue {i : Instr} {bank : Option Nat} (h : TensorReady s c x (wordsOf i) bank) {regs tds : List Nat}
    (hl : OnLane s c g (wordsOf i) regs tds x r) (body : LCtx → Gang → Run s → Run s × LEnd) :
    Machine.tensorIssue (Run.start s) (.lane c g) i true regs tds bank body =
      match body ⟨c, g, x.minPc.getD 0, x.active, x.enabled 0⟩ (x.advanced (wordsOf i)) r with
      | (r', .next y) => noteIssue (r'.setGang c g y) c g
      | (r', .set) => noteIssue r' c g
      | (_, .stall) => Run.start s
      | (_, .fault fs) => faultLanes (Run.start s) c g (x.minPc.getD 0) fs := by
  have hb : (bank.filter fun b => decide (x.banks.length ≤ b)) = none := by
    rw [Option.filter_eq_none_iff]
    intro b hb
    simpa using h.held b hb
  rw [hl.tensorIssue h.room, if_neg (not_not.mpr h.whole), hb]

end

/-- A tensor instruction that enters the queue, by its command. `ok` is what its lane form asks of the gang. -/
theorem enqueueRow_of_exec {mk : Agent → Instr} {f : T3} {op : TOp} {legal : Bool} {regs tds : List Nat} {bank : Option Nat}
    {upd : Gang → TInstr → Gang × TInstr} {ok : Gang → Prop}
    (he : ∀ ag s, (∀ c g x, ag = .lane c g → s.gang? c g = some x → ok x) → exec (mk ag) s =
      done (tensorIssue (Run.start s) ag (mk ag) legal regs tds bank fun cx x r => enqueue r cx x f op bank upd))
    (hl : legal = true) : EnqueueRow mk f op regs tds bank upd ok := by
  subst hl
  constructor
  · intro s c g x r h hr hok y k p
    have hx : ∀ c' g' x', Agent.lane c g = .lane c' g' → s.gang? c' g' = some x' → ok x' := by
      rintro _ _ x' ⟨⟩ hx'
      rw [h.gang] at hx'
      cases hx'
      exact hok
    rw [he _ _ hx, done_next h.up, hr.issue h]
    rfl
  · intro s ag key r h
    rw [h.exec_issue (legal := false) (body := fun _ _ h r => (r, .next h))
      (by rintro n rfl _; exact he _ _ (by rintro _ _ _ ⟨⟩)) (by rintro p rfl; exact he _ _ (by rintro _ _ _ ⟨⟩)), h.illegal]

/-- The encodings of a mode of TSMAX (R196). -/
def tsmaxLegal (mode : Nat) (f : T3) : Bool :=
  match mode with
  | 0 => stepImmOk f.imm
  | 1 => f.imm = 0 && f.bank = 0 && f.tdB = 0
  | 2 => f.imm = 0 && f.bank = 0
  | _ => f.imm = 0 && f.bank = 0 && f.tdB = 0 && f.tdC = 0

/-- The descriptors that a mode of TSMAX names (R196). -/
def tsmaxTds (mode : Nat) (f : T3) : List Nat :=
  match mode with
  | 1 => [f.tdA.toNat, f.tdC.toNat]
  | 3 => [f.tdA.toNat]
  | _ => [f.tdA.toNat, f.tdB.toNat, f.tdC.toNat]

/-- A command of TSMAX where the gang holds its mode in G. -/
theorem tsmaxIssue_eq {i : Instr} {mode : Nat} {ag : Agent} {f : T3} {s : State}
    (hm : ∀ c g x, ag = .lane c g → s.gang? c g = some x → bits ((x.thread 0).rg f.g.toNat).toNat 17 16 = mode) :
    tsmaxIssue i mode ag f s =
      done (tensorIssue (Run.start s) ag i (tsmaxLegal mode f) [f.g.toNat] (tsmaxTds mode f)
        (if mode = 0 then some f.bank.toNat else none)
        fun cx x r => enqueue r cx x f .tsmax (if mode = 0 then some f.bank.toNat else none) keepList) := by
  unfold tsmaxIssue
  extract_lets r held
  refine if_neg (not_not.mpr ?_)
  cases ag with
  | lane c g =>
    show (match s.gang? c g with | some x => bits (gLane0 x f).toNat 17 16 | none => mode) = mode
    cases hx : s.gang? c g with
    | none => rfl
    | some x => exact hm c g x rfl hx
  | host n => rfl
  | fw p => rfl

/-- A command of TSMAX, from its mode. -/
theorem tsmaxRow {mk : Agent → Instr} {mode : Nat} {f : T3} (he : ∀ ag s, exec (mk ag) s = tsmaxIssue (mk ag) mode ag f s)
    (hl : tsmaxLegal mode f = true) :
    EnqueueRow mk f .tsmax [f.g.toNat] (tsmaxTds mode f) (if mode = 0 then some f.bank.toNat else none) keepList
      fun x => bits ((x.thread 0).rg f.g.toNat).toNat 17 16 = mode :=
  enqueueRow_of_exec (fun ag s hm => (he ag s).trans (tsmaxIssue_eq hm)) hl

/-- imm32 with no bit but those of a mask. -/
theorem immOk_of {f : T3} {m n : Nat} (h : f.imm.toNat &&& n = 0) (hn : 2 ^ 32 - 1 - m = n) : immOk f m = true :=
  decide_eq_true (hn ▸ h)

/-- No bit of imm32 is set. -/
theorem immOk_zero {f : T3} {m : Nat} (h : f.imm = 0) : immOk f m = true := by simp [immOk, h]

/-- Settles O29: each instruction by its command, TSMAX by the mode in G. -/
theorem tensorInstructionsEnqueue : Obligations.TensorInstructionsEnqueue := by
  refine ⟨fun f => ⟨?_, ?_, ?_, ?_, ?_, ?_, ?_, ?_, ?_⟩, fun f => ?_⟩
  · intro hi hb hk hg
    exact enqueueRow_of_exec (fun _ _ _ => rfl) (by simp [immOk_of hi (m := 1), hb, hk, hg])
  · intro hi hc hg hn
    exact enqueueRow_of_exec (fun _ _ _ => rfl) (by simpa [immOk_of hi (m := 15), hc, hg] using hn)
  · intro hi ha hg hz
    refine enqueueRow_of_exec (legal := immOk f 3 && f.tdA = 0 && f.g = 0 && (f.imm.getLsbD 1 || f.tdB = 0)) (fun ag s _ => ?_) ?_
    · show done (tensorIssue _ _ _ _ _ _ _ _) = done (tensorIssue _ _ _ _ _ _ _ _)
      cases f.imm.getLsbD 1 <;> rfl
    · cases h : f.imm.getLsbD 1 with
      | false => simp [immOk_of hi (m := 3), ha, hg, hz h]
      | true => simp [immOk_of hi (m := 3), ha, hg]
  · intro hi hb hc hg
    exact enqueueRow_of_exec (fun _ _ _ => rfl) (by simp [immOk_zero hi, hb, hc, hg])
  · intro hi ha hb hc hg
    exact enqueueRow_of_exec (fun _ _ _ => rfl) (by simp [immOk_zero hi, ha, hb, hc, hg])
  · intro hi hb hc
    exact enqueueRow_of_exec (fun _ _ _ => rfl) (by simp [immOk_zero hi, hb, hc])
  · intro hi ha hb
    exact enqueueRow_of_exec (fun _ _ _ => rfl) (by simp [immOk_zero hi, ha, hb])
  · intro hi hk
    exact enqueueRow_of_exec (fun _ _ _ => rfl) (by simp [immOk_of hi (m := 0x1F01), hk])
  · intro hi hb hc
    exact enqueueRow_of_exec (fun _ _ _ => rfl) (by simp [immOk_of hi (m := 0x1F07FF), hb, hc])
  · intro mode all
    refine ⟨fun h1 h2 => tsmaxRow (mode := 0) (fun _ _ => rfl) ?_, fun hi hk => ⟨fun hb => tsmaxRow (mode := 1) (fun _ _ => rfl) ?_,
      tsmaxRow (mode := 2) (fun _ _ => rfl) ?_, fun hb hc => tsmaxRow (mode := 3) (fun _ _ => rfl) ?_⟩⟩
    · simp [tsmaxLegal, stepImmOk, h1, h2]
    · simp [tsmaxLegal, hi, hk, hb]
    · simp [tsmaxLegal, hi, hk]
    · simp [tsmaxLegal, hi, hk, hb, hc]

/-! ## Checks at issue and descriptors (R48, R68, R71, R72) -/

section
variable {s : State} {c g : Nat}

/-- A command that issues a tensor instruction changes nothing while the queue is full. -/
theorem exec_of_full {i : Instr} {legal : Bool} {regs tds : List Nat} {bank : Option Nat}
    {body : LCtx → Gang → Run s → Run s × LEnd} (up : s.halted = false) (hq : 16 ≤ (s.core c).queue.length)
    (he : exec i s = done (tensorIssue (Run.start s) (.lane c g) i legal regs tds bank body)) : exec i s = .next s := by
  rw [he, tensorIssue_full _ _ _ _ _ hq, done_next up]; rfl

/-- A command of TSMAX changes nothing while the queue is full. -/
theorem exec_tsmax_of_full {i : Instr} {mode : Nat} {f : T3} (up : s.halted = false) (hq : 16 ≤ (s.core c).queue.length)
    (he : exec i s = tsmaxIssue i mode (.lane c g) f s) : exec i s = .next s := by
  rw [he]
  unfold tsmaxIssue
  extract_lets r held legal tds bank
  split
  · rw [done_next up]; rfl
  · rw [tensorIssue_full _ _ _ _ _ hq, done_next up]; rfl

end

/-- Settles O30: the queue's room comes first, then whether the gang is whole and the bank is held. -/
theorem tensorIssueChecks : Obligations.TensorIssueChecks := by
  refine ⟨fun f s c g up hq => ?_, ?_⟩
  · have issued := @exec_of_full s c g
    have tsmax := @exec_tsmax_of_full s c g
    simp only [List.forall_mem_cons, List.not_mem_nil, false_imp_iff, implies_true, and_true]
    exact ⟨issued up hq rfl, issued up hq rfl, issued up hq rfl, issued up hq rfl, issued up hq rfl, issued up hq rfl,
      issued up hq rfl, issued up hq rfl, issued up hq rfl, tsmax up hq rfl, tsmax up hq rfl, tsmax up hq rfl, tsmax up hq rfl,
      issued up hq rfl, issued up hq rfl, issued up hq rfl, issued up hq rfl⟩
  · intro f s c g x r hi ha hb hc hg h hq y
    have he : exec (.tclr (.lane c g) f) s = done (tensorIssue (Run.start s) (.lane c g) (.tclr (.lane c g) f) true [] []
        (some f.bank.toNat) fun cx x r => enqueue r cx x f .tclr (some f.bank.toNat) keepList) := by
      show done (tensorIssue _ _ _ (immOk f 0 && f.tdA = 0 && f.tdB = 0 && f.tdC = 0 && f.g = 0) _ _ _ _) = _
      simp [immOk_zero hi, ha, hb, hc, hg]
    rw [he, done_next h.up, h.tensorIssue hq]
    refine ⟨fun hw => by rw [if_pos hw], fun hw hk => ?_⟩
    rw [if_neg (not_not.mpr hw)]
    simp [Option.filter, hk]

/-- A tensor instruction that leaves its gang y, in one step of its command. -/
theorem TensorReady.exec_next {s : State} {c g : Nat} {x y : Gang} {r r' : Run s} {i : Instr} {bank : Option Nat}
    {legal : Bool} {regs tds : List Nat} {body : LCtx → Gang → Run s → Run s × LEnd} (h : TensorReady s c x (wordsOf i) bank)
    (hl : OnLane s c g (wordsOf i) regs tds x r)
    (he : exec i s = done (tensorIssue (Run.start s) (.lane c g) i legal regs tds bank body)) (ok : legal = true)
    (hb : body ⟨c, g, x.minPc.getD 0, x.active, x.enabled 0⟩ (x.advanced (wordsOf i)) r = (r', .next y)) :
    exec i s = .next (noteIssue (r'.setGang c g y) c g).s := by
  subst ok
  rw [he, done_next hl.up, h.issue hl, hb]

/-- A tensor instruction that waits changes nothing. -/
theorem TensorReady.exec_stall {s : State} {c g : Nat} {x : Gang} {r r' : Run s} {i : Instr} {bank : Option Nat}
    {legal : Bool} {regs tds : List Nat} {body : LCtx → Gang → Run s → Run s × LEnd} (h : TensorReady s c x (wordsOf i) bank)
    (hl : OnLane s c g (wordsOf i) regs tds x r)
    (he : exec i s = done (tensorIssue (Run.start s) (.lane c g) i legal regs tds bank body)) (ok : legal = true)
    (hb : body ⟨c, g, x.minPc.getD 0, x.active, x.enabled 0⟩ (x.advanced (wordsOf i)) r = (r', .stall)) :
    exec i s = .next s := by
  subst ok
  rw [he, done_next hl.up, h.issue hl, hb, Run.start_s]

/-- Settles O31: each instruction by its issue on a gang that is ready for it. -/
theorem tensorDescriptorInstructions : Obligations.TensorDescriptorInstructions := by
  intro f s c g x ha hb hk
  refine ⟨?tdw, ?tdld, ?tdst, ?tsync⟩
  case tdw =>
    intro r hi h hr y
    have h7 : f.imm.toNat = 0 ∨ f.imm.toNat = 1 ∨ f.imm.toNat = 2 ∨ f.imm.toNat = 3 ∨ f.imm.toNat = 4 ∨ f.imm.toNat = 5 ∨
      f.imm.toNat = 6 ∨ f.imm.toNat = 7 := by omega
    have hm : immOk f 7 = true := decide_eq_true (by
      rcases h7 with e | e | e | e | e | e | e | e <;> rw [e] <;> rfl)
    exact hr.exec_next h rfl (by simp [hm, ha, hb, hk]) rfl
  case tdld =>
    intro r pa r' hp h hr y hal ht hlow hmem hbar hue
    refine hr.exec_next h rfl (by simp [ha, hb, hk, pairOk, hp]) ?_
    dsimp only
    rw [if_neg (not_not.mpr hal), ht]
    dsimp only
    rw [if_neg (by simpa [hmem, hbar, hue] using hlow)]
  case tdst =>
    intro r pa r' hp h hr y hal ht hlow hmem hbar
    refine hr.exec_next h rfl (by simp [ha, hb, hk, pairOk, hp]) ?_
    dsimp only
    rw [if_neg (not_not.mpr hal), ht]
    dsimp only
    rw [if_neg (by simpa [hmem, hbar] using hlow)]
  case tsync =>
    intro r hi hc h hr y
    have legal : (immOk f 0 && f.tdA = 0 && f.tdB = 0 && f.tdC = 0 && f.bank = 0) = true := by simp [immOk_zero hi, ha, hb, hc, hk]
    refine ⟨fun ⟨t, ht, hg⟩ => hr.exec_stall (r' := r) h rfl legal ?_, fun hn => hr.exec_next h rfl legal ?_⟩
    · exact if_pos (List.any_eq_true.mpr ⟨t, ht, decide_eq_true hg⟩)
    · have hst : (BitVec.ofNat 32 (if y.bounds then stBounds else if y.issued ≠ 0 && !y.nonEmpty then stEmpty else stOk)) =
          if y.bounds then 0x10 else if y.issued ≠ 0 ∧ y.nonEmpty = false then 1 else 0 := by
        cases y.bounds <;> cases hne : y.nonEmpty <;> by_cases hi : y.issued = 0 <;> simp [hi, stBounds, stEmpty, stOk]
      rw [← hst]
      exact if_neg (by simpa [or_imp, forall_and] using hn)

/-! ## Start and finish (R71, R128, R129, R519) -/

/-- A write of memory. -/
def MemUpd : Upd → Prop
  | .mem _ _ => True
  | _ => False

namespace Via

variable {z s : State} {r : Run z}

/-- Writes of memory leave what is not memory as it was. -/
theorem mem_keep {β : Type} {t : State} (h : Via MemUpd s t) (g : State → β) (hg : ∀ x m, g { x with mem := m } = g x) :
    g t = g s :=
  h.keep g fun u hu x => by
    cases u with
    | mem a b => exact hg x _
    | _ => exact hu.elim

theorem mem_setBytes (h : Via MemUpd s r.s) (a : Nat) (bs : List Byte) : Via MemUpd s (r.setBytes a bs).s := by
  induction bs generalizing r a with
  | nil => exact h
  | cons b bs ih => exact ih (h.put (u := .mem a b) trivial) (a + 1)

theorem mem_markUsed (h : Via MemUpd s r.s) (c : XCtx) (k : Access) (l : Leaf) : Via MemUpd s (r.markUsed c k l).s :=
  .ite (fun _ => h) fun _ => h.mem_setBytes _ _

theorem mem_markRange (h : Via MemUpd s r.s) (c : XCtx) (k : Access) (va n : Nat) : Via MemUpd s (r.markRange c k va n).s := by
  refine .ite (fun _ => h) fun _ => h.each fun i _ r h => ?_
  split
  · exact h.mem_markUsed c k _
  · exact h

theorem mem_markStats (h : Via MemUpd s r.s) (x : Gang) : Via MemUpd s (r.markStats x).s := by
  unfold Run.markStats
  split
  · exact .ite (fun _ => h) fun _ => h.mem_markRange _ _ _ _
  · exact h

/-- A walk of the tables where no word of the vault is weak is a write of memory at most. -/
theorem mem_scrubWalk (h : Via MemUpd s r.s) (hw : s.vault.weak = []) (c : XCtx) (va : Nat) : Via MemUpd s (r.scrubWalk c va).s := by
  rw [scrubWalk_of_no_weak ((h.mem_keep (·.vault.weak) fun _ _ => rfl).trans hw)]
  exact h

end Via

/-- An entry of the tensor queue starts: the USED bits of the pages it reads and writes, then its place in the core (R128). -/
def startRun {z : State} (r : Run z) (s : State) (x : Gang) (t : TInstr) (rd wr : List Nat) : Run z :=
  let c := gangX s x
  let r := r.each (rd.map (fun p => (p, Access.load)) ++ wr.map (fun p => (p, Access.store))) fun p r =>
    match lookup r.s c p.2 (p.1 * 4096) with
    | .ok l => (r.scrubWalk c (p.1 * 4096)).markUsed c p.2 l
    | .error _ => r
  if t.op = .tdrain then r.markStats x else r

/-- The USED bits of the pages that a starting entry reads and writes are memory. -/
theorem startRun_mem {z s v : State} {r : Run z} (hw : v.vault.weak = []) (h : Via MemUpd v r.s) (x : Gang) (t : TInstr)
    (rd wr : List Nat) : Via MemUpd v (startRun r s x t rd wr).s := by
  have hp : Via MemUpd v (r.each (rd.map (fun p => (p, Access.load)) ++ wr.map (fun p => (p, Access.store))) fun p r =>
      match lookup r.s (gangX s x) p.2 (p.1 * 4096) with
      | .ok l => (r.scrubWalk (gangX s x) (p.1 * 4096)).markUsed (gangX s x) p.2 l
      | .error _ => r).s := by
    refine h.each fun p _ r h => ?_
    split
    · exact (h.mem_scrubWalk hw _ _).mem_markUsed _ _ _
    · exact h
  exact .ite (fun _ => hp.mem_markStats x) fun _ => hp

/-- What the start of an entry that has left the queue does, by its checks (R71, R128, R129). -/
def startEffect {z : State} (r : Run z) (s : State) (c : Nat) (x : Gang) (t : TInstr) : Run z :=
  match startPlan s c x t with
  | .refuse => r.tensorRefuse c x t
  | .empty => r
  | .fault cause tval => r.laneFault c t.gang cause tval t.pc.toNat t.mask.toNat stLaneFault (some (t.seq + 1))
  | .go rd wr =>
    match folioPages s (gangX s x) c (t.op = .fmove) .load rd, folioPages s (gangX s x) c (t.op = .fmove) .store wr with
    | some rp, some wp =>
      let m := ((rd ++ wr).zip (rp ++ wp)).foldl (fun m p => SMap.insert m p.1 p.2) []
      let q := startRun r s x t rd wr
      (q.setCore c { q.s.core c with running := (q.s.core c).running ++ [{ t with reads := rp, writes := wp, map := m }] }).setGang
        c t.gang { x with nonEmpty := true }
    | _, _ => ((r.countWalk (gangX s x) .load rd).countWalk (gangX s x) .store wr).tensorRefuse c x t

section
variable {s : State} {c seq : Nat} {t : TInstr} {x : Gang}

/-- An entry whose start conditions hold starts. -/
theorem exec_start (up : s.halted = false) (ht : ((s.core c).queue.find? fun e => decide (e.seq = seq)) = some t)
    (hx : s.gang? c t.gang = some x) (hl : x.late.any (· ≤ t.seq) = false) (hs : mayStart s c t = true) :
    exec (.tensorInstrStart c seq) s = .next (startEffect ((Run.start s).unqueue c t) s c x t).s := by
  show execTensorInstrStart c seq s = _
  unfold execTensorInstrStart
  rw [ht]
  simp only [hx, hl, hs, Bool.false_eq_true, if_false, Bool.not_true, startEffect]
  cases startPlan s c x t with
  | refuse => exact done_next up
  | empty => exact done_next up
  | fault cause tval => exact done_next up
  | go rd wr =>
    dsimp only
    cases folioPages s (gangX s x) c (t.op = .fmove) .load rd with
    | none => exact done_next up
    | some rp =>
      cases folioPages s (gangX s x) c (t.op = .fmove) .store wr with
      | none => exact done_next up
      | some wp => exact done_next up

/-- What a starting entry leaves where no word of the vault is weak. -/
theorem start_go (hz : s.Sound) (hw : s.vault.weak = []) (rd wr rp wp : List Nat) (m : SMap Nat)
    {r : Run s} (hr : r = startRun ((Run.start s).unqueue c t) s x t rd wr) {u : State}
    (hu : u = ((r.setCore c { r.s.core c with running := (r.s.core c).running ++ [{ t with reads := rp, writes := wp, map := m }]
      }).setGang c t.gang { x with nonEmpty := true }).s) :
    (u.core c).queue = (s.core c).queue.filter (fun e => decide (e.seq ≠ t.seq)) ∧
    (∃ e, (u.core c).running = (s.core c).running ++ [e] ∧ e.reads = rp ∧ e.writes = wp ∧ e.seq = t.seq ∧ e.op = t.op) ∧
    u.gang? c t.gang = some { x with nonEmpty := true } ∧ u.regs = s.regs ∧ u.harts = s.harts ∧
    (∀ k, k ≠ c → u.core k = s.core k) := by
  have hv : Via MemUpd ((Run.start s).unqueue c t).s r.s := by rw [hr]; exact startRun_mem (v := ((Run.start s).unqueue c t).s) hw .refl x t rd wr
  have hcores : r.s.cores = ((Run.start s).unqueue c t).s.cores := hv.mem_keep (·.cores) fun _ _ => rfl
  have hcore : ∀ k, r.s.core k = ((Run.start s).unqueue c t).s.core k := fun k => by rw [State.core, hcores]; rfl
  have hc : r.s.core c = { s.core c with queue := (s.core c).queue.filter fun e => e.seq ≠ t.seq } := by
    rw [hcore]; exact core_core_self hz.units _ _
  have hself : u.core c = { r.s.core c with running := (r.s.core c).running ++ [{ t with reads := rp, writes := wp, map := m }] } := by
    rw [hu]; exact core_core_self (r.ok.sound hz).units _ _
  refine ⟨by rw [hself, hc], ⟨{ t with reads := rp, writes := wp, map := m }, by rw [hself, hc], rfl, rfl, rfl, rfl⟩, ?_, ?_, ?_, ?_⟩
  · rw [hu]; exact gang_gang_self _ c t.gang _
  · rw [hu]; exact hv.mem_keep (·.regs) fun _ _ => rfl
  · rw [hu]; exact hv.mem_keep (·.harts) fun _ _ => rfl
  · intro k hk
    rw [hu]
    exact (core_core_ne r.s _ hk).trans ((hcore k).trans (core_core_ne s _ hk))

end

/-- The bytes of the items that the Prism store keeps. -/
theorem sum_bytes (l : List PrismItem) : (l.foldl fun n x => n + x.bytes) 0 = (l.map (·.bytes)).sum := by
  rw [List.sum_eq_foldl, List.foldl_map]

/-- Settles O32: the start by its checks, and the three ends by their commands. -/
theorem tensorStartAndFinish : Obligations.TensorStartAndFinish := by
  refine ⟨?start, ?finish, ?move, ?prism⟩
  case start =>
    intro s c seq t x up ht hx r
    have late : (∀ n, x.late = some n → t.seq < n) → x.late.any (· ≤ t.seq) = false := by
      intro hl
      cases h : x.late with
      | none => rfl
      | some n => simpa using hl n h
    refine ⟨fun n hn hle => ?_, fun hl hm => ?_, fun hl hm => ?_⟩
    · show execTensorInstrStart c seq s = _
      unfold execTensorInstrStart
      rw [ht]
      simp only [hx, hn, Option.any_some, hle, decide_true, if_true]
      exact done_next up
    · show execTensorInstrStart c seq s = _
      unfold execTensorInstrStart
      rw [ht]
      simp only [hx, late hl, hm, Bool.false_eq_true, if_false, Bool.not_false, if_true]
      exact done_next up
    · have he := exec_start up ht hx (late hl) hm
      unfold startEffect at he
      refine ⟨fun hp => by rw [he, hp], fun hp => by rw [he, hp], fun cause tval hp => by rw [he, hp], ?_⟩
      intro rd wr hp rp wp
      refine ⟨?_, ?_⟩
      · intro hn
        rw [he, hp]
        dsimp only [rp, wp] at hn ⊢
        rcases hn with hn | hn
        · rw [hn]
        · rw [hn]
          cases folioPages s (gangX s x) c (t.op = .fmove) .load rd <;> rfl
      · intro rs ws hrs hws hz
        dsimp only [rp, wp] at hrs hws
        rw [he, hp]
        dsimp only
        rw [hrs, hws]
        exact ⟨_, rfl, fun hw => start_go hz hw rd wr rs ws _ rfl rfl⟩
  case finish =>
    intro s c seq t x up ht hx hp
    show execTensorInstrFinish c seq s = _
    unfold execTensorInstrFinish
    simp only [Bool.decide_and] at ht
    have held : (!isPrism t || (prismNeeds t t.map).all fun n => (s.core c).prism.any fun i => i.key = n.key) = true := by
      cases h : isPrism t with
      | false => rfl
      | true => simpa using hp h
    simp only [ht, hx, held, Bool.not_true, Bool.false_eq_true, if_false]
    exact done_next up
  case move =>
    intro s c seq t up ht p
    have he : exec (.fmoveFinish c seq) s = done (match p with
        | (r, none) => r
        | (r, some pg) => r.laneFault c t.gang .loadAccess
          (((List.find? (fun e => decide (e.2 = pg)) t.map).map Prod.fst).getD 0 * 4096) t.pc.toNat t.mask.toNat stUncorrectable
            (some (t.seq + 1))) := by
      show execFmoveFinish c seq s = _
      unfold execFmoveFinish
      simp only [Bool.decide_and] at ht
      simp only [ht]
      show _ = done (match p with | (r, none) => r | (r, some pg) => _)
      rcases hp : p with ⟨q, _ | pg⟩ <;> simp only [p] at hp <;> rw [hp]
    rw [he, done_next up]
    refine ⟨fun hn => ?_, fun pg hn => ?_⟩
    · rw [show p = (p.1, none) from Prod.ext rfl hn]
    · rw [show p = (p.1, some pg) from Prod.ext rfl hn]
  case prism =>
    intro s c w up hf kept hroom
    show execPrismFeedFetch c s = _
    unfold execPrismFeedFetch
    simp only [hf, sum_bytes]
    rw [if_pos hroom]
    exact done_next up

end Sys2Proof.Machine
end


section
/-! PROOFS. Control registers and the commands that are one access to one of them (R9 to R14, R38). -/

namespace Sys2Proof.Machine

/-! ## The latch (R9) -/

/-- A state that holds two latched words for one _HI register, as its type allows and no run from reset comes to. -/
def latchedTwice : State := { latch := [(4, 1), (4, 2)] }

/-- A latch of 0 takes the first of the two words away, and the second is read. -/
theorem latchedTwice_read : (((Run.start latchedTwice).setLatch 4 0).regRead none 4).1 = 2 := by decide

/-- Refutes O33: its last clause asks of every state, sound or not, that a latched word is read back. -/
theorem not_registerCommands : ¬ Obligations.RegisterCommands := by
  intro ⟨_, _, _, h⟩
  have h0 := h latchedTwice (Run.start latchedTwice) none 4 0 (by decide) (by decide)
  rw [latchedTwice_read] at h0
  exact absurd h0 (by decide)

end Sys2Proof.Machine
end


section
/-! PROOFS. The commands that are one access of a register by an agent (R9 to R14, R38). -/

namespace Sys2Proof.Machine

/-! ## Keys and arrays of registers -/

theorem regKey_mod {w off : Nat} (h : off < 2 ^ 20) : regKey w off % 2 ^ 20 = off := by unfold regKey; omega

theorem regKey_div {w off : Nat} (h : off < 2 ^ 20) : regKey w off / 2 ^ 20 = w := by unfold regKey; omega

/-- An offset of an array has its index. -/
theorem arrIdx_base_add {base stride count n : Nat} (hs : 0 < stride) (h : n < count) :
    arrIdx (base + stride * n) base stride count = some n := by
  have hd : (base + stride * n - base) = stride * n := by omega
  simp [arrIdx, hd, Nat.mul_div_cancel_left n hs, h]

theorem arrIdx_none_of_mod {off base stride count : Nat} (h : (off - base) % stride ≠ 0) : arrIdx off base stride count = none := by
  simp [arrIdx, h]

theorem arrIdx_none_of_le {off base stride count : Nat} (h : count ≤ (off - base) / stride) : arrIdx off base stride count = none := by
  simp [arrIdx, Nat.not_lt.mpr h]

/-! ## The effect of a write, register by register -/

section
variable {z : State} (r : Run z) (who : Option Agent) (v : Nat)

/-- An offset past a number is not that number. -/
theorem offset_ne {a b c : Nat} (h : c < a) : a + b ≠ c := by omega

/-- What a write of a register does, where its word has values that occur. -/
def Run.writeEff {z : State} (r : Run z) (who : Option Agent) (k v : Nat) : Run z :=
  match r.regSpecial who k v with
  | some r' => r'
  | none => r.regStore k v

theorem writeEff_of_special {k : Nat} {q : Run z} (h : r.regSpecial who k v = some q) : r.writeEff who k v = q := by
  rw [Run.writeEff, h]

/-- The CFG of a context. -/
theorem special_ctxCfg {n : Nat} (h : n < 4096) :
    r.regSpecial who (schedReg (0x10000 + 0x10 * n)) v = some (r.writeCtxCfg n v) := by
  have hk : 0x10000 + 0x10 * n < 2 ^ 20 := by omega
  unfold schedReg Run.regSpecial
  simp only [regKey_mod hk, regKey_div hk]
  simp [offset_ne, arrIdx_base_add (base := 65536) (stride := 16) (by decide) h]

/-- No block of the reflex lane is in the arrays of the contexts. -/
theorem arrIdx_ctx_of_rfx {off base : Nat} (h : 0xF0000 ≤ off) (hb : base ≤ 0x10010) : arrIdx off base 16 4096 = none :=
  arrIdx_none_of_le (by omega)

/-- The registers of the reflex lane. -/
theorem special_rfx {off : Nat} (h : 0xF0000 ≤ off) (hk : off < 2 ^ 20) :
    r.regSpecial who (schedReg off) v =
      if off % 0x100 = 0 then some (r.writeRfxCore ((off - 0xF0000) / 0x100) v)
      else if inArr (off % 0x100) 0x20 0x20 4 then
        some (if bit v 31 then r.rfxStop (4 * ((off - 0xF0000) / 0x100) + (off % 0x100 / 0x20 - 1)) stReflexStopped else r)
      else if inArr (off % 0x100) 0x24 0x20 4 then
        some (r.rfxMark (4 * ((off - 0xF0000) / 0x100) + (off % 0x100 / 0x20 - 1)) v)
      else none := by
  have hlow : ∀ c, c < 0xF0000 → off ≠ c := fun c hc => by omega
  unfold schedReg Run.regSpecial
  simp only [regKey_mod hk, regKey_div hk]
  simp [arrIdx_ctx_of_rfx h, hlow, Nat.not_lt.mpr h]

/-- The register of a reflex core slot. -/
theorem special_rfxCore {n : Nat} (h : n < 16) : r.regSpecial who (rfxCoreReg n) v = some (r.writeRfxCore n v) := by
  rw [rfxCoreReg, special_rfx r who v (by omega) (by omega), if_pos (by omega)]
  congr 2
  omega

/-- The MARK register of a reflex group. -/
theorem special_rfxMark {key : Nat} (h : key < 64) : r.regSpecial who (rfxReg key 0x24) v = some (r.rfxMark key v) := by
  have ho : (0xF0000 + 0x100 * (key / 4) + 0x20 * (key % 4) + 0x24) % 0x100 = 0x24 + 0x20 * (key % 4) := by omega
  have h1 : inArr (0x24 + 0x20 * (key % 4)) 0x20 0x20 4 = false := by
    rw [inArr, arrIdx_none_of_mod (by omega)]; rfl
  have h2 : inArr (0x24 + 0x20 * (key % 4)) 0x24 0x20 4 = true := by
    rw [inArr, arrIdx_base_add (by decide) (by omega)]; rfl
  rw [rfxReg, special_rfx r who v (by omega) (by omega), if_neg (by omega), ho, h1, if_neg (by decide), h2, if_pos rfl]
  congr 2
  omega

/-- The CTRL register of a reflex group. -/
theorem special_rfxCtrl {key : Nat} (h : key < 64) :
    r.regSpecial who (rfxReg key 0x20) v = some (if bit v 31 then r.rfxStop key stReflexStopped else r) := by
  have ho : (0xF0000 + 0x100 * (key / 4) + 0x20 * (key % 4) + 0x20) % 0x100 = 0x20 + 0x20 * (key % 4) := by omega
  have hq : 4 * ((0xF0000 + 0x100 * (key / 4) + 0x20 * (key % 4) + 0x20 - 0xF0000) / 0x100) +
      ((0x20 + 0x20 * (key % 4)) / 0x20 - 1) = key := by omega
  have h1 : inArr (0x20 + 0x20 * (key % 4)) 0x20 0x20 4 = true := by
    rw [inArr, arrIdx_base_add (by decide) (by omega)]; rfl
  rw [rfxReg, special_rfx r who v (by omega) (by omega), if_neg (by omega), ho, h1, if_pos rfl, hq]

/-- A word of the local block map. -/
theorem special_lblk {n : Nat} (h : n < 1024) :
    r.regSpecial who (vltReg (0x1000 + 4 * n)) v = some (r.writeLblk n (BitVec.ofNat 32 v)) := by
  have hk : 0x1000 + 4 * n < 2 ^ 20 := by omega
  unfold vltReg Run.regSpecial
  simp only [regKey_mod hk, regKey_div hk]
  simp [offset_ne, inArr, arrIdx_base_add (base := 4096) (stride := 4) (by decide) h,
    arrIdx_none_of_le (off := 4096 + 4 * n) (base := 2048) (stride := 32) (count := 16) (by omega),
    arrIdx_none_of_le (off := 4096 + 4 * n) (base := 2052) (stride := 32) (count := 16) (by omega),
    arrIdx_none_of_le (off := 4096 + 4 * n) (base := 2056) (stride := 32) (count := 16) (by omega)]

/-- The CTRL register of a weight window. -/
theorem special_window {n : Nat} (h : n < 16) :
    r.regSpecial who (vltReg (0x808 + 0x20 * n)) v = some (r.windowCtrl who n v) := by
  have hk : 0x808 + 0x20 * n < 2 ^ 20 := by omega
  unfold vltReg Run.regSpecial
  simp only [regKey_mod hk, regKey_div hk]
  simp [offset_ne, inArr, arrIdx_base_add (base := 2056) (stride := 32) (by decide) h,
    arrIdx_none_of_mod (off := 2056 + 32 * n) (base := 2048) (stride := 32) (count := 16) (by omega),
    arrIdx_none_of_mod (off := 2056 + 32 * n) (base := 2052) (stride := 32) (count := 16) (by omega)]

/-- The CTRL register of a firmware processor. -/
theorem special_fwCtrl {p : Nat} (h : p ≤ 4) :
    r.regSpecial who (fwReg p 0) v = some (if who = some (.fw 4) then r.fwpCtrl p v else r) := by
  have hk : 0x200 * p + 0 < 2 ^ 20 := by omega
  unfold fwReg Run.regSpecial
  simp only [regKey_mod hk, regKey_div hk]
  simp [apply_ite some]

/-- The KICK register of a firmware processor, written by it. -/
theorem special_fwKick {p : Nat} (h : p ≤ 4) : r.regSpecial (some (.fw p)) (fwReg p 0x014) v = some (r.fwpKick p) := by
  have hk : 0x200 * p + 0x014 < 2 ^ 20 := by omega
  have hp : (0x200 * p + 0x014) / 0x200 = p := by omega
  have ho : (0x200 * p + 0x014) % 0x200 = 0x014 := by omega
  unfold fwReg Run.regSpecial
  simp only [regKey_mod hk, regKey_div hk]
  simp [hp, ho]

/-- CORE_FLT_CAUSE of a physical core. -/
theorem special_coreFlt {c : Nat} (h : c < 192) : r.regSpecial who (coreReg c 0x010) v = some (r.fltClear (coreReg c 0x010) v) := by
  have hk : (0x010 : Nat) < 2 ^ 20 := by decide
  unfold coreReg Run.regSpecial
  simp only [regKey_mod hk, regKey_div hk]
  split <;> first | omega | simp

/-- ETH_Pn_QBV_CTRL of a port. -/
theorem special_qbv {n : Nat} (h : n < 4) : r.regSpecial who (portReg n 0x050) v =
    some (if bit v 31 then (r.regStore (portReg n 0x050) v).qbvChange n else r.regStore (portReg n 0x050) v) := by
  have hne : ∀ c, c = 20480 ∨ c = 8192 ∨ c = 8256 → 80 + 256 * n ≠ c := by omega
  have hk : 0x100 * n + 0x050 < 2 ^ 20 := by omega
  unfold portReg ethReg Run.regSpecial
  simp only [regKey_mod hk, regKey_div hk]
  rw [Nat.add_comm (0x100 * n)]
  simp [hne, arrIdx_base_add (base := 80) (stride := 256) (by decide) h,
    arrIdx_none_of_mod (off := 80 + 256 * n) (base := 0) (stride := 256) (count := 4) (by omega)]

/-- CSI_I3Ck_XFER. -/
theorem special_i3c {k : Nat} (h : k < 4) : r.regSpecial who (csiReg (0x3004 + 0x100 * k)) v = some (r.i3cXfer k v) := by
  have hk : 0x3004 + 0x100 * k < 2 ^ 20 := by omega
  unfold csiReg Run.regSpecial
  simp only [regKey_mod hk, regKey_div hk]
  simp [show 12292 + 256 * k ≠ 16384 by omega, arrIdx_base_add (base := 12292) (stride := 256) (by decide) h,
    arrIdx_none_of_mod (off := 12292 + 256 * k) (base := 0) (stride := 256) (count := 8) (by omega),
    arrIdx_none_of_le (off := 12292 + 256 * k) (base := 8196) (stride := 32) (count := 8) (by omega)]

/-- ISP_ARM of a stream. -/
theorem special_ispArm {n : Nat} (h : n < 16) : r.regSpecial who (ispReg n 0x004) v = some (r.ispArm n v) := by
  have he : 0x10000 + 0x1000 * n + 0x004 = 0x10004 + 0x1000 * n := by omega
  have hk : 0x10004 + 0x1000 * n < 2 ^ 20 := by omega
  unfold ispReg Run.regSpecial
  simp only [he, regKey_mod hk, regKey_div hk]
  simp [arrIdx_base_add (base := 65540) (stride := 4096) (by decide) h]

/-- The DVFS register of a cluster or HOST. -/
theorem special_dvfs {c : Nat} (h : c < 17) : r.regSpecial who (dvfsReg c) v = some (r.writeDvfs c v) := by
  have hne : ∀ d, d = 0 ∨ d = 768 ∨ d = 772 ∨ d = 1536 → 256 + 16 * c ≠ d := by omega
  have hk : 0x100 + 0x10 * c < 2 ^ 20 := by omega
  unfold dvfsReg pwrReg Run.regSpecial
  simp only [regKey_mod hk, regKey_div hk]
  simp [hne, arrIdx_base_add (base := 256) (stride := 16) (by decide) h]

/-- CLK_CLc_DIV of a cluster or HOST. -/
theorem special_div {c : Nat} (h : c < 17) : r.regSpecial who (regKey 2 (0x100 + 4 * c)) v = some (r.writeDiv c (bits v 1 0)) := by
  have hk : 0x100 + 4 * c < 2 ^ 20 := by omega
  unfold Run.regSpecial
  simp only [regKey_mod hk, regKey_div hk]
  simp [arrIdx_base_add (base := 256) (stride := 4) (by decide) h]

end

/-! ## Rows of one access -/

/-- An agent's write of a word to a register, in a command of its own. -/
theorem agentWrite_row {s : State} {ag : Agent} {k v : Nat} (up : s.halted = false) (ha : canAccess s ag = true) :
    (accessOk s ag k true = false → done ((Run.start s).agentWrite ag k v) = .next ((Run.start s).accessFault ag k true).s) ∧
    (accessOk s ag k true = true → ∀ d, regDesc k = some d →
      done ((Run.start s).agentWrite ag k v) =
        .next ((if d.occurs v then (Run.start s).writeEff (some ag) k v else Run.start s).settleSignals).s) := by
  rw [done_next up]
  unfold Run.agentWrite
  simp only [Run.start_s, ha, Bool.not_true, Bool.false_eq_true, if_false]
  refine ⟨fun h => by simp [h], fun h d hd => ?_⟩
  simp only [h, Bool.not_true, Bool.false_eq_true, if_false, Run.regWrite, hd]
  cases hv : d.occurs v <;> rfl

/-- An agent's read of a register, in a command of its own. -/
theorem agentRead_row {s : State} {ag : Agent} {k : Nat} (up : s.halted = false) (ha : canAccess s ag = true) :
    (accessOk s ag k false = false → done ((Run.start s).agentRead ag k) = .next ((Run.start s).accessFault ag k false).s) ∧
    (accessOk s ag k false = true → done ((Run.start s).agentRead ag k) = .next ((Run.start s).regRead (some ag) k).2.s) := by
  rw [done_next up]
  unfold Run.agentRead
  simp only [Run.start_s, ha, Bool.not_true, Bool.false_eq_true, if_false]
  exact ⟨fun h => by simp [h], fun h => by simp [h]⟩

/-- A command of one write, by what the write does to its register. -/
theorem registerWriteRow_of_exec {ok : Agent → Prop} {mk : Agent → Instr} {k v : State → Nat}
    {eff : {z : State} → Agent → Run z → Run z}
    (he : ∀ ag s, ok ag → exec (mk ag) s = done ((Run.start s).agentWrite ag (k s) (v s)))
    (hs : ∀ ag s, ok ag → (Run.start s).regSpecial (some ag) (k s) (v s) = some (eff ag (Run.start s))) :
    RegisterWriteRow ok mk k v eff := by
  intro s ag up ha hok
  have h := agentWrite_row (k := k s) (v := v s) up ha
  rw [writeEff_of_special _ _ _ (hs ag s hok), ← he ag s hok] at h
  exact h

/-- A command of one read, by what the read does. -/
theorem registerReadRow_of_exec {mk : Agent → Instr} {k : Nat} {eff : {z : State} → Run z → Run z}
    (he : ∀ ag s, exec (mk ag) s = done ((Run.start s).agentRead ag k))
    (hs : ∀ ag s, ((Run.start s).regRead (some ag) k).2 = eff (Run.start s)) : RegisterReadRow mk k eff := by
  intro s ag up ha
  have h := agentRead_row (k := k) up ha
  rw [hs ag s, ← he ag s] at h
  exact h

theorem bits_of_lt {v hi : Nat} (h : v < 2 ^ (hi + 1)) : bits v hi 0 = v := by
  simp [bits, Nat.mod_eq_of_lt h]

/-- Settles O34: each command by what its register's write or read does. -/
theorem blockRegisterCommands : Obligations.BlockRegisterCommands := by
  refine ⟨⟨?_, ?_, ?_, ?_, ?_, ?_, ?_, ?_, ?_, ?_, ?_, ?_, ?_⟩,
    ?_, ?_, ?_, ?_, ?_, ?_, ?_, ?_, ?_, ?_, ?_, ?_, ?_, ?_, ?_, ?_, ?_, ?_, ?_, ?_, ?_, ?_, ?_, ?_, ?_⟩
  · exact fun v => registerWriteRow_of_exec (fun _ _ _ => rfl) fun _ _ _ => rfl
  · exact registerReadRow_of_exec (fun _ _ => rfl) fun _ _ => rfl
  · refine fun n => registerWriteRow_of_exec (fun _ _ _ => rfl) fun _ _ _ => ?_
    show some (Run.cardSync _ (bits n.toNat 13 0) none) = _
    rw [bits_of_lt n.isLt]
  · refine fun n v => ⟨registerWriteRow_of_exec (fun _ _ _ => rfl) fun _ _ _ => special_ctxCfg _ _ _ n.isLt,
      registerWriteRow_of_exec (fun _ _ _ => rfl) fun _ _ _ => special_ctxCfg _ _ _ n.isLt⟩
  · exact fun v => registerWriteRow_of_exec (fun _ _ _ => rfl) fun _ _ _ => rfl
  · exact fun v => registerWriteRow_of_exec (fun _ _ _ => rfl) fun _ _ _ => rfl
  · exact fun n l => ⟨registerWriteRow_of_exec (fun _ _ _ => rfl) fun _ _ _ => special_rfxCore _ _ _ n.isLt,
      registerWriteRow_of_exec (fun _ _ _ => rfl) fun _ _ _ => special_rfxCore _ _ _ n.isLt⟩
  · exact fun g v => ⟨registerWriteRow_of_exec (fun _ _ _ => rfl) fun _ _ _ => special_rfxMark _ _ _ g.isLt,
      registerWriteRow_of_exec (fun _ _ _ => rfl) fun _ _ _ => special_rfxCtrl _ _ _ g.isLt⟩
  · exact fun v => registerWriteRow_of_exec (fun _ _ _ => rfl) fun _ _ _ => rfl
  · intro hi v
    cases hi with
    | false => exact ⟨registerWriteRow_of_exec (fun _ _ _ => rfl) fun _ _ _ => rfl,
        registerWriteRow_of_exec (fun _ _ _ => rfl) fun _ s _ => congrArg (fun w => some ((Run.start s).tlbInv false w))
          (BitVec.ofNat_toNat 32 v)⟩
    | true => exact ⟨registerWriteRow_of_exec (fun _ _ _ => rfl) fun _ _ _ => rfl,
        registerWriteRow_of_exec (fun _ _ _ => rfl) fun _ s _ => congrArg (fun w => some ((Run.start s).tlbInv true w))
          (BitVec.ofNat_toNat 32 v)⟩
  · refine fun n v => registerWriteRow_of_exec (fun _ _ _ => rfl) fun _ s _ => ?_
    rw [special_lblk _ _ _ n.isLt, BitVec.ofNat_toNat, BitVec.setWidth_eq]
  · refine fun n => ⟨registerWriteRow_of_exec (fun _ _ _ => rfl) fun _ s _ => special_window _ _ _ n.isLt,
      registerWriteRow_of_exec (fun _ _ _ => rfl) fun _ s _ => (special_window _ _ _ n.isLt).trans ?_⟩
    rfl
  · refine fun p hp => ⟨registerWriteRow_of_exec (fun _ _ _ => rfl) fun ag s _ => (special_fwCtrl _ _ _ hp).trans ?_,
      registerWriteRow_of_exec (fun ag _ h => h ▸ rfl) fun ag s h => by rw [h]; exact special_fwKick _ _ hp⟩
    simp only [Option.some.injEq]
    rfl
  · exact fun v => registerWriteRow_of_exec (fun _ _ _ => rfl) fun _ _ _ => rfl
  · exact fun c v hc => registerWriteRow_of_exec (fun _ _ _ => rfl) fun _ _ _ => special_coreFlt _ _ _ hc
  · refine fun n v => registerWriteRow_of_exec (fun _ _ _ => rfl) fun _ _ _ => (special_qbv _ _ _ n.isLt).trans ?_
    exact congrArg some (if_pos (bit_setBits_self 1))
  · exact fun v => registerWriteRow_of_exec (fun _ _ _ => rfl) fun _ _ _ => rfl
  · refine fun v => registerWriteRow_of_exec (fun _ _ _ => rfl) fun _ s _ => ?_
    exact congrArg some (if_pos (bit_setBits_self 1))
  · exact fun v => registerWriteRow_of_exec (fun _ _ _ => rfl) fun _ _ _ => rfl
  · exact fun v => registerWriteRow_of_exec (fun _ _ _ => rfl) fun _ _ _ => rfl
  · exact fun n v => registerWriteRow_of_exec (fun _ _ _ => rfl) fun _ _ _ => special_ispArm _ _ _ n.isLt
  · exact fun n v => registerWriteRow_of_exec (fun _ _ _ => rfl) fun _ _ _ => special_i3c _ _ _ n.isLt
  · exact fun v => registerWriteRow_of_exec (fun _ _ _ => rfl) fun _ _ _ => rfl
  · exact registerWriteRow_of_exec (fun _ _ _ => rfl) fun _ _ _ => rfl
  · exact registerWriteRow_of_exec (fun _ _ _ => rfl) fun _ _ _ => rfl
  · exact fun v => registerWriteRow_of_exec (fun _ _ _ => rfl) fun _ _ _ => rfl
  · exact fun v => registerWriteRow_of_exec (fun _ _ _ => rfl) fun _ _ _ => rfl
  · intro c v hc
    refine ⟨registerWriteRow_of_exec (fun _ _ _ => rfl) fun _ _ _ => special_dvfs _ _ _ hc,
      registerWriteRow_of_exec (fun _ _ _ => rfl) fun _ _ _ => special_dvfs _ _ _ hc,
      registerWriteRow_of_exec (fun _ _ _ => rfl) fun _ _ _ => (special_div _ _ _ hc).trans ?_⟩
    rw [bits_of_lt v.isLt]
  · exact fun v => registerWriteRow_of_exec (fun _ _ _ => rfl) fun _ _ _ => rfl
  · exact fun v => registerWriteRow_of_exec (fun _ _ _ => rfl) fun _ _ _ => rfl
  · exact fun v => registerWriteRow_of_exec (fun _ _ _ => rfl) fun _ _ _ => rfl
  · exact fun v => registerWriteRow_of_exec (fun _ _ _ => rfl) fun _ _ _ => rfl
  · exact registerWriteRow_of_exec (fun _ _ _ => rfl) fun _ _ _ => rfl
  · exact registerWriteRow_of_exec (fun _ _ _ => rfl) fun _ _ _ => rfl
  · exact fun v => registerWriteRow_of_exec (fun _ _ _ => rfl) fun _ _ _ => rfl
  · exact fun v => registerWriteRow_of_exec (fun _ _ _ => rfl) fun _ _ _ => rfl
  · refine fun b => registerWriteRow_of_exec (fun _ _ _ => rfl) fun _ s _ => ?_
    show some ((Run.start s).uartSend (BitVec.ofNat 8 b.toNat)) = _
    rw [BitVec.ofNat_toNat, BitVec.setWidth_eq]
  · exact registerReadRow_of_exec (fun _ _ => rfl) fun _ _ => rfl

end Sys2Proof.Machine
end


section
/-! PROOFS. Register writes that are accepted, and what a register reads as after a field of one has been set. -/

namespace Sys2Proof.Machine

/-! ## Registers after a register or a field has been set -/

section
variable {z : State} (r : Run z)

theorem reg_setRegN_ne {k i : Nat} (v : Nat) (h : i ≠ k) : (r.setRegN k v).s.reg i = r.s.reg i := by
  show (Upd.apply (.reg k _) r.s).reg i = _
  simp only [State.reg, Upd.apply_regs, SMap.get_set_ne _ _ _ _ h]

theorem fld_setRegN_ne {k i : Nat} (v hi lo : Nat) (h : i ≠ k) : (r.setRegN k v).s.fld i hi lo = r.s.fld i hi lo := by
  rw [State.fld, State.fld, reg_setRegN_ne r v h]

theorem reg64_setRegN_ne {k i : Nat} (v : Nat) (h : i ≠ k) (h' : i + 4 ≠ k) : (r.setRegN k v).s.reg64 i = r.s.reg64 i := by
  rw [State.reg64, State.reg64, reg_setRegN_ne r v h, reg_setRegN_ne r v h']

theorem reg_setFld_ne {k i : Nat} (hi lo v : Nat) (h : i ≠ k) : (r.setFld k hi lo v).s.reg i = r.s.reg i :=
  reg_setRegN_ne r _ h

theorem fld_setFld_ne {k i : Nat} (a b hi lo v : Nat) (h : i ≠ k) : (r.setFld k hi lo v).s.fld i a b = r.s.fld i a b :=
  fld_setRegN_ne r _ a b h

theorem reg_setRegN_self (h : r.s.regsWf) (k v : Nat) : (r.setRegN k v).s.reg k = BitVec.ofNat 32 v :=
  (reg_reg h k _ k).trans (if_pos rfl)

theorem bits_mod {x h l n : Nat} (hn : h < n) : bits (x % 2 ^ n) h l = bits x h l := by
  rcases Nat.lt_or_ge h l with hl | hl
  · rw [bits, bits, show h + 1 - l = 0 by omega, Nat.pow_zero, Nat.mod_one, Nat.mod_one]
  · have e : 2 ^ n = 2 ^ l * 2 ^ (h + 1 - l) * 2 ^ (n - (h + 1)) := by rw [← Nat.pow_add, ← Nat.pow_add]; congr 1; omega
    rw [bits, bits, ← Nat.mod_mul_right_div_self, ← Nat.mod_mul_right_div_self, e, Nat.mod_mul_right_mod]

theorem fld_setRegN_self (h : r.s.regsWf) (k v : Nat) {a b : Nat} (ha : a < 32) : (r.setRegN k v).s.fld k a b = bits v a b := by
  rw [State.fld, reg_setRegN_self r h, BitVec.toNat_ofNat, bits_mod ha]

theorem fld_setFld_above (hw : r.s.regsWf) (k v : Nat) {hi lo a b : Nat} (ha : a < 32) (hl : lo ≤ hi + 1) (h : hi < b) :
    (r.setFld k hi lo v).s.fld k a b = r.s.fld k a b := by
  rw [Run.setFld, fld_setRegN_self r hw k _ ha, bits_setBits_above v hl h, State.fld]

theorem fld_setFld_below (hw : r.s.regsWf) (k v : Nat) {hi lo a b : Nat} (ha : a < 32) (hl : lo ≤ hi + 1) (h : a < lo) :
    (r.setFld k hi lo v).s.fld k a b = r.s.fld k a b := by
  rw [Run.setFld, fld_setRegN_self r hw k _ ha, bits_setBits_below v hl h, State.fld]

end

/-! ## Accepted writes -/

/-- A command of one write that is accepted, by what the write does to its register. -/
theorem writeDone_of_exec {mk : Agent → Instr} {who : Agent → Prop} {k v : State → Nat} {ok : State → Prop}
    {out : {z : State} → Run z → Run z} (he : ∀ ag s, who ag → exec (mk ag) s = done ((Run.start s).agentWrite ag (k s) (v s)))
    (hs : ∀ ag s, who ag → s.Sound → ok s → (Run.start s).regSpecial (some ag) (k s) (v s) = some (out (Run.start s))) :
    WriteDone mk who k v ok out := by
  intro s ag up hz hw ha hacc ⟨d, hd, hv⟩ hok
  rw [he ag s hw, (agentWrite_row up ha).2 hacc d hd, hv, if_pos rfl, writeEff_of_special _ _ _ (hs ag s hw hz hok)]

/-! ### Doorbells and consumed indexes -/

section
variable {z : State} {r : Run z} {v : Nat}

/-- An index lies from one index to another, cyclically. -/
abbrev within (x lo hi : Nat) : Prop := (x + 65536 - lo) % 65536 ≤ (hi + 65536 - lo) % 65536

theorem special_schedDb (who : Option Agent) (hs : r.s.sec.switch = none) :
    r.regSpecial who (schedReg 0) v = some (r.doorbell v r.s.now) :=
  congrArg some (if_neg (by rw [hs]; exact Bool.false_ne_true))

theorem doorbell_queue {stamp : Nat} (hen : cardEn r.s (bits v 29 16) = true) (hk : cardKind r.s (bits v 29 16) = 1)
    (hrx : bit v 30 = false) (hq : queueBellOk (r.touchCard (bits v 29 16)).s (bits v 29 16) (bits v 15 0) stamp = true) :
    r.doorbell v stamp = (r.touchCard (bits v 29 16)).setHw (bits v 29 16) 10 (bits v 15 0) := by
  simp only [Run.doorbell, hen, hk, hrx, Bool.not_true, Bool.false_eq_true, if_false]
  exact if_pos hq

theorem doorbell_consumed {stamp : Nat} (hen : cardEn r.s (bits v 29 16) = true) (hk : cardKind r.s (bits v 29 16) = 7)
    (hrx : bit v 30 = true) (hq : mailboxBellOk r.s (bits v 29 16) true (bits v 15 0) = true) :
    r.doorbell v stamp =
      let n := bits v 29 16
      let x := bits v 15 0
      let w := r.setHw n 9 (x * 65536 + bits (cardW r.s n 9) 15 0)
      let h := bits (cardW w.s n 8) 2 0
      if x = bits (cardW r.s n 9) 15 0 then w.setHart h { w.s.hart h with mbxIrq := false } else w := by
  simp only [Run.doorbell, hen, hk, hrx, Bool.not_true, Bool.false_eq_true, if_false, Run.mailboxDoorbell, hq, if_true, Run.when,
    decide_eq_true_eq]

theorem flowDb_consumed (hen : cardEn r.s (bits v 29 16) = true) (hk : cardKind r.s (bits v 29 16) = 6) (hrx : bit v 30 = true)
    (hq : within (bits v 15 0) (bits (cardW r.s (bits v 29 16) 10) 31 16) (bits (cardW r.s (bits v 29 16) 10) 15 0)) :
    r.flowDb v = r.setHw (bits v 29 16) 10 (bits v 15 0 * 65536 + bits (cardW r.s (bits v 29 16) 10) 15 0) := by
  simp only [Run.flowDb, hen, hk, hrx]
  exact if_pos hq

theorem flowDb_tail (hen : cardEn r.s (bits v 29 16) = true) (hk : cardKind r.s (bits v 29 16) = 6) (hrx : bit v 30 = false)
    (hq : within (bits (cardW r.s (bits v 29 16) 11) 15 0) (bits (cardW r.s (bits v 29 16) 11) 31 16) (bits v 15 0) ∧
      (bits v 15 0 + 65536 - bits (cardW r.s (bits v 29 16) 11) 31 16) % 65536 ≤ 2 ^ bits (cardW r.s (bits v 29 16) 9) 7 4) :
    r.flowDb v = r.setHw (bits v 29 16) 11 (bits (cardW r.s (bits v 29 16) 11) 31 16 * 65536 + bits v 15 0) := by
  simp only [Run.flowDb, hen, hk, hrx]
  exact if_pos hq

theorem audRingDb_consumed (hen : cardEn r.s (bits v 29 16) = true) (hk : cardKind r.s (bits v 29 16) = 3) (hrx : bit v 30 = true)
    (hq : within (bits v 15 0) (bits (cardW r.s (bits v 29 16) 7) 31 16) (bits (cardW r.s (bits v 29 16) 7) 15 0)) :
    r.audRingDb v = r.setHw (bits v 29 16) 7 (bits v 15 0 * 65536 + bits (cardW r.s (bits v 29 16) 7) 15 0) := by
  simp only [Run.audRingDb, hen, hk, hrx]
  exact if_pos hq

theorem audRingDb_tail (hen : cardEn r.s (bits v 29 16) = true) (hk : cardKind r.s (bits v 29 16) = 4) (hrx : bit v 30 = false)
    (hq : within (bits (cardW r.s (bits v 29 16) 7) 15 0) (bits (cardW r.s (bits v 29 16) 7) 31 16) (bits v 15 0) ∧
      (bits v 15 0 + 65536 - bits (cardW r.s (bits v 29 16) 7) 31 16) % 65536 ≤ 2 ^ bits (cardW r.s (bits v 29 16) 6) 15 12) :
    r.audRingDb v =
      let n := bits v 29 16
      let x := bits v 15 0
      let w := r.setHw n 7 (bits (cardW r.s n 7) 31 16 * 65536 + x)
      w.setAud { w.s.aud with tails := SMap.set [] w.s.aud.tails n ((x, w.s.now) :: (SMap.get [] w.s.aud.tails n).take 63) } := by
  simp only [Run.audRingDb, hen, hk, hrx]
  exact if_pos hq

theorem csiRingDb_consumed (hen : cardEn r.s (bits v 29 16) = true) (hk : cardKind r.s (bits v 29 16) = 2) (hrx : bit v 30 = true)
    (hq : within (bits v 15 0) (bits (cardW r.s (bits v 29 16) 16) 31 16) (bits (cardW r.s (bits v 29 16) 16) 15 0)) :
    r.csiRingDb v = r.setHw (bits v 29 16) 16 (bits v 15 0 * 2 ^ 16 + bits (cardW r.s (bits v 29 16) 16) 15 0) := by
  simp only [Run.csiRingDb, hen, hk, hrx]
  exact if_pos hq

theorem trcAck_consumed (hq : within (bits v 15 0) (r.s.fld (obsReg 0x114) 31 16) (r.s.fld (obsReg 0x114) 15 0)) :
    r.trcAck v = r.setFld (obsReg 0x114) 31 16 v := by
  have hx : v % 65536 = bits v 15 0 := by simp [bits]
  simp only [Run.trcAck, Run.when, decide_eq_true_eq, hx]
  exact if_pos hq

end

/-! ### Tallies, contexts and the reflex lane -/

section
variable {z : State} {r : Run z}

/-- The allocation of a tally: its number is drawn, and the tally reads 0 for its owner. -/
theorem allocTally_some {i ctx : Nat} (h : nextFreeTally r.s 16384 (r.draw.1.toNat % 16384) = some i) :
    r.allocTally ctx = (some i, (r.draw.2.setTally i { r.draw.2.s.tally i with allocated := true, value := 0, ctx := ctx }).bump
      (schedReg 0x02C)) := by
  have hd : ∀ n j, nextFreeTally r.draw.2.s n j = nextFreeTally r.s n j := by
    intro n
    induction n with
    | zero => exact fun _ => rfl
    | succ n ih => exact fun j => by rw [nextFreeTally, nextFreeTally, ih]; rfl
  unfold Run.allocTally
  dsimp only
  rw [hd, h]
  rfl

theorem bits_setBits_top {n b h l : Nat} (w : Nat) (hh : h < b) : bits (setBits n b b w) h l = bits n h l :=
  bits_setBits_below w (by omega) hh

theorem bit_two_pow_add {n m : Nat} (h : m < 2 ^ n) : bit (2 ^ n + m) n = true := by
  rw [bit, Nat.add_div_left _ (Nat.two_pow_pos n), Nat.div_eq_of_lt h]; rfl

theorem writeCtxCfg_enable {n v : Nat} (h : r.s.fld (schedReg (0x10000 + 0x10 * n)) 30 29 = 0) (hv : bit v 31 = true) :
    r.writeCtxCfg n v = r.setRegN (schedReg (0x10000 + 0x10 * n)) (2 ^ 31 + 2 ^ 29 + bits v 23 0) := by
  simp only [State.fld] at h
  simp [Run.writeCtxCfg, h, hv, b2n]

theorem writeCtxCfg_disable {n : Nat} (h : r.s.fld (schedReg (0x10000 + 0x10 * n)) 30 29 ≠ 0) :
    r.writeCtxCfg n (setBits (r.s.reg (schedReg (0x10000 + 0x10 * n))).toNat 31 31 0) =
      r.setRegN (schedReg (0x10000 + 0x10 * n))
        ((if r.s.fld (schedReg (0x10000 + 0x10 * n) + 0xC) 12 0 = 0 then 0 else 2) * 2 ^ 29 +
          r.s.fld (schedReg (0x10000 + 0x10 * n)) 23 0) := by
  have hk : schedReg (0x10000 + 0x10 * n) + 0xC = schedReg (0x1000C + 0x10 * n) := by unfold schedReg regKey; omega
  rw [hk]
  simp only [State.fld] at h
  simp [Run.writeCtxCfg, h, bit_setBits_self, bits_setBits_top, b2n, State.fld]

theorem writeRfxCore_enable {n v : Nat} (hv : bit v 31 = true) (h : r.s.fld (rfxCoreReg n) 31 31 = 0)
    (hm : ∀ m, m < 16 → m ≠ n → r.s.fld (rfxCoreReg m) 31 31 = 1 → r.s.fld (rfxCoreReg m) 7 0 ≠ bits v 7 0) :
    r.writeRfxCore n v = (r.setRegN (rfxCoreReg n) (2 ^ 31 + 2 ^ 24 + bits v 7 0)).noteDegraded := by
  have taken : ((List.range 16).any fun m => m ≠ n && r.s.fld (rfxCoreReg m) 31 31 = 1 && r.s.fld (rfxCoreReg m) 7 0 = bits v 7 0) =
      false := by
    simp only [List.any_eq_false, List.mem_range, Bool.and_eq_true, decide_eq_true_eq, not_and, and_imp]
    exact hm
  simp only [Run.writeRfxCore, taken]
  simp [hv, h, b2n]

theorem writeRfxCore_disable {n : Nat} (h : rfxState r.s n ≠ 3) :
    r.writeRfxCore n (setBits (r.s.reg (rfxCoreReg n)).toNat 31 31 0) =
      (r.setRegN (rfxCoreReg n) (r.s.fld (rfxCoreReg n) 7 0)).noteDegraded := by
  simp [Run.writeRfxCore, h, bit_setBits_self, bits_setBits_top, b2n, State.fld]

theorem rfxMark_of {key v : Nat} {g : RGroup} (h : rfxGroup? r.s key = some g) :
    r.rfxMark key v = (r.setRfx key { g with marks := g.marks ++ [(v % 2 ^ RGroup.nch g.desc, r.s.now)] }).setRegN (rfxReg key 0x24)
      ((r.s.reg (rfxReg key 0x24)).toNat ||| v % 2 ^ RGroup.nch g.desc) := by
  simp only [Run.rfxMark, h]

theorem rfxStop_of {key st : Nat} {g : RGroup} (h : rfxGroup? r.s key = some g) :
    r.rfxStop key st = (r.setRfx key { g with stop := some (g.stop.getD st) }).setFld (rfxReg key 0x20) 31 31 1 := by
  simp only [Run.rfxStop, h]

/-! ### Weight windows -/

theorem tlbInv_of {hi : Bool} {v : W32} (h : r.s.fld (vltReg 0x038) 31 31 = 0) :
    r.tlbInv hi v = if hi then r.put (.vault { r.s.vault with tlbHi := v }) else r.setFld (vltReg 0x038) 31 31 1 := by
  unfold Run.tlbInv
  exact if_neg (by rw [h]; decide)


theorem windowStart_of {c : XCtx} {n : Nat} {w : Window} (h : SMap.find? r.s.vault.windows n = none)
    (hw : Run.windowOf (r.readBlock c (r.s.reg64 (vltReg (0x800 + 0x20 * n))) 64).2.s c n = .ok w) :
    r.windowStart c n =
      let p := r.readBlock c (r.s.reg64 (vltReg (0x800 + 0x20 * n))) 64
      let k := vltReg (0x808 + 0x20 * n)
      let q := (p.2.readIn c (match p.1 with
        | .ok d => d / 2 ^ 64 % 2 ^ 64
        | .error _ => r.s.reg64 (vltReg (0x800 + 0x20 * n))) (4 * w.sizes.length)).2
      let q := ((((q.setRegN k 1).setRegN (k + 4) 0).setReg64 (k + 8) 0).setRegN (k + 0x10) 0).setRegN (k + 0x14) 0
      q.put (.vault { q.s.vault with windows := SMap.insert q.s.vault.windows n w }) := by
  simp only [Run.windowStart, h, hw]
  rfl

theorem windowStop_done {n : Nat} {w : Window} (h : SMap.find? r.s.vault.windows n = some w) (hi : w.inflight = []) :
    r.windowStop n = r.endWindow n stWinStopped := by
  simp only [Run.windowStop, h, hi]
  rfl

theorem windowStop_wait {n : Nat} {w : Window} (h : SMap.find? r.s.vault.windows n = some w) (hi : w.inflight ≠ []) :
    r.windowStop n = (r.setFld (vltReg (0x808 + 0x20 * n)) 30 30 1).setWindow n { w with stopping := true } := by
  simp only [Run.windowStop, h]
  rw [if_neg (by simpa using hi)]

/-! ### The archive, the cameras and the ladders -/

/-- The request of the archive copy, as its registers hold it. -/
def copyRequest (s : State) : ACopy :=
  { ctx := s.fld (audReg 0x134) 27 16, whole := bit (s.reg (audReg 0x134)).toNat 30, first := s.reg64 (audReg 0x120)
    count := (s.reg (audReg 0x128)).toNat, dst := s.reg64 (audReg 0x12C), mask := s.fld (audReg 0x134) 7 0
    tally := (s.reg (audReg 0x13C)).toNat }

theorem copyGo_of (h : r.s.fld (audReg 0x138) 31 31 = 0) (ho : copyStatus r.s (copyRequest r.s) = stOk)
    (hn : (copyRequest r.s).count ≠ 0) :
    r.copyGo = ((r.setAud { r.s.aud with copy := some (copyRequest r.s) }).setFld (audReg 0x138) 31 31 1).setFld
      (audReg 0x134) 31 31 1 := by
  unfold Run.copyGo
  rw [if_neg (by rw [h]; decide)]
  exact (if_neg (not_not.mpr ho)).trans (if_neg hn)

theorem ispArm_of {n tag : Nat} (h : (SMap.get [] r.s.cam.pend n).length < 4) :
    r.ispArm n tag = r.setPend n (SMap.get [] r.s.cam.pend n ++ [(tag, paramsMirror r.s n)]) := by
  unfold Run.ispArm
  exact if_neg (Nat.not_le.mpr h)

theorem cam_setRegN (q : Run z) (k v : Nat) : (q.setRegN k v).s.cam = q.s.cam :=
  Upd.apply_cam _ _

theorem csiReg_ne {a b : Nat} (h : a ≠ b) : csiReg a ≠ csiReg b := by unfold csiReg regKey; omega

theorem i3cXfer_of {k v : Nat} (hv : bit v 31 = true) (h : r.s.fld (csiReg (0x3010 + 0x100 * k)) 31 31 = 0) :
    r.i3cXfer k v =
      let x := csiReg (0x3004 + 0x100 * k)
      let st := csiReg (0x3010 + 0x100 * k)
      let q := r.setRegN x (r.s.fld x 31 31 * 2 ^ 31 + (v &&& 0x60FF3F7F))
      let w := (q.setRegN st ((r.s.reg st).toNat &&& 2 ||| 2 ^ 31)).setFld x 31 31 1
      w.setCam { r.s.cam with i3c := SMap.insert r.s.cam.i3c k { xfer := v, at_ := r.s.reg64 (csiReg (0x3008 + 0x100 * k)) } } := by
  have hst : csiReg (0x3010 + 0x100 * k) ≠ csiReg (0x3004 + 0x100 * k) := csiReg_ne (by omega)
  have ha : csiReg (0x3008 + 0x100 * k) ≠ csiReg (0x3004 + 0x100 * k) := csiReg_ne (by omega)
  have ha' : csiReg (0x3008 + 0x100 * k) ≠ csiReg (0x3010 + 0x100 * k) := csiReg_ne (by omega)
  have hb : csiReg (0x3008 + 0x100 * k) + 4 ≠ csiReg (0x3004 + 0x100 * k) := by unfold csiReg regKey; omega
  have hb' : csiReg (0x3008 + 0x100 * k) + 4 ≠ csiReg (0x3010 + 0x100 * k) := by unfold csiReg regKey; omega
  unfold Run.i3cXfer Run.i3cGo
  dsimp only
  generalize csiReg (0x3004 + 0x100 * k) = x at *
  generalize csiReg (0x3010 + 0x100 * k) = st at *
  generalize csiReg (0x3008 + 0x100 * k) = at_ at *
  generalize r.s.fld x 31 31 * 2 ^ 31 + (v &&& 0x60FF3F7F) = shown
  simp only [hv, if_true, Run.setFld, fld_setRegN_ne r _ _ _ hst, reg_setRegN_ne r _ hst, h, Nat.zero_ne_one, if_false,
    reg64_setRegN_ne _ _ ha hb, reg64_setRegN_ne _ _ ha' hb', cam_setRegN]

/-- The fields of AUD_LAD_CFG other than EN and RELOAD. -/
abbrev ladShown (w : Nat) : Nat := bits w 27 16 * 2 ^ 16 + bits w 3 0

theorem writeLadCfg_enable {v : Nat} (h : r.s.fld (audReg 0x600) 31 31 = 0) (hv : bit v 31 = true) :
    r.writeLadCfg v = (r.setRegN (audReg 0x600) (2 ^ 31 + ladShown v)).ladTakeUp := by
  have ho : bit (r.s.reg (ladReg 0)).toNat 31 = false := by
    have : bits (r.s.reg (ladReg 0)).toNat 31 31 = 0 := h
    simp [bits] at this
    simp [bit, this]
  unfold Run.writeLadCfg
  simp [ho, hv, b2n, ladShown, Nat.add_assoc]
  rfl

theorem bit_of_fld {s : State} {k b : Nat} (h : s.fld k b b = 1) : bit (s.reg k).toNat b = true := by
  simpa [State.fld, bits, bit] using h

theorem bit_setBits_above {n b c w : Nat} (h : b < c) : bit (setBits n b b w) c = bit n c := by
  have := bits_setBits_above (n := n) (h := c) (l := c) w (Nat.le_succ b) h
  simp only [bits, Nat.add_sub_cancel_left, pow_one] at this
  simp only [bit, this]

theorem writeLadCfg_disable (h : r.s.fld (audReg 0x600) 31 31 = 1) :
    r.writeLadCfg (setBits (r.s.reg (audReg 0x600)).toNat 31 31 0) =
      let w := r.setRegN (audReg 0x600) (ladShown (r.s.reg (audReg 0x600)).toNat)
      (w.setLad { w.s.lad with want := false }).ladLeave := by
  have ho := bit_of_fld h
  have hk : ladReg 0 = audReg 0x600 := rfl
  unfold Run.writeLadCfg
  rw [hk]
  generalize audReg 0x600 = k at *
  simp [ho, bits_setBits_top, bit_setBits_self, b2n, ladShown]

theorem writeLadCfg_reload (h : r.s.fld (audReg 0x600) 31 31 = 1) :
    r.writeLadCfg (setBits (r.s.reg (audReg 0x600)).toNat 30 30 1) =
      (r.setRegN (audReg 0x600) (2 ^ 31 + 2 ^ 30 + ladShown (r.s.reg (audReg 0x600)).toNat)).ladTakeUp := by
  have ho := bit_of_fld h
  have hk : ladReg 0 = audReg 0x600 := rfl
  unfold Run.writeLadCfg
  rw [hk]
  generalize audReg 0x600 = k at *
  simp [ho, bits_setBits_top, bit_setBits_self, bit_setBits_above, b2n, ladShown, Nat.add_assoc]

/-! ### Power -/

/-- A register below the temperatures' is none of those that the checks of a power state read. -/
theorem anySensor_setFld (k hi lo v : Nat) (hk : k < pwrReg 0x600) :
    anySensor (r.setFld k hi lo v).s (tAlert (r.setFld k hi lo v).s) = anySensor r.s (tAlert r.s) := by
  have ha : tAlert (r.setFld k hi lo v).s = tAlert r.s := by
    rw [tAlert, tAlert, fld_setFld_ne r _ _ _ _ _ (by omega)]
  have ht : ∀ n, tempOf (r.setFld k hi lo v).s n = tempOf r.s n := fun n => by
    have : pwrReg (0x610 + 4 * n) ≠ k := by unfold pwrReg regKey at *; omega
    rw [tempOf, tempOf, fld_setFld_ne r _ _ _ _ _ this]
  simp only [anySensor, ha, ht]

theorem stateCtrl_of {v : Nat} (hv : bit v 31 = true) (hr : r.s.power.req = none) (ha : r.s.power.asked = none)
    (he : r.s.power.entering = none) :
    r.stateCtrl v =
      let w := (r.setFld (pwrReg 0) 2 0 v).requestState (bits v 2 0) none
      w.setFld (pwrReg 0) 31 31 (b2n (w.s.power.req.isSome || w.s.power.asked.isSome)) := by
  have hp : (r.setFld (pwrReg 0) 2 0 v).s.power = r.s.power := Upd.apply_power _ _
  simp only [Run.stateCtrl, hv, hp, hr, ha, he]
  rfl

/-- What lets a request for a power state be made at once. -/
structure RequestFree (s : State) (t : Nat) : Prop where
  req : s.power.req = none
  asked : s.power.asked = none
  entering : s.power.entering = none
  switch : s.sec.switch = none
  awake : powerState s ≤ 1
  runs : fwState s 3 = 0
  moves : t ≠ powerState s
  claimed : t ≤ claimState s

theorem RequestFree.setFld {t : Nat} (h : RequestFree r.s t) (v : Nat) : RequestFree (r.setFld (pwrReg 0) 2 0 v).s t := by
  have hp : (r.setFld (pwrReg 0) 2 0 v).s.power = r.s.power := Upd.apply_power _ _
  have hs : (r.setFld (pwrReg 0) 2 0 v).s.sec = r.s.sec := Upd.apply_sec _ _
  have hst : powerState (r.setFld (pwrReg 0) 2 0 v).s = powerState r.s := fld_setFld_ne r _ _ _ _ _ (by decide)
  have hf : fwState (r.setFld (pwrReg 0) 2 0 v).s 3 = fwState r.s 3 := fld_setFld_ne r _ _ _ _ _ (by decide)
  refine ⟨?_, ?_, ?_, ?_, ?_, ?_, ?_, ?_⟩
  · rw [hp]; exact h.req
  · rw [hp]; exact h.asked
  · rw [hp]; exact h.entering
  · rw [hs]; exact h.switch
  · rw [hst]; exact h.awake
  · rw [hf]; exact h.runs
  · rw [hst]; exact h.moves
  · rw [claimState, hp]; exact h.claimed

theorem requestState_now {t : Nat} (h : RequestFree r.s t) (ht : t ≤ 1) (hc : t = 0 → anySensor r.s (tAlert r.s) = false) :
    r.requestState t none = ((r.setPower { r.s.power with last := t }).reachState t).endRequest none stOk := by
  obtain ⟨hr, ha, he, hs, haw, hf, hm, hcl⟩ := h
  have hn : ¬ (t = 0 ∧ anySensor r.s (tAlert r.s) = true) := fun ⟨h0, h1⟩ => by rw [hc h0] at h1; exact Bool.false_ne_true h1
  simp [Run.requestState, hr, ha, he, hs, hf, hm, Nat.not_lt.mpr hcl, hn, haw, ht]

theorem requestState_drain {t : Nat} (h : RequestFree r.s t) (ht : 2 ≤ t) (hx : reflexInFlight r.s = false)
    (hw : r.s.vault.windows = []) :
    r.requestState t none = (r.setPower { r.s.power with
      req := some ⟨t, r.s.now + r.s.fld (pwrReg 8) 15 0 * 1000000, none⟩ }).setFld (pwrReg 4) 28 28 1 := by
  obtain ⟨hr, ha, he, hs, haw, hf, hm, hcl⟩ := h
  have h1 : ¬ t ≤ 1 := by omega
  have h0 : t ≠ 0 := by omega
  simp [Run.requestState, hr, ha, he, hs, hf, hm, Nat.not_lt.mpr hcl, h0, h1, haw, hx, hw]

theorem fld_setFld_self {k a b v : Nat} (hw : r.s.regsWf) (ha : a < 32) (hl : b ≤ a + 1) :
    (r.setFld k a b v).s.fld k a b = v % 2 ^ (a + 1 - b) := by
  rw [Run.setFld, fld_setRegN_self r hw k _ ha, bits_setBits_self v hl]

theorem startMove_cluster {c p : Nat} (h : c < 16) :
    r.startMove c p = (r.setFld (dvfsReg c) 21 20 p).setFld (dvfsReg c) 31 31 1 :=
  if_pos h

theorem regsWf_setFld (hw : r.s.regsWf) (k hi lo v : Nat) : (r.setFld k hi lo v).s.regsWf :=
  Upd.keeps_regsWf _ _ hw

theorem fld_setVolt (c v : Nat) (hw : r.s.regsWf) : (r.setVolt c v).s.fld (dvfsReg c) 21 20 = r.s.fld (dvfsReg c) 21 20 := by
  have h1 := regsWf_setFld hw (dvfsReg c) 13 12 v
  refine (fld_setFld_above (r.setFld (dvfsReg c) 13 12 v) h1 _ _ (by omega) (by omega) (by omega)).trans ?_
  exact fld_setFld_above r hw _ _ (by omega) (by omega) (by omega)

theorem writeDvfs_target {c v : Nat} (hw : r.s.regsWf) (hv : v < 4) (h : v ≠ r.s.fld (dvfsReg c) 21 20) (hp : pinned r.s c = false) :
    r.writeDvfs c (setBits (r.s.reg (dvfsReg c)).toNat 21 20 v) =
      (r.setFld (dvfsReg c) 25 24 (r.s.fld (dvfsReg c) 25 24)).startMove c v := by
  have h13 : bits (setBits (r.s.reg (dvfsReg c)).toNat 21 20 v) 13 12 = r.s.fld (dvfsReg c) 13 12 := bits_setBits_below v (by omega) (by omega)
  have h25 : bits (setBits (r.s.reg (dvfsReg c)).toNat 21 20 v) 25 24 = r.s.fld (dvfsReg c) 25 24 := bits_setBits_above v (by omega) (by omega)
  have h21 : bits (setBits (r.s.reg (dvfsReg c)).toNat 21 20 v) 21 20 = v :=
    (bits_setBits_self v (by omega)).trans (Nat.mod_eq_of_lt hv)
  have hpin : pinned (r.setFld (dvfsReg c) 25 24 (r.s.fld (dvfsReg c) 25 24)).s c = false := by
    rw [pinned, show (r.setFld (dvfsReg c) 25 24 (r.s.fld (dvfsReg c) 25 24)).s.power = r.s.power from Upd.apply_power _ _]
    exact hp
  have ht := fld_setFld_below r hw (dvfsReg c) (r.s.fld (dvfsReg c) 25 24) (hi := 25) (lo := 24) (a := 21) (b := 20) (by omega) (by omega)
    (by omega)
  unfold Run.writeDvfs
  simp only [h13, h25, h21, gt_iff_lt, Nat.lt_irrefl, decide_false, Bool.false_and, Bool.false_eq_true, if_false, ne_eq, not_true_eq_false,
    Run.when, ht, h, hpin]

theorem writeDvfs_volt {c v : Nat} (hw : r.s.regsWf) (hv : v < 4) (h : v ≠ r.s.fld (dvfsReg c) 13 12)
    (hm : v ≤ max (r.s.fld (dvfsReg c) 13 12) (r.s.fld (dvfsReg c) 17 16)) :
    r.writeDvfs c (setBits (r.s.reg (dvfsReg c)).toNat 13 12 v) =
      (r.setFld (dvfsReg c) 25 24 (r.s.fld (dvfsReg c) 25 24)).setVolt c v := by
  have h13 : bits (setBits (r.s.reg (dvfsReg c)).toNat 13 12 v) 13 12 = v :=
    (bits_setBits_self v (by omega)).trans (Nat.mod_eq_of_lt hv)
  have h25 : bits (setBits (r.s.reg (dvfsReg c)).toNat 13 12 v) 25 24 = r.s.fld (dvfsReg c) 25 24 := bits_setBits_above v (by omega) (by omega)
  have h21 : bits (setBits (r.s.reg (dvfsReg c)).toNat 13 12 v) 21 20 = r.s.fld (dvfsReg c) 21 20 := bits_setBits_above v (by omega) (by omega)
  have hgo : ¬ (r.s.fld (dvfsReg c) 13 12 < v ∧ r.s.fld (dvfsReg c) 17 16 < v) := by omega
  have ht : ((r.setFld (dvfsReg c) 25 24 (r.s.fld (dvfsReg c) 25 24)).setVolt c v).s.fld (dvfsReg c) 21 20 = r.s.fld (dvfsReg c) 21 20 := by
    have h1 : (r.setFld (dvfsReg c) 25 24 (r.s.fld (dvfsReg c) 25 24)).s.regsWf := regsWf_setFld hw _ _ _ _
    rw [fld_setVolt _ _ h1, fld_setFld_below r hw _ _ (by omega) (by omega) (by omega)]
  unfold Run.writeDvfs
  rw [if_neg (by rw [h13]; simpa using hgo)]
  simp only [h13, h25, h21, ne_eq, h, not_false_eq_true, decide_true, Run.when, if_true, ht]

theorem writeDiv_of {c v : Nat} (h : r.s.fld (dvfsReg c) 17 16 ≤ v ∨ r.s.fld (dvfsReg c) 13 12 ≤ v ∧
      SMap.get 0 r.s.power.settle c ≤ r.s.now) (hp : v = r.s.fld (dvfsReg c) 17 16 ∨ pinned r.s c = false) :
    r.writeDiv c v = ((r.setFld (dvfsReg c) 17 16 v).setRegN (regKey 2 (0x100 + 4 * c)) v).trace 0x13 0x0040 (c * 2 ^ 16 + v) := by
  unfold Run.writeDiv
  refine if_neg ?_
  intro hb
  rcases (Bool.or_eq_true _ _).mp hb with hb | hb <;> obtain ⟨h1, h2⟩ := (Bool.and_eq_true _ _).mp hb
  · rcases h with h | ⟨ha, hs⟩
    · exact Nat.not_le.mpr (of_decide_eq_true h1) h
    · rw [decide_eq_true ha, decide_eq_true hs] at h2
      exact Bool.false_ne_true h2
  · rcases hp with hp | hp
    · exact of_decide_eq_true h1 hp
    · rw [hp] at h2
      exact Bool.false_ne_true h2

theorem writeCap_of {w : Nat} (h : w ≤ r.s.fld (pwrReg 0x300) 7 0 ∨ anySensor r.s (tAlert r.s) = false) :
    (r.writeCap w).2 = r.setFld (pwrReg 0x300) 7 0 w := by
  unfold Run.writeCap
  rw [if_neg]
  rintro h2
  obtain ⟨h1, h2⟩ := (Bool.and_eq_true _ _).mp h2
  exact h.elim (Nat.not_le.mpr (of_decide_eq_true h1)) fun h => by rw [h] at h2; exact Bool.false_ne_true h2

theorem writeMode_of {v : Nat} (h : bit v 31 = true → (∀ j ∈ r.s.mhy.jobs, j.n ≤ 2) ∧ anySensor r.s (tAlert r.s) = false) :
    (r.writeMode v).2 = r.setRegN (pwrReg 0x304) (b2n (bit v 31) * 2 ^ 31 + bits v 1 0) := by
  unfold Run.writeMode
  cases hv : bit v 31 with
  | false => rfl
  | true =>
    obtain ⟨hj, hs⟩ := h hv
    have : (r.s.mhy.jobs.any fun j => decide (j.n > 2)) = false := by simpa using hj
    simp only [this, hs, Bool.and_false, Bool.false_eq_true, if_false]

theorem mmWrite_of {v : Nat} (hv : bit v 31 = true) (hm : r.s.sec.mm = none) (hl : r.s.sec.meas.length < 64)
    (hx : let u := (r.setRegN (secReg 0x20) (r.s.fld (secReg 0x20) 31 31 * 2 ^ 31 + v % 2 ^ 28)).s
      mapped u (ctxX u (bits v 27 16)) .load (u.reg64 (secReg 0x10)) (u.reg64 (secReg 0x18)) = true) :
    r.mmWrite v =
      let q := r.setRegN (secReg 0x20) (r.s.fld (secReg 0x20) 31 31 * 2 ^ 31 + v % 2 ^ 28)
      let m : Measure := { ctx := bits v 27 16, tag := bits v 15 0, addr := q.s.reg64 (secReg 0x10), len := q.s.reg64 (secReg 0x18) }
      ((q.setSec { q.s.sec with mm := some m }).setFld (secReg 0x20) 31 31 1).setFld (secReg 0x24) 31 31 1 := by
  unfold Run.mmWrite
  dsimp only at hx ⊢
  generalize hw : r.s.fld (secReg 0x20) 31 31 * 2 ^ 31 + v % 2 ^ 28 = w at *
  have hs : (r.setRegN (secReg 0x20) w).s.sec = r.s.sec := Upd.apply_sec _ _
  rw [if_neg (by rw [hs, hm, hv]; exact Bool.false_ne_true), if_neg]
  rw [hs, hx, decide_eq_false (Nat.not_le.mpr hl)]
  exact Bool.false_ne_true

theorem snapArm_of (ht : r.s.now + 2000 ≤ r.s.reg64 (topReg 0x204)) (hf : r.s.fld (topReg 0x200) 31 31 = 0) :
    (r.snapArm (r.s.reg64 (topReg 0x204)) r.s.now).2.2 =
      ((r.setReg64 (topReg 0x204) (r.s.reg64 (topReg 0x204))).setFld (topReg 0x200) 31 31 1).snapStatus stOk := by
  unfold Run.snapArm
  rw [if_neg]
  rw [hf, decide_eq_false (Nat.not_lt.mpr ht)]
  exact Bool.false_ne_true

theorem fwReg_ne {p q : Nat} : fwReg q 4 ≠ fwReg p 0 := by unfold fwReg regKey; omega

theorem fwpCtrl_restart {p : Nat} (hp : p ≤ 4) (hs : fwState r.s p = 0) (hq : ∀ x ∈ r.s.fw.queue, x.p ≠ p)
    (hfree : fwFree r.s p = true) :
    r.fwpCtrl p (setBits (r.s.reg (fwReg p 0)).toNat 31 31 1) =
      (r.setRegN (fwReg p 0) (r.s.fld (fwReg p 0) 31 31 * 2 ^ 31 + r.s.fld (fwReg p 0) 7 4 * 2 ^ 4 + r.s.fld (fwReg p 0) 1 0)).fwBegin
        p 1 false := by
  have hst : ∀ w q, fwState (r.setRegN (fwReg p 0) w).s q = fwState r.s q := fun w q => fld_setRegN_ne r _ _ _ fwReg_ne
  have hfw : ∀ w, (r.setRegN (fwReg p 0) w).s.fw = r.s.fw := fun w => Upd.apply_fw _ _
  have hfr : ∀ w, fwFree (r.setRegN (fwReg p 0) w).s p = true := fun w => by
    simp only [fwFree, hst]; exact hfree
  have hany : (r.s.fw.queue.any fun q => decide (q.p = p)) = false := by simpa using hq
  unfold Run.fwpCtrl
  dsimp only
  rw [bits_setBits_top _ (by decide), bits_setBits_top _ (by decide)]
  refine (if_pos (bit_setBits_self 1)).trans ?_
  unfold Run.fwRestart
  simp only [Nat.not_lt.mpr hp, if_false, hst, hs, hfw, hany, hfr]
  rfl

end

/-- Settles O60: each write by the branch that its conditions choose. -/
theorem acceptedWrites : Obligations.AcceptedWrites := by
  unfold Obligations.AcceptedWrites
  intro any room
  refine ⟨?bells, ?free, ?alloc, ?ctx, ?beat, ?core, ?group, ?inv, ?window, ?copy, ?arm, ?i3c, ?ladder, ?power, ?dvfs, ?modes, ?snap,
    ?fw, ?uart⟩
  case bells =>
    intro v n x rx
    refine ⟨?sched, ?flow, ?aud, ?csi, ?lad, ?trc⟩
    case sched =>
      refine ⟨writeDone_of_exec (fun _ _ _ => rfl) fun _ s _ _ ⟨⟨hs, hen, hk⟩, hrx, hq⟩ => ?_,
        writeDone_of_exec (fun _ _ _ => rfl) fun _ s _ _ ⟨⟨hs, hen, hk⟩, hrx, hq⟩ => ?_⟩
      · exact (special_schedDb _ hs).trans (congrArg some (doorbell_queue hen hk hrx hq))
      · exact (special_schedDb _ hs).trans (congrArg some (doorbell_consumed hen hk hrx hq))
    case flow =>
      refine ⟨writeDone_of_exec (fun _ _ _ => rfl) fun _ s _ _ ⟨⟨hen, hk⟩, hrx, hq⟩ => ?_,
        writeDone_of_exec (fun _ _ _ => rfl) fun _ s _ _ ⟨⟨hen, hk⟩, hrx, hq⟩ => ?_⟩
      · exact congrArg some (flowDb_consumed hen hk hrx hq)
      · exact congrArg some (flowDb_tail hen hk hrx hq)
    case aud =>
      refine ⟨writeDone_of_exec (fun _ _ _ => rfl) fun _ s _ _ ⟨hen, hk, hrx, hq⟩ => ?_,
        writeDone_of_exec (fun _ _ _ => rfl) fun _ s _ _ ⟨hen, hk, hrx, hq⟩ => ?_⟩
      · exact congrArg some (audRingDb_consumed hen hk hrx hq)
      · exact congrArg some (audRingDb_tail hen hk hrx hq)
    case csi =>
      exact writeDone_of_exec (fun _ _ _ => rfl) fun _ s _ _ ⟨hen, hk, hrx, hq⟩ => congrArg some (csiRingDb_consumed hen hk hrx hq)
    case lad => exact writeDone_of_exec (fun _ _ _ => rfl) fun _ s _ _ hq => congrArg some (if_pos hq)
    case trc => exact writeDone_of_exec (fun _ _ _ => rfl) fun _ s _ _ hq => congrArg some (trcAck_consumed hq)
  case free =>
    intro v i
    exact writeDone_of_exec (fun _ _ _ => rfl) fun _ s _ _ h => congrArg some (by simp only [Run.writeTallyFree, Run.start_s, h])
  case alloc =>
    intro s ag i up ha hacc hf hn
    refine ((agentRead_row up ha).2 hacc).trans ?_
    have hr : ((Run.start s).regRead (some ag) (schedReg 0x020)).2 = (Run.start s).readTallyAlloc.2 := rfl
    rw [hr, Run.readTallyAlloc]
    simp only [Run.start_s, hf, allocTally_some (r := Run.start s) hn]
    rfl
  case ctx =>
    intro n v
    refine ⟨writeDone_of_exec (fun _ _ _ => rfl) fun _ s _ _ h => ?_, writeDone_of_exec (fun _ _ _ => rfl) fun _ s _ _ h => ?_⟩
    · have he : bit (setBits v.toNat 31 31 1) 31 = true := bit_setBits_self 1
      exact (special_ctxCfg _ _ _ n.isLt).trans (congrArg some (writeCtxCfg_enable h he))
    · exact (special_ctxCfg _ _ _ n.isLt).trans (congrArg some (writeCtxCfg_disable h))
  case beat =>
    intro n v hv
    refine writeDone_of_exec (fun _ _ _ => rfl) fun _ s _ _ ⟨hs, hl⟩ => ?_
    show some (Run.heartbeat _ (bits v.toNat 11 0) _) = _
    rw [hv]
    exact congrArg some (if_pos ((Bool.and_eq_true _ _).mpr ⟨decide_eq_true hs, decide_eq_true hl⟩))
  case core =>
    intro n l
    refine ⟨writeDone_of_exec (fun _ _ _ => rfl) fun _ s _ _ ⟨h, hm⟩ => ?_, writeDone_of_exec (fun _ _ _ => rfl) fun _ s _ _ h => ?_⟩
    · exact (special_rfxCore _ _ _ n.isLt).trans (congrArg some (writeRfxCore_enable (bit_two_pow_add (Nat.lt_trans l.isLt (by decide))) h hm))
    · exact (special_rfxCore _ _ _ n.isLt).trans (congrArg some (writeRfxCore_disable h))
  case group =>
    intro n v g
    refine ⟨writeDone_of_exec (fun _ _ _ => rfl) fun _ s _ _ h => ?_, writeDone_of_exec (fun _ _ _ => rfl) fun _ s _ _ h => ?_⟩
    · exact (special_rfxMark _ _ _ n.isLt).trans (congrArg some (rfxMark_of h))
    · exact (special_rfxCtrl _ _ _ n.isLt).trans (congrArg some (rfxStop_of h))
  case inv =>
    intro v
    refine ⟨writeDone_of_exec (fun _ _ _ => rfl) fun _ s _ _ h => ?_, writeDone_of_exec (fun _ _ _ => rfl) fun _ s _ _ h => ?_⟩
    · exact congrArg some ((tlbInv_of (hi := true) h).trans (by rw [BitVec.ofNat_toNat, BitVec.setWidth_eq]; rfl))
    · exact congrArg some (tlbInv_of (hi := false) h)
  case window =>
    intro n w
    refine ⟨fun h hh => writeDone_of_exec (fun _ _ _ => rfl) ?_, writeDone_of_exec (fun _ _ _ => rfl) fun _ s _ _ ⟨h, hi⟩ => ?_,
      writeDone_of_exec (fun _ _ _ => rfl) fun _ s _ _ ⟨h, hi⟩ => ?_⟩
    · rintro ag s rfl _ ⟨hn, hw⟩
      have hk : hostKey h = h := if_pos hh
      refine (special_window _ _ _ n.isLt).trans (congrArg some ?_)
      refine Eq.trans ?_ (windowStart_of (c := (s.hart h).xctx) hn hw)
      show Run.windowStart _ ((s.hart (hostKey h)).xctx) _ = _
      rw [hk]
    · exact (special_window _ _ _ n.isLt).trans (congrArg some (windowStop_done h hi))
    · exact (special_window _ _ _ n.isLt).trans (congrArg some (windowStop_wait h hi))
  case copy =>
    intro v
    refine writeDone_of_exec (fun _ _ _ => rfl) fun _ s _ _ ⟨h, ho, hn⟩ => congrArg some ?_
    refine (if_pos (bit_setBits_self 1)).trans ?_
    exact copyGo_of h ho hn
  case arm =>
    exact fun n v => writeDone_of_exec (fun _ _ _ => rfl) fun _ s _ _ h => (special_ispArm _ _ _ n.isLt).trans
      (congrArg some (ispArm_of h))
  case i3c =>
    exact fun b v => writeDone_of_exec (fun _ _ _ => rfl) fun _ s _ _ h => (special_i3c _ _ _ b.isLt).trans
      (congrArg some (i3cXfer_of (bit_setBits_self 1) h))
  case ladder =>
    refine ⟨fun v => writeDone_of_exec (fun _ _ _ => rfl) fun _ s _ _ h => congrArg some ?_,
      writeDone_of_exec (fun _ _ _ => rfl) fun _ s _ _ h => congrArg some (writeLadCfg_disable h),
      writeDone_of_exec (fun _ _ _ => rfl) fun _ s _ _ h => congrArg some (writeLadCfg_reload h)⟩
    refine (writeLadCfg_enable h (bit_setBits_self 1)).trans ?_
    simp only [ladShown, bits_setBits_top, Nat.reduceLT]
  case power =>
    intro t v t' q free
    have hv : bit v 31 = true := bit_two_pow_add (Nat.lt_trans t.isLt (by decide))
    have hb : bits v 2 0 = t.toNat := by
      have := t.isLt
      simp only [bits, v]
      omega
    refine ⟨writeDone_of_exec (fun _ _ _ => rfl) fun _ s _ _ ⟨hf, ht, hc⟩ => congrArg some ?_,
      writeDone_of_exec (fun _ _ _ => rfl) fun _ s _ _ ⟨hf, ht, hx, hw⟩ => congrArg some ?_⟩
    · obtain ⟨hr, ha, hen, hs, haw, hfw, hm, hcl⟩ := hf
      have hq := RequestFree.setFld (r := Run.start s) ⟨hr, ha, hen, hs, haw, hfw, hm, hcl⟩ v
      refine (stateCtrl_of hv hr ha hen).trans ?_
      rw [hb]
      dsimp only
      rw [requestState_now hq ht fun h0 => (anySensor_setFld _ _ _ _ (by decide)).trans (hc h0)]
    · obtain ⟨hr, ha, hen, hs, haw, hfw, hm, hcl⟩ := hf
      have hq := RequestFree.setFld (r := Run.start s) ⟨hr, ha, hen, hs, haw, hfw, hm, hcl⟩ v
      have hsched : ((Run.start s).setFld (pwrReg 0) 2 0 v).s.sched = s.sched := Upd.apply_sched _ _
      have hvault : ((Run.start s).setFld (pwrReg 0) 2 0 v).s.vault = s.vault := Upd.apply_vault _ _
      have hnow : ((Run.start s).setFld (pwrReg 0) 2 0 v).s.now = s.now := Upd.apply_now _ _
      have h8 : ((Run.start s).setFld (pwrReg 0) 2 0 v).s.fld (pwrReg 8) 15 0 = s.fld (pwrReg 8) 15 0 :=
        fld_setFld_ne _ _ _ _ _ _ (by decide)
      have hp : ∀ (r : Run s) (p : Power), ((r.setPower p).setFld (pwrReg 4) 28 28 1).s.power = p := fun r p =>
        (Upd.apply_power _ _).trans (Upd.apply_power (.power p) _)
      refine (stateCtrl_of hv hr ha hen).trans ?_
      rw [hb]
      dsimp only
      rw [requestState_drain hq ht (by rw [reflexInFlight, hsched]; exact hx) (by rw [hvault]; exact hw), hp, hnow, h8]
      rfl
  case dvfs =>
    intro c v hc
    refine ⟨writeDone_of_exec (fun _ _ _ => rfl) fun _ s _ hz ⟨h, hp⟩ => (special_dvfs _ _ _ hc).trans
      (congrArg some (writeDvfs_target hz.regs v.isLt h hp)),
      writeDone_of_exec (fun _ _ _ => rfl) fun _ s _ hz ⟨h, hm⟩ => (special_dvfs _ _ _ hc).trans
      (congrArg some (writeDvfs_volt hz.regs v.isLt h hm)),
      writeDone_of_exec (fun _ _ _ => rfl) fun _ s _ _ ⟨h, hp⟩ => (special_div _ _ _ hc).trans (congrArg some ?_),
      fun z r p hc => startMove_cluster hc⟩
    rw [bits_of_lt v.isLt]
    exact writeDiv_of h hp
  case modes =>
    intro v
    refine ⟨writeDone_of_exec (fun _ _ _ => rfl) fun _ s _ _ h => congrArg some (writeCap_of h),
      writeDone_of_exec (fun _ _ _ => rfl) fun _ s _ _ h => congrArg some (writeMode_of h), ?_,
      fun c hc => writeDone_of_exec (fun _ _ _ => rfl) fun _ s _ _ h => (special_coreFlt _ _ _ hc).trans
        (congrArg some (if_pos h))⟩
    exact writeDone_of_exec (fun _ _ _ => rfl) fun _ s _ _ ⟨hv, hm, hl, hx⟩ => congrArg some (mmWrite_of hv hm hl hx)
  case snap =>
    exact writeDone_of_exec (fun _ _ _ => rfl) fun _ s _ _ ⟨ht, hf⟩ => congrArg some (snapArm_of ht hf)
  case fw =>
    intro p hp
    refine writeDone_of_exec (fun _ _ _ => rfl) fun ag s hag hz ⟨hs, hq, hfree⟩ => ?_
    subst hag
    exact (special_fwCtrl _ _ _ hp).trans (congrArg some ((if_pos rfl).trans (fwpCtrl_restart hp hs hq hfree)))
  case uart =>
    refine fun b => ⟨writeDone_of_exec (fun _ _ _ => rfl) fun _ s _ _ h => ?_, fun rest s ag up ha hacc hr => ?_⟩
    · show some ((Run.start s).uartSend (BitVec.ofNat 8 b.toNat)) = _
      rw [BitVec.ofNat_toNat, BitVec.setWidth_eq]
      exact congrArg some (if_neg (Nat.not_le.mpr h))
    · refine ((agentRead_row up ha).2 hacc).trans ?_
      show Host.Outcome.next (Run.uartRead (Run.start s)).2.s = _
      simp only [Run.uartRead, Run.start_s, hr]

end Sys2Proof.Machine
end


section
/-! PROOFS. Boot, and what the device does when it is held (R468, R469, R509). -/

namespace Sys2Proof.Machine

/-! ## Boot (R468, R469, R509) -/

/-- Where no byte is listed that a store may write, every such byte is 0 in a device that no SLEEP has emptied. -/
theorem byte_zero_of_unlisted {s : State} (hl : s.lost = 0) {a : Nat} (ha : readOnly a = false) (hm : ∀ c ∈ s.mem, c.1 ≠ a) :
    s.byte a = 0 := by
  have hf : SMap.find? s.mem a = none := by
    cases h : SMap.find? s.mem a with
    | none => rfl
    | some b => exact absurd rfl (hm _ (mem_of_find? h))
  have hfl : inFlash a = false := ((Bool.or_eq_false_iff).mp ha).1
  rw [State.byte, SMap.get, hf, Option.getD_none, memDefault, hl, hfl]
  rfl

/-- The memory that a reset by PORST_N keeps is of the boot ROM and the flashes. -/
theorem readOnly_of_mem_bootBase {s : State} {env : BootEnv} {now : Nat} {c : Nat × Byte} (h : c ∈ (bootBase s env now).mem) :
    readOnly c.1 = true := by
  obtain ⟨_, hc⟩ := List.mem_filter.mp h
  simp only [Bool.false_and, Bool.or_false] at hc
  exact ((Bool.and_eq_true _ _).mp hc).1

/-- A boot by what its environment shows. -/
theorem boot_stop {z : State} {r : Run z} {env : BootEnv} (gpio0 again : Bool)
    (h : env.sramOk = false ∨ accessionOk r.s = false ∨ env.pufOk = false) : r.boot env gpio0 again = r.bootStop := by
  unfold Run.boot
  rw [if_pos]
  rcases h with h | h | h <;> rw [h] <;> simp

/-- A boot whose memories, record and key are right repairs what the ledger names, and then recovers or runs. -/
theorem boot_repaired {z : State} {r : Run z} {env : BootEnv} (gpio0 again : Bool) (hs : env.sramOk = true)
    (ha : accessionOk r.s = true) (hp : env.pufOk = true) :
    r.boot env gpio0 again =
      if !env.storeOk && !again || (gpio0 || !bootImageOk (r.bootRepair env).secShow.s) then (r.bootRepair env).secShow.recover
      else (r.bootRepair env).secShow.bootRun env := by
  unfold Run.boot
  rw [hs, ha, hp]
  cases !env.storeOk && !again <;> rfl

/-- A device that is held does nothing but start anew. -/
theorem exec_of_halted (c : Instr) {s : State} (h : s.halted = true) (hp : ∀ env, c ≠ .powerOnReset env)
    (hs : c ≠ .supplyBelowRange) : exec c s = .next s := by
  have held : ¬ Reboots c → exec c s = .next s := fun hc => by
    obtain ⟨r, hr⟩ := exec_fromRun c s hc
    rw [hr, done, if_pos h]
  cases c with
  | powerOnReset env => exact absurd rfl (hp env)
  | supplyBelowRange => exact absurd rfl hs
  | fwRestart => exact if_pos h
  | _ => exact held fun hc => hc

/-- Settles O39: the boot by its checks, and each start of the device from its base. -/
theorem bootCommands : Obligations.BootCommands := by
  refine ⟨⟨fun env s => ?reset, fun s => ?supply, fun s h hr => ?recovery⟩, fun c s h hp hs => exec_of_halted c h hp hs⟩
  case reset =>
    intro r
    refine ⟨fun h => congrArg (fun q : Run _ => Host.Outcome.next q.s) (boot_stop env.gpio0 false h), ?_⟩
    intro h1 h2 h3 b
    have hb := boot_repaired env.gpio0 false h1 h2 h3
    refine ⟨fun h => ?_, fun h4 h5 h6 => ?_⟩
    · refine congrArg (fun q : Run _ => Host.Outcome.next q.s) (hb.trans (if_pos ?_))
      rcases h with h | h | h <;> rw [h] <;> simp
    · refine congrArg (fun q : Run _ => Host.Outcome.next q.s) (hb.trans (if_neg ?_))
      rw [h4, h5, h6]
      decide
  case supply =>
    refine ⟨_, rfl, rfl, rfl, rfl, rfl, rfl, rfl, rfl, fun _ a ha => byte_zero_of_unlisted rfl ha fun c hc e => ?_⟩
    have := readOnly_of_mem_bootBase (s := s) (env := s.sec.env) (now := s.now) hc
    rw [e, ha] at this
    exact Bool.false_ne_true this
  case recovery =>
    refine ⟨_, ?_, rfl⟩
    show (if s.halted = true then _ else if isReboot s = true then _ else _) = _
    rw [if_neg (by rw [h]; decide), if_pos hr]
    rfl

end Sys2Proof.Machine
end


section
/-! PROOFS. Gangs: admission, retirement, parking and a re-run (R83 to R88, R161, R285). -/

namespace Sys2Proof.Machine

/-- An event has the effect given where each run that meets the condition ends as the effect says. -/
theorem EventRow.intro {c : Instr} {ok : State → Prop} {out : (s : State) → Run s → Run s}
    (h : ∀ s, s.halted = false → ok s → ∃ r : Run s, exec c s = .next r.s ∧ r = out s (Run.start s)) : EventRow c ok out := by
  intro s up hok
  obtain ⟨r, hr, ho⟩ := h s up hok
  rw [hr, ho]

/-- A number that a list has no entry for reads as none, and an entry's number does not. -/
theorem find?_ne_none_of_mem {α : Type} {m : SMap α} {k : Nat} {x : α} (h : (k, x) ∈ m) : SMap.find? m k ≠ none := by
  induction m with
  | nil => cases h
  | cons c m ih =>
    obtain ⟨j, y⟩ := c
    unfold SMap.find?
    split
    · exact Option.some_ne_none _
    · next hne =>
      rcases List.mem_cons.mp h with heq | h
      · cases heq; exact absurd rfl hne
      · exact ih h

section
variable {s : State} {core parcel gang gi : Nat} {banks : List Nat} {p : Parcel}

/-- A gang number is free where no gang of the core has it. -/
theorem gangsOf_free (h : s.gang? core gang = none) (_ : gang < 128) :
    ((gangsOf s core).any fun kg => kg.1 % 128 = gang) = false := by
  rw [List.any_eq_false]
  intro kg hkg he
  obtain ⟨hm, hc⟩ := List.mem_filter.mp hkg
  have hc' : kg.1 / 128 = core := of_decide_eq_true hc
  have he' : kg.1 % 128 = gang := of_decide_eq_true he
  have hk : kg.1 = 128 * core + gang := by omega
  exact find?_ne_none_of_mem (k := 128 * core + gang) (x := kg.2) (hk ▸ hm) h

/-- Banks are free where no gang of the core has them. -/
theorem banks_free (h : ∀ b ∈ banks, b < 4 ∧ ∀ kg ∈ gangsOf s core, b ∉ kg.2.banks) :
    (banks.all fun b => decide (b < 4) && !(gangsOf s core).any fun kg => kg.2.banks.contains b) = true := by
  rw [List.all_eq_true]
  intro b hb
  obtain ⟨hlt, hfree⟩ := h b hb
  have : ((gangsOf s core).any fun kg => kg.2.banks.contains b) = false := by
    rw [List.any_eq_false]
    intro kg hkg he
    exact hfree kg hkg (List.contains_iff_mem.mp he)
  rw [this, decide_eq_true hlt]
  rfl

/-- No parcel stands before the one that is served. -/
theorem no_better (h : ∀ q ∈ s.sched.parcels, q.1 ≠ parcel → couldAdmit s core q.2 = true → gangLeftFor s core q.1 q.2 = true →
      rankLt (parcelRank s q.2) (parcelRank s p) = false) :
    (s.sched.parcels.any fun q => q.1 ≠ parcel && couldAdmit s core q.2 && gangLeftFor s core q.1 q.2 &&
      rankLt (parcelRank s q.2) (parcelRank s p)) = false := by
  rw [List.any_eq_false]
  intro q hq he
  simp only [Bool.and_eq_true, decide_eq_true_eq] at he
  obtain ⟨⟨⟨hne, hc⟩, hl⟩, hr⟩ := he
  exact Bool.false_ne_true ((h q hq hne hc hl).symm.trans hr)

/-- The conditions under which a core admits the next gang of a parcel, or asks for its permit (R84, R285, R299). -/
structure Admits (s : State) (core parcel gang : Nat) (banks : List Nat) (p : Parcel) (gi : Nat) : Prop where
  inFlight : s.parcel? parcel = some p
  isCore : core < 192
  could : couldAdmit s core p = true
  index : nextIndex p = some gi
  first : ∀ q ∈ s.sched.parcels, q.1 ≠ parcel → couldAdmit s core q.2 = true → gangLeftFor s core q.1 q.2 = true →
    rankLt (parcelRank s q.2) (parcelRank s p) = false
  isGang : gang < 128
  free : s.gang? core gang = none
  nbanks : banks.length = p.nbanks
  once : banks.eraseDups = banks
  areBanks : ∀ b ∈ banks, b < 4 ∧ ∀ kg ∈ gangsOf s core, b ∉ kg.2.banks

/-- The parcel as its next gang has been dispatched. -/
def Parcel.dispatched (p : Parcel) (permits : List Nat) : Parcel :=
  { p with permits := permits, again := p.again.drop 1, next := if p.again = [] then p.next + 1 else p.next }

/-- A gang enters its core: its parcel counts it, its banks are fresh, and it is live or parked and ready (R83, R85). -/
def Run.enterGang {z : State} (r : Run z) (s : State) (core parcel gang gi : Nat) (banks : List Nat) (p p' : Parcel) : Run z :=
  let r := (r.setParcel parcel p').each banks fun b r => r.freshBank core b
  let parked := if storagePlace s core p = some true then some s.now else none
  let r := (if parked = none then r.noteReady core else r).setGang core gang (newGang parcel p gi banks parked)
  (r.put (.power { r.s.power with idleSince := s.now })).traceCore core 0x0600 gi

/-- What an admission does: it asks for the permit that its class needs, and admits the gang otherwise. -/
theorem Admits.exec (h : Admits s core parcel gang banks p gi) (up : s.halted = false) :
    exec (.gangAdmit core parcel gang banks) s =
      .next (if (decide (2 ≤ bits (p.desc.getD 0 0).toNat 27 25) && !p.permits.contains core) = true
        then (Run.start s).askPermit parcel core p
        else (Run.start s).enterGang s core parcel gang gi banks p (p.dispatched
          (if decide (2 ≤ bits (p.desc.getD 0 0).toNat 27 25) = true then p.permits.erase core else p.permits))).s := by
  have hchoice : (decide (gang < 128) && !(gangsOf s core).any (fun kg => kg.1 % 128 = gang) && banks.length = p.nbanks &&
      banks.all (fun b => decide (b < 4) && !(gangsOf s core).any fun kg => kg.2.banks.contains b) && banks.eraseDups = banks) =
      true := by
    rw [gangsOf_free h.free h.isGang, banks_free h.areBanks, decide_eq_true h.isGang, decide_eq_true h.nbanks, decide_eq_true h.once]
    rfl
  have hpark : ∀ {o : Option Nat} {z : State} {r : Run z}, r.when o.isNone (fun r => r.noteReady core) =
      if o = none then r.noteReady core else r := by
    intro o _ _
    cases o <;> rfl
  show execGangAdmit core parcel gang banks s = _
  unfold execGangAdmit
  rw [h.inFlight]
  dsimp only
  rw [no_better h.first, hchoice, h.could, h.index, if_neg (by simpa using h.isCore)]
  simp only [hpark, List.isEmpty_iff, done_next up]
  split <;> rfl

end

/-! ## Parking -/

/-- The pair of the least value is one of the list. -/
theorem leastBy_mem {f : Nat × Gang → Nat} {l : List (Nat × Gang)} {b : Nat × Gang} (h : leastBy f l = some b) : b ∈ l := by
  cases l with
  | nil => cases h
  | cons x xs =>
    obtain rfl : xs.foldl (fun m y => if f y < f m then y else m) x = b := Option.some.inj h
    induction xs generalizing x with
    | nil => exact .head _
    | cons y ys ih =>
      rw [List.foldl_cons]
      split
      · exact .tail _ (ih y rfl)
      · rcases List.mem_cons.mp (ih x rfl) with he | he
        · rw [he]; exact .head _
        · exact .tail _ (.tail _ he)

section
variable {s : State} {core : Nat}

/-- A gang comes back from the parking region: it is live, and the core notes that it is ready (R88). -/
def Run.unpark {z : State} (r : Run z) (core : Nat) (b : Nat × Gang) : Run z :=
  (r.noteReady core).setGang core (b.1 % 128) { b.2 with parked := false, readyAt := none, blockedAt := none }

theorem noteReady_gang? {z : State} (r : Run z) (core c g : Nat) : (r.noteReady core).s.gang? c g = r.s.gang? c g := by
  unfold Run.noteReady
  split <;> rfl

/-- A gang that comes back is live, every other one is as it was, and no unit but the gangs and their core's note changes. -/
theorem unpark_post {z : State} (r : Run z) (core : Nat) (b : Nat × Gang) :
    (r.unpark core b).s.gang? core (b.1 % 128) = some { b.2 with parked := false, readyAt := none, blockedAt := none } ∧
    (∀ g, g ≠ b.1 % 128 → (r.unpark core b).s.gang? core g = r.s.gang? core g) ∧
    (r.unpark core b).s = { r.s with gangs := (r.unpark core b).s.gangs, cores := (r.unpark core b).s.cores } := by
  refine ⟨gang_gang_self _ _ _ _, fun g hg => ?_, ?_⟩
  · refine (gang_gang _ _ _ _ _).trans ((if_neg (by omega)).trans (noteReady_gang? r core core g))
  · unfold Run.unpark Run.noteReady
    split <;> rfl

/-- The swap of R88, where the gang that became ready first is known. -/
theorem parkSwap_of_first {b : Nat × Gang}
    (up : s.halted = false)
    (h : leastBy (fun kg => kg.2.readyAt.getD 0) ((gangsOf s core).filter (parkedReady s core)) = some b) :
    (liveStorage s core + storageOf b.2.nreg b.2.ntd ≤ 131072 →
      exec (.gangParkSwap core) s = .next ((Run.start s).unpark core b).s) ∧
    ∀ o, leastBy (fun kg => kg.2.blockedAt.getD 0) ((gangsOf s core).filter (mayPark s core)) = some o →
      131072 < liveStorage s core + storageOf b.2.nreg b.2.ntd →
      parkedStorage s core + storageOf o.2.nreg o.2.ntd - storageOf b.2.nreg b.2.ntd ≤ s.fld (coreReg core 4) 20 16 * 8192 →
      liveStorage s core + storageOf b.2.nreg b.2.ntd - storageOf o.2.nreg o.2.ntd ≤ 131072 →
      exec (.gangParkSwap core) s = .next
        (((Run.start s).setGang core (o.1 % 128) { o.2 with parked := true, readyAt := none }).unpark core b).s := by
  have hexec : exec (.gangParkSwap core) s = execGangParkSwap core s := rfl
  unfold execGangParkSwap parkBytes at hexec
  dsimp only at hexec
  rw [h] at hexec
  dsimp only at hexec
  refine ⟨fun hl => hexec.trans ((if_pos hl).trans (done_next up)), fun o ho hl hp hv => ?_⟩
  rw [ho, if_neg (Nat.not_le.mpr hl)] at hexec
  dsimp only at hexec
  rw [decide_eq_true hp, decide_eq_true hv] at hexec
  exact hexec.trans (done_next up)

/-- The gang that is parked is another than the one that comes back. -/
theorem parked_ne_unparked (hs : s.Sound) {b o : Nat × Gang}
    (hb : leastBy (fun kg => kg.2.readyAt.getD 0) ((gangsOf s core).filter (parkedReady s core)) = some b)
    (ho : leastBy (fun kg => kg.2.blockedAt.getD 0) ((gangsOf s core).filter (mayPark s core)) = some o) :
    o.1 % 128 ≠ b.1 % 128 := by
  obtain ⟨hbg, hbp⟩ := List.mem_filter.mp (leastBy_mem hb)
  obtain ⟨hog, hop⟩ := List.mem_filter.mp (leastBy_mem ho)
  obtain ⟨hbm, hbc⟩ := List.mem_filter.mp hbg
  obtain ⟨hom, hoc⟩ := List.mem_filter.mp hog
  have hbc : b.1 / 128 = core := of_decide_eq_true hbc
  have hoc : o.1 / 128 = core := of_decide_eq_true hoc
  intro he
  have hk : o.1 = b.1 := by omega
  obtain ⟨_, _, hr, _⟩ := hs.units
  have : some o.2 = some b.2 := (find?_of_mem hr hom).symm.trans (hk ▸ find?_of_mem hr hbm)
  have hx : o.2 = b.2 := Option.some.inj this
  unfold mayPark at hop
  unfold parkedReady at hbp
  rw [hx] at hop
  simp_all

end

/-! ## The events -/

/-- Where a core has storage for a gang: a live place, or with none left a place in the parking region (R84, R85). -/
theorem storagePlace_iff (s : State) (core : Nat) (p : Parcel) :
    (storagePlace s core p = some false ↔ liveStorage s core + storageOf p.nreg p.ntd ≤ 131072) ∧
    (storagePlace s core p = some true ↔ 131072 < liveStorage s core + storageOf p.nreg p.ntd ∧
      parkedStorage s core + storageOf p.nreg p.ntd ≤ s.fld (coreReg core 4) 20 16 * 8192) := by
  unfold storagePlace parkBytes
  dsimp only
  split
  · next h => simp [h]
  · next h =>
    split
    · next hp => simp [Nat.not_le.mp h, hp]
    · next hp => simp [Nat.not_le.mp h, hp]

/-- A gang that has ended, with nothing of it in the tensor queue, leaves its core (R84). -/
theorem gangRetire_exec {s : State} {core gang : Nat} {x : Gang} (up : s.halted = false) (hx : s.gang? core gang = some x)
    (hend : x.stopped = true ∨ x.allExited = true) (hidle : ∀ t ∈ (s.core core).queue ++ (s.core core).running, t.gang ≠ gang) :
    exec (.gangRetire core gang) s = .next ((Run.start s).retireGang core gang x).s := by
  have hbusy : (((s.core core).queue ++ (s.core core).running).any fun t => t.gang = gang) = false := by
    rw [List.any_eq_false]
    exact fun t ht he => hidle t ht (of_decide_eq_true he)
  have hended : (x.stopped || x.allExited) = true := (Bool.or_eq_true _ _).mpr hend
  show execGangRetire core gang s = _
  unfold execGangRetire
  simp only [hx, hbusy, hended, Bool.not_true, Bool.or_false, Bool.false_eq_true, if_false, done_next up]

/-- Settles O40: each event by its conditions. -/
theorem gangEvents : Obligations.GangEvents := by
  refine ⟨fun core parcel gang gi banks p => ?admission,
    fun core gang x => .intro fun s up ⟨hx, hend, hidle⟩ => ⟨_, gangRetire_exec up hx hend hidle, rfl⟩, storagePlace_iff,
    fun core b => ?swap, fun i p s up ⟨hp, hrun, hdue⟩ => ?rerun⟩
  case admission =>
    intro ok eclass enter after
    have admits : ∀ {s}, ok s → Admits s core parcel gang banks p gi :=
      fun ⟨h1, h2, h3, h4, h5, h6, h7, h8, h9, h10⟩ => ⟨h1, h2, h3, h4, h5, h6, h7, h8, h9, h10⟩
    refine ⟨fun s up ⟨h, hc⟩ => ?_, fun s up ⟨h, hc, hm⟩ => ?_, fun s up ⟨h, hc, hm⟩ => ?_⟩
    · refine (admits h).exec up |>.trans (congrArg (fun r : Run s => Host.Outcome.next r.s) ?_)
      rw [decide_eq_false (Nat.not_le.mpr hc), if_neg (by simp), if_neg Bool.false_ne_true]
      rfl
    · refine (admits h).exec up |>.trans (congrArg (fun r : Run s => Host.Outcome.next r.s) ?_)
      rw [if_neg (by simp [hm]), if_pos (decide_eq_true hc)]
      rfl
    · refine (admits h).exec up |>.trans (congrArg (fun r : Run s => Host.Outcome.next r.s) ?_)
      exact if_pos (by rw [decide_eq_true hc]; simp [hm])
  case swap =>
    intro first back
    refine ⟨fun s up _ ⟨hf, hl⟩ => ⟨_, (parkSwap_of_first up hf).1 hl, ?_⟩,
      fun o s up hs ⟨hf, ho, hl, hp, hv⟩ => ⟨_, (parkSwap_of_first up hf).2 o ho hl hp hv, ?_⟩⟩
    · obtain ⟨h1, h2, h3⟩ := unpark_post (Run.start s) core b
      exact ⟨h1, fun g _ hg => h2 g hg, h3⟩
    · obtain ⟨h1, h2, h3⟩ := unpark_post ((Run.start s).setGang core (o.1 % 128) { o.2 with parked := true, readyAt := none }) core b
      exact ⟨h1, ⟨_, (h2 _ (parked_ne_unparked hs hf ho)).trans (gang_gang_self _ _ _ _), rfl, rfl, rfl⟩, h3⟩
  case rerun =>
    show execParcelRerun i s = _
    unfold execParcelRerun
    rw [hp]
    dsimp only
    rw [hrun, hdue]
    exact (if_neg (by decide)).trans (done_next up)

end Sys2Proof.Machine
end


section
/-! PROOFS. A card that is fetched, where the copy of its words is in no order (R276). -/

namespace Sys2Proof.Machine

/-- A device with one card in its Catalogue, taken up and evicted, whose copy holds word 3 twice. -/
def twiceListed : State := { sched := { cards := [(0, { words := [(3, 5), (3, 7)], taken := true })] } }

/-- What the fetch leaves of the card's word 3: the write of the word read, which is 0, drops the first of the two entries alone. -/
theorem twiceListed_fetched : SMap.get 0 (cardOf ((Run.start twiceListed).touchCard 0).s 0).words 3 = 7 := by
  decide

/-- Refutes O42: a card's words need not be listed once each, and one that is listed twice does not read back as the Catalogue has
it. -/
theorem not_cardAndSessionEvents : ¬ Obligations.CardAndSessionEvents := by
  unfold Obligations.CardAndSessionEvents
  rintro ⟨⟨-, -, fetch⟩, -⟩
  obtain ⟨-, -, reads, -⟩ := fetch twiceListed (Run.start twiceListed) 0 (by decide)
  have := reads (by decide) (by decide) (by decide) (by decide) 3 (by decide) (by decide)
  rw [twiceListed_fetched] at this
  exact absurd this (by decide)

end Sys2Proof.Machine
end


section
/-! PROOFS. Parcels: take, wait, start, completion, and the permits of their gangs (R81, R281 to R287, R298, R299, R438 to
R441). -/

namespace Sys2Proof.Machine

/-! ## Take (R281, R298, R299) -/

/-- The largest value of a list is at least each. -/
theorem le_foldl_max (f : Nat → Nat) (l : List Nat) (a : Nat) :
    a ≤ l.foldl (fun m n => max m (f n)) a ∧ ∀ n ∈ l, f n ≤ l.foldl (fun m n => max m (f n)) a := by
  induction l generalizing a with
  | nil => exact ⟨Nat.le_refl a, fun _ h => nomatch h⟩
  | cons x l ih =>
    obtain ⟨h1, h2⟩ := ih (max a (f x))
    refine ⟨le_trans (Nat.le_max_left _ _) h1, fun n hn => ?_⟩
    rcases List.mem_cons.mp hn with rfl | hn
    · exact le_trans (Nat.le_max_right _ _) h1
    · exact h2 n hn

/-- The queue that the policy serves next can take its entry, and none that can has a higher priority (R298). -/
theorem nextQueue_spec {s : State} {card : Nat} (h : nextQueue s = some card) :
    canTake s card = true ∧ ∀ n ∈ s.sched.cards.map (·.1), canTake s n = true → cardPrio s n ≤ cardPrio s card := by
  unfold nextQueue at h
  dsimp only at h
  generalize hcan : (s.sched.cards.map (·.1)).filter (fun n => canTake s n) = can at h
  have hmem : card ∈ can.filter fun n => cardPrio s n = can.foldl (fun m n => max m (cardPrio s n)) 0 := by
    split at h
    · next hl => cases h; exact List.contains_iff_mem.mp ((Bool.and_eq_true _ _).mp hl).1
    · split at h
      · next n hn => cases h; exact List.mem_of_find?_eq_some hn
      · exact List.mem_of_head? h
  obtain ⟨hc, hp⟩ := List.mem_filter.mp hmem
  have hp : cardPrio s card = can.foldl (fun m n => max m (cardPrio s n)) 0 := of_decide_eq_true hp
  refine ⟨(List.mem_filter.mp (hcan ▸ hc)).2, fun n hn ht => hp ▸ ?_⟩
  exact (le_foldl_max (cardPrio s) can 0).2 n (hcan ▸ List.mem_filter.mpr ⟨hn, ht⟩)

/-- The takes of the present microsecond so far (R299). -/
def takesNow (s : State) : Nat := if s.sched.takeUs = s.now / 1000 then s.sched.takeN else 0

/-- A take counts for its microsecond, and for its queue's visit (R298, R299). -/
def Run.noteTake {z : State} (r : Run z) (card : Nat) : Run z :=
  r.put (.sched { r.s.sched with
    takeUs := r.s.now / 1000, takeN := takesNow r.s + 1, last := card
    lastN := if r.s.sched.last = card ∧ r.s.sched.lastN < cardWeight r.s card then r.s.sched.lastN + 1 else 1 })

/-- The entry that is served next is taken, where the microsecond allows. -/
theorem parcelTake_exec {s : State} {card : Nat} (up : s.halted = false) (hf : fwRuns s 0 = true) (hq : nextQueue s = some card)
    (hn : takesNow s < 4) : exec (.parcelTake card) s = .next (((Run.start s).noteTake card).takeEntry card).s := by
  show execParcelTake card s = _
  unfold execParcelTake
  have hn' : ¬ (if s.sched.takeUs = s.now / 1000 then s.sched.takeN else 0) ≥ 4 := Nat.not_le.mpr hn
  simp only [hf, hq, hn', Bool.not_true, ne_eq, not_true_eq_false, decide_false, Bool.or_false, Bool.false_eq_true, if_false,
    done_next up, Bool.and_eq_true, decide_eq_true_eq]
  rfl

/-- The entry that a queue serves next, as its take reads it. -/
def Run.readEntry {z : State} (r : Run z) (card : Nat) : Except XFault Nat × Run z :=
  (r.touchCard card).readIn (ctxX (r.touchCard card).s (cardCtx (r.touchCard card).s card))
    (cardAddr (r.touchCard card).s card 4 +
      64 * (bits (cardW (r.touchCard card).s card 9) 15 0 % 2 ^ bits (cardW (r.touchCard card).s card 8) 3 0)) 64

/-- An entry that was read enters flight, after its queue's head and its count in flight have gone on (R281, R283). -/
def Run.enterFlight {z : State} (r q : Run z) (card d : Nat) : Run z :=
  let m := r.touchCard card
  let head := bits (cardW m.s card 9) 15 0
  let ws := words32 16 d
  let st := descStatus q.s (cardCtx m.s card) ws
  let w := q.setHw card 9 ((head + 1) % 65536)
  let w := (w.setHw card 12 (cardW w.s card 12 + 1)).trace 0x10 0x0010 (card * 2 ^ 16 + head)
  w.addParcel {
    ctx := cardCtx m.s card, origin := .queue card head, desc := ws.map (BitVec.ofNat 32 ·)
    taken := w.s.timeAt tbSched, stage := if st = stOk then .waiting else .ending, status := st
    met0 := metAtTake w.s (ws.getD 10 0) (ws.getD 11 0), met1 := metAtTake w.s (ws.getD 12 0) (ws.getD 13 0) }

theorem takeEntry_of_read {z : State} (r : Run z) {card d : Nat} (h : (r.readEntry card).1 = .ok d) :
    r.takeEntry card = r.enterFlight (r.readEntry card).2 card d := by
  unfold Run.takeEntry
  show (match r.readEntry card with | (.error _, _) => _ | (.ok _, _) => _) = _
  generalize r.readEntry card = e at h
  obtain ⟨e, q⟩ := e
  obtain rfl : e = .ok d := h
  rfl

/-! ## The end of the wait (R81, R284, R285) -/

section
variable {s : State} {i : Nat} {p : Parcel}

/-- A parcel whose waits are met starts, as a reflex group or as a kernel. -/
theorem parcelWaitEnd_exec (up : s.halted = false) (hp : s.parcel? i = some p) (hf : fwRuns s 0 = true)
    (hw : p.stage = .waiting) (hm : waitsMet p = true) (hh : workHeld s = false) (hs : sessionHolds s p.ctx = false) :
    exec (.parcelWaitEnd i) s = .next (if isReflex p
      then ((Run.start s).trace 0x10 0x0011 (match p.origin with | .queue _ x => x | _ => 0)).rfxStart i p
      else (((Run.start s).trace 0x10 0x0011 (match p.origin with | .queue _ x => x | _ => 0)).dispatchKernel i p).noteDegraded).s := by
  show execParcelWaitEnd i s = _
  unfold execParcelWaitEnd
  simp only [hp, hf, hw, hm, hh, hs, Bool.not_true, ne_eq, not_true_eq_false, decide_false, Bool.or_false, Bool.false_eq_true,
    if_false, done_next up] <;> rfl

theorem parcelWaitTimeout_exec (up : s.halted = false) (hp : s.parcel? i = some p) (hf : fwRuns s 0 = true)
    (hw : p.stage = .waiting) (hm : waitsMet p = false) (hd : p.taken + (p.desc.getD 9 0).toNat * 1000 < s.timeAt tbSched) :
    exec (.parcelWaitTimeout i) s = .next (((Run.start s).trace 0x10 0x0011
      (stTimeout * 2 ^ 16 + (match p.origin with | .queue _ x => x | _ => 0))).endParcel i stTimeout).s := by
  show execParcelWaitTimeout i s = _
  unfold execParcelWaitTimeout
  simp only [hp, hf, hw, hm, hd, Bool.not_false, decide_true, Bool.and_true, if_true, done_next up] <;> rfl

/-- A kernel's header, as its dispatch reads it. -/
def Run.readHeader {z : State} (r : Run z) (p : Parcel) : Except XFault Nat × Run z :=
  (r.noteUe (ctxX r.s p.ctx) ((p.desc.getD 2 0).toNat + 2 ^ 32 * (p.desc.getD 3 0).toNat) 16).readIn (ctxX r.s p.ctx)
    ((p.desc.getD 2 0).toNat + 2 ^ 32 * (p.desc.getD 3 0).toNat) 16

/-- A kernel's dispatch where its header is as R81 says, its statistics block's control word is in order, and its grid holds a
gang. -/
theorem dispatchKernel_of_header {z : State} (r : Run z) {hdr ntd nb nreg : Nat} (hr : (r.readHeader p).1 = .ok hdr)
    (hk : kernelHeader hdr = some (ntd, nb, nreg)) (hg : p.desc.getD 8 0 ≠ 0)
    (hst : statsVa p ≠ 0 → bits (statWord (r.readHeader p).2.s p 0) 30 21 = 0 ∧
      bits (statWord (r.readHeader p).2.s p 0) 15 0 = 0) :
    r.dispatchKernel i p =
      let p' := { p with stage := .running, ntd := ntd, nbanks := nb, nreg := nreg }
      ((r.readHeader p).2.setParcel i p').withStats i p' fun r => r.zeroStats p' false := by
  unfold Run.dispatchKernel
  show (match r.readHeader p with | (.error _, _) => _ | (.ok _, _) => _) = _
  dsimp only
  generalize r.readHeader p = e at hr hst
  obtain ⟨e, q⟩ := e
  obtain rfl : e = .ok hdr := hr
  have hbad : (decide (statsVa p ≠ 0) &&
      (decide (bits (statWord q.s p 0) 30 21 ≠ 0) || decide (bits (statWord q.s p 0) 15 0 ≠ 0))) = false := by
    by_cases h : statsVa p = 0
    · simp [h]
    · simp [hst h]
  simp only [hk, hbad, hg, Bool.false_eq_true, if_false]

end

/-! ## Permits (R438 to R441) -/

section
variable {z : State}

/-- A wait that counts changes its two counters, and nothing else but the Ledger's note of waits. -/
theorem countWait_reg (r : Run z) (q : PermitReq) {k : Nat} (h : k ≠ pwrReg 0x320) (h' : k ≠ pwrReg 0x324) :
    (r.countWait q).s.reg k = r.s.reg k := by
  unfold Run.countWait
  refine (Run.when_keep (fun s => s.reg k) _ (reg_setRegN_ne _ _ h')).trans ?_
  exact reg_setRegN_ne _ _ h

theorem countWait_rest (r : Run z) (q : PermitReq) : (r.countWait q).s =
    { r.s with regs := (r.countWait q).s.regs, ledger := { r.s.ledger with waited := (r.countWait q).s.ledger.waited } } := by
  unfold Run.countWait Run.when
  dsimp only
  split <;> rfl

end

/-- The Ledger as it has granted its oldest request: the price is taken from the bucket, and the grant and its wait count. -/
def grantRun (s : State) (q : PermitReq) (rest : List PermitReq) : Run s :=
  let r := (Run.start s).put (.ledger { s.ledger with
    reqs := rest, grantUs := s.now / 1000, grants := (if s.ledger.grantUs = s.now / 1000 then s.ledger.grants else 0) + 1 })
  ((r.setRegN (pwrReg 0x30C) ((s.reg (pwrReg 0x30C)).toNat - permitPrice q.eclass)).setReg64 (pwrReg 0x318)
    (s.reg64 (pwrReg 0x318) + 1)).countWait q

section
variable {s : State} (q : PermitReq) (rest : List PermitReq)

theorem grantRun_rest : (grantRun s q rest).s = { s with
    regs := (grantRun s q rest).s.regs
    ledger := { s.ledger with
      reqs := rest, grantUs := s.now / 1000, grants := (if s.ledger.grantUs = s.now / 1000 then s.ledger.grants else 0) + 1
      waited := (grantRun s q rest).s.ledger.waited } } := by
  unfold grantRun
  dsimp only
  generalize (s.reg (pwrReg 0x30C)).toNat - permitPrice q.eclass = v
  generalize s.reg64 (pwrReg 0x318) + 1 = w
  generalize (if s.ledger.grantUs = s.now / 1000 then s.ledger.grants else 0) + 1 = n
  rw [countWait_rest]
  rfl

/-- What a grant leaves in the bucket. -/
theorem grantRun_bucket (hs : s.regsWf) : ((grantRun s q rest).s.reg (pwrReg 0x30C)).toNat =
    (s.reg (pwrReg 0x30C)).toNat - permitPrice q.eclass := by
  unfold grantRun
  dsimp only
  rw [countWait_reg _ q (by decide) (by decide), reg_setReg64_ne _ _ (by decide) (by decide), reg_setRegN_self _ hs,
    BitVec.toNat_ofNat]
  exact Nat.mod_eq_of_lt (lt_of_le_of_lt (Nat.sub_le _ _) (s.reg (pwrReg 0x30C)).isLt)

/-- A grant counts. -/
theorem grantRun_count (hs : s.regsWf) : (grantRun s q rest).s.reg64 (pwrReg 0x318) = (s.reg64 (pwrReg 0x318) + 1) % 2 ^ 64 := by
  unfold grantRun
  dsimp only
  rw [State.reg64, countWait_reg _ q (by decide) (by decide), countWait_reg _ q (by decide) (by decide), ← State.reg64]
  exact reg64_setReg64 ((Upd.reg _ _).keeps_regsWf _ hs) _ _

end

theorem setParcel_rest {z s : State} (r : Run z) {regs : SMap W32} {ledger : Ledger} (h : r.s = { s with regs := regs, ledger := ledger })
    {i : Nat} {p : Parcel} : (r.setParcel i p).s =
      { s with regs := regs, ledger := ledger, sched := { s.sched with parcels := SMap.insert s.sched.parcels i p } } := by
  show Upd.apply (.sched { r.s.sched with parcels := SMap.insert r.s.sched.parcels i p }) r.s = _
  rw [h]
  rfl

/-- A grant of the oldest request, where the bucket, the rate and the cluster's clock allow. -/
theorem permitGrant_exec {s : State} {q : PermitReq} {rest : List PermitReq} {p : Parcel} (up : s.halted = false)
    (hq : s.ledger.reqs = q :: rest) (hn : (if s.ledger.grantUs = s.now / 1000 then s.ledger.grants else 0) < 24)
    (hl : permitPrice q.eclass ≤ (s.reg (pwrReg 0x30C)).toNat) (hc : stretched s (q.core / 12) = false)
    (hp : s.parcel? q.parcel = some p) :
    exec .permitGrant s =
      .next ((grantRun s q rest).setParcel q.parcel { p with permits := p.permits ++ [q.core] }).s := by
  show execPermitGrant s = _
  unfold execPermitGrant
  simp only [hq, Nat.not_le.mpr hn, Nat.not_lt.mpr hl, hc, decide_false, Bool.or_false, Bool.false_eq_true, if_false]
  show (match (grantRun s q rest).s.parcel? q.parcel with | some _ => _ | none => _) = _
  rw [show (grantRun s q rest).s.parcel? q.parcel = s.parcel? q.parcel by rw [grantRun_rest]; rfl, hp]
  exact done_next up

/-- A first gang that waits too long ends its parcel (R441). -/
theorem permitTimeout_exec {s : State} {i : Nat} {p : Parcel} (up : s.halted = false) (hp : s.parcel? i = some p)
    (hst : p.stage = .running) (hn : p.next = 0) (hr : p.retired = 0) (ha : p.again = []) (hm : p.permits = [])
    (hl : ∃ q ∈ s.ledger.reqs, q.parcel = i ∧ q.since + 1000 * s.fld (pwrReg 0x314) 15 0 < s.now) :
    exec (.permitTimeout i) s =
      .next (((Run.start s).withdraw fun q => q.parcel = i).bump (pwrReg 0x328) |>.endParcel i stNoPermit).s := by
  have late : (s.ledger.reqs.any fun q => q.parcel = i && decide (s.now > q.since + 1000 * s.fld (pwrReg 0x314) 15 0)) = true := by
    obtain ⟨q, hq, hqi, hlt⟩ := hl
    exact List.any_eq_true.mpr ⟨q, hq, (Bool.and_eq_true _ _).mpr ⟨decide_eq_true hqi, decide_eq_true hlt⟩⟩
  show execPermitTimeout i s = _
  unfold execPermitTimeout
  simp only [hp, hst, hn, hr, ha, hm, late, List.isEmpty_nil, decide_true, Bool.and_true, if_true, done_next up]

/-! ## The events -/

/-- Settles O41: each event by its conditions. -/
theorem parcelEvents : Obligations.ParcelEvents := by
  refine ⟨⟨fun card n s up ⟨hf, hq, hlt, hn⟩ => ?take, fun card d => ?entry, fun i p hdr ntd nb nreg => ?dispatch,
    fun s card => nextQueue_spec, fun i p => ⟨?wait, ?timeout, fun card idx ho => ?complete⟩⟩,
    fun q rest p n s up hs ⟨hq, hn, hlt, hl, hc, hp⟩ => ?grant, fun i p => ?late⟩
  case take =>
    have hn : n = takesNow s := hn
    subst hn
    exact parcelTake_exec up hf hq hlt
  case entry =>
    intro due marked head read
    refine .intro fun s up ⟨⟨hf, hq, hlt⟩, hr⟩ => ⟨_, parcelTake_exec up hf hq hlt, ?_⟩
    exact takeEntry_of_read ((Run.start s).noteTake card) hr
  case dispatch =>
    intro slot va read
    refine .intro fun s up ⟨hp, hf, hw, hm, hh, hs, hx, hr, hk, hg, hst⟩ => ⟨_, parcelWaitEnd_exec up hp hf hw hm hh hs, ?_⟩
    rw [hx, if_neg Bool.false_ne_true]
    exact congrArg Run.noteDegraded (dispatchKernel_of_header _ hr hk hg hst)
  case wait =>
    exact .intro fun s up ⟨hp, hf, hw, hm, hh, hs⟩ => ⟨_, parcelWaitEnd_exec up hp hf hw hm hh hs, rfl⟩
  case timeout =>
    exact .intro fun s up ⟨hp, hf, hw, hm, hd⟩ => ⟨_, parcelWaitTimeout_exec up hp hf hw hm hd, rfl⟩
  case complete =>
    refine .intro fun s up ⟨hp, hf, he⟩ => ⟨_, ?_, rfl⟩
    show execParcelComplete i s = _
    unfold execParcelComplete
    simp only [hp, ho, hf, he, Bool.not_true, Bool.or_false, Bool.false_eq_true, if_false, done_next up]
  case grant =>
    subst hn
    refine ⟨_, permitGrant_exec up hq hlt hl hc hp, grantRun_bucket q rest hs.regs, grantRun_count q rest hs.regs, ?_⟩
    rw [setParcel_rest _ (grantRun_rest q rest)]
    exact ⟨rfl, rfl, rfl, (SMap.find?_insert _ _ _ _).trans (if_pos rfl), rfl⟩
  case late =>
    exact .intro fun s up ⟨hp, hst, hn, hr, ha, hm, hl⟩ => ⟨_, permitTimeout_exec up hp hst hn hr ha hm hl, rfl⟩

end Sys2Proof.Machine
end


section
/-! PROOFS. Mailboxes (R292, R308, R317) and the restarts and the update of firmware (R300 to R307). -/

namespace Sys2Proof.Machine

/-! ## Mailboxes -/

section
variable {s : State} {n : Nat}

/-- The transmit slot that is taken next, as its take reads it, after the queue's index and its doorbells have gone on (R308). -/
def Run.readTxSlot {z : State} (r : Run z) (s : State) (n : Nat) : Except XFault Nat × Run z :=
  let taken := bits (cardW s n 10) 31 16
  let r := (r.touchCard n).setHw n 10 ((taken + 1) % 65536 * 65536 + bits (cardW s n 10) 15 0)
  let bells := SMap.get [] s.sched.bells n
  let left := if (bells.getD 0 (0, 0)).1 = (taken + 1) % 65536 then bells.drop 1 else bells
  (r.put (.sched { r.s.sched with bells := SMap.set [] r.s.sched.bells n left })).readBlock (ctxX s (cardCtx s n))
    (cardAddr s n 6 + 2 ^ bits (cardW s n 8) 11 8 * (taken % 2 ^ bits (cardW s n 8) 7 4)) (2 ^ bits (cardW s n 8) 11 8)

/-- The stamp of the oldest doorbell whose slots are not all taken, or now (R308). -/
def bellStamp (s : State) (n : Nat) : Nat :=
  match SMap.get [] s.sched.bells n with
  | b :: _ => b.2
  | [] => s.now

/-- The message of a slot that has been read passes the checks of R320, or is rejected. -/
def Run.receiveTxSlot {z : State} (r : Run z) (s : State) (n v : Nat) : Run z :=
  let slot := 2 ^ bits (cardW s n 8) 11 8
  let bs := leBytes slot v
  let h := Hdr.parse (slice bs 16 (slot - 16))
  if le bs 0 2 > slot - 16 ∨ le bs 0 2 ≠ 32 + h.length then (r.countMhy 0x4010).mhyReject { bind := .mailbox n } h stBadLength
  else r.mhyReceive { bind := .mailbox n } (bellStamp s n) (slice bs 16 (le bs 0 2)) 1

/-- A slot that a doorbell covers is taken, and its message received. -/
theorem mailboxTxTake_exec (up : s.halted = false) (hk : cardKind s n = 7) (ha : cardActive s n = true) (hw : awake s = true)
    (ht : bits (cardW s n 10) 31 16 ≠ bits (cardW s n 10) 15 0) : exec (.mailboxTxTake n) s = .next (Run.cardEvent
      (match (Run.start s).readTxSlot s n with
        | (.error _, r) => r
        | (.ok v, r) => r.receiveTxSlot s n v) n).s := by
  show execMailboxTxTake n s = _
  unfold execMailboxTxTake
  dsimp only
  simp only [hk, ha, hw, ht, ne_eq, not_true_eq_false, decide_false, Bool.not_true, Bool.or_false, Bool.false_eq_true, if_false,
    done_next up, Run.receiveTxSlot, Run.readTxSlot, bellStamp]
  generalize Run.readBlock _ _ _ _ = e
  obtain ⟨e, q⟩ := e
  cases e with
  | error f => rfl
  | ok v => simp only [Bool.or_eq_true, decide_eq_true_eq, decide_not, Bool.not_eq_true', decide_eq_false_iff_not] <;> rfl

end

/-- Settles O43: a delivery, and a take, by its checks. -/
theorem mailboxEvents : Obligations.MailboxEvents := by
  refine ⟨fun n o => ?deliver, fun n => ?take⟩
  case deliver =>
    intro m slot idx cut pre put s r up ho hk ha hw hroom hput
    show execMailboxDeliver n s = _
    unfold execMailboxDeliver
    dsimp only
    rw [ho]
    have hroom' : ¬ _ ≥ _ := Nat.not_le.mpr hroom
    dsimp only [put, pre, m, slot, idx, cut] at hput hroom' hk ha hw ⊢
    simp only [decide_eq_true_eq] at hput ⊢
    simp only [hk, ha, hw, hroom', gt_iff_lt, hput, done_next up, ne_eq, not_true_eq_false, decide_false, Bool.not_true,
      Bool.or_false, Bool.false_eq_true, if_false, Run.when, decide_eq_true_eq]
  case take =>
    intro idx taken slot va bells stamp q due
    have at_ : ∀ {s}, q s (Run.start s) = (Run.start s).readTxSlot s n := rfl
    refine ⟨fun f => .intro fun s up ⟨⟨hk, ha, hw, ht⟩, he⟩ => ⟨_, mailboxTxTake_exec up hk ha hw ht, ?_⟩, fun w bs h => ?_⟩
    · rw [at_] at he ⊢
      generalize (Run.start s).readTxSlot s n = e at he
      obtain ⟨e, r⟩ := e
      obtain rfl : e = .error f := he
      rfl
    intro got fits
    refine ⟨.intro fun s up ⟨⟨⟨hk, ha, hw, ht⟩, he, hbs, hh⟩, hf⟩ => ⟨_, mailboxTxTake_exec up hk ha hw ht, ?_⟩,
      .intro fun s up ⟨⟨⟨hk, ha, hw, ht⟩, he, hbs, hh⟩, hf⟩ => ⟨_, mailboxTxTake_exec up hk ha hw ht, ?_⟩⟩
    all_goals
      rw [at_] at he ⊢
      generalize (Run.start s).readTxSlot s n = e at he
      obtain ⟨e, r⟩ := e
      obtain rfl : e = .ok w := he
      subst hbs hh
    · obtain ⟨h1, h2⟩ := hf
      exact congrArg (Run.cardEvent · n) (if_neg fun h => h.elim (Nat.not_lt.mpr h1) fun h => h h2)
    · exact congrArg (Run.cardEvent · n) (if_pos ((Decidable.not_and_iff_or_not.mp hf).imp Nat.not_le.mp id))

/-! ## Firmware (R300 to R307) -/

/-- The order in which restarts that wait begin: by their stamps, and at one stamp by the processor (R302). -/
def FwReq.before (x y : FwReq) : Prop := x.at_ < y.at_ ∨ x.at_ = y.at_ ∧ x.p ≤ y.p

theorem mem_fwEnqueue (q x : FwReq) (xs : List FwReq) : x ∈ fwEnqueue q xs ↔ x = q ∨ x ∈ xs := by
  induction xs with
  | nil => rw [fwEnqueue, List.mem_singleton]; simp
  | cons y ys ih =>
    unfold fwEnqueue
    split
    · exact List.mem_cons
    · rw [List.mem_cons, ih, List.mem_cons]
      exact or_left_comm

/-- A request that takes its place keeps the requests in their order, where none has a later stamp. -/
theorem pairwise_fwEnqueue {q : FwReq} {xs : List FwReq} (h : xs.Pairwise FwReq.before) (hq : ∀ x ∈ xs, x.at_ ≤ q.at_) :
    (fwEnqueue q xs).Pairwise FwReq.before := by
  induction xs with
  | nil => exact List.pairwise_singleton _ _
  | cons y ys ih =>
    obtain ⟨hy, hys⟩ := List.pairwise_cons.mp h
    unfold fwEnqueue
    split
    · next hc =>
      obtain ⟨hat, hp⟩ := (Bool.and_eq_true _ _).mp hc
      have hat := of_decide_eq_true hat
      have hp := of_decide_eq_true hp
      refine List.pairwise_cons.mpr ⟨fun x hx => ?_, h⟩
      rcases List.mem_cons.mp hx with rfl | hx
      · exact .inr ⟨hat.symm, Nat.le_of_lt hp⟩
      · have := hq x (.tail _ hx)
        rcases hy x hx with h | ⟨h, h'⟩
        · omega
        · exact .inr ⟨by omega, by omega⟩
    · next hc =>
      refine List.pairwise_cons.mpr ⟨fun x hx => ?_, ih hys fun x hx => hq x (.tail _ hx)⟩
      rcases (mem_fwEnqueue q x ys).mp hx with rfl | hx
      · have hle := hq y (.head _)
        rcases Nat.lt_or_eq_of_le hle with h | h
        · exact .inl h
        · refine .inr ⟨h, Nat.not_lt.mp fun hp => hc ?_⟩
          rw [decide_eq_true h, decide_eq_true hp]
          rfl
      · exact hy x hx

theorem fwNext_none {z : State} {r : Run z} (h : (r.s.fw.queue.find? fun q => fwFree r.s q.p) = none) (fuel : Nat) :
    r.fwNext fuel = r := by
  cases fuel with
  | zero => rfl
  | succ fuel => unfold Run.fwNext; rw [h]

theorem fwNext_some {z : State} {r : Run z} {q : FwReq} (h : (r.s.fw.queue.find? fun q => fwFree r.s q.p) = some q) (fuel : Nat) :
    r.fwNext (fuel + 1) =
      ((r.setFw { r.s.fw with queue := r.s.fw.queue.erase q }).fwBegin q.p q.cause q.forced).fwNext fuel := by
  rw [Run.fwNext, h]
  rfl

/-- An image that is written to the boot flash leaves the firmware's own state as it was. -/
theorem flashWrite_fw {s : State} (ctx : Option Nat) (a n b : Nat) (bs : List Byte) :
    (((Run.start s).markStage ctx a n).setBytes b bs).s.fw = s.fw := by
  have h : Via MemUpd s ((Run.start s).markStage ctx a n).s := by
    unfold Run.markStage
    split
    · exact Via.mem_markRange (r := Run.start s) .refl _ _ _ _
    · exact .refl
  exact (h.mem_setBytes b bs).mem_keep (·.fw) fun _ _ => rfl

/-- What the end of a flash write does: a digest that differs ends the update, as the recovery's own update ends, and the take-up
begins otherwise (R306, R307, R469). -/
theorem fwFlashWriteEnd_exec {s : State} {u : FwUpdate} (up : s.halted = false) (hu : s.fw.update = some u)
    (hw : u.written = false) (hr : (fwRuns s 4 || s.sec.recovery) = true) :
    let bs := stageBytes s u.ctx u.image u.len
    let r := ((Run.start s).markStage u.ctx u.image u.len).setBytes flashBase bs
    exec .fwFlashWriteEnd s = .next (
      if Config.shake256 bs ≠ u.digest then
        (r.setFw { s.fw with update := none, flashBad := true }).mhyReply u.session u.seq stDenied []
      else if s.sec.recovery = true then
        (r.setFw { s.fw with update := none, flashBad := false }).mhyReply u.session u.seq stOk []
      else (r.setFw { s.fw with
        update := some { u with written := true, order := [2, 1, 3, 0, 4] }, flashBad := false }).updateNext).s := by
  intro bs r
  have hf : r.s.fw = s.fw := flashWrite_fw _ _ _ _ _
  show execFwFlashWriteEnd s = _
  unfold execFwFlashWriteEnd
  simp only [hu, hw, hr, Bool.not_true, Bool.or_false, Bool.false_eq_true, if_false]
  show (if Config.shake256 bs ≠ u.digest then done ((r.setFw _).mhyReply _ _ _ _) else _) = _
  rw [hf]
  split
  · exact done_next up
  · split
    · exact done_next up
    · exact done_next up

/-- Settles O44: each event by its conditions, and the order of the restarts that wait. -/
theorem firmwareEvents : Obligations.FirmwareEvents := by
  refine ⟨fun p c hp => ⟨?restart, ?held, ?watchdog⟩, fun z r fuel => ⟨fun h => fwNext_none h fuel, fun q h => fwNext_some h fuel⟩,
    fun q xs h hq => ⟨pairwise_fwEnqueue h hq, fun x => mem_fwEnqueue q x xs⟩, fun u bs => ?flash⟩
  case restart =>
    refine .intro fun s up ⟨h1, h2, h3, h4⟩ => ⟨_, ?_, rfl⟩
    show execFwpRestartEnd p s = _
    unfold execFwpRestartEnd
    have h2' : (p ≠ 4 && fwState s 4 ≠ 0) = false := by
      by_cases h : p = 4
      · simp [h]
      · simp [h2 h]
    simp only [h1, h2', h3, h4, gt_iff_lt, Nat.not_lt.mpr hp, ne_eq, not_true_eq_false, decide_false, Bool.or_false,
      Bool.not_true, Bool.false_eq_true, if_false, done_next up]
  case held =>
    refine fun s up _ ⟨h1, h2⟩ => ⟨s, ?_, rfl⟩
    show execFwpRestartEnd p s = _
    unfold execFwpRestartEnd
    dsimp only
    split
    · exact done_next up
    · next hc =>
      rcases h2 with h | ⟨h, h'⟩ | ⟨h, h'⟩
      · rw [h]; exact done_next up
      · exact absurd (by simp [h, h']) hc
      · rw [h]; simp only [h', Bool.not_false, if_true]; exact done_next up
  case watchdog =>
    refine .intro fun s up ⟨h1, h2⟩ => ⟨_, ?_, rfl⟩
    show execWatchdogExpiry p s = _
    unfold execWatchdogExpiry
    simp only [h1, h2, hp, decide_true, Bool.and_true, if_true, done_next up]
  case flash =>
    intro ok w
    refine ⟨.intro fun s up ⟨⟨h1, h2, h3⟩, h4, h5⟩ => ⟨_, fwFlashWriteEnd_exec up h1 h2 ((Bool.or_eq_true _ _).mpr h4), ?_⟩,
      .intro fun s up ⟨⟨h1, h2, h3⟩, h4, h5⟩ => ⟨_, fwFlashWriteEnd_exec up h1 h2 ((Bool.or_eq_true _ _).mpr (.inr h4)), ?_⟩,
      .intro fun s up ⟨⟨h1, h2, h3⟩, h4, h5, h6⟩ =>
        ⟨_, fwFlashWriteEnd_exec up h1 h2 ((Bool.or_eq_true _ _).mpr (.inl h4)), ?_⟩⟩
    all_goals subst h3
    · exact if_pos h5
    · exact (if_neg fun h => h h5).trans (if_pos h4)
    · exact (if_neg fun h => h h6).trans (if_neg (by rw [h5]; decide))

end Sys2Proof.Machine
end


section
/-! PROOFS. The key-value store (R205 to R220), and what a store of bytes by a block leaves as it was. -/

namespace Sys2Proof.Machine

/-! ## Stores by a block -/

/-- The updates that a store may lead to: those of an error's count, parity of memories inside a unit, and a record that is owed to
the Fence Ledger. -/
def StoreUpd : Upd → Prop
  | .fw _ | .fix _ => True
  | u => ErrorUpd u

theorem StoreUpd.of_error {u : Upd} (h : ErrorUpd u) : StoreUpd u := by
  cases u with
  | fw _ => trivial
  | fix _ => trivial
  | _ => exact h

theorem StoreUpd.of_mem {u : Upd} (h : MemUpd u) : StoreUpd u := by
  cases u with
  | mem _ _ => trivial
  | _ => exact h.elim

section
variable {z s : State} {r : Run z}

namespace Via

/-- A part that keeps to some kinds of update from where it begins keeps to them from where the whole began. -/
theorem step {P Q : Upd → Prop} {t : State} (h : Via P s r.s) (g : Via Q r.s t) (hQ : ∀ u, Q u → P u) : Via P s t :=
  h.trans (g.mono hQ)

theorem store_mergeWeak (h : Via StoreUpd s r.s) (cells : List (Nat × Byte)) : Via StoreUpd s (r.mergeWeak cells).s :=
  h.each fun w _ r h => .ite (fun _ => h.put (u := .vault _) trivial) fun _ =>
    h.step (Via.refl.correct (r := r) (w.1 * 32)) fun _ => .of_error

theorem store_stackError (h : Via StoreUpd s r.s) (pa : Nat) : Via StoreUpd s (r.stackError pa).s :=
  .ite (fun _ => h) fun _ => (h.put (u := .vault _) trivial).when _ fun _ h => h.put (u := .fix _) trivial

theorem store_countUe (h : Via StoreUpd s r.s) (pa : Nat) : Via StoreUpd s (r.countUe pa).s :=
  .ite (fun _ => h.store_stackError pa) fun _ => .ite (fun _ => h) fun _ =>
    h.step (((Via.refl.setReg64 (r := r) _ _).put (u := .vault _) trivial).countErr _ _ _) fun _ => .of_error

theorem store_countUeWrite (h : Via StoreUpd s r.s) (pa : Nat) : Via StoreUpd s (r.countUeWrite pa).s :=
  (h.store_countUe pa).put (u := .reg _ _) trivial

theorem foldl {P : Upd → Prop} {α : Type} {l : List α} {f : Run z → α → Run z} (h : Via P s r.s)
    (hf : ∀ r : Run z, ∀ a ∈ l, Via P s r.s → Via P s (f r a).s) : Via P s (l.foldl f r).s :=
  each (f := fun a r => f r a) h fun a ha r => hf r a ha

/-- A store of bytes at physical addresses. -/
theorem store_storePhys (h : Via StoreUpd s r.s) (cells : List (Nat × Byte)) : Via StoreUpd s (r.storePhys cells).s := by
  have hp : Via StoreUpd s ((r.mergeWeak cells).clearParity cells).s :=
    .ite (fun _ => h.store_mergeWeak cells) fun _ => (h.store_mergeWeak cells).put (u := .fw _) trivial
  unfold Run.storePhys
  dsimp only
  refine (hp.when _ fun _ h => h.put (u := .reg _ _) trivial).foldl fun r c _ h => ?_
  have ht : Via StoreUpd s (r.prismTouch (c.1 / 4096)).s :=
    .ite (fun _ => h) fun _ => h.when _ fun _ h => h.put (u := .core _ _) trivial
  refine .ite (fun _ => ht) fun _ => .ite (fun _ => ht.put (u := .mem _ _) trivial) fun _ => ?_
  exact .ite (fun _ => (ht.put (u := .vault _) trivial).put (u := .mem _ _) trivial) fun _ =>
    .ite (fun _ => ht) fun _ => .ite (fun _ => ht) fun _ => ht.store_countUeWrite _

theorem store_markRange (h : Via StoreUpd s r.s) (c : XCtx) (k : Access) (va n : Nat) : Via StoreUpd s (r.markRange c k va n).s :=
  h.step (Via.refl.mem_markRange (r := r) c k va n) fun _ => .of_mem

theorem store_scrubWalk (h : Via StoreUpd s r.s) (c : XCtx) (va : Nat) : Via StoreUpd s (r.scrubWalk c va).s :=
  h.step (Via.refl.scrubWalk (r := r) c va) fun _ => .of_error

theorem store_tryWrite (h : Via StoreUpd s r.s) (c : XCtx) (va n v : Nat) : Via StoreUpd s (r.tryWrite c va n v).s := by
  unfold Run.tryWrite
  split
  · next q hq =>
    unfold Run.writeVirt at hq
    split at hq
    · cases hq
    · cases hq
      exact ((h.store_scrubWalk c va).store_markRange c .store va n).store_storePhys _
  · exact h

/-- What a store cannot change is as it was: what is kept by memory, registers, errors and parity. -/
theorem store_kv {t : State} (h : Via StoreUpd s t) : t.kv = s.kv :=
  h.keep (·.kv) fun u hu x => by
    cases u with
    | kv _ => exact hu.elim
    | gang _ g => cases g <;> rfl
    | _ => rfl

end Via

end

/-! ## The ring (R210, R211) -/

section
variable {z : State}

/-- Taking an entry of the ring leaves the requests that wait. -/
theorem kvPopped_waiting (r : Run z) : (kvPopped r).s.kv.waiting = r.s.kv.waiting := by
  have h : ((r.markRange (ctxX r.s 0) .load (kvHeadVa r.s) 32).tryWrite (ctxX r.s 0) (kvHeadVa r.s) 4 0).s.kv = r.s.kv :=
    ((Via.refl.store_markRange (r := r) _ _ _ _).store_tryWrite _ _ _ _).store_kv
  unfold kvPopped
  dsimp only
  have hw := congrArg Kv.waiting h
  split
  · exact hw
  · exact hw

/-- The memory processor takes the next entry of the ring where it holds a request that the caller serves. -/
theorem kvTake_of {s : State} {mine : Nat → Bool} {serve : KvReq → Nat → Run s → Run s} (hf : fwRuns s 1 = true)
    (he : s.fld (pidxReg 8) 31 31 = 1) (hw : s.kv.awake = true) (ho : (kvRequest s).op ≠ 0) (hm : mine (kvRequest s).op = true) :
    (Run.start s).kvTake mine serve = serve (kvRequest s) (kvHead s) (kvPopped (Run.start s)) := by
  unfold Run.kvTake
  refine (if_neg ?_).trans ?_
  · show ¬ (!fwRuns s 1 || s.fld (pidxReg 8) 31 31 = 0 || !s.kv.awake || (kvRequest s).op = 0 || !mine (kvRequest s).op) = true
    rw [hf, he, hw, hm, decide_eq_false ho]
    decide
  · unfold kvPopped Run.when
    dsimp only
    congr 1
    simp only [decide_eq_true_eq]

/-- A request that names a sequence is served, or waits behind those that wait on it. -/
theorem kvQueue_eq (q : KvReq) (e : Nat) (r : Run z) : Run.kvQueue q e r = kvOnSequence q e r := by
  have hb : (Run.kvRsv e || decide (q.op > 8)) =
      decide (bits e 23 12 ≠ 0 ∨ bits e 222 208 ≠ 0 ∨ e / 2 ^ 224 ≠ 0 ∨ 8 < q.op) := by
    unfold Run.kvRsv
    simp only [Bool.decide_or, Bool.or_assoc, gt_iff_lt]
  unfold Run.kvQueue kvOnSequence
  dsimp only
  rw [hb]
  simp only [List.any_eq_true, decide_eq_true_eq]

variable {c : Instr} {mine : Nat → Bool}

/-- A command that takes a request on a sequence. -/
theorem kvRow_of_exec {P : Nat → Prop} (he : ∀ s, exec c s = done ((Run.start s).kvTake mine Run.kvQueue))
    (hm : ∀ op, P op → mine op = true) : KvRow c P kvOnSequence := by
  intro s up hf hen hw ho hp
  rw [he, kvTake_of hf hen hw ho (hm _ hp), done_next up, kvQueue_eq]

/-- A request on a sequence that none waits on, with its RSV bits 0, is served. -/
theorem kvDone_of_serve {op : Nat} {ok : {z : State} → KvReq → Run z → Prop} {out : {z : State} → KvReq → Run z → Run z}
    (he : ∀ s, exec c s = done ((Run.start s).kvTake mine Run.kvQueue)) (hm : mine op = true) (h0 : op ≠ 0)
    (hs : ∀ (z : State) (r : Run z) (q : KvReq), q.op = op → q.bad = false → ok q r →
      r.kvServe { q with bad := decide (8 < q.op) } = out q r) : KvDone c op ok out := by
  intro s up hf hen hw ho h1 h2 h3 hwait hok
  rw [kvRow_of_exec (P := (· = op)) he (fun _ h => h ▸ hm) s up hf hen hw (ho ▸ h0) ho]
  unfold kvOnSequence
  dsimp only
  rw [kvPopped_waiting, if_neg fun ⟨x, hx, hxs⟩ => hwait x hx hxs, h1, h2, h3]
  simp only [ne_eq, not_true_eq_false, false_or]
  rw [hs s _ (kvRequest s) ho rfl hok]

end

/-! ## Serving a request (R211 to R215, R219) -/

section
variable {z : State} (r : Run z) {q : KvReq}

theorem kvServe_bad (h : q.bad = true) : r.kvServe q = r.kvComplete q stKvBadRequest 0 := by
  unfold Run.kvServe
  rw [h]
  rfl

theorem kvServe_refused {st : Nat} (hb : q.bad = false) (hc : kvCheck r.s q = some st) : r.kvServe q = r.kvComplete q st 0 := by
  unfold Run.kvServe
  rw [hb, hc]
  rfl

/-- A COUNT of 0 in a reservation, a COMMIT or a DISCARD completes at once. -/
theorem kvServe_zero (hb : q.bad = false) (hc : kvCheck r.s q = none) (ho : 5 ≤ q.op) (hn : q.count = 0) :
    r.kvServe q = r.kvZero q := by
  unfold Run.kvServe
  rw [hb, hc]
  exact if_pos (by simp [ho, hn])

/-- A request that restores no residency, or whose sequence is resident, has its effect. -/
theorem kvServe_finish (hb : q.bad = false) (hc : kvCheck r.s q = none) (hn : 5 ≤ q.op → 0 < q.count)
    (hr : kvRestores q = true → seqTok r.s q.seq ≤ seqRes r.s q.seq) : r.kvServe q = r.kvFinish q := by
  unfold Run.kvServe
  rw [hb, hc]
  refine (if_neg ?_).trans (if_neg ?_)
  · simp only [Bool.and_eq_true, decide_eq_true_eq, not_and]
    exact fun h => Nat.ne_of_gt (hn h)
  · simp only [Bool.and_eq_true, decide_eq_true_eq, not_and, Nat.not_lt]
    exact hr

/-- A request that restores residency first takes every page it needs, or is refused. -/
theorem kvServe_restore (hb : q.bad = false) (hc : kvCheck r.s q = none) (hn : 5 ≤ q.op → 0 < q.count)
    (hr : kvRestores q = true) (ht : seqRes r.s q.seq < seqTok r.s q.seq) :
    r.kvServe q = (let all := missingPages r.s q.seq (kvTokens r.s q)
      if canCover r.s q.seq all.length = true then
        let fill := missingPages r.s q.seq (seqTok r.s q.seq)
        let w := ((r.evictFor q.seq all.length).allocPages q.seq fill true).allocPages q.seq
          (all.filter fun x => !fill.contains x) false
        ((w.setSeqState q.seq 2).startRecompute q.seq).kvHold q true
      else r.kvComplete q stKvNoPage 0) := by
  unfold Run.kvServe
  rw [hb, hc]
  refine (if_neg ?_).trans ((if_pos ?_).trans ?_)
  · simp only [Bool.and_eq_true, decide_eq_true_eq, not_and]
    exact fun h => Nat.ne_of_gt (hn h)
  · rw [hr, decide_eq_true ht]
    rfl
  · dsimp only
    cases canCover r.s q.seq (missingPages r.s q.seq (kvTokens r.s q)).length
    · rfl
    · rfl

/-! ### The checks (R214) -/

/-- The checks that a request of an operation on an open sequence meets. -/
theorem kvCheck_noSeq {s : State} (h : q.op ≠ 1) (h0 : seqState s q.seq = 0) : kvCheck s q = some stKvNoSeq := by
  unfold kvCheck
  rw [if_neg h, if_pos h0]

section
variable {s : State} (h0 : seqState s q.seq ≠ 0)
include h0

theorem kvCheck_close (h : q.op = 2) : kvCheck s q = if seqPins s q.seq > 0 then some stKvPinned else none := by
  unfold kvCheck
  rw [h, if_neg (by decide), if_neg h0]
  rfl

theorem kvCheck_pin (h : q.op = 3) : kvCheck s q = if seqPins s q.seq = 255 then some stBounds else none := by
  unfold kvCheck
  rw [h, if_neg (by decide), if_neg h0]
  rfl

theorem kvCheck_unpin (h : q.op = 4) : kvCheck s q = if seqPins s q.seq = 0 then some stBounds else none := by
  unfold kvCheck
  rw [h, if_neg (by decide), if_neg h0]
  rfl

theorem kvCheck_append (h : q.op = 5) : kvCheck s q =
    if q.count = 0 then none else if seqTent s q.seq > 0 then some stKvTentative
    else if seqTok s q.seq + seqTent s q.seq + q.count > 131072 then some stKvSeqLimit else none := by
  unfold kvCheck
  rw [h, if_neg (by decide), if_neg h0]
  rfl

theorem kvCheck_tappend (h : q.op = 6) : kvCheck s q =
    if q.count ≠ 0 ∧ seqTok s q.seq + seqTent s q.seq + q.count > 131072 then some stKvSeqLimit else none := by
  unfold kvCheck
  simp only [h, if_neg h0, Bool.and_eq_true, decide_eq_true_eq, OfNat.ofNat_ne_one, if_false]

theorem kvCheck_tentative (h : q.op = 7 ∨ q.op = 8) : kvCheck s q =
    if q.count > seqTent s q.seq then some stBounds else none := by
  unfold kvCheck
  rcases h with h | h
  · rw [h, if_neg (by decide), if_neg h0]
    rfl
  · rw [h, if_neg (by decide), if_neg h0]
    rfl

end

end

/-! ### The effects (R212, R215) -/

section
variable {z : State} (r : Run z) {q : KvReq}

theorem kvFinish_close (h : q.op = 2) : r.kvFinish q = (r.closeSeq q.seq).kvOk q q.seq 0 := by
  unfold Run.kvFinish
  rw [h]
  rfl

theorem kvFinish_pin (h : q.op = 3) :
    r.kvFinish q = (r.setSeqPins q.seq (seqPins r.s q.seq + 1)).kvOk q q.seq (seqTok r.s q.seq) := by
  unfold Run.kvFinish
  rw [h]
  rfl

theorem kvFinish_unpin (h : q.op = 4) (hp : 0 < seqPins r.s q.seq) : r.kvFinish q =
    (let w := r.setSeqPins q.seq (seqPins r.s q.seq - 1);
      (if seqPins r.s q.seq = 1 then w.freeEmpty q.seq else w).kvOk q q.seq (seqPins r.s q.seq - 1)) := by
  unfold Run.kvFinish Run.when
  rw [h]
  have : (seqPins r.s q.seq - 1 = 0) = (seqPins r.s q.seq = 1) := propext (by omega)
  simp only [decide_eq_true_eq, this]

theorem kvFinish_commit (h : q.op = 7) : r.kvFinish q =
    (((r.setSeqW q.seq 0x04 (seqTok r.s q.seq + q.count)).setSeqW q.seq 0x08 (seqTent r.s q.seq - q.count)).setSeqW q.seq 0x0C
      (seqTok r.s q.seq + q.count)).kvOk q q.seq (seqTok r.s q.seq + q.count) := by
  unfold Run.kvFinish
  rw [h]
  rfl

theorem kvFinish_discard (h : q.op = 8) : r.kvFinish q =
    (let w := (r.setSeqW q.seq 0x08 (seqTent r.s q.seq - q.count)).refreshUsed q.seq;
      (if seqPins w.s q.seq = 0 then w.freeEmpty q.seq else w).kvOk q q.seq (seqTent r.s q.seq - q.count)) := by
  unfold Run.kvFinish Run.when
  rw [h]
  simp only [decide_eq_true_eq]

/-- A reservation takes the pages it has not, where they suffice. -/
theorem kvFinish_reserve (h : q.op = 5 ∨ q.op = 6) : r.kvFinish q =
    (let pages := missingPages r.s q.seq (seqTok r.s q.seq + seqTent r.s q.seq + q.count)
      if canCover r.s q.seq pages.length = true then
        let r' := r.evictFor q.seq pages.length
        let w := if q.op = 5 then (r'.setSeqW q.seq 0x04 (seqTok r.s q.seq + q.count)).setSeqW q.seq 0x0C (seqTok r.s q.seq + q.count)
          else r'.setSeqW q.seq 0x08 (seqTent r.s q.seq + q.count)
        ((w.allocPages q.seq pages false).refreshUsed q.seq).kvOk q q.seq (seqTok r.s q.seq + seqTent r.s q.seq)
      else r.kvComplete q stKvNoPage 0) := by
  unfold Run.kvFinish
  dsimp only
  rcases h with h | h
  all_goals
    rw [h]
    cases canCover r.s q.seq (missingPages r.s q.seq (seqTok r.s q.seq + seqTent r.s q.seq + q.count)).length
    · rfl
    · rfl

theorem kvZero_eq (h : 5 ≤ q.op) (h' : q.op ≤ 8) : r.kvZero q = r.kvComplete q stOk
    (if q.op = 6 then seqTok r.s q.seq + seqTent r.s q.seq else if q.op = 8 then seqTent r.s q.seq else seqTok r.s q.seq) := by
  unfold Run.kvZero
  dsimp only
  split
  · next h5 => rw [h5]; rfl
  · next h6 => rw [h6]; rfl
  · next h7 => rw [h7]; rfl
  · next h5 h6 h7 =>
    have h8 : q.op = 8 := by
      have h5 : q.op ≠ 5 := h5
      have h6 : q.op ≠ 6 := h6
      have h7 : q.op ≠ 7 := h7
      omega
    rw [h8]
    rfl

end

/-! ## The statement's clauses -/

/-- OPEN takes its entry, checks its block and its record, and writes them (R212, R214). -/
theorem kvOpen_row : KvRow .kvOpen (· = 1) (fun q e r =>
    if bits e 23 12 ≠ 0 ∨ bits e 222 208 ≠ 0 ∨ e / 2 ^ 224 ≠ 0 ∨ q.seq ≠ 0 then r.kvComplete q stKvBadRequest 0
    else
      let m := r.markRange (ctxX r.s 0) .load q.addr 64
      match openBlock r.s q.addr with
      | none => m.kvComplete q stKvBadRequest 0
      | some w => m.kvOpenSeq q w) := by
  intro s up hf hen hw ho hp
  show execKvOpen s = _
  unfold execKvOpen
  rw [kvTake_of hf hen hw ho (decide_eq_true hp), done_next up]
  simp only [Run.kvRsv, Bool.or_eq_true, decide_eq_true_eq, or_assoc] <;> rfl

section
variable {z : State} (r : Run z) {q : KvReq}

/-- The requests that reserve: APPEND with no tentative token, and TAPPEND. -/
def KvReq.Reserves (q : KvReq) (s : State) : Prop := q.op = 5 ∧ seqTent s q.seq = 0 ∨ q.op = 6

theorem KvReq.Reserves.restores {s : State} (h : q.Reserves s) (hn : 0 < q.count) : kvRestores q = true := by
  unfold kvRestores
  rcases h with ⟨h, -⟩ | h
  · simp [h, Nat.ne_of_gt hn]
  · simp [h, Nat.ne_of_gt hn]

theorem KvReq.Reserves.op {s : State} (h : q.Reserves s) : q.op = 5 ∨ q.op = 6 := h.imp And.left id

theorem KvReq.Reserves.tokens {s : State} (h : q.Reserves s) : kvTokens s q = seqTok s q.seq + seqTent s q.seq + q.count := by
  unfold kvTokens
  rcases h.op with h | h
  · rw [h]; rfl
  · rw [h]; rfl

/-- What the checks say of a reservation. -/
theorem KvReq.Reserves.check {s : State} (h : q.Reserves s) (h0 : seqState s q.seq ≠ 0) (hn : 0 < q.count) : kvCheck s q =
    if 131072 < seqTok s q.seq + seqTent s q.seq + q.count then some stKvSeqLimit else none := by
  rcases h with ⟨h, ht⟩ | h
  · rw [kvCheck_append h0 h, if_neg (Nat.ne_of_gt hn), if_neg (by rw [ht]; decide)]
  · rw [kvCheck_tappend h0 h]
    simp only [Nat.ne_of_gt hn, ne_eq, not_false_eq_true, true_and, gt_iff_lt]

/-- A reservation that the limit allows, on a resident sequence, takes its pages. -/
theorem kvServe_reserve (hb : q.bad = false) (h0 : seqState r.s q.seq ≠ 0) (h : q.Reserves r.s) (hn : 0 < q.count)
    (hl : seqTok r.s q.seq + seqTent r.s q.seq + q.count ≤ 131072) (ht : seqTok r.s q.seq ≤ seqRes r.s q.seq) :
    r.kvServe q = r.kvFinish q :=
  kvServe_finish r hb ((h.check h0 hn).trans (if_neg (Nat.not_lt.mpr hl))) (fun _ => hn) fun _ => ht

end

section
variable {c : Instr} {mine : Nat → Bool} {op : Nat} {ok : {z : State} → KvReq → Run z → Prop}
  {out : {z : State} → KvReq → Run z → Run z}

/-- A listed request on a sequence that none waits on is served as it stands. -/
theorem kvDone_of_listed (he : ∀ s, exec c s = done ((Run.start s).kvTake mine Run.kvQueue)) (hm : mine op = true) (h0 : op ≠ 0)
    (h8 : op ≤ 8) (hs : ∀ (z : State) (r : Run z) (q : KvReq), q.op = op → q.bad = false → ok q r → r.kvServe q = out q r) :
    KvDone c op ok out :=
  kvDone_of_serve he hm h0 fun z r q ho hb hok => by
    have : { q with bad := decide (8 < q.op) } = q := by
      rw [decide_eq_false (Nat.not_lt.mpr (ho ▸ h8)), ← hb]
    rw [this]
    exact hs z r q ho hb hok

end

theorem kvClose_done : KvDone .close 2 (fun q r => seqState r.s q.seq ≠ 0 ∧ seqPins r.s q.seq = 0)
    (fun q r => ((r.freeEnts (seqEnts r.s q.seq)).setSeqState q.seq 0).kvOk q q.seq 0) :=
  kvDone_of_listed (fun _ => rfl) (by decide) (by decide) (by decide) fun z r q ho hb ⟨h0, hp⟩ => by
    rw [kvServe_finish r hb ((kvCheck_close h0 ho).trans (if_neg (by rw [hp]; decide))) (fun h => by omega) fun h => ?_]
    · exact kvFinish_close r ho
    · unfold kvRestores at h; rw [ho] at h; exact absurd h (by simp)

theorem kvPin_done : KvDone .pin 3 (fun q r => seqResident r.s q.seq ∧ seqPins r.s q.seq < 255)
    (fun q r => (r.setSeqPins q.seq (seqPins r.s q.seq + 1)).kvOk q q.seq (seqTok r.s q.seq)) :=
  kvDone_of_listed (fun _ => rfl) (by decide) (by decide) (by decide) fun z r q ho hb ⟨⟨h0, ht⟩, hp⟩ => by
    rw [kvServe_finish r hb ((kvCheck_pin h0 ho).trans (if_neg (Nat.ne_of_lt hp))) (fun h => by omega) fun _ => ht]
    exact kvFinish_pin r ho

theorem kvUnpin_done : KvDone .unpin 4 (fun q r => seqState r.s q.seq ≠ 0 ∧ 0 < seqPins r.s q.seq)
    (fun q r =>
      let w := r.setSeqPins q.seq (seqPins r.s q.seq - 1)
      (if seqPins r.s q.seq = 1 then w.freeEmpty q.seq else w).kvOk q q.seq (seqPins r.s q.seq - 1)) :=
  kvDone_of_listed (fun _ => rfl) (by decide) (by decide) (by decide) fun z r q ho hb ⟨h0, hp⟩ => by
    rw [kvServe_finish r hb ((kvCheck_unpin h0 ho).trans (if_neg (Nat.ne_of_gt hp))) (fun h => by omega) fun h => ?_]
    · exact kvFinish_unpin r ho hp
    · unfold kvRestores at h; rw [ho] at h; exact absurd h (by simp)

/-- A COMMIT or a DISCARD of tentative tokens has its effect. -/
theorem kvServe_tentative {z : State} (r : Run z) {q : KvReq} (hb : q.bad = false) (h0 : seqState r.s q.seq ≠ 0)
    (ho : q.op = 7 ∨ q.op = 8) (hn : 0 < q.count) (hl : q.count ≤ seqTent r.s q.seq) : r.kvServe q = r.kvFinish q := by
  refine kvServe_finish r hb ((kvCheck_tentative h0 ho).trans (if_neg (Nat.not_lt.mpr hl))) (fun _ => hn) fun h => ?_
  unfold kvRestores at h
  rcases ho with ho | ho
  · rw [ho] at h; exact absurd h (by simp)
  · rw [ho] at h; exact absurd h (by simp)

/-- A sequence's reservation of a COUNT fits, and pages for it suffice. -/
def KvReq.hasRoom (q : KvReq) (s : State) : Prop :=
  seqResident s q.seq ∧ 0 < q.count ∧ seqTok s q.seq + seqTent s q.seq + q.count ≤ 131072 ∧
    canCover s q.seq (missingPages s q.seq (seqTok s q.seq + seqTent s q.seq + q.count)).length = true

theorem kvAppend_done : KvDone .append 5 (fun q r => q.hasRoom r.s ∧ seqTent r.s q.seq = 0)
    (fun q r =>
      let n := q.seq
      let tok := seqTok r.s n
      let pages := missingPages r.s n (tok + q.count)
      let w := ((r.evictFor n pages.length).setSeqW n 0x04 (tok + q.count)).setSeqW n 0x0C (tok + q.count)
      ((w.allocPages n pages false).refreshUsed n).kvOk q n tok) :=
  kvDone_of_listed (fun _ => rfl) (by decide) (by decide) (by decide) fun z r q ho hb ⟨⟨⟨h0, ht⟩, hn, hl, hc⟩, h5⟩ => by
    rw [kvServe_reserve r hb h0 (.inl ⟨ho, h5⟩) hn hl ht, kvFinish_reserve r (.inl ho)]
    dsimp only
    rw [if_pos hc, if_pos ho, h5, Nat.add_zero]

theorem kvTappend_done : KvDone .tappend 6 (fun q r => q.hasRoom r.s)
    (fun q r =>
      let n := q.seq
      let tok := seqTok r.s n
      let tent := seqTent r.s n
      let pages := missingPages r.s n (tok + tent + q.count)
      let w := (r.evictFor n pages.length).setSeqW n 0x08 (tent + q.count)
      ((w.allocPages n pages false).refreshUsed n).kvOk q n (tok + tent)) :=
  kvDone_of_listed (fun _ => rfl) (by decide) (by decide) (by decide) fun z r q ho hb ⟨⟨h0, ht⟩, hn, hl, hc⟩ => by
    rw [kvServe_reserve r hb h0 (.inr ho) hn hl ht, kvFinish_reserve r (.inr ho)]
    dsimp only
    rw [if_pos hc, if_neg (by omega)]

theorem kvCommit_done : KvDone .commit 7 (fun q r => seqState r.s q.seq ≠ 0 ∧ 0 < q.count ∧ q.count ≤ seqTent r.s q.seq)
    (fun q r =>
      let n := q.seq
      let tok := seqTok r.s n
      (((r.setSeqW n 0x04 (tok + q.count)).setSeqW n 0x08 (seqTent r.s n - q.count)).setSeqW n 0x0C (tok + q.count)).kvOk q n
        (tok + q.count)) :=
  kvDone_of_listed (fun _ => rfl) (by decide) (by decide) (by decide) fun z r q ho hb ⟨h0, hn, hl⟩ =>
    (kvServe_tentative r hb h0 (.inl ho) hn hl).trans (kvFinish_commit r ho)

theorem kvDiscard_done : KvDone .discard 8 (fun q r => seqState r.s q.seq ≠ 0 ∧ 0 < q.count ∧ q.count ≤ seqTent r.s q.seq)
    (fun q r =>
      let n := q.seq
      let w := (r.setSeqW n 0x08 (seqTent r.s n - q.count)).refreshUsed n
      (if seqPins w.s n = 0 then w.freeEmpty n else w).kvOk q n (seqTent r.s n - q.count)) :=
  kvDone_of_listed (fun _ => rfl) (by decide) (by decide) (by decide) fun z r q ho hb ⟨h0, hn, hl⟩ =>
    (kvServe_tentative r hb h0 (.inr ho) hn hl).trans (kvFinish_discard r ho)

theorem kvBadRequest_done (op : Nat) (h : 8 < op) :
    KvDone .kvBadRequest op (fun _ _ => True) (fun q r => r.kvComplete { q with bad := true } stKvBadRequest 0) :=
  kvDone_of_serve (mine := fun op => decide (op > 8)) (fun _ => rfl) (decide_eq_true h) (by omega) fun z r q ho hb _ => by
    rw [decide_eq_true (ho ▸ h), kvServe_bad r rfl]

theorem kvOpen_done (w : List Nat) (n : Nat) : KvDone .kvOpen 1
    (fun q r => q.seq = 0 ∧ openBlock r.s q.addr = some w ∧ closedSeq (r.markRange (ctxX r.s 0) .load q.addr 64).s = some n)
    (fun q r =>
      let g := fun i => w.getD i 0
      let r := r.markRange (ctxX r.s 0) .load q.addr 64
      let r := r.each [0x18, 0x1C, 0x20, 0x24, 0x28, 0x2C, 0x30] fun off r => r.setSeqW n off (g (off / 4))
      let r := ((r.each [0x04, 0x08, 0x0C] fun off r => r.setSeqW n off 0)).setSeqW n 0 (setBits (g 0) 31 30 1)
      (r.each (List.range (512 * seqLayers r.s n)) fun i r => r.setPageWord n (i / 512) (i % 512) 0).kvOk q n n) := by
  intro s up hf hen hw ho h1 h2 h3 _ ⟨hz, hb, hc⟩
  rw [kvOpen_row s up hf hen hw (by rw [ho]; decide) ho]
  dsimp only
  rw [if_neg (by rw [h1, h2, h3, hz]; decide), hb]
  dsimp only
  unfold Run.kvOpenSeq
  rw [hc]

section
variable {z : State} (r : Run z) {q : KvReq}

/-- A COUNT of 0 in a reservation, a COMMIT or a DISCARD on an open sequence completes OK at once (R214). -/
theorem kvServe_count_zero (hb : q.bad = false) (h0 : seqState r.s q.seq ≠ 0) (h5 : 5 ≤ q.op) (h8 : q.op ≤ 8)
    (hn : q.count = 0) : r.kvServe q = r.kvComplete q stOk
      (if q.op = 6 then seqTok r.s q.seq + seqTent r.s q.seq else if q.op = 8 then seqTent r.s q.seq else seqTok r.s q.seq) := by
  refine (kvServe_zero r hb ?_ h5 hn).trans (kvZero_eq r h5 h8)
  rcases (by omega : q.op = 5 ∨ q.op = 6 ∨ (q.op = 7 ∨ q.op = 8)) with h | h | h
  · rw [kvCheck_append h0 h, if_pos hn]
  · rw [kvCheck_tappend h0 h, if_neg fun h => h.1 hn]
  · rw [kvCheck_tentative h0 h, if_neg (by rw [hn]; exact Nat.not_lt_zero _)]

/-- What serving does, request by request. -/
theorem kvServe_spec (h2 : 2 ≤ q.op) (h8 : q.op ≤ 8) :
    let n := q.seq
    let tok := seqTok r.s n
    let tent := seqTent r.s n
    (q.bad = true → r.kvServe q = r.kvComplete q stKvBadRequest 0) ∧
    (q.bad = false → seqState r.s n = 0 → r.kvServe q = r.kvComplete q stKvNoSeq 0) ∧
    (q.bad = false → seqState r.s n ≠ 0 →
      (q.op = 2 → seqPins r.s n ≠ 0 → r.kvServe q = r.kvComplete q stKvPinned 0) ∧
      (q.op = 3 → seqPins r.s n = 255 → r.kvServe q = r.kvComplete q stBounds 0) ∧
      (q.op = 4 → seqPins r.s n = 0 → r.kvServe q = r.kvComplete q stBounds 0) ∧
      (q.op = 5 → 0 < q.count → 0 < tent → r.kvServe q = r.kvComplete q stKvTentative 0) ∧
      ((q.op = 5 ∧ tent = 0 ∨ q.op = 6) → 0 < q.count →
        (131072 < tok + tent + q.count → r.kvServe q = r.kvComplete q stKvSeqLimit 0) ∧
        (tok + tent + q.count ≤ 131072 → tok ≤ seqRes r.s n →
          canCover r.s n (missingPages r.s n (tok + tent + q.count)).length = false →
          r.kvServe q = r.kvComplete q stKvNoPage 0)) ∧
      ((q.op = 7 ∨ q.op = 8) → tent < q.count → r.kvServe q = r.kvComplete q stBounds 0) ∧
      (5 ≤ q.op → q.count = 0 →
        r.kvServe q = r.kvComplete q stOk (if q.op = 6 then tok + tent else if q.op = 8 then tent else tok)) ∧
      ((q.op = 3 ∧ seqPins r.s n < 255 ∨ (q.op = 5 ∧ tent = 0 ∨ q.op = 6) ∧ 0 < q.count ∧ tok + tent + q.count ≤ 131072) →
        seqRes r.s n < tok →
        let all := missingPages r.s n (if q.op = 3 then tok else tok + tent + q.count)
        (canCover r.s n all.length = false → r.kvServe q = r.kvComplete q stKvNoPage 0) ∧
        (canCover r.s n all.length = true → r.kvServe q =
          let fill := missingPages r.s n tok
          let w := ((r.evictFor n all.length).allocPages n fill true).allocPages n (all.filter fun x => !fill.contains x) false
          ((w.setSeqState n 2).startRecompute n).kvHold q true))) := by
  intro n tok tent
  refine ⟨kvServe_bad r, fun hb h0 => kvServe_refused r hb (kvCheck_noSeq (by omega) h0), fun hb h0 => ?_⟩
  refine ⟨fun ho hp => ?_, fun ho hp => ?_, fun ho hp => ?_, fun ho hn ht => ?_, fun ho hn => ⟨fun hl => ?_, fun hl ht hc => ?_⟩,
    fun ho hl => ?_, fun h5 hn => kvServe_count_zero r hb h0 h5 h8 hn, fun ho ht => ?_⟩
  · exact kvServe_refused r hb ((kvCheck_close h0 ho).trans (if_pos (Nat.pos_of_ne_zero hp)))
  · exact kvServe_refused r hb ((kvCheck_pin h0 ho).trans (if_pos hp))
  · exact kvServe_refused r hb ((kvCheck_unpin h0 ho).trans (if_pos hp))
  · exact kvServe_refused r hb ((kvCheck_append h0 ho).trans ((if_neg (Nat.ne_of_gt hn)).trans (if_pos ht)))
  · exact kvServe_refused r hb ((KvReq.Reserves.check ho h0 hn).trans (if_pos hl))
  · rw [kvServe_reserve r hb h0 ho hn hl ht, kvFinish_reserve r (KvReq.Reserves.op ho)]
    exact if_neg (by rw [hc]; decide)
  · exact kvServe_refused r hb ((kvCheck_tentative h0 ho).trans (if_pos hl))
  · have restores : kvCheck r.s q = none ∧ (5 ≤ q.op → 0 < q.count) ∧ kvRestores q = true ∧
        kvTokens r.s q = if q.op = 3 then tok else tok + tent + q.count := by
      rcases ho with ⟨ho, hp⟩ | ⟨ho, hn, hl⟩
      · refine ⟨(kvCheck_pin h0 ho).trans (if_neg (Nat.ne_of_lt hp)), fun h => by omega, ?_, ?_⟩
        · unfold kvRestores; rw [ho]; rfl
        · unfold kvTokens; rw [ho]; rfl
      · refine ⟨(KvReq.Reserves.check ho h0 hn).trans (if_neg (Nat.not_lt.mpr hl)), fun _ => hn, KvReq.Reserves.restores ho hn, ?_⟩
        rw [KvReq.Reserves.tokens ho, if_neg (by rcases KvReq.Reserves.op ho with h | h <;> omega)]
    obtain ⟨hk, hn, hr, htk⟩ := restores
    have hs := kvServe_restore r hb hk hn hr ht
    rw [htk] at hs
    exact ⟨fun hc => hs.trans (if_neg (by rw [hc]; decide)), fun hc => hs.trans (if_pos hc)⟩

end

/-! ## The end of a recompute (R219, R220) -/

/-- The pages that a recompute fills. -/
def fillEnts (s : State) (n : Nat) : List PageEnt := (seqEnts s n).filter fun e => e.state = 2

section
variable {s : State} {i n : Nat} {p : Parcel} {q : KvReq}

/-- A recompute that succeeds makes its sequence resident, and its request goes on. -/
theorem recomputeComplete_success (up : s.halted = false) (hp : s.parcel? i = some p) (ho : p.origin = .recompute n)
    (hf : fwRuns s 1 = true) (he : workEnded s p = true) (hs : isSuccess (finalStatus p) = true)
    (hq : ((((((Run.start s).leaveFlight i p).owedRecompute).deviceAdd (p.desc.getD 14 0).toNat).deviceAdd
      (p.desc.getD 15 0).toNat).s.kv.waiting.find? fun q => q.seq = n) = some q) :
    exec (.recomputeComplete i) s = .next (
      let r := (((Run.start s).leaveFlight i p).owedRecompute.deviceAdd (p.desc.getD 14 0).toNat).deviceAdd (p.desc.getD 15 0).toNat
      let r := (r.put (.kv { r.s.kv with waiting := r.s.kv.waiting.erase q })).each (fillEnts r.s n) fun e r =>
        (r.setEnt { e with state := 1 }).setPageWord n e.layer e.lpage (2 ^ 31 + e.idx)
      let r := (r.setSeqW n 0x0C (seqTok r.s n)).setSeqState n 1
      let r := (r.setSeqW n 0x38 (sat32 (seqW r.s n 0x38 + 1))).kvFinish q
      (r.kvDrain n (r.s.kv.waiting.length + 1)).s) := by
  show execRecomputeComplete i s = _
  unfold execRecomputeComplete
  simp only [hp, ho, hf, he, hs, Run.when, Bool.not_true, Bool.or_false, Bool.false_eq_true, if_false, if_true]
  rw [hq]
  exact done_next up

/-- A recompute that fails frees the pages being filled, and its request completes RECOMPUTE_FAILED. -/
theorem recomputeComplete_failure (up : s.halted = false) (hp : s.parcel? i = some p) (ho : p.origin = .recompute n)
    (hf : fwRuns s 1 = true) (he : workEnded s p = true) (hs : isSuccess (finalStatus p) = false)
    (hq : (((Run.start s).leaveFlight i p).owedRecompute.s.kv.waiting.find? fun q => q.seq = n) = some q) :
    exec (.recomputeComplete i) s = .next (
      let r := ((Run.start s).leaveFlight i p).owedRecompute
      let r := ((((r.put (.kv { r.s.kv with waiting := r.s.kv.waiting.erase q })).freeEnts (fillEnts r.s n)).freeEmpty n).setSeqState n
        1).kvComplete q stKvRecomputeFailed (finalStatus p)
      (r.kvDrain n (r.s.kv.waiting.length + 1)).s) := by
  show execRecomputeComplete i s = _
  unfold execRecomputeComplete
  simp only [hp, ho, hf, he, hs, Run.when, Bool.not_true, Bool.or_false, Bool.false_eq_true, if_false]
  rw [hq]
  exact done_next up

end

/-- Settles O45: the requests of the ring row by row, what serving does, and the end of a recompute. -/
theorem kvCommands : Obligations.KvCommands := by
  refine ⟨⟨kvOpen_row, ?_, ?_, ?_, ?_, ?_, ?_, ?_, ?_⟩, ⟨kvOpen_done, kvClose_done, kvPin_done, kvUnpin_done,
    ⟨kvAppend_done, kvTappend_done⟩, kvCommit_done, kvDiscard_done, kvBadRequest_done⟩,
    fun z r q h2 h8 => kvServe_spec r h2 h8, fun i n p q ho =>
    ⟨.intro fun s up ⟨⟨hp, hf, he⟩, hs, hq⟩ => ?_, .intro fun s up ⟨⟨hp, hf, he⟩, hs, hq⟩ => ?_⟩⟩
  case refine_9 => exact ⟨_, recomputeComplete_success up hp ho hf he hs hq, rfl⟩
  case refine_10 => exact ⟨_, recomputeComplete_failure up hp ho hf he hs hq, rfl⟩
  case refine_8 => exact kvRow_of_exec (mine := fun op => decide (op > 8)) (fun _ => rfl) fun _ => decide_eq_true
  all_goals exact kvRow_of_exec (fun _ => rfl) fun _ => decide_eq_true

end Sys2Proof.Machine
end


section
/-! PROOFS. The reflex lane (R223 to R247): inputs and latches, steps and outputs, and the groups that end or go on. -/

namespace Sys2Proof.Machine

/-- A field that is set changes the registers alone. -/
theorem setFld_rest {z : State} (r : Run z) (k hi lo v : Nat) :
    (r.setFld k hi lo v).s = { r.s with regs := (r.setFld k hi lo v).s.regs } := rfl

/-! ## Latches (R235) -/

/-- The newest record of a row that landed by a time is one of the row, and landed by then. -/
theorem newestRec_spec {g : RGroup} {l row : Nat} {x : RRec} (h : newestRec g row l = some x) : x.row = row ∧ x.at_ ≤ l := by
  have hm := (List.mem_filter.mp (List.mem_of_getLast? h)).2
  simpa only [Bool.and_eq_true, decide_eq_true_eq] using hm

/-- A row's latch is its newest record, where one has landed. -/
theorem latchAt_of_newest {g : RGroup} {l row : Nat} {x : RRec} (h : newestRec g row l = some x) (hr : row < RGroup.nch g.desc) :
    (latchAt g l).inputs[row]? = some x.vals ∧ (latchAt g l).stale[row]? = some false := by
  unfold latchAt
  simp [hr, h]

/-! ## Events of groups -/

section
variable {s : State} {n k : Nat} {g : RGroup}

/-- A tick of a TIMED group that has come (R234, R235). -/
theorem reflexTick_exec (up : s.halted = false) (hg : rfxGroup? s (4 * n + k) = some g) (ht : RGroup.timed g.desc = true)
    (hw : awake s = true) (hl : RGroup.phase g.desc + g.tick * RGroup.period g.desc ≤ s.now) :
    exec (.reflexTick n k) s = .next (
      let l := RGroup.phase g.desc + g.tick * RGroup.period g.desc
      let g' := { g with tick := g.tick + 1 }
      let r := (Run.start s).setRfx (4 * n + k) g'
      if g.fenced.isSome = true then r.rfxCount (4 * n + k) 0x3C
      else if rfxIdle g = true then r
      else (if g.latch.isSome = true then r.rfxCount (4 * n + k) 0x30 else r).rfxLatch (4 * n + k) g' l).s := by
  show execReflexTick n k s = _
  unfold execReflexTick
  simp only [hg, ht, hw, Nat.not_lt.mpr hl, Bool.not_true, Bool.or_false, decide_false, Bool.false_eq_true, if_false]
  split
  · exact done_next up
  · show (if rfxIdle g = true then _ else _) = _
    split
    · exact done_next up
    · exact done_next up

/-- A triggering time of a landing that has come (R234). -/
theorem reflexArriveLatch_exec (up : s.halted = false) {m : Nat} (hg : rfxGroup? s (4 * n + k) = some g) (hm : g.trig = some m)
    (ht : RGroup.timed g.desc = false) (hw : awake s = true) (hl : m ≤ s.now) :
    exec (.reflexArriveLatch n k) s = .next (
      if g.fenced.isSome = true then
        ((Run.start s).setRfx (4 * n + k) { g with trig := none, lastL := some m }).rfxCount (4 * n + k) 0x3C
      else if rfxIdle g = true then (Run.start s).setRfx (4 * n + k) { g with trig := none }
      else (Run.start s).rfxLatch (4 * n + k) { g with trig := none } m).s := by
  show execReflexArriveLatch n k s = _
  unfold execReflexArriveLatch
  simp only [hg, hm, ht, hw, Nat.not_lt.mpr hl, Bool.not_true, Bool.or_false, decide_false, Bool.false_eq_true, if_false]
  split
  · exact done_next up
  · show (if rfxIdle g = true then _ else _) = _
    split
    · exact done_next up
    · exact done_next up

end

/-- Settles O46: each event by its conditions, and what a latch takes. -/
theorem reflexInputs : Obligations.ReflexInputs := by
  refine ⟨fun n hn s up hs ⟨he, hst, hf, hg⟩ => ?ready, fun st payload rest => .intro fun s up ⟨hl, hw⟩ => ⟨_, ?landing, rfl⟩,
    fun n k g => ?groups, fun g l row x h => ?latch⟩
  case ready =>
    have hempty : (match rfxPhys s n with
        | some c => (gangsOf s c).isEmpty
        | none => true) = true := by
      cases hp : rfxPhys s n with
      | none => rfl
      | some c => exact List.isEmpty_iff.mpr (hg c hp)
    have hr : (Run.start s).s.regsWf := hs.regs
    refine ⟨((Run.start s).setFld (rfxCoreReg n) 25 24 2).s, ?_, (fld_setFld_self hr (by decide) (by decide)).trans (by decide),
      fun j hj => reg_setFld_ne _ _ _ _ hj,
      setFld_rest (Run.start s) _ _ _ _⟩
    show execReflexCoreReady n s = _
    unfold execReflexCoreReady
    simp only [hn, he, hst, hf, decide_true, Bool.and_self, Bool.true_and]
    exact (if_pos hempty).trans (done_next up)
  case landing =>
    show execReflexFrameLanding s = _
    unfold execReflexFrameLanding
    simp only [hl, hw, Bool.not_true, Bool.false_eq_true, if_false, done_next up]
  case groups =>
    intro key l due g'
    refine ⟨?fenced, ?idle, ?first, ?overrun, fun m hm => ?arrive⟩
    case fenced =>
      exact .intro fun s up ⟨⟨hg, ht, hw, hl⟩, hc⟩ => ⟨_, reflexTick_exec up hg ht hw hl, if_pos hc⟩
    case idle =>
      exact .intro fun s up ⟨⟨hg, ht, hw, hl⟩, hc, hi⟩ =>
        ⟨_, reflexTick_exec up hg ht hw hl, (if_neg (by simp [hc])).trans (if_pos hi)⟩
    case first =>
      exact .intro fun s up ⟨⟨hg, ht, hw, hl⟩, hc, hi, hx⟩ => ⟨_, reflexTick_exec up hg ht hw hl,
        (if_neg (by simp [hc])).trans ((if_neg (by simp [hi])).trans
          (congrArg (fun r => Run.rfxLatch r key g' l) (if_neg (by simp [hx]))))⟩
    case overrun =>
      exact .intro fun s up ⟨⟨hg, ht, hw, hl⟩, hc, hi, hx⟩ => ⟨_, reflexTick_exec up hg ht hw hl,
        (if_neg (by simp [hc])).trans ((if_neg (by simp [hi])).trans (congrArg (fun r => Run.rfxLatch r key g' l) (if_pos hx)))⟩
    case arrive =>
      exact ⟨.intro fun s up ⟨⟨hg, ht, hw, hl⟩, hc⟩ => ⟨_, reflexArriveLatch_exec up hg hm ht hw hl, if_pos hc⟩,
        .intro fun s up ⟨⟨hg, ht, hw, hl⟩, hc, hi⟩ =>
          ⟨_, reflexArriveLatch_exec up hg hm ht hw hl, (if_neg (by simp [hc])).trans (if_neg (by simp [hi]))⟩⟩
  case latch =>
    obtain ⟨h1, h2⟩ := newestRec_spec h
    exact ⟨h1, h2, latchAt_of_newest h⟩

/-! ## Steps and outputs (R225, R233 to R236) -/

section
variable {s : State} {n k core key : Nat} {g : RGroup}

/-- The due step of earliest deadline starts, where the array is free. -/
theorem reflexStepStart_exec {x : RLatch} (up : s.halted = false) (hd : rfxDue s n = some (key, g, x)) (hp : rfxPhys s n = some core)
    (hw : awake s = true) (hf : g.fenced = none) (hfree : ∀ o ∈ rfxGroupsOf s n, o.2.step = none ∧ o.2.busy ≤ s.now) :
    exec (.reflexStepStart n) s = .next ((((Run.start s).each ((List.range (RGroup.nch g.desc)).filter fun i => bit x.mask i) fun i r =>
      r.rfxReload core g.desc i).setRfx key { g with
        latch := none, step := some ⟨x, s.now, s.now + arithNs s core (rfxStepCycles g x)⟩ })).s := by
  have hall : ((rfxGroupsOf s n).all fun g => g.2.step.isNone && decide (g.2.busy ≤ s.now)) = true := by
    rw [List.all_eq_true]
    intro o ho
    obtain ⟨h1, h2⟩ := hfree o ho
    rw [h1, decide_eq_true h2]
    rfl
  show execReflexStepStart n s = _
  unfold execReflexStepStart
  simp only [hd, hp, hall, hw, hf, Option.isSome_none, Bool.not_true, Bool.or_false, Bool.false_eq_true, if_false, done_next up]

/-- No checkpoint of a group of the slot is being written from a bank of a group's state. -/
theorem no_checkpoint_waits (h : ∀ o ∈ rfxGroupsOf s n, s.now < o.2.ckBusy →
      ∀ b ∈ RGroup.stateBanks o.2.desc, b ∉ RGroup.stateBanks g.desc) :
    ((rfxGroupsOf s n).any fun o => decide (o.2.ckBusy > s.now) &&
      (RGroup.stateBanks o.2.desc).any fun b => (RGroup.stateBanks g.desc).contains b) = false := by
  rw [List.any_eq_false]
  intro o ho hc
  obtain ⟨hb, hm⟩ := (Bool.and_eq_true _ _).mp hc
  obtain ⟨b, hb', hin⟩ := List.any_eq_true.mp hm
  exact h o ho (of_decide_eq_true hb) b hb' (List.contains_iff_mem.mp hin)

/-- The next output frame of a group is built and queued. -/
theorem reflexOutputFrame_exec {o : ROut} {rest : List ROut} {more : List Nat} {st w : Nat} {c : List W32} {p : Parcel}
    (up : s.halted = false) (hout : g.out = o :: rest) (hst : o.streams = st :: more)
    (hc : g.cards.find? (fun c => bindOut c && bindStream c = st) = some c) (hg : rfxGroup? s (4 * n + k) = some g)
    (hp : s.parcel? g.parcel = some p) (hb : g.busy ≤ s.now ∨ rest ≠ []) :
    let q := ((Run.start s).setRfx (4 * n + k) { g with
      out := if more = [] then rest else { o with streams := more } :: rest }).readIn (ctxX s p.ctx) (egressTmpl c) (egressTlen c)
    q.1 = .ok w → exec (.reflexOutputFrame n k) s = .next (
      let f := Frame.parse (rfxFrame g.desc g.cards o st (leBytes (egressTlen c) w)) (s.fld (portReg (egressPort c) 0) 11 0)
      q.2.ethEnqueue (egressPort c) f f.pcp).s := by
  intro q hq
  have hwait : (decide (s.now < g.busy) && rest.isEmpty) = false := by
    rcases hb with h | h
    · rw [decide_eq_false (Nat.not_lt.mpr h)]; rfl
    · rw [List.isEmpty_eq_false_iff.mpr h, Bool.and_false]
  show execReflexOutputFrame n k s = _
  unfold execReflexOutputFrame
  simp only [hg, hout, hst, hwait, hc, hp, List.isEmpty_iff, Bool.false_eq_true, if_false]
  show (match q with | (.error _, _) => _ | (.ok _, _) => _) = _
  generalize q = e at hq
  obtain ⟨e, r⟩ := e
  obtain rfl : e = .ok w := hq
  exact done_next up

end

/-- Settles O47: each event by its conditions. -/
theorem reflexSteps : Obligations.ReflexSteps := by
  refine ⟨⟨fun n key core g x => .intro fun s up ⟨hd, hp, hw, hf, hfree⟩ => ⟨_, reflexStepStart_exec up hd hp hw hf hfree, rfl⟩,
    fun n k core g st hst => ?stepEnd, fun n k st w g o rest more c p hout hst hc => ?output⟩,
    fun n k g => ⟨fun st hst hstep hout => ?groupEnd, fun t ht => ?expiry, fun core ctx hf => ?resume⟩⟩
  case stepEnd =>
    intro key d rows s up ⟨hg, hp, hl, hck⟩
    show execReflexStepEnd n k s = _
    unfold execReflexStepEnd
    have hwait := no_checkpoint_waits (g := g) hck
    have hg : rfxGroup? s (4 * n + k) = some g := hg
    simp only [hg, hp, hst, hwait, Nat.not_lt.mpr hl, decide_false, Bool.or_false, Bool.false_eq_true, if_false]
    exact done_next up
  case output =>
    exact .intro fun s up ⟨hg, hp, hb, hq⟩ => ⟨_, reflexOutputFrame_exec up hout hst hc hg hp hb hq, rfl⟩
  case groupEnd =>
    refine .intro fun s up ⟨hg, hw⟩ => ⟨_, ?_, rfl⟩
    show execReflexGroupEnd n k s = _
    unfold execReflexGroupEnd
    simp only [hg, hst, hstep, hout, hw, Option.isNone_none, List.isEmpty_nil, Bool.and_true, if_true, done_next up]
  case expiry =>
    refine .intro fun s up ⟨hg, hf, hlt⟩ => ⟨_, ?_, rfl⟩
    show execReflexHoldExpiry n k s = _
    unfold execReflexHoldExpiry
    simp only [hg, ht, hf, hlt, decide_true, Bool.and_true, if_true, done_next up]
  case resume =>
    intro s up ⟨hg, hp, hw, hc⟩
    show execReflexResume n k s = _
    unfold execReflexResume
    have hf' : g.fenced.isNone = false := by
      cases h : g.fenced with
      | none => rw [h] at hf; cases hf
      | some _ => rfl
    subst hc
    have hg : rfxGroup? s (4 * n + k) = some g := hg
    simp only [hg, hp, hw, hf', Bool.not_true, Bool.or_false, Bool.false_eq_true, if_false]
    exact done_next up

end Sys2Proof.Machine
end


section
/-! PROOFS. The switch: its ports, tables and gates (R332, R334, R337, R341, R342, R344), and the frames it receives and sends (R335,
R343, R346). -/

namespace Sys2Proof.Machine

/-! ## The gate entry in force (R342) -/

/-- The entry in force at a place in the cycle ends after it, and within the cycle. -/
theorem gateFind_ends {into cycle : Nat} (h : into < cycle) (l : List (Nat × Nat × Nat)) (i acc : Nat) :
    into < (gateFind into cycle l i acc).2 ∧ (gateFind into cycle l i acc).2 ≤ cycle := by
  induction l generalizing i acc with
  | nil => exact ⟨h, Nat.le_refl _⟩
  | cons e es ih =>
    cases es with
    | nil => exact ⟨h, Nat.le_refl _⟩
    | cons e' es =>
      unfold gateFind
      split
      · next hi => exact ⟨lt_min hi h, Nat.min_le_right _ _⟩
      · exact ih _ _

/-- The entry in force ends after its time, and within its cycle. -/
theorem gateAt_none {g : GateList} (t : Nat) (h : g.cycle ≠ 0) :
    t < (gateAt g t none).2 ∧ (gateAt g t none).2 ≤ t - (t - g.base) % g.cycle + g.cycle := by
  have hlt : (t - g.base) % g.cycle < g.cycle := Nat.mod_lt _ (Nat.pos_of_ne_zero h)
  have hle : (t - g.base) % g.cycle ≤ t := le_trans (Nat.mod_le _ _) (Nat.sub_le _ _)
  obtain ⟨h1, h2⟩ := gateFind_ends hlt g.ents 0 0
  show t < t - (t - g.base) % g.cycle + (gateFind _ _ g.ents 0 0).2 ∧ t - (t - g.base) % g.cycle + (gateFind _ _ g.ents 0 0).2 ≤ _
  omega

/-- With a new list to come, the entry in force ends after its time, and no later than the list comes. -/
theorem gateAt_some {g : GateList} {t b : Nat} (h : g.cycle ≠ 0) (hb : t < b) :
    t < (gateAt g t (some b)).2 ∧ (gateAt g t (some b)).2 ≤ b := by
  have hn := (gateAt_none t h).1
  have he : (gateAt g t none).2 = t - (t - g.base) % g.cycle + (gateFind ((t - g.base) % g.cycle) g.cycle g.ents 0 0).2 := rfl
  rw [he] at hn
  unfold gateAt
  dsimp only
  split
  · exact ⟨hb, Nat.le_refl _⟩
  · split
    · exact ⟨hb, Nat.le_refl _⟩
    · next hlt =>
      split
      · exact ⟨hb, Nat.le_refl _⟩
      · exact ⟨hn, Nat.le_of_lt (Nat.not_le.mp hlt)⟩

/-! ## Ports and tables -/

section
variable {s : State} {n : Nat}

theorem linkUp_exec {verified : Bool} (up : s.halted = false) (hn : n < 4) (he : bit (s.reg (portReg n 0)).toNat 31 = true)
    (hw : awake s = true) (hl : s.fld (portReg n 4) 31 30 ≠ 1) : exec (.linkUp n verified) s = .next (
      let cfg := (s.reg (portReg n 0)).toNat
      let r := (Run.start s).setRegN (portReg n 4) (2 ^ 30 + bits cfg 27 26 * 2 ^ 28 + b2n (bit cfg 24 && verified) * 2 ^ 27)
      (if bit cfg 25 = true ∧ s.fld (ethReg (0x3000 + 0x40 * n)) 31 30 ≠ 2 then r.mkaState n 1 else r).gateApply n).s := by
  have hk : ethReg (0x3000 + 0x40 * n) ≠ portReg n 4 := by
    unfold portReg ethReg regKey
    omega
  show execLinkUp n verified s = _
  unfold execLinkUp
  simp only [hn, he, hw, hl, decide_true, Bool.and_true, ne_eq, not_false_eq_true, if_true, done_next up, Run.when]
  rw [fld_setRegN_ne _ _ 31 30 hk]
  simp only [Bool.and_eq_true, decide_not, Bool.not_eq_true', decide_eq_false_iff_not]
  rfl

theorem sakRekey_exec (up : s.halted = false) (hn : n < 4) (hk : (ethPort s n).sak.isSome = true) (hs : (ethPort s n).server = true)
    (hp : 3 * (if s.fld (ethReg (0x3000 + 0x40 * n)) 29 29 = 1 then 2 ^ 64 else 2 ^ 32) ≤
      4 * max (ethPort s n).pn (ethPort s n).rxPn) : exec (.sakRekey n) s = .next
        ((Run.start s).draw.2.setPort n { ethPort s n with sak := some (Run.start s).draw.1, pn := 1, rxPn := 0 }).s := by
  show execSakRekey n s = _
  unfold execSakRekey
  simp only [hn, hk, hs, ge_iff_le, hp, decide_true, Bool.and_true, if_true, done_next up]

theorem mkaTimer_exec (up : s.halted = false) (hn : n < 4) (hp : s.fld (portReg n 0) 25 25 ≠ 0)
    (hm : s.fld (ethReg (0x3000 + 0x40 * n)) 31 30 ≠ 0) : exec (.mkaTimer n) s = .next (
      let r := Run.start s
      let q := if s.fld (ethReg (0x3000 + 0x40 * n)) 31 30 = 2 ∧ (ethPort s n).peerAt + 6000000000 ≤ s.now then
        (r.setPort n { ethPort s n with sak := none, server := false }).mkaState n 1 else r
      let p := ethPort q.draw.2.s n
      let body := Config.mkaBody (s.fld (topReg 8) 15 8) (s.fld (ethReg (0x3000 + 0x40 * n)) 23 16)
        (if p.server then p.sak else none) q.draw.1.toNat
      q.draw.2.ethEnqueue n (portFrame s n 0x030000C28001 0x888E (s.fld (portReg n 0) 11 0) body) 7).s := by
  show execMkaTimer n s = _
  unfold execMkaTimer
  simp only [Nat.not_le.mpr hn, hp, hm, ge_iff_le, decide_false, Bool.or_false, Bool.false_eq_true, if_false, Run.when,
    Bool.and_eq_true, decide_eq_true_eq, done_next up]

end

/-- A write of a VLAN's word (R337). -/
theorem tblWrite_vlan {z : State} (r : Run z) {port i : Nat} {d : List Nat} (hr : (tblRead r.s 1 port i).isSome = true)
    (hv : tblValid r.s 1 port d = true) :
    r.tblWrite 1 port i d = (stOk, r.setEth { r.s.eth with vlans := SMap.set 0 r.s.eth.vlans i (d.getD 0 0) }) := by
  have hn : (tblRead r.s 1 port i).isNone = false := by rw [← Option.not_isSome, hr]; rfl
  unfold Run.tblWrite
  simp only [hn, hv, Bool.and_false, Bool.not_true, Bool.false_eq_true, if_false]

/-- Settles O49: each event by its conditions, and the gate entry in force. -/
theorem ethernetPortEvents : Obligations.EthernetPortEvents := by
  unfold Obligations.EthernetPortEvents
  intro mka
  refine ⟨fun n hn => ⟨fun fault => .intro fun s up hl => ⟨_, ?linkDown, rfl⟩,
      fun verified => .intro fun s up ⟨he, hw, hl⟩ => ⟨_, linkUp_exec up hn he hw hl, rfl⟩,
      .intro fun s up ⟨ho, he⟩ => ⟨_, ?gate, rfl⟩, fun g => .intro fun s up ⟨hp, hb⟩ => ⟨_, ?qbv, rfl⟩,
      .intro fun s up ⟨hk, hs, hp⟩ => ⟨_, sakRekey_exec up hn hk hs hp, rfl⟩,
      .intro fun s up ⟨hp, hm⟩ => ⟨_, mkaTimer_exec up hn hp hm, rfl⟩⟩, ?tables,
    fun i => ⟨fun e s up _ ⟨hf, hs, hl⟩ => ⟨_, ?age, rfl⟩, .intro fun s up ⟨h1, h2, h3⟩ => ⟨_, ?cb, rfl⟩⟩,
    fun g t h => ⟨gateAt_none t h, fun b hb => gateAt_some h hb⟩⟩
  case linkDown =>
    show execLinkDown n fault s = _
    unfold execLinkDown
    simp only [hn, hl, decide_true, Bool.and_true, if_true, done_next up]
  case gate =>
    show execGateControlEntry n s = _
    unfold execGateControlEntry
    simp only [hn, ho, he, decide_true, Bool.and_true, if_true, done_next up]
  case qbv =>
    show execQbvConfigChange n s = _
    unfold execQbvConfigChange
    simp only [hp, Nat.not_le.mpr hn, Nat.not_lt.mpr hb, decide_false, Bool.or_false, Bool.false_eq_true, if_false,
      done_next up]
  case age =>
    show execFdbAgeOut i s = _
    unfold execFdbAgeOut
    simp only [hf, hs, hl, Bool.not_false, decide_true, Bool.and_true, if_true, done_next up]
    rfl
  case cb =>
    show execCbHistoryReset i s = _
    unfold execCbHistoryReset
    simp only [h1, h2, h3, decide_true, Bool.and_true, if_true, done_next up]
  case tables =>
    intro cmd args
    refine ⟨.intro fun s up ⟨h1, h2, h3⟩ => ⟨_, ?_, rfl⟩, fun d => .intro fun s up ⟨h1, h2, h3⟩ => ⟨_, ?_, rfl⟩,
      .intro fun s up ⟨h1, h2⟩ => ⟨_, ?_, rfl⟩, .intro fun s up ⟨h1, h2, h3, h4, h5⟩ => ⟨_, ?_, rfl⟩⟩
    case refine_1 | refine_2 =>
      dsimp only [cmd, args] at h1 h2 h3
      show execEthTblRead s = _
      unfold execEthTblRead
      simp only [h1, h2, h3, Bool.not_false, Bool.and_true, Bool.not_true, Bool.false_eq_true, if_false, done_next up]
    case refine_3 =>
      dsimp only [cmd, args] at h1 h2
      show execEthTblWrite s = _
      unfold execEthTblWrite
      simp only [h1, h2, Bool.and_true, Bool.not_true, Bool.false_eq_true, if_false, done_next up]
      rfl
    case refine_4 =>
      dsimp only [cmd, args] at h1 h2 h3 h4 h5
      show execEthTblWrite s = _
      unfold execEthTblWrite
      simp only [h1, h2, h3, Bool.and_true, Bool.not_true, Bool.false_eq_true, if_false, done_next up]
      rw [tblWrite_vlan (Run.start s) h4 h5]
      rfl

/-! ## Frames (R335, R341, R343, R346) -/

section
variable {s : State} {n : Nat}

/-- The class that starts next is the highest that may. -/
theorem nextClass_spec {c : Nat} {f : Frame} {rest : List Frame} (h : nextClass s n = some (c, f, rest)) :
    c < 8 ∧ SMap.get [] (ethPort s n).queues c = f :: rest ∧ txMayStart s n c f = true ∧
    ∀ d g more, c < d → d < 8 → SMap.get [] (ethPort s n).queues d = g :: more → txMayStart s n d g = false := by
  unfold nextClass at h
  dsimp only at h
  rw [List.head?_filterMap] at h
  obtain ⟨before, a, after, hl, ha, hb⟩ := List.findSome?_eq_some_iff.mp h
  have hhead : a = c ∧ SMap.get [] (ethPort s n).queues c = f :: rest ∧ txMayStart s n c f = true := by
    split at ha
    · next g more hq =>
      split at ha
      · next hm => cases ha; exact ⟨rfl, hq, hm⟩
      · cases ha
    · cases ha
  obtain ⟨rfl, hq, hm⟩ := hhead
  have hmem : ∀ x, x ∈ [7, 6, 5, 4, 3, 2, 1, 0] ↔ x < 8 := by
    intro x
    simp only [List.mem_cons, List.not_mem_nil, or_false]
    omega
  have hsort : (before ++ a :: after).Pairwise (· > ·) := hl ▸ (by decide)
  refine ⟨(hmem a).mp (hl ▸ List.mem_append_right _ (.head _)), hq, hm, fun d g more hd hd8 hdq => ?_⟩
  have hdl : d ∈ before ++ a :: after := hl ▸ (hmem d).mpr hd8
  rcases List.mem_append.mp hdl with hd' | hd'
  · have := hb d hd'
    rw [hdq] at this
    dsimp only at this
    cases hmay : txMayStart s n d g with
    | false => rfl
    | true => rw [if_pos hmay] at this; cases this
  · rcases List.mem_cons.mp hd' with rfl | hd'
    · exact absurd hd (Nat.lt_irrefl _)
    · have := (List.pairwise_cons.mp (List.pairwise_append.mp hsort).2.1).1 d hd'
      omega

/-- A stamp is no earlier than the port's before it, and no later than now unless it is that one (R29, R30). -/
theorem ingressStamp_spec (len : Nat) : (ethPort s n).rxAt ≤ ingressStamp s n len ∧
    (ingressStamp s n len ≤ s.timeAt tbEth ∨ ingressStamp s n len = (ethPort s n).rxAt) := by
  unfold ingressStamp
  refine ⟨Nat.le_max_left _ _, ?_⟩
  rcases Nat.le_total (s.timeAt tbEth - len * octetTime s n / 10) (ethPort s n).rxAt with h | h
  · exact .inr (Nat.max_eq_left h)
  · exact .inl (by rw [Nat.max_eq_right h]; exact Nat.sub_le _ _)

/-- A frame that is no member of its VLAN at its ingress port goes nowhere. -/
theorem switchFrame_of_not_member {z : State} (r : Run z) {stamp : Nat} {raw : List Byte}
    (h : vlanMember r.s (Frame.parse raw (r.s.fld (portReg n 0) 11 0)).vid n = false) : r.switchFrame n raw stamp = r := by
  unfold Run.switchFrame
  simp only [h, Bool.not_false, if_true]

section
variable {z : State} (r : Run z) {i port : Nat} {f : Frame} {q : Nat}

/-- A stream's state that is written is read back, where it is not the one of a stream that has passed nothing. -/
theorem cbState_setCbState {c : CbState} (h : c ≠ {}) : cbState (r.setCbState i c).s i = c := by
  show SMap.get {} (SMap.set {} r.s.eth.cbState i c) i = c
  unfold SMap.get SMap.set
  rw [if_neg h, SMap.find?_insert, if_pos rfl]
  rfl

/-- A CB stream's state as a frame meets it: its history is over once no frame has passed for RESET ms (R341). -/
def cbMet (s : State) (i : Nat) : CbState :=
  if decide (s.now ≥ (cbState s i).last + bits (SMap.get (0, 0) s.eth.cbs i).2 15 0 * 1000000) = true then
    { cbState s i with top := none, seen := [] } else cbState s i

/-- Sequence recovery of a frame of a number, by the state that it meets: a number that advances by the history or less passes, one
within the history that has not passed does, and every other is discarded. -/
def Run.cbStep {z : State} (r : Run z) (i port q h : Nat) (c : CbState) : Bool × Run z :=
  match c.top with
  | none => (true, r.setCbState i { c with top := some q, seen := [q], last := r.s.now })
  | some t =>
    if 1 ≤ seqDelta q t ∧ seqDelta q t ≤ h then
      (true, r.setCbState i { c with
        top := some q, last := r.s.now, seen := q :: c.seen.filter fun x => decide (seqDelta q x < h) })
    else if seqDelta q t ≤ 0 ∧ -(h : Int) < seqDelta q t ∧ !c.seen.contains q then
      (true, r.setCbState i { c with seen := q :: c.seen, last := r.s.now })
    else (false, r.countPort port 0x034)

/-- Sequence recovery of a tagged frame. -/
theorem cbRecover_tagged (hq : rtagSeq f = some q) :
    ∃ c h, c = cbMet r.s i ∧ r.cbRecover i port f = r.cbStep i port q h c := by
  unfold Run.cbRecover Run.cbStep
  generalize seqDelta = delta
  rw [hq]
  lift_lets
  intro w c₀
  generalize hb : decide (r.s.now ≥ c₀.last + bits w.2 15 0 * 1000000) = b
  intro c h
  refine ⟨c, h, by subst hb; rfl, ?_⟩
  cases c.top with
  | none => rfl
  | some t => rfl

/-- A number within the history that has passed before is discarded. -/
theorem cbStep_repeats {h : Nat} {c : CbState} (ht : c.top.isSome = true) (hs : c.seen.contains q = true)
    (hd : ∀ t, c.top = some t → seqDelta q t ≤ 0) : (r.cbStep i port q h c).1 = false := by
  obtain ⟨t, ht⟩ := Option.isSome_iff_exists.mp ht
  have hd := hd t ht
  unfold Run.cbStep
  rw [ht]
  dsimp only
  rw [if_neg fun h => by omega, if_neg fun h => by rw [hs] at h; exact absurd h.2.2 (by decide)]

/-- A number that passes is noted. -/
theorem cbStep_notes {h : Nat} {c : CbState} (hp : (r.cbStep i port q h c).1 = true) :
    (cbState (r.cbStep i port q h c).2.s i).seen.contains q = true := by
  have noted : ∀ {c : CbState} {l : List Nat}, c.seen = q :: l → (cbState (r.setCbState i c).s i).seen.contains q = true := by
    intro c l hc
    rw [cbState_setCbState r fun h => by rw [h] at hc; exact absurd hc (List.cons_ne_nil q l).symm, hc]
    exact List.contains_iff_mem.mpr List.mem_cons_self
  unfold Run.cbStep at hp ⊢
  cases ht : c.top with
  | none => exact noted rfl
  | some t =>
    rw [ht] at hp
    dsimp only at hp ⊢
    split
    · exact noted rfl
    · next h1 =>
      rw [if_neg h1] at hp
      split
      · exact noted rfl
      · next h2 =>
        rw [if_neg h2] at hp
        exact absurd hp Bool.false_ne_true

/-- Sequence recovery passes no number within its history twice, and notes each that passes. -/
theorem cbRecover_spec (hq : rtagSeq f = some q) :
    ((cbState r.s i).top.isSome = true → (cbState r.s i).seen.contains q = true →
      r.s.now < (cbState r.s i).last + bits (SMap.get (0, 0) r.s.eth.cbs i).2 15 0 * 1000000 →
      (∀ t, (cbState r.s i).top = some t → seqDelta q t ≤ 0) → (r.cbRecover i port f).1 = false) ∧
    ((r.cbRecover i port f).1 = true → (cbState (r.cbRecover i port f).2.s i).seen.contains q = true) := by
  obtain ⟨c, h, hc, he⟩ := cbRecover_tagged r (i := i) (port := port) hq
  rw [he]
  refine ⟨fun ht hs hn hd => ?_, cbStep_notes r⟩
  have hmet : cbMet r.s i = cbState r.s i := if_neg (by simpa using hn)
  rw [hmet] at hc
  subst hc
  exact cbStep_repeats r ht hs hd

end

/-- A frame that arrives on a port whose link is up (R332, R344). -/
theorem ethFrameRx_exec (up : s.halted = false) (raw : List Byte) (fcs : Bool) (hl : linkUp s n = true) :
    exec (.ethFrameRx n raw fcs) s = .next (
      let came := ((Run.start s).setPort n { ethPort s n with rxAt := max (ethPort s n).rxAt (s.timeAt tbEth) }).countPort n 0x020
      if fcs = true ∧ 60 ≤ raw.length ∧ raw.length ≤ 1518 then
        match came.unprotect n raw with
        | none => came.countPort n 0x030
        | some (bs, r) => r.switchFrame n bs (ingressStamp s n (raw.length + 4))
      else came.countPort n 0x028).s := by
  have hbad : (!fcs || decide (raw.length + 4 < 64) || decide (raw.length + 4 > 1522)) =
      !decide (fcs = true ∧ 60 ≤ raw.length ∧ raw.length ≤ 1518) := by
    rw [Bool.eq_iff_iff]
    simp only [Bool.or_eq_true, Bool.not_eq_true', decide_eq_true_eq, decide_eq_false_iff_not]
    cases fcs
    · simp
    · simp only [Bool.true_eq_false, true_and, false_or]
      omega
  show execEthFrameRx n raw fcs s = _
  unfold execEthFrameRx
  simp only [hl, hbad, Bool.not_true, Bool.false_eq_true, if_false]
  by_cases h : fcs = true ∧ 60 ≤ raw.length ∧ raw.length ≤ 1518
  · rw [if_pos h, decide_eq_true h, if_neg (by decide)]
    cases Run.unprotect _ n raw with
    | none => exact done_next up
    | some x => exact done_next up
  · rw [if_neg h, decide_eq_false h, if_pos (by decide)]
    exact done_next up

/-- A transmit slot of a flow that its tail covers is taken (R346). -/
theorem flowTxTake_exec (up : s.halted = false) (hk : cardKind s n = 6) (ha : cardActive s n = true) (hw : awake s = true)
    (ht : bits (cardW s n 11) 31 16 ≠ bits (cardW s n 11) 15 0) : exec (.flowTxTake n) s = .next (
      let idx := cardW s n 11
      let cfg := cardW s n 9
      let slot := 2 ^ bits cfg 11 8
      let c := ctxX s (cardCtx s n)
      let va := cardAddr s n 6 + slot * (bits idx 31 16 % 2 ^ bits cfg 7 4)
      let x := ((Run.start s).touchCard n).readBlock c va 4
      let r := match x.1 with
        | .error _ => x.2
        | .ok w =>
          let len := bits w 15 0
          let y := x.2.readBlock c (va + 16) len
          if bits w 31 16 ≠ 0 ∨ slot - 16 < len ∨ len < 14 then x.2
          else match y.1 with
            | .error _ => y.2
            | .ok v =>
              let f := Frame.parse (leBytes len v) (s.fld (portReg (bits cfg 1 0) 0) 11 0)
              y.2.ethEnqueue (bits cfg 1 0) f f.pcp
      (r.setHw n 11 ((bits idx 31 16 + 1) % 65536 * 65536 + bits idx 15 0)).cardEvent n).s := by
  show execFlowTxTake n s = _
  unfold execFlowTxTake
  simp only [hk, ha, hw, ht, ne_eq, not_true_eq_false, decide_false, Bool.not_true, Bool.or_false, Bool.false_eq_true, if_false,
    done_next up]
  generalize Run.readBlock _ _ _ 4 = e
  obtain ⟨e, q⟩ := e
  cases e with
  | error _ => rfl
  | ok w =>
    simp only [Bool.or_eq_true, decide_eq_true_eq, gt_iff_lt, or_assoc, decide_not, Bool.not_eq_true', decide_eq_false_iff_not]
    split
    · rfl
    · generalize Run.readBlock _ _ _ _ = e
      obtain ⟨e, q⟩ := e
      cases e with
      | error _ => rfl
      | ok v => rfl

end

/-- Settles O50: each event by its conditions, the class that starts next, and sequence recovery. -/
theorem ethernetFrames : Obligations.EthernetFrames := by
  refine ⟨fun n raw fcs => ?received, fun s n len => ingressStamp_spec len,
    fun s r n stamp raw h => switchFrame_of_not_member r h, fun n => .intro fun s up _ => ⟨_, done_next up, rfl⟩,
    fun s n c f rest h => nextClass_spec h, fun s r i port f q hq => cbRecover_spec r hq,
    fun n => .intro fun s up ⟨hk, ha, hw, ht⟩ => ⟨_, flowTxTake_exec up hk ha hw ht, rfl⟩⟩
  case received =>
    intro fits came
    refine ⟨fun s up _ hl => ⟨s, ?_, rfl⟩, .intro fun s up ⟨hl, hf⟩ => ⟨_, ethFrameRx_exec up raw fcs hl, if_neg hf⟩,
      fun s up hl hf => ⟨fun h => ?_, fun bs r h => ?_⟩⟩
    · show execEthFrameRx n raw fcs s = _
      unfold execEthFrameRx
      simp only [hl, Bool.not_false, if_true]
      exact done_next up
    · rw [ethFrameRx_exec up raw fcs hl]
      dsimp only
      rw [if_pos hf, h]
    · rw [ethFrameRx_exec up raw fcs hl]
      dsimp only
      rw [if_pos hf, h]

end Sys2Proof.Machine
end


section
/-! PROOFS. Microphones, the archive and the mute path (R352 to R368). -/

namespace Sys2Proof.Machine

/-! ## The row in assembly -/

/-- The row in assembly: its number, and the stamps of the first samples of the row before it and of its own. -/
def audRow (s : State) : Nat × Nat × Nat := (s.aud.rowSeq, s.aud.prev, s.aud.rowStart)

section
variable {z : State} (r : Run z)

/-- What a store cannot change is as it was: the row in assembly and what a block reads as fabric time. -/
theorem Via.store_audRow {s t : State} (h : Via StoreUpd s t) : (audRow t, t.now, t.copies) = (audRow s, s.now, s.copies) :=
  h.keep (fun s => (audRow s, s.now, s.copies)) fun u hu x => by
    cases u with
    | now _ => exact hu.elim
    | realign _ => exact hu.elim
    | aud _ => exact hu.elim
    | gang _ g => cases g <;> rfl
    | _ => rfl

theorem audRow_copyRow (c : ACopy) (row : Nat) :
    (audRow (r.copyRow c row).s, (r.copyRow c row).s.now, (r.copyRow c row).s.copies) = (audRow r.s, r.s.now, r.s.copies) := by
  have put : ∀ (x : XCtx) (va : Nat) (bs : List Byte) (r : Run z), Via StoreUpd r.s
      (match r.writeVirtBytes x va bs with | .ok r => r | .error _ => r).s := by
    intro x va bs r
    unfold Run.writeVirtBytes
    cases lookupBytes r.s x .store va bs.length with
    | error _ => exact .refl
    | ok as => exact ((Via.refl.store_scrubWalk x va).store_markRange x .store va bs.length).store_storePhys _
  refine Via.store_audRow ?_
  unfold Run.copyRow
  exact .ite (fun _ => put _ _ _ r) fun _ => Via.refl.each fun j _ r h => h.trans (put _ _ _ r)

theorem audRow_copyRows (c : ACopy) (n : Nat) :
    (audRow (r.copyRows c n).s, (r.copyRows c n).s.now, (r.copyRows c n).s.copies) = (audRow r.s, r.s.now, r.s.copies) :=
  Run.each_keep (fun s => (audRow s, s.now, s.copies)) (fun i _ r => audRow_copyRow r c (c.first / 512 + i)) r

theorem audRow_takeMirrors (p : Nat → Bool) : audRow (r.takeMirrors p).s = audRow r.s :=
  Run.each_keep audRow (f := fun k r => r.takeMirror k) (fun k _ r => by unfold Run.takeMirror; cases regDesc k <;> rfl) r

theorem audRow_settlePorts : audRow r.settlePorts.s = audRow r.s :=
  Run.each_keep audRow (fun n _ r => by extract_lets p p'; split <;> rfl) r

theorem audRow_settleLed : audRow r.settleLed.s = audRow r.s := by
  unfold Run.settleLed
  split <;> rfl

/-- What takes effect at a row boundary leaves the row in assembly. -/
theorem audRow_rowBoundary : audRow r.rowBoundary.s = audRow r.s := by
  unfold Run.rowBoundary
  extract_lets aecWas r1 aecNow r2 low changed was r3 r4 r5 r6 r7 f deep
  have h1 : audRow r1.s = audRow r.s := audRow_takeMirrors r _
  have h2 : audRow r2.s = audRow r1.s := Run.when_keep audRow _ rfl
  have h5 : audRow r5.s = audRow r4.s :=
    Run.when_keep audRow _ (Run.each_keep audRow (fun n _ r => by extract_lets p; split <;> rfl) r4)
  have h6 : audRow r6.s = audRow r5.s :=
    Run.when_keep audRow _ (Run.each_keep audRow (fun n _ r => by exact rfl) r5)
  calc
    _ = audRow r7.s := Run.each_keep audRow (fun n _ r => by split <;> rfl) r7
    _ = audRow r6.s := audRow_settleLed r6
    _ = audRow r3.s := h6.trans (h5.trans (audRow_settlePorts r3))
    _ = audRow r.s := h2.trans h1

theorem timeAt_setFld (k hi lo v b : Nat) : (r.setFld k hi lo v).s.timeAt b = r.s.timeAt b := rfl

theorem timeAt_setReg64 (k v b : Nat) : (r.setReg64 k v).s.timeAt b = r.s.timeAt b := rfl

/-- A row that completes is followed by the next, which starts within 500 ppm of 32 ms (R352, R361). -/
theorem audRow_rowComplete (xs : List (List (BitVec 16))) : audRow (r.rowComplete xs).s =
    (r.s.aud.rowSeq + 1, r.s.aud.rowStart, min (r.s.timeAt tbAud) (r.s.aud.rowStart + 32016000)) := by
  unfold Run.rowComplete
  extract_lets r1 a
  have h1 : (audRow r1.s, r1.s.now, r1.s.copies) = (audRow r.s, r.s.now, r.s.copies) := by
    dsimp only [r1]
    cases r.s.aud.copy with
    | none => rfl
    | some c =>
      dsimp only
      split
      · exact audRow_copyRows r c _
      · rfl
  simp only [audRow, Prod.mk.injEq] at h1
  obtain ⟨⟨hq, hp, hs⟩, hn, hc⟩ := h1
  split
  next bs coder _ =>
  extract_lets r2 r3 r4
  have ht : r4.s.timeAt tbAud = r.s.timeAt tbAud :=
    calc
      r4.s.timeAt tbAud = r3.s.timeAt tbAud := timeAt_setFld r3 _ _ _ _ _
      _ = r2.s.timeAt tbAud := timeAt_setReg64 r2 _ _ _
      _ = r1.s.timeAt tbAud := by rw [show r2.s = _ from setBytes_rest r1 (rowAddr a.rowSeq) bs]; rfl
      _ = r.s.timeAt tbAud := by simp only [State.timeAt, hn, hc]
  rw [audRow_rowBoundary, ← ht, ← hq, ← hs]
  rfl

end

/-! ## The coder (R360) -/

theorem sat16_bounds (i : Int) : -32768 ≤ sat16 i ∧ sat16 i ≤ 32767 := by
  unfold sat16
  split
  · omega
  · split <;> omega

theorem imaStep_bounds (p : Int) (i code : Nat) :
    -32768 ≤ (imaStep (p, i) code).1 ∧ (imaStep (p, i) code).1 ≤ 32767 ∧ (imaStep (p, i) code).2 ≤ 88 := by
  unfold imaStep
  extract_lets step d p' adj j
  refine ⟨(sat16_bounds p').1, (sat16_bounds p').2, ?_⟩
  dsimp only
  split
  · omega
  · split <;> omega

theorem imaCode_lt (p x : Int) (i : Nat) : imaCode (p, i) x < 16 := by
  have hb : ∀ b : Bool, b2n b ≤ 1 := by decide
  unfold imaCode
  extract_lets step neg d b2 d1 b1 d2 b0
  have h3 := hb neg
  have h2 := hb b2
  have h1 := hb b1
  have h0 := hb b0
  omega

/-! ## The events -/

section
variable {s : State} {n : Nat}

theorem micClockStart_exec {t : Nat} (up : s.halted = false) (hn : n < 4) (hp : (audPort s n).pwrAt = some t)
    (hc : (audPort s n).clockAt = none) (ht : t + micPwrDly s n ≤ s.now) : exec (.micClockStart n) s = .next
      ((Run.start s).setAud { s.aud with
        ports := SMap.set {} s.aud.ports n { audPort s n with clockAt := some s.now } }).settleLed.s := by
  show execMicClockStart n s = _
  unfold execMicClockStart
  simp only [hp, hn, hc, ge_iff_le, ht, Option.isNone_none, decide_true, Bool.and_self, if_true]
  exact done_next up

theorem micBlockDeliver_exec {mics : List (List (BitVec 16))} (up : s.halted = false) (hk : cardKind s n = 3)
    (ha : cardActive s n = true) (hw : awake s = true) (hf : s.aud.fast = true) (hp : micPlanes s n ≠ [])
    (ht : (SMap.get (512 * s.aud.rowSeq, 0) s.aud.mic n).1 + 16 * blkMs s n - 1 ≤ archNow s) :
    exec (.micBlockDeliver n mics) s = .next ((Run.start s).micDeliver n (SMap.get (512 * s.aud.rowSeq, 0) s.aud.mic n).1
      (SMap.get (512 * s.aud.rowSeq, 0) s.aud.mic n).2 mics).s := by
  have hp : (micPlanes s n).isEmpty = false := by simpa using hp
  show execMicBlockDeliver n mics s = _
  unfold execMicBlockDeliver
  simp only [hk, ha, hw, hf, hp, Nat.not_lt.mpr ht, ne_eq, not_true_eq_false, decide_false, Bool.not_true, Bool.or_false,
    Bool.false_eq_true, if_false]
  exact done_next up

/-- Where the blocks of an output card stand at fabric time (R368). -/
def outBlock (s : State) (n : Nat) : Nat := s.aud.rowStart + (s.now - s.aud.rowStart) / (blkMs s n * 1000000) * (blkMs s n * 1000000)

/-- How far a doorbell at least 1 ms old covers the ring of an output card (R368). -/
def outTail (s : State) (n : Nat) : Nat :=
  match (SMap.get [] s.aud.tails n).find? fun x => decide (x.2 + 1000000 ≤ outBlock s n) with
  | some x => x.1
  | none => bits (cardW s n 7) 31 16

/-- A block begins, and carries the bytes given. -/
def Run.outPlays {z : State} (r : Run z) (s : State) (n : Nat) (ok : Bool) (bs : List Byte) : Run z :=
  r.setAud { r.s.aud with
    out := SMap.insert r.s.aud.out n (outBlock s n, ok)
    spk := SMap.insert r.s.aud.spk (bits (cardW s n 6) 0 0) (bit (cardW s n 6) 8, bs) }

/-- How many blocks a doorbell covers is a number of blocks that an output card may play from. -/
def outReady (s : State) (n : Nat) : Prop :=
  (outTail s n + 65536 - bits (cardW s n 7) 31 16) % 65536 ≠ 0 ∧ (outTail s n + 65536 - bits (cardW s n 7) 31 16) % 65536 ≤ 4096

/-- The block at the head of the ring of an output card is played and given back (R368). -/
def Run.outTakes {z : State} (r : Run z) (s : State) (n : Nat) : Run z :=
  let head := bits (cardW s n 7) 31 16
  let c := ctxX s (cardCtx s n)
  let va := cardAddr s n 4 + outSlot s n * (head % 2 ^ bits (cardW s n 6) 15 12)
  let x := r.readBlock c (va + 16) (768 * blkMs s n)
  let r := match x.1 with
    | .ok v => x.2.outPlays s n true (leBytes (768 * blkMs s n) v)
    | .error _ => x.2.outPlays s n true []
  let r := (r.tryWrite c (va + 8) 8 (outBlock s n)).tryWrite c va 4 (2 ^ 31)
  (r.setHw n 7 ((head + 1) % 65536 * 65536 + bits (cardW s n 7) 15 0)).cardEvent n

/-- A block of zeros is played (R368). -/
def Run.outIdles {z : State} (r : Run z) (s : State) (n : Nat) : Run z :=
  let r := r.outPlays s n false []
  if (SMap.get (0, false) s.aud.out n).2 then r.bumpHw n 8 else r

/-- At a block boundary an output card plays a block that is covered, and zeros where none is (R368). -/
theorem outputBlockPlay_exec (up : s.halted = false) (hk : cardKind s n = 4) (ha : cardActive s n = true) (hw : awake s = true)
    (ht : SMap.find? s.aud.out n = none ∨ (SMap.get (0, false) s.aud.out n).1 < outBlock s n) :
    (outReady s n → exec (.outputBlockPlay n) s = .next ((Run.start s).outTakes s n).s) ∧
    (¬ outReady s n → exec (.outputBlockPlay n) s = .next ((Run.start s).outIdles s n).s) := by
  have hold : ¬ (decide (cardKind s n ≠ 4) || !cardActive s n || !awake s ||
      decide (outBlock s n ≤ (SMap.get (0, false) s.aud.out n).1) && (SMap.find? s.aud.out n).isSome) = true := by
    rcases ht with h | h
    · simp [hk, ha, hw, h]
    · simp [hk, ha, hw, Nat.not_le.mpr h]
  have he : exec (.outputBlockPlay n) s = execOutputBlockPlay n s := rfl
  rw [he]
  unfold execOutputBlockPlay
  extract_lets r per t idx head tail ready port wide play r0 c va len r1 r2
  have hr : ready = true ↔ outReady s n := by
    simp only [ready, outReady, Bool.and_eq_true, decide_eq_true_eq]
    rfl
  have hp : play = fun q bs => q.outPlays s n ready bs := rfl
  rw [show t = outBlock s n from rfl]
  cases hl : SMap.get (0, false) s.aud.out n with
  | mk last played =>
    rw [hl] at hold
    simp only [if_neg hold]
    refine ⟨fun h => ?_, fun h => ?_⟩
    · rw [if_neg (by simpa using hr.mpr h), done_next up]
      unfold Run.outTakes
      simp only [r2, r1, hp, hr.mpr h, c, va, len]
      generalize Run.readBlock _ _ _ _ = x
      obtain ⟨x, q⟩ := x
      cases x <;> rfl
    · have hr : ready = false := Bool.eq_false_iff.mpr (mt hr.mp h)
      rw [if_pos (by simpa using hr), done_next up]
      unfold Run.outIdles
      simp only [r0, hp, hr, hl]
      rfl

end

/-- Settles O51: each event by its conditions, the row in assembly, and the ranges of the coder. -/
theorem audioEvents : Obligations.AudioEvents := by
  refine ⟨fun n t hn => .intro fun s up ⟨hp, hc, ht⟩ => ⟨_, micClockStart_exec up hn hp hc ht, rfl⟩,
    fun xs => .intro fun s up ht => ⟨_, ?row, rfl⟩, fun s r xs => ?rows, fun c => .intro fun s up ⟨hc, hw⟩ => ⟨_, ?copied, rfl⟩,
    fun n mics => .intro fun s up ⟨hk, ha, hw, hf, hp, ht⟩ => ⟨_, micBlockDeliver_exec up hk ha hw hf hp ht, rfl⟩,
    fun n => ?played, .intro fun s up hm => ⟨_, ?engaged, rfl⟩, .intro fun s up hm => ⟨_, ?released, rfl⟩,
    imaStep_bounds, imaCode_lt⟩
  case row =>
    show execArchiveRowComplete xs s = _
    unfold execArchiveRowComplete
    rw [if_neg (Nat.not_lt.mpr ht)]
    exact done_next up
  case rows =>
    have h := audRow_rowComplete r xs
    simp only [audRow, Prod.mk.injEq] at h
    exact h
  case copied =>
    show execArchiveCopyEnd s = _
    unfold execArchiveCopyEnd
    simp only [hc, hw, if_true]
    exact done_next up
  case played =>
    intro t head tail turn ready play
    exact ⟨.intro fun s up ⟨⟨hk, ha, hw, ht⟩, hr⟩ => ⟨_, (outputBlockPlay_exec up hk ha hw ht).1 hr, rfl⟩,
      .intro fun s up ⟨⟨hk, ha, hw, ht⟩, hr⟩ => ⟨_, (outputBlockPlay_exec up hk ha hw ht).2 hr, rfl⟩⟩
  case engaged =>
    show execMuteEngage s = _
    unfold execMuteEngage
    simp only [hm, Bool.false_eq_true, if_false]
    exact done_next up
  case released =>
    show execMuteRelease s = _
    unfold execMuteRelease
    simp only [hm, Bool.not_true, Bool.false_eq_true, if_false]
    exact done_next up

end Sys2Proof.Machine
end


section
/-! PROOFS. The ladders: Loupe and Lens, the frames of cameras, deadlines and tickets (R371 to R377, R403 to R413). -/

namespace Sys2Proof.Machine

section
variable {s : State} {n : Nat}

/-! ## Loupe (R371) -/

/-- What Loupe makes of a frame: its state, whether it triggers, and whether its activity ends. -/
def loupeJudged (s : State) (l : Loupe) (xs : List (BitVec 16)) : Loupe × Bool × Bool :=
  loupeStep (s.reg (audReg 0x200)).toNat l
    (loupeE (((xs ++ List.replicate 160 0).take 160).foldl (fun m (x : BitVec 16) => m + x.toInt.natAbs ^ 2) 0))

/-- Loupe takes a judgement: its state, and a trigger where there is one. -/
def Run.loupeHears (r : Run s) (n : Nat) (j : Loupe × Bool × Bool) : Run s :=
  let r := r.setAud { s.aud with loupe := SMap.insert s.aud.loupe n j.1 }
  if j.2.1 then r.loupeTrigger n (160 * j.1.next) else r

/-- Where a ladder moves on a frame of Loupe's (R407, R408). -/
def Run.loupeMoves {z : State} (r : Run z) (n onset stamp : Nat) (d : Ladder) (j : Loupe × Bool × Bool) : Run z :=
  let ev : LEval := { key := n, entry := 0, stamp := stamp, score := 0 }
  let run := if j.1.run = 0 then 0 else d.run + 1
  if d.rung = 0 then
    if j.1.active = true ∧ onset ≤ run ∨ j.2.1 = true then r.moveRung n 1 ev 0 else r.setLadder n { d with run := run }
  else if d.rung = 1 ∧ j.2.2 = true then r.moveRung n 0 ev 0
  else r

theorem loupeFrame_exec {xs : List (BitVec 16)} {l : Loupe} (up : s.halted = false) (hl : SMap.find? s.aud.loupe n = some l)
    (hm : muted s = false) (ht : stampOf s (160 * (l.next + 1)) ≤ s.now) : exec (.loupeFrame n xs) s = .next (
      let j := loupeJudged s l xs
      let r := (Run.start s).loupeHears n j
      match ladder? r.s n with
      | none => r.ladRun
      | some d => (r.loupeMoves n (bits (s.reg (audReg 0x200)).toNat 25 22 + 1) (stampOf s (160 * j.1.next)) d j).ladRun).s := by
  generalize hj : loupeJudged s l xs = j
  unfold loupeJudged at hj
  have hh : (((Run.start s).setAud { s.aud with loupe := SMap.insert s.aud.loupe n j.1 }).when j.2.1 fun r =>
      r.loupeTrigger n (160 * j.1.next)) = (Run.start s).loupeHears n j := rfl
  show execLoupeFrame n xs s = _
  unfold execLoupeFrame
  simp only [hl, hm, Nat.not_lt.mpr ht, decide_false, Bool.or_false, Bool.false_eq_true, if_false, hj, hh, done_next up]
  generalize (Run.start s).loupeHears n j = r
  cases hd : ladder? r.s n with
  | none => rfl
  | some d =>
    simp only [Run.loupeMoves, Bool.or_eq_true, Bool.and_eq_true, decide_eq_true_eq, ge_iff_le]
    generalize (if j.1.run = 0 then 0 else d.run + 1) = run
    split
    · split <;> rfl
    · split <;> rfl

/-! ## Lens (R372) -/

/-- What the keyword model makes of the hop of an array that Lens scores next: a state and a score for each island beam. -/
def lensOut (s : State) (n : Nat) (l : Lens) : List (Nat × BitVec 8) :=
  (List.range 4).map fun b => Config.lensModel (l.state.getD b 0) ((List.range 160).map fun i => islandBeam s n b (160 * l.next + i))

/-- The score of an island beam. -/
def lensScore (s : State) (n : Nat) (l : Lens) (b : Nat) : Nat := (((lensOut s n l).getD b (0, 0)).2).toNat

/-- For how many hops each island beam has scored enough. -/
def lensRuns (s : State) (n : Nat) (l : Lens) : List Nat :=
  (List.range 4).map fun b => if bits (s.reg (audReg 0x204)).toNat 31 24 ≤ lensScore s n l b then l.runs.getD b 0 + 1 else 0

/-- The island beam that decides. -/
def lensBeam (s : State) (n : Nat) (l : Lens) : Option Nat :=
  (List.range 4).find? fun b => decide (bits (s.reg (audReg 0x204)).toNat 23 20 ≤ (lensRuns s n l).getD b 0)

/-- The activity of Loupe's in which a hop lies. -/
def lensAct (s : State) (n hop : Nat) : Option (Nat × Option Nat) :=
  match SMap.find? s.aud.loupe n with
  | some u => u.acts.find? fun a => decide (a.1 ≤ hop) && (match a.2 with | some t => decide (hop + 160 ≤ t) | none => true)
  | none => none

/-- Lens takes its scores of a hop. -/
def Run.lensHears (r : Run s) (n : Nat) (l : Lens) (runs : List Nat) : Run s :=
  r.setAud { s.aud with lens := SMap.insert s.aud.lens n { next := l.next + 1, runs := runs, state := (lensOut s n l).map (·.1) } }

/-- A ladder climbs to A2 on a decision of Lens, from the start of the activity on (R409). -/
def Run.lensClimbs (r : Run s) (n : Nat) (l : Lens) (a b : Nat) (d : Ladder) : Run s :=
  let hop := 160 * l.next
  let want := a - bits (s.reg (audReg 0x204)).toNat 19 15 * 160
  let start := max want (oldestIndex s)
  let cut := decide (ladW s 2 8 < hop + 160 - start)
  (r.setLadder n { d with start := start, stop := hop + 160 }).moveRung n 2 {
    key := n, entry := 1, stamp := s.timeAt tbAud, score := lensScore s n l b, beam := b
    clamped := decide (start ≠ want) || cut } 0

theorem lensAct_of_newest {u : Loupe} {a hop : Nat} {stop : Option Nat} {more : List (Nat × Option Nat)}
    (hu : SMap.find? s.aud.loupe n = some u) (hs : u.acts = (a, stop) :: more) (ha : a ≤ hop)
    (hp : ∀ t, stop = some t → hop + 160 ≤ t) : lensAct s n hop = some (a, stop) := by
  unfold lensAct
  simp only [hu, hs]
  refine List.find?_cons_of_pos ?_
  cases stop with
  | none => simpa using ha
  | some t => simpa using ⟨ha, hp t rfl⟩

theorem wakeTo_lad {z : State} (r : Run z) (source target : Nat) : (r.wakeTo source target).s.lad = r.s.lad := by
  unfold Run.wakeTo
  cases r.s.power.entering with
  | some e => dsimp only; split <;> rfl
  | none => dsimp only; split <;> rfl

theorem lensHop_exec {l : Lens} (up : s.halted = false) (hl : SMap.find? s.aud.lens n = some l)
    (hm : muted s = false) (ht : 160 * l.next + 160 ≤ archNewest s) : exec (.lensHop n l.next) s = .next (
      match lensAct s n (160 * l.next), lensBeam s n l with
      | some a, some b =>
        let r := ((Run.start s).lensHears n l [0, 0, 0, 0]).wakeTo 4 1
        match ladder? r.s n with
        | none => r.ladRun
        | some d => if 2 ≤ d.rung ∨ rungBusy d 2 = true then r.ladRun else (r.lensClimbs n l a.1 b d).ladRun
      | _, _ => ((Run.start s).lensHears n l (lensRuns s n l)).ladRun).s := by
  show execLensHop n l.next s = _
  unfold execLensHop
  simp only [hl, hm, Nat.not_lt.mpr ht, gt_iff_lt, ne_eq, not_true_eq_false, decide_false, Bool.or_false, Bool.false_eq_true, if_false]
  change (match lensAct s n (160 * l.next), lensBeam s n l with | some a, some b => _ | _, _ => _) = _
  cases lensAct s n (160 * l.next) with
  | none => exact done_next up
  | some a =>
    cases lensBeam s n l with
    | none => exact done_next up
    | some b =>
      dsimp only
      generalize hr : Run.wakeTo _ 4 1 = r
      have hr : ((Run.start s).lensHears n l [0, 0, 0, 0]).wakeTo 4 1 = r := hr
      have hc : ladW r.s 2 8 = ladW s 2 8 := by
        rw [← hr]
        unfold ladW
        rw [wakeTo_lad]
        rfl
      rw [hr]
      cases ladder? r.s n with
      | none => exact done_next up
      | some d =>
        simp only [Bool.or_eq_true, decide_eq_true_eq, ge_iff_le, done_next up, hc]
        split <;> rfl

/-! ## Frames, deadlines and timers (R387, R406, R408, R410) -/

/-- A frame of a stream reaches its ladder: a PERIODIC rung that is due waits to submit with it, and V0 judges it. -/
def Run.frameSeen {z : State} (r : Run z) (k slot : Nat) (f : CamFrame) (tap : List Byte) (l : Ladder) : Run z :=
  let e := ladEntry l.rung
  let g := (List.range 256).map (zoneGreen tap)
  let score := if l.zones = [] then 0 else zoneScore (ladW r.s 5 2) l.zones g
  let per := ladW r.s e 2 * 1000000
  let seen : Ladder := { l with zones := g, fseq := f.seq, fslot := some slot }
  let w := r.setLadder k (if ladMode r.s e = 1 ∧ l.rung ≠ 0x10 ∧ l.waiting = false ∧ l.due ≤ r.s.now then
    { seen with waiting := true, due := if per = 0 then l.due else l.due + ((r.s.now - l.due) / per + 1) * per }
    else seen)
  if l.rung = 0x10 then w.queueEval {
    key := k, entry := 5, stamp := f.fe.getD w.s.now, score := score, fseq := f.seq, fslot := slot } else w

theorem frameDeliver_exec (up : s.halted = false) (hk : cardKind s n = 2) (ha : awake s = true) :
    exec (.frameDeliver n) s = .next (
      let x := (Run.start s).frameDeliver n
      match x.1 with
      | none => x.2
      | some y =>
        let k := 16 + (CamCfg.of y.1.cfg).stream
        match ladder? x.2.s k with
        | none => x.2.ladRun
        | some l => (x.2.frameSeen k (bits (cardW s n 16) 15 0) y.1 y.2 l).ladRun).s := by
  show execFrameDeliver n s = _
  unfold execFrameDeliver
  simp only [hk, ha, ne_eq, not_true_eq_false, decide_false, Bool.not_true, Bool.or_false, Bool.false_eq_true, if_false]
  generalize (Run.start s).frameDeliver n = x
  obtain ⟨y, r⟩ := x
  cases y with
  | none => exact done_next up
  | some y =>
    obtain ⟨f, tap⟩ := y
    dsimp only
    cases ladder? r.s (16 + (CamCfg.of f.cfg).stream) with
    | none => exact done_next up
    | some l =>
      dsimp only
      simp only [Run.frameSeen, ne_eq, Bool.and_eq_true, decide_eq_true_eq, Bool.not_eq_true', and_assoc, ge_iff_le,
        List.isEmpty_iff, done_next up]
      by_cases h : ladMode r.s (ladEntry l.rung) = 1 ∧ ¬ l.rung = 0x10 ∧ l.waiting = false ∧ l.due ≤ r.s.now
      · obtain ⟨_, hv, _⟩ := id h
        simp only [if_pos h]
        simp only [Run.when, hv, decide_false, Bool.false_eq_true, if_false]
        rfl
      · simp only [if_neg h, Run.when, decide_eq_true_eq]

theorem verdictDeadline_exec {k : Nat} {l : Ladder} (up : s.halted = false) (hl : ladder? s k = some l) :
    let vdl := fun (b : LSub) => ladW s (ladEntry b.rung) 11 * 1000000
    let late := fun (b : LSub) => b.settled = false ∧ b.service = false ∧ b.at_ + vdl b < s.now
    exec (.verdictDeadline k) s = .next (
      let q := (Run.start s).setLadder k { l with subs := l.subs.map fun b => if late b then { b with settled := true } else b }
      (q.each (l.subs.filter fun b => decide (late b)) fun b r => r.queueEval {
        key := k, entry := ladEntry b.rung, stamp := b.at_ + vdl b, score := 0, failed := true, fseq := b.fseq
        fslot := b.fslot.getD 0 }).ladRun).s := by
  have hb : ∀ (a b : Bool) (i j : Nat), (!a && !b && decide (i > j)) = decide (a = false ∧ b = false ∧ j < i) := by
    intro a b i j
    rw [Bool.eq_iff_iff]
    simp only [Bool.and_eq_true, Bool.not_eq_true', decide_eq_true_eq, and_assoc, gt_iff_lt]
  show execVerdictDeadline k s = _
  unfold execVerdictDeadline
  simp only [hl, hb, decide_eq_true_eq]
  exact done_next up

theorem demotionExpiry_exec {k t : Nat} {l : Ladder} (up : s.halted = false) (hl : ladder? (Run.start s).ladFlush.s k = some l)
    (hd : demotionAt (Run.start s).ladFlush.s k l = some t) (hf : fwRuns (Run.start s).ladFlush.s 2 = true)
    (ht : t < (Run.start s).ladFlush.s.now) : exec (.demotionExpiry k) s = .next ((Run.start s).ladFlush.descend k
      { key := k, entry := ladEntry l.rung, stamp := t, score := 0, fseq := l.fseq, fslot := l.fslot.getD 0 } 4).ladRun.s := by
  show execDemotionExpiry k s = _
  unfold execDemotionExpiry
  simp only [hl, hd, hf, gt_iff_lt, ht, decide_true, Bool.and_self, if_true]
  exact done_next up

theorem periodicSubmit_exec {k : Nat} {l : Ladder} (up : s.halted = false) (hl : ladder? (Run.start s).ladFlush.s k = some l)
    (hk : k < 16) (h2 : 2 ≤ l.rung) (hm : ladMode (Run.start s).ladFlush.s (ladEntry l.rung) = 1) (hw : l.waiting = false)
    (hd : l.due ≤ (Run.start s).ladFlush.s.now) : exec (.periodicSubmit k) s = .next (
      let q := (Run.start s).ladFlush
      let per := max 1 (ladW q.s (ladEntry l.rung) 2) * 1000000
      (q.setLadder k { l with waiting := true, due := l.due + ((q.s.now - l.due) / per + 1) * per }).ladRun).s := by
  have hn : ∀ due per now, nextDue due (max 1 per * 1000000) now =
      due + ((now - due) / (max 1 per * 1000000) + 1) * (max 1 per * 1000000) :=
    fun due per now => if_neg (Nat.mul_ne_zero (by omega) (by decide))
  show execPeriodicSubmit k s = _
  unfold execPeriodicSubmit
  simp only [hl, hk, ge_iff_le, h2, hm, hw, hd, decide_true, Bool.not_false, Bool.and_self, if_true, hn]
  exact done_next up

/-- A ladder comes down to a rung between its base and the one it stands on: its base, or one that is not ONCE and can be entered. -/
theorem lowerRung_spec {k : Nat} {l : Ladder} (h : baseRung k ≤ l.rung) : lowerRung s k l ≤ l.rung ∧ baseRung k ≤ lowerRung s k l ∧
    (lowerRung s k l = baseRung k ∨ onceRung s (lowerRung s k l) = false ∧ rungBusy l (lowerRung s k l) = false) := by
  unfold lowerRung
  dsimp only
  cases hf : List.find? _ _ with
  | none => exact ⟨h, le_rfl, .inl rfl⟩
  | some x =>
    have hx := List.find?_some hf
    obtain ⟨i, hi, rfl⟩ := List.mem_map.mp (List.mem_of_find?_eq_some hf)
    have hi : i < l.rung - baseRung k := by simpa using hi
    refine ⟨?_, Nat.le_add_right _ _, ?_⟩
    · show baseRung k + i ≤ l.rung
      omega
    · simpa using hx

/-- An evaluation of another rung than the one a ladder stands on, or made before the arrival there, changes nothing. -/
theorem judge_stale {z : State} {r : Run z} {ev : LEval} {l : Ladder} (hl : ladder? r.s ev.key = some l)
    (hd : ∀ x, demotionAt r.s ev.key l = some x → ev.stamp ≤ x) (h : ladEntry l.rung ≠ ev.entry ∨ ev.stamp < l.since) :
    r.judge ev = r := by
  have he : Run.expireBefore ev.key ev.stamp 3 r = r := by
    unfold Run.expireBefore
    rw [hl]
    cases hx : demotionAt r.s ev.key l with
    | none => simp [hx]
    | some x => simp [hx, hd x hx]
  unfold Run.judge
  rw [he]
  simp only [hl]
  rw [if_pos (by simpa using h)]

end

/-- Settles O52: each event by its conditions, where a ladder comes down to, and the evaluations that change nothing. -/
theorem ladderEvents : Obligations.LadderEvents := by
  refine ⟨fun n xs l => ?loupe, fun n l => ?lens, fun n => ?frame, fun k l => ?timers,
    fun w rest => .intro fun s up ⟨hq, hr⟩ => ⟨_, ?ticket, rfl⟩, fun s k l h => lowerRung_spec h,
    fun z r ev l hl hd h => judge_stale hl hd h⟩
  case loupe =>
    intro e judged heard due ev
    have row : ∀ {s : State} {m : Option Ladder}, s.halted = false → due s → ladder? (heard s (Run.start s)).s n = m →
        exec (.loupeFrame n xs) s = .next (match m with
          | none => (heard s (Run.start s)).ladRun
          | some d => ((heard s (Run.start s)).loupeMoves n (bits (s.reg (audReg 0x200)).toNat 25 22 + 1)
              (stampOf s (160 * (judged s).1.next)) d (judged s)).ladRun).s := by
      intro s m up ⟨hl, hm, ht⟩ hd
      subst hd
      exact loupeFrame_exec up hl hm ht
    refine ⟨.intro fun s up ⟨hd, hn⟩ => ⟨_, row up hd hn, rfl⟩, fun d => ?_⟩
    intro at_ run climbs
    refine ⟨.intro fun s up ⟨⟨hd, hl⟩, h0, hc⟩ => ⟨_, row up hd hl, ?_⟩,
      .intro fun s up ⟨⟨hd, hl⟩, h0, hc⟩ => ⟨_, row up hd hl, ?_⟩,
      .intro fun s up ⟨⟨hd, hl⟩, h1, he⟩ => ⟨_, row up hd hl, ?_⟩,
      .intro fun s up ⟨⟨hd, hl⟩, h0, he⟩ => ⟨_, row up hd hl, ?_⟩⟩
    · simp only [Run.loupeMoves]
      rw [if_pos h0, if_pos hc]
    · simp only [Run.loupeMoves]
      rw [if_pos h0, if_neg hc]
    · simp only [Run.loupeMoves]
      rw [if_neg (by omega), if_pos ⟨h1, he⟩]
    · have hn : ¬ (d.rung = 1 ∧ (judged s).2.2 = true) := by
        rintro ⟨h1, h2⟩
        rcases he with he | he
        · exact he h1
        · exact absurd h2 (by simp [he])
      simp only [Run.loupeMoves]
      rw [if_neg h0, if_neg hn]
  case lens =>
    intro hop cfg out score runs beam due heard
    refine ⟨.intro fun s up ⟨⟨hl, hm, ht⟩, hb⟩ => ⟨_, (lensHop_exec up hl hm ht).trans ?_, rfl⟩,
      fun b a stop more u d => ?_⟩
    · have hb : lensBeam s n l = none := hb
      rw [hb]
      cases lensAct s n (160 * l.next) <;> rfl
    · intro woken found waits
      refine ⟨.intro fun s up ⟨⟨⟨hl, hm, ht⟩, hb, hu, hs, ha, hp, hd⟩, hw⟩ => ⟨_, (lensHop_exec up hl hm ht).trans ?_, rfl⟩,
        .intro fun s up ⟨⟨⟨hl, hm, ht⟩, hb, hu, hs, ha, hp, hd⟩, hw⟩ => ⟨_, (lensHop_exec up hl hm ht).trans ?_, rfl⟩⟩
      · rw [lensAct_of_newest hu hs ha hp, show lensBeam s n l = some b from hb]
        dsimp only
        rw [show ladder? (((Run.start s).lensHears n l [0, 0, 0, 0]).wakeTo 4 1).s n = some d from hd]
        simp only [if_pos (show 2 ≤ d.rung ∨ rungBusy d 2 = true from hw)]
        rfl
      · rw [lensAct_of_newest hu hs ha hp, show lensBeam s n l = some b from hb]
        dsimp only
        rw [show ladder? (((Run.start s).lensHears n l [0, 0, 0, 0]).wakeTo 4 1).s n = some d from hd]
        simp only [if_neg (show ¬ (2 ≤ d.rung ∨ rungBusy d 2 = true) from hw)]
        rfl
  case frame =>
    refine ⟨fun s up _ hk => ⟨s, ?idle, rfl⟩, .intro fun s up ⟨hk, ha, hx⟩ => ⟨_, (frameDeliver_exec up hk ha).trans ?_, rfl⟩,
      fun f tap => ?_⟩
    case idle =>
      have hk : (decide (cardKind s n ≠ 2) || !awake s) = true := by simpa using hk
      show execFrameDeliver n s = _
      unfold execFrameDeliver
      rw [if_pos hk]
      exact done_next up
    · simp only [hx]
    · intro k
      refine ⟨.intro fun s up ⟨hk, ha, hx, hl⟩ => ⟨_, (frameDeliver_exec up hk ha).trans ?_, rfl⟩,
        fun l => .intro fun s up ⟨hk, ha, hx, hl⟩ => ⟨_, (frameDeliver_exec up hk ha).trans ?_, rfl⟩⟩
      · simp only [hx]
        simp only [show 16 + (CamCfg.of f.cfg).stream = k from rfl, hl]
      · simp only [hx]
        simp only [show 16 + (CamCfg.of f.cfg).stream = k from rfl, hl]
        rfl
  case timers =>
    intro vdl late
    exact ⟨.intro fun s up hl => ⟨_, verdictDeadline_exec up hl, rfl⟩,
      fun t => .intro fun s up ⟨hl, hd, hf, ht⟩ => ⟨_, demotionExpiry_exec up hl hd hf ht, rfl⟩,
      .intro fun s up ⟨hl, hk, h2, hm, hw, hd⟩ => ⟨_, periodicSubmit_exec up hl hk h2 hm hw hd, rfl⟩⟩
  case ticket =>
    show execTicketMove s = _
    unfold execTicketMove
    simp only [hq, hr, if_true]
    exact done_next up

end Sys2Proof.Machine
end


section
/-! PROOFS. Camera ports: packets, frames, links, FSYNC outputs and I3C (R378 to R399). -/

namespace Sys2Proof.Machine

section
variable {s : State} {port vc : Nat} {crc ecc1 : Bool}

/-! ## Packets (R380 to R386) -/

/-- A packet's header is counted where it was corrected, and its payload where its CRC fails (R380). -/
def Run.packetChecked {z : State} (r : Run z) (port : Nat) (crc ecc1 : Bool) : Run z :=
  if crc then r.countEcc1 port ecc1 else (r.countEcc1 port ecc1).countCsi port 2

theorem countEcc1_when {z : State} (r : Run z) : ((r.countEcc1 port ecc1).when (!crc) fun r => r.countCsi port 2) =
    r.packetChecked port crc ecc1 := by
  cases crc <;> rfl

/-- A port that does not receive keeps all as it was. -/
theorem deaf_of_exec {c : Instr} (f : State → Host.Outcome State Fault Refusal) (he : ∀ s, exec c s = f s)
    (hf : ∀ s, camReceives s port = false → f s = done (Run.start s)) :
    EventPost c (fun s => camReceives s port = false) fun s t => t = s :=
  fun s up _ h => ⟨s, (he s).trans ((hf s h).trans (done_next up)), rfl⟩

/-- Embedded data reaches the open frame of its stream, up to 4,096 bytes (R386). -/
theorem embeddedDataPacket_exec {data : List Byte} (up : s.halted = false) (hr : camReceives s port = true) :
    exec (.embeddedDataPacket port vc data ⟨crc, ecc1⟩) s = .next (
      match camOf s port vc with
      | none => ((Run.start s).countEcc1 port ecc1).countCsi port 4
      | some n =>
        let r := (Run.start s).packetChecked port crc ecc1
        match openFrame s n with
        | none => r.countCsi port 5
        | some f =>
          if frameExpiry f < camNow s then (r.closeFrame n (frameExpiry f) true false false).countCsi port 5
          else if f.dropped then r
          else r.setFrame n { f with
            emb := (f.emb ++ data).take 4096, embCut := f.embCut || decide (4096 < (f.emb ++ data).length) }).s := by
  show execEmbeddedDataPacket port vc data ⟨crc, ecc1⟩ s = _
  unfold execEmbeddedDataPacket
  simp only [hr, Bool.not_true, Bool.false_eq_true, if_false, countEcc1_when]
  cases camOf s port vc with
  | none => exact done_next up
  | some n =>
    dsimp only
    cases openFrame s n with
    | none => exact done_next up
    | some f =>
      simp only [gt_iff_lt, done_next up]
      split
      · rfl
      · split <;> rfl

/-- A Frame End closes the open frame of its stream (R385). -/
theorem cameraFrameEnd_exec (up : s.halted = false) (hr : camReceives s port = true) :
    exec (.cameraFrameEnd port vc ecc1) s = .next (
      let r := (Run.start s).countEcc1 port ecc1
      match camOf s port vc with
      | none => r.countCsi port 4
      | some n =>
        match openFrame s n with
        | none => r.countCsi port 5
        | some f =>
          if frameExpiry f < camNow s then (r.closeFrame n (frameExpiry f) true false false).countCsi port 5
          else r.closeFrame n (camNow s) false false false).s := by
  show execCameraFrameEnd port vc ecc1 s = _
  unfold execCameraFrameEnd
  simp only [hr, Bool.not_true, Bool.false_eq_true, if_false]
  cases camOf s port vc with
  | none => exact done_next up
  | some n =>
    dsimp only
    cases openFrame s n with
    | none => exact done_next up
    | some f =>
      simp only [gt_iff_lt, done_next up]
      split <;> rfl

/-- A frame after a line of it, by the pixels that arrived (R380, R384). -/
def CamFrame.lined (f : CamFrame) (dt : Nat) (px : List Nat) (crc : Bool) : CamFrame :=
  let c := CamCfg.of f.cfg
  { f with
    lines := f.lines ++ [sizeLine c (px.map (unpackPixel dt))], shortN := f.shortN + b2n (px.length < c.width)
    longN := f.longN + b2n (px.length > c.width), crcN := f.crcN + b2n (!crc) }

section
variable {dt : Nat} {px : List Nat} (up : s.halted = false) (hr : camReceives s port = true)
include up hr

theorem csiLine_exec_other (hd : imageType dt = false) : exec (.csiLine port vc dt px crc ecc1) s =
    .next (((Run.start s).countEcc1 port ecc1).countCsi port 3).s := by
  show execCsiLine port vc dt px crc ecc1 s = _
  unfold execCsiLine
  simp only [hr, hd, Bool.not_true, Bool.not_false, Bool.false_eq_true, if_false, if_true]
  exact done_next up

theorem csiLine_exec_orphan (hd : imageType dt = true) (hc : camOf s port vc = none) : exec (.csiLine port vc dt px crc ecc1) s =
    .next (((Run.start s).countEcc1 port ecc1).countCsi port 4).s := by
  show execCsiLine port vc dt px crc ecc1 s = _
  unfold execCsiLine
  simp only [hr, hd, hc, Bool.not_true, Bool.false_eq_true, if_false]
  exact done_next up

/-- A line that meets no frame of its data type is counted (R380). -/
theorem csiLine_exec_miss {n : Nat} (hd : imageType dt = true) (hc : camOf s port vc = some n) :
    let r := (Run.start s).packetChecked port crc ecc1
    (openFrame r.s n = none → exec (.csiLine port vc dt px crc ecc1) s =
      .next (r.countCsi port (if (camCard s n).dt ≠ dt then 4 else 5)).s) ∧
    ∀ f, openFrame r.s n = some f → (CamCfg.of f.cfg).dt ≠ dt → exec (.csiLine port vc dt px crc ecc1) s =
      .next (r.countCsi port 4).s := by
  intro r
  have he : exec (.csiLine port vc dt px crc ecc1) s = execCsiLine port vc dt px crc ecc1 s := rfl
  rw [he]
  unfold execCsiLine
  simp only [hr, hd, hc, Bool.not_true, Bool.false_eq_true, if_false, countEcc1_when]
  refine ⟨fun hf => ?_, fun f hf ht => ?_⟩
  · rw [show openFrame ((Run.start s).packetChecked port crc ecc1).s n = none from hf]
    dsimp only
    split <;> exact done_next up
  · rw [show openFrame ((Run.start s).packetChecked port crc ecc1).s n = some f from hf]
    simp only [if_pos ht]
    exact done_next up

/-- A line of an open frame: late for it, past its last line, outside the Aperture, or of it once its set is chosen (R384, R388). -/
theorem csiLine_exec_meet {n : Nat} {f : CamFrame} (hd : imageType dt = true) (hc : camOf s port vc = some n)
    (hf : openFrame ((Run.start s).packetChecked port crc ecc1).s n = some f) (ht : (CamCfg.of f.cfg).dt = dt) :
    let r := (Run.start s).packetChecked port crc ecc1
    let c := CamCfg.of f.cfg
    let inside := c.y0 ≤ f.lines.length ∧ f.lines.length < c.y0 + c.ah
    (frameExpiry f < camNow s → exec (.csiLine port vc dt px crc ecc1) s =
      .next ((r.closeFrame n (frameExpiry f) true false false).countCsi port 5).s) ∧
    (camNow s ≤ frameExpiry f → f.dropped = false →
      (c.height ≤ f.lines.length → exec (.csiLine port vc dt px crc ecc1) s =
        .next (r.setFrame n { f with cutN := f.cutN + 1, crcN := f.crcN + b2n (!crc) }).s) ∧
      (f.lines.length < c.height → ¬ inside → exec (.csiLine port vc dt px crc ecc1) s =
        .next (r.setFrame n (f.lined dt px crc)).s) ∧
      (f.lines.length < c.height → inside → f.keyed = true → exec (.csiLine port vc dt px crc ecc1) s =
        .next ((r.setFrame n (f.lined dt px crc)).takeSlot n (s.now + lineTime s port dt px.length)).s)) := by
  have he : exec (.csiLine port vc dt px crc ecc1) s = execCsiLine port vc dt px crc ecc1 s := rfl
  rw [he]
  unfold execCsiLine
  simp only [hr, hd, hc, Bool.not_true, Bool.false_eq_true, if_false, countEcc1_when, hf, ht, ne_eq, not_true_eq_false, gt_iff_lt]
  refine ⟨fun h => ?_, fun h hn => ⟨fun hl => ?_, fun hl hi => ?_, fun hl hi hk => ?_⟩⟩
  · rw [if_pos h]
    exact done_next up
  · simp only [if_neg (Nat.not_lt.mpr h), hn, ge_iff_le, hl, Bool.false_eq_true, if_false, if_true]
    exact done_next up
  · have hi : (decide ((CamCfg.of f.cfg).y0 ≤ f.lines.length) &&
        decide (f.lines.length < (CamCfg.of f.cfg).y0 + (CamCfg.of f.cfg).ah)) = false := by simpa using hi
    simp only [if_neg (Nat.not_lt.mpr h), hn, ge_iff_le, Nat.not_le.mpr hl, hi, Bool.not_true, Bool.false_eq_true, if_false, Run.when,
      CamFrame.lined, gt_iff_lt, done_next up]
  · have hi : (decide ((CamCfg.of f.cfg).y0 ≤ f.lines.length) &&
        decide (f.lines.length < (CamCfg.of f.cfg).y0 + (CamCfg.of f.cfg).ah)) = true := by simpa using hi
    simp only [if_neg (Nat.not_lt.mpr h), hn, ge_iff_le, Nat.not_le.mpr hl, hi, Bool.not_true, Bool.false_eq_true, if_false,
      if_true, Run.chooseKeyed, hk, Run.when, CamFrame.lined, gt_iff_lt, done_next up]

end

/-! ## Frame Start (R382, R387) -/

/-- A Frame Start closes a frame still open, and is the boundary at which a synced card is taken up. -/
def Run.shutsOpen (r : Run s) (port n : Nat) : Run s :=
  Run.takeUp (match openFrame s n with
    | some f => if frameExpiry f < camNow s then r.closeFrame n (frameExpiry f) true false false
      else (r.countCsi port 5).closeFrame n (camNow s) false false true
    | none => r) n

/-- The frame that a Frame Start opens at a time. -/
def camOpened (s : State) (n fnum at_ : Nat) : CamFrame :=
  { cfg := (List.range 32).map fun i => BitVec.ofNat 32 (cardW s n i), seq := (camStream s n).seq, fnum := fnum, fs := at_ }

/-- The ring of a stream has no slot left beside the frames that wait for one. -/
def camFull (s : State) (n : Nat) : Prop :=
  2 ^ (camCard s n).log2n ≤ (bits (cardW s n 16) 15 0 + 65536 - bits (cardW s n 16) 31 16) % 65536 +
    ((camStream s n).frames.filter fun g => !g.dropped).length

/-- A frame joins its stream, dropped or not. -/
def Run.addsFrame {z : State} (r : Run z) (n fnum at_ : Nat) (gone : Bool) : Run z :=
  let x := camStream r.s n
  (r.setStream n { x with frames := x.frames ++ [{ camOpened r.s n fnum at_ with dropped := gone }], seq := x.seq + 1 }).trace
    0x21 0x0200 ((camCard r.s n).stream * 2 ^ 16 + fnum % 2 ^ 16)

section
variable {n fnum : Nat} (up : s.halted = false) (hr : camReceives s port = true)
include up hr

theorem cameraFrameStart_exec_orphan (hc : camOf s port vc = none) : exec (.cameraFrameStart port vc fnum ecc1) s =
    .next (((Run.start s).countEcc1 port ecc1).countCsi port 4).s := by
  show execCameraFrameStart port vc fnum ecc1 s = _
  unfold execCameraFrameStart
  simp only [hr, hc, Bool.not_true, Bool.false_eq_true, if_false]
  exact done_next up

theorem cameraFrameStart_exec {r : Run s} (hc : camOf s port vc = some n)
    (hq : ((Run.start s).countEcc1 port ecc1).shutsOpen port n = r) :
    (¬ (camOf r.s port vc = some n ∧ cardActive r.s n = true) → exec (.cameraFrameStart port vc fnum ecc1) s = .next r.s) ∧
    (camOf r.s port vc = some n → cardActive r.s n = true → (camCard r.s n).keyed = true →
      (¬ camFull r.s n → exec (.cameraFrameStart port vc fnum ecc1) s = .next (r.addsFrame n fnum (camNow s) false).s) ∧
      (camFull r.s n → exec (.cameraFrameStart port vc fnum ecc1) s = .next (
        let w := r.addsFrame n fnum (camNow s) true
        (w.setStream n { camStream w.s n with dropFull := (camStream w.s n).dropFull + 1 }).countDrop n 17 false
          (camOpened r.s n fnum (camNow s))).s)) := by
  have he : exec (.cameraFrameStart port vc fnum ecc1) s = execCameraFrameStart port vc fnum ecc1 s := rfl
  rw [he]
  unfold execCameraFrameStart
  simp only [hr, hc, Bool.not_true, Bool.false_eq_true, if_false, gt_iff_lt]
  generalize hu : Run.takeUp _ n = u
  obtain rfl : u = r := hu.symm.trans hq
  refine ⟨fun h => ?_, fun ho ha hk => ⟨fun h => ?_, fun h => ?_⟩⟩
  · rw [if_pos (by simpa [Decidable.imp_iff_not_or] using h)]
    exact done_next up
  all_goals
    unfold camFull at h
    simp only [ho, ha, hk, ne_eq, not_true_eq_false, decide_false, Bool.not_true, Bool.or_false, Bool.false_and,
      Bool.false_eq_true, if_false, if_true, ge_iff_le, h, decide_true]
    exact done_next up

end

/-! ## Lines, watchdogs and packets that are discarded -/

theorem length_sizeLine (c : CamCfg) (px : List Nat) : (sizeLine c px).length = c.width := by
  simp [sizeLine]

theorem sizeLine_get (c : CamCfg) (px : List Nat) {x : Nat} (hw : x < c.width) (hx : x < px.length) :
    (sizeLine c px)[x]? = px[x]? := by
  simp [sizeLine, hw, hx]

theorem frameWatchdogExpiry_exec {n : Nat} {f : CamFrame} (up : s.halted = false) (hf : openFrame s n = some f)
    (hr : camRuns s = true) (ht : frameExpiry f < camNow s) : exec (.frameWatchdogExpiry n) s =
      .next ((Run.start s).closeFrame n (frameExpiry f) true false false).s := by
  show execFrameWatchdogExpiry n s = _
  unfold execFrameWatchdogExpiry
  simp only [hf, hr, gt_iff_lt, ht, decide_true, Bool.and_self, if_true]
  exact done_next up

theorem csiPacketDiscard_exec {cause : Nat} (up : s.halted = false) (hr : camReceives s port = true) :
    exec (.csiPacketDiscard port cause) s =
      .next ((Run.start s).countCsi port (if cause = 0 then 1 else if cause = 1 then 3 else 4)).s := by
  show execCsiPacketDiscard port cause s = _
  unfold execCsiPacketDiscard
  simp only [hr, Bool.not_true, Bool.false_eq_true, if_false]
  match cause with
  | 0 => exact done_next up
  | 1 => exact done_next up
  | _ + 2 => exact done_next up

end

/-- Settles O53: each packet by what it meets, and how long a line is made. -/
theorem cameraPackets : Obligations.CameraPackets := by
  unfold Obligations.CameraPackets
  intro deaf ecc
  refine ⟨fun port vc fnum dt px data crc ecc1 => ?packets,
    fun n f => .intro fun s up ⟨hf, hr, ht⟩ => ⟨_, frameWatchdogExpiry_exec up hf hr ht, rfl⟩,
    fun port cause => .intro fun s up hr => ⟨_, csiPacketDiscard_exec up hr, rfl⟩,
    fun c px => ⟨length_sizeLine c px, fun x => sizeLine_get c px⟩⟩
  intro checked orphan open_ shut
  refine ⟨deaf_of_exec (execCameraFrameStart port vc fnum ecc1) (fun _ => rfl) fun s h => ?_,
    deaf_of_exec (execCsiLine port vc dt px crc ecc1) (fun _ => rfl) fun s h => ?_,
    deaf_of_exec (execEmbeddedDataPacket port vc data ⟨crc, ecc1⟩) (fun _ => rfl) fun s h => ?_,
    deaf_of_exec (execCameraFrameEnd port vc ecc1) (fun _ => rfl) fun s h => ?_,
    .intro fun s up ⟨hr, hc⟩ => ⟨_, cameraFrameStart_exec_orphan up hr hc, rfl⟩,
    fun hd => .intro fun s up ⟨hr, hc⟩ => ⟨_, csiLine_exec_orphan up hr hd hc, rfl⟩,
    .intro fun s up ⟨hr, hc⟩ => ⟨_, (embeddedDataPacket_exec up hr).trans ?_, rfl⟩,
    .intro fun s up ⟨hr, hc⟩ => ⟨_, (cameraFrameEnd_exec up hr).trans ?_, rfl⟩,
    fun n => ⟨.intro fun s up ⟨hr, hc, hf⟩ => ⟨_, (embeddedDataPacket_exec up hr).trans ?_, rfl⟩,
      .intro fun s up ⟨hr, hc, hf⟩ => ⟨_, (cameraFrameEnd_exec up hr).trans ?_, rfl⟩,
      fun f => ⟨.intro fun s up ⟨⟨hr, hc, hf⟩, ht⟩ => ⟨_, (embeddedDataPacket_exec up hr).trans ?_, rfl⟩,
        .intro fun s up ⟨⟨hr, hc, hf⟩, ht⟩ => ⟨_, (cameraFrameEnd_exec up hr).trans ?_, rfl⟩,
        .intro fun s up ⟨⟨hr, hc, hf⟩, ht, hd⟩ => ⟨_, (embeddedDataPacket_exec up hr).trans ?_, rfl⟩,
        .intro fun s up ⟨⟨hr, hc, hf⟩, ht⟩ => ⟨_, (cameraFrameEnd_exec up hr).trans ?_, rfl⟩⟩⟩,
    .intro fun s up ⟨hr, hd⟩ => ⟨_, csiLine_exec_other up hr hd, rfl⟩, fun n f => ?lines, fun n => ?started⟩
  case lines =>
    intro c took meets takes
    refine ⟨.intro fun s up ⟨⟨hr, hd, hc⟩, hf⟩ => ⟨_, (csiLine_exec_miss up hr hd hc).1 hf, rfl⟩,
      .intro fun s up ⟨⟨hr, hd, hc⟩, hf, ht⟩ => ⟨_, (csiLine_exec_miss up hr hd hc).2 f hf ht, rfl⟩,
      .intro fun s up ⟨⟨⟨hr, hd, hc⟩, hf, ht⟩, hl⟩ => ⟨_, (csiLine_exec_meet up hr hd hc hf ht).1 hl, rfl⟩,
      .intro fun s up ⟨⟨⟨⟨hr, hd, hc⟩, hf, ht⟩, hl, hn⟩, hh⟩ => ⟨_, ((csiLine_exec_meet up hr hd hc hf ht).2 hl hn).1 hh, rfl⟩,
      .intro fun s up ⟨⟨⟨⟨hr, hd, hc⟩, hf, ht⟩, hl, hn⟩, hh, hi⟩ =>
        ⟨_, ((csiLine_exec_meet up hr hd hc hf ht).2 hl hn).2.1 hh hi, rfl⟩,
      fun hk => .intro fun s up ⟨⟨⟨⟨hr, hd, hc⟩, hf, ht⟩, hl, hn⟩, hh, hi⟩ =>
        ⟨_, ((csiLine_exec_meet up hr hd hc hf ht).2 hl hn).2.2 hh hi hk, rfl⟩⟩
  case started =>
    intro q at_ goes opened full add
    refine ⟨.intro fun s up ⟨⟨hr, hc⟩, hg⟩ => ⟨_, (cameraFrameStart_exec up hr hc rfl).1 hg, rfl⟩,
      .intro fun s up ⟨⟨hr, hc⟩, ⟨ho, ha⟩, hk, hf⟩ => ⟨_, ((cameraFrameStart_exec up hr hc rfl).2 ho ha hk).1 hf, rfl⟩,
      .intro fun s up ⟨⟨hr, hc⟩, ⟨ho, ha⟩, hk, hf⟩ => ⟨_, ((cameraFrameStart_exec up hr hc rfl).2 ho ha hk).2 hf, rfl⟩⟩
  · unfold execCameraFrameStart
    simp only [h, Bool.not_false, if_true]
  · unfold execCsiLine
    simp only [h, Bool.not_false, if_true]
  · unfold execEmbeddedDataPacket
    simp only [h, Bool.not_false, if_true]
  · unfold execCameraFrameEnd
    simp only [h, Bool.not_false, if_true]
  all_goals simp only [hc]
  · rfl
  · rfl
  all_goals simp only [hf]
  · rfl
  · rfl
  · rw [if_pos ht]
    rfl
  · rw [if_pos ht]
    rfl
  · rw [if_neg (Nat.not_lt.mpr ht), hd]
    rfl
  · rw [if_neg (Nat.not_lt.mpr ht)]
    rfl

section
variable {s : State} {port : Nat}

/-! ## The pipe and the links (R378, R388) -/

theorem ispLineProcess_exec {pipe n i t : Nat} {f : CamFrame} (up : s.halted = false) (hn : nextLine s pipe = some (n, i, f, t))
    (hr : camRuns s = true) (ht : readEnds s pipe f t ≤ s.now) : exec (.ispLineProcess pipe) s = .next (
      let x := camStream s n
      let r := (Run.start s).setStream n { x with frames := x.frames.set i { f with slots := f.slots.drop 1 } }
      r.setCam { r.s.cam with pipeFree := SMap.set 0 r.s.cam.pipeFree pipe (readEnds s pipe f t) }).s := by
  have hn : nextLine (Run.start s).s pipe = some (n, i, f, t) := hn
  have ht : ¬ (Run.start s).s.now < readEnds (Run.start s).s pipe f t := Nat.not_lt.mpr ht
  show execIspLineProcess pipe s = _
  unfold execIspLineProcess
  simp only [hr, if_true, Run.readLine, hn, ht, if_false]
  exact done_next up

theorem csiLinkStateChange_exec {link : Nat} {deskewed : Bool} (up : s.halted = false) (hp : port < 8) (hl : link < 4)
    (hr : camRuns s = true) (he : s.fld (camPortReg port 0) 31 31 = 1) : exec (.csiLinkStateChange port link deskewed) s = .next (
      let r := (Run.start s).setFld (camPortReg port 4) 31 30 link
      if deskewed = true ∧ 1500 ≤ s.fld (camPortReg port 0) 23 12 then r.setFld (camPortReg port 4) 29 29 1 else r).s := by
  show execCsiLinkStateChange port link deskewed s = _
  unfold execCsiLinkStateChange
  simp only [ge_iff_le, Nat.not_le.mpr hp, Nat.not_le.mpr hl, hr, he, Nat.one_ne_zero, decide_false, Bool.not_true, Bool.or_false,
    Bool.false_eq_true, if_false, Bool.and_eq_true, decide_eq_true_eq, done_next up]
  split <;> rfl

/-! ## FSYNC outputs (R397) -/

/-- The first edge of a new train that may be driven at a time, if one may (R397). -/
def fsyncSwitch (f : Fsync) (after now : Nat) : Option (Nat × Nat × Nat) :=
  match f.pend with
  | some (p, ph, t0) =>
    if p ≥ 1000 && edgeFrom ph p (max t0 after) ≤ now then some (p, ph, edgeFrom ph p (max t0 after)) else none
  | none => none

/-- The time from which the next edge of an FSYNC output may come. -/
def fsyncAfter (f : Fsync) : Nat :=
  match f.last with
  | some t => t + 1
  | none => 0

theorem fsyncEdge_exec {k : Nat} (up : s.halted = false) (hk : k < 8) (hr : camRuns s = true)
    (he : s.fld (csiReg (0x2000 + 0x20 * k)) 31 31 ≠ 0) :
    let f := SMap.get {} s.cam.fsync k
    let set := fun (g : Fsync) => (Run.start s).setCam { s.cam with fsync := SMap.set {} s.cam.fsync k g }
    exec (.fsyncEdge k) s =
      match fsyncSwitch f (fsyncAfter f) s.now with
      | some (p, ph, e) => .next (set { period := p, phase := ph, pend := none, last := some e }).s
      | none =>
        if f.period ≥ 1000 && edgeFrom f.phase f.period (fsyncAfter f) ≤ s.now then
          .next (set { f with last := some (edgeFrom f.phase f.period (fsyncAfter f)) }).s
        else .next s := by
  intro f set
  show execFsyncEdge k s = _
  unfold execFsyncEdge
  simp only [ge_iff_le, Nat.not_le.mpr hk, hr, he, decide_false, Bool.not_true, Bool.or_false, Bool.false_eq_true, if_false,
    done_next up]
  rfl

/-- An FSYNC output stands at its pulse level for WIDTH from an edge, and at its idle level where no train runs (R397). -/
theorem fsyncHigh_spec (s : State) (k : Nat) :
    let ctrl := (s.reg (csiReg (0x2000 + 0x20 * k))).toNat
    let f := SMap.get {} s.cam.fsync k
    (bit ctrl 31 = false ∨ camRuns s = false ∨ f.last = none → fsyncHigh s k = bit ctrl 30) ∧
    ∀ t, bit ctrl 31 = true → camRuns s = true → f.last = some t →
      (f.period ≤ bits ctrl 15 0 * 1000 → fsyncHigh s k = !bit ctrl 30) ∧
      (bits ctrl 15 0 * 1000 < f.period →
        (s.now < t + bits ctrl 15 0 * 1000 → fsyncHigh s k = !bit ctrl 30) ∧
        (t + bits ctrl 15 0 * 1000 ≤ s.now → fsyncHigh s k = bit ctrl 30)) := by
  intro ctrl f
  have hd : ∀ a b : Bool, decide (a ≠ b) = (a ^^ b) := by decide
  have high : fsyncHigh s k = ((bit ctrl 31 && camRuns s && (match f.last with
      | some t => decide (f.period ≤ bits ctrl 15 0 * 1000) || decide (s.now < t + bits ctrl 15 0 * 1000)
      | none => false)) ^^ bit ctrl 30) := hd _ _
  refine ⟨fun h => ?_, fun t he hr hl => ⟨fun hp => ?_, fun hp => ⟨fun ht => ?_, fun ht => ?_⟩⟩⟩
  · rcases h with h | h | h <;> simp [high, h]
  · simp [high, he, hr, hl, hp]
  · simp [high, he, hr, hl, ht]
  · simp [high, he, hr, hl, Nat.not_le.mpr hp, Nat.not_lt.mpr ht]

/-! ## I3C (R398, R399) -/

section
variable {k : Nat} {x : I3c} (up : s.halted = false) (hx : SMap.find? s.cam.i3c k = some x) (hf : fwRuns s 2 = true)
  (hr : camRuns s = true)
include up hx hf hr

theorem i3cXferStart_exec (hs : x.started = false) (he : s.fld (csiReg (0x3000 + 0x100 * k)) 31 31 ≠ 0) (ht : x.at_ ≤ s.now) :
    exec (.i3cXferStart k) s = .next (
      let r := (Run.start s).setCam { s.cam with i3c := SMap.insert s.cam.i3c k { x with started := true } }
      if x.at_ ≠ 0 ∧ x.at_ + 10000 < s.now then r.setFld (csiReg (0x3010 + 0x100 * k)) 1 1 1 else r).s := by
  show execI3cXferStart k s = _
  unfold execI3cXferStart
  simp only [hx, hs, hf, hr, he, Nat.not_lt.mpr ht, decide_false, Bool.not_true, Bool.or_false, Bool.false_eq_true, if_false, Run.when,
    Bool.and_eq_true, decide_eq_true_eq, gt_iff_lt]
  exact done_next up

theorem i3cXferDone_exec {nack : Bool} {data : List Byte} (hs : x.started = true) : exec (.i3cXferDone k nack data) s = .next (
      let st := csiReg (0x3010 + 0x100 * k)
      let r := ((Run.start s).setCam { s.cam with i3c := SMap.erase s.cam.i3c k }).setFld st 31 31 0
      let r := (if nack then r.setFld st 2 2 1 else r.setFld st 0 0 1).setFld (csiReg (0x3004 + 0x100 * k)) 31 31 0
      if bit x.xfer 30 = true ∧ nack = false then
        r.each (List.range (bits x.xfer 13 8)) fun i r =>
          r.setFld (csiReg (0x3020 + 0x100 * k + 4 * (i / 4))) (8 * (i % 4) + 7) (8 * (i % 4)) (data.getD i 0).toNat
      else r).s := by
  show execI3cXferDone k nack data s = _
  unfold execI3cXferDone
  simp only [hx, hs, hf, hr, Bool.not_true, Bool.or_false, Bool.false_eq_true, if_false, Bool.and_eq_true, Bool.not_eq_true', done_next up]
  split <;> rfl

end

end

/-- Settles O54: each event by its conditions, and the level of an FSYNC output. -/
theorem cameraControl : Obligations.CameraControl := by
  refine ⟨fun pipe n i f t => .intro fun s up ⟨hn, hr, ht⟩ => ⟨_, ispLineProcess_exec up hn hr ht, rfl⟩,
    fun port link deskewed hp hl => .intro fun s up ⟨hr, he⟩ => ⟨_, csiLinkStateChange_exec up hp hl hr he, rfl⟩,
    fun k f hk => ?edges, fsyncHigh_spec, fun k x => ?i3c⟩
  case edges =>
    intro after on set
    refine ⟨fun p ph t0 hp h1 s up _ ⟨⟨hr, he, hf⟩, hn⟩ => ⟨_, (fsyncEdge_exec up hk hr he).trans ?_, rfl⟩,
      fun h1 s up _ ⟨⟨hr, he, hf⟩, hn, hno⟩ => ⟨_, (fsyncEdge_exec up hk hr he).trans ?_, rfl⟩⟩
    · have hs : fsyncSwitch f after s.now = some (p, ph, edgeFrom ph p (max t0 after)) := by
        simp [fsyncSwitch, hp, h1, hn]
      simp only [hf]
      rw [show fsyncSwitch f (fsyncAfter f) s.now = _ from hs]
      rfl
    · have hs : fsyncSwitch f after s.now = none := by
        unfold fsyncSwitch
        cases hp : f.pend with
        | none => rfl
        | some q =>
          have hq : ¬ (q.1 ≥ 1000 ∧ edgeFrom q.2.1 q.1 (max q.2.2 after) ≤ s.now) := by
            have hq := hno q.1 q.2.1 q.2.2 hp
            omega
          exact if_neg (by simpa using hq)
      simp only [hf]
      rw [show fsyncSwitch f (fsyncAfter f) s.now = _ from hs]
      exact if_pos (by simpa using ⟨h1, hn⟩)
  case i3c =>
    intro st
    exact ⟨.intro fun s up ⟨hx, hs, hf, hr, he, ht⟩ => ⟨_, i3cXferStart_exec up hx hf hr hs he ht, rfl⟩,
      fun nack data => .intro fun s up ⟨hx, hs, hf, hr⟩ => ⟨_, i3cXferDone_exec up hx hf hr hs, rfl⟩⟩

end Sys2Proof.Machine
end


section
/-! PROOFS. Power states: entry, wake and return (R425 to R431), and a temperature that is not shown (R447). -/

namespace Sys2Proof.Machine

section
variable {s : State}

/-- A drain that its bound has passed fails (R428). -/
theorem powerDrainTimeout_exec {q : PwrReq} (up : s.halted = false) (hq : s.power.req = some q) (ht : q.deadline < s.now) :
    exec .powerDrainTimeout s = .next (Run.start s).failRequest.s := by
  show execPowerDrainTimeout s = _
  unfold execPowerDrainTimeout
  simp only [hq, gt_iff_lt, ht, if_true]
  exact done_next up

/-- A drained device begins the entry that was asked for (R428). -/
theorem powerEntryBegin_exec {q : PwrReq} (up : s.halted = false) (hq : s.power.req = some q) (hf : fwRuns s 3 = true)
    (hd : drained s = true) (ht : s.now ≤ q.deadline) : exec .powerEntryBegin s = .next (
      let first := if q.target = 3 then 2 else q.target
      let r := (Run.start s).setPower { s.power with req := none, entering := some { q with target := first }, last := q.target }
      let r := ((r.setFld (pwrReg 4) 28 28 0).setFld (pwrReg 4) 27 27 1).setReg64 (pwrReg 0x20) s.now
      ((r.trace 0x24 0x0500 first).stopBlocks).endRequest q.asker stOk).s := by
  show execPowerEntryBegin s = _
  unfold execPowerEntryBegin
  simp only [hq, hf, hd, gt_iff_lt, Nat.not_lt.mpr ht, decide_false, Bool.not_true, Bool.or_false, Bool.false_eq_true, if_false]
  exact done_next up

/-- A device in SLEEP on the way to DEEP_SLEEP begins that entry while no armed array has activity (R377, R428). -/
theorem deepSleepEntryBegin_exec (up : s.halted = false) (hp : powerState s = 2) (hl : s.power.last = 3)
    (he : s.power.entering = none) (hr : s.power.ret = none) (ha : ∀ l ∈ s.aud.loupe, l.2.active = false) :
    exec .deepSleepEntryBegin s = .next (
      let r := (Run.start s).setPower { s.power with entering := some ⟨3, s.now, none⟩ }
      let r := (r.setFld (pwrReg 4) 27 27 1).trace 0x24 0x0500 3
      r.setAud { r.s.aud with lens := [] }).s := by
  have ha : (s.aud.loupe.any fun l => l.2.active) = false := List.any_eq_false.mpr fun l hl => by simp [ha l hl]
  show execDeepSleepEntryBegin s = _
  unfold execDeepSleepEntryBegin
  simp only [hp, hl, he, hr, ha, ne_eq, not_true_eq_false, decide_false, Option.isSome_none, Bool.or_false, Bool.false_eq_true,
    if_false]
  exact done_next up

/-- An entry completes once the microphones run at the rates of its state (R376, R425, R429). -/
theorem powerEntryComplete_exec {e : PwrReq} (up : s.halted = false) (he : s.power.entering = some e)
    (hf : e.target ≤ 3 → s.aud.fast = false) : exec .powerEntryComplete s = .next (
      let r := if awake s then (Run.start s).loseState else Run.start s
      let r := ((r.setPower { r.s.power with entering := none, wakePending := none }).setFld (pwrReg 4) 27 27 0).reachState e.target
      let r := if e.target = 4 then r.audOff else r.audStop
      match s.power.wakePending with
      | some w => if e.target = 4 then r else r.applyWake (w / 8) (w % 8)
      | none => r).s := by
  have hf : (decide (e.target ≤ 3) && s.aud.fast) = false := by simpa using hf
  show execPowerEntryComplete s = _
  unfold execPowerEntryComplete
  simp only [he, hf, Bool.false_eq_true, if_false]
  cases s.power.wakePending with
  | none => exact done_next up
  | some w =>
    dsimp only
    split <;> exact done_next up

/-- The state in force goes from RUN to IDLE when no gang and no RUN claim stood for long enough (R427). -/
theorem autoIdleEntry_exec (up : s.halted = false) (hp : powerState s = 0) (hf : fwRuns s 3 = true)
    (hb : bit (s.reg (pwrReg 8)).toNat 31 = true) (hg : s.gangs = []) (hc : claimState s ≠ 0) (hr : s.power.req = none)
    (ht : s.power.idleSince + bits (s.reg (pwrReg 8)).toNat 23 16 * 1000000 ≤ s.now) :
    exec .autoIdleEntry s = .next (((Run.start s).setPower { s.power with last := 1 }).reachState 1).s := by
  show execAutoIdleEntry s = _
  unfold execAutoIdleEntry
  simp only [hp, hf, hb, hg, hr, ht, ne_eq, hc, not_false_eq_true, decide_true, List.isEmpty_nil, Option.isNone_none,
    Bool.and_self, if_true]
  exact done_next up

/-- A wake comes to nothing in a device that is awake and enters no state (R429). -/
theorem wakeTo_awake {z : State} (r : Run z) (source target : Nat) (he : r.s.power.entering = none) (ha : awake r.s = true) :
    r.wakeTo source target = r := by
  have ha : powerState r.s ≤ 1 := by simpa [awake] using ha
  unfold Run.wakeTo
  rw [he]
  exact if_neg (by simp; omega)

theorem wakePin_exec (up : s.halted = false) : exec .wakePin s =
    .next (if s.fld (pwrReg 0xC) 31 31 = 1 then (Run.start s).wakeTo 1 (s.fld (pwrReg 0xC) 1 0) else Run.start s).s := by
  show execWakePin s = _
  unfold execWakePin
  split <;> exact done_next up

theorem wakeTimer_exec (up : s.halted = false) (he : s.fld (pwrReg 0xC) 30 30 = 1) (ht : s.reg64 (pwrReg 0x10) ≤ s.now) :
    exec .wakeTimer s = .next ((Run.start s).wakeTo 2 (s.fld (pwrReg 0xC) 1 0)).s := by
  show execWakeTimer s = _
  unfold execWakeTimer
  simp only [he, ht, decide_true, Bool.and_self, if_true]
  exact done_next up

end

/-- Settles O55: each event by its conditions. -/
theorem powerStates : Obligations.PowerStates := by
  refine ⟨fun q => .intro fun s up ⟨hq, ht⟩ => ⟨_, powerDrainTimeout_exec up hq ht, rfl⟩,
    fun q => .intro fun s up ⟨hq, hf, hd, ht⟩ => ⟨_, powerEntryBegin_exec up hq hf hd ht, rfl⟩,
    .intro fun s up ⟨hp, hl, he, hr, ha⟩ => ⟨_, deepSleepEntryBegin_exec up hp hl he hr ha, rfl⟩,
    fun e => .intro fun s up ⟨he, hf⟩ => ⟨_, powerEntryComplete_exec up he hf, rfl⟩,
    fun t => .intro fun s up ht => ⟨_, ?returned, rfl⟩,
    .intro fun s up ⟨hp, hf, hb, hg, hc, hr, ht⟩ => ⟨_, autoIdleEntry_exec up hp hf hb hg hc hr ht, rfl⟩,
    fun target => ⟨.intro fun s up ⟨he, ht⟩ => ⟨_, ?pin, rfl⟩,
      .intro fun s up ⟨he, hn, ht⟩ => ⟨_, ht ▸ wakeTimer_exec up he hn, rfl⟩⟩,
    fun s up _ ⟨he, ha⟩ => ⟨s, ?idle, rfl⟩⟩
  case returned =>
    show execPowerReturn s = _
    unfold execPowerReturn
    simp only [ht]
    exact done_next up
  case pin =>
    rw [wakePin_exec up, if_pos he, ht]
  case idle =>
    rw [wakePin_exec up, wakeTo_awake (Run.start s) 1 _ he ha, ite_self]
    rfl

/-! ## A temperature that is not shown (R447) -/

/-- A device whose registers list the first sensor's reading twice. -/
def readTwice : State := { regs := [(pwrReg 0x610, 5), (pwrReg 0x610, 7)] }

/-- What 34 readings of 0 °C leave of the first sensor's: the write of 0, its value at reset, drops the first of the two entries
alone. -/
theorem readTwice_shown : ((Run.start readTwice).showTemps (List.replicate 34 0)).s.fld (pwrReg 0x610) 7 0 = 7 := by
  decide +kernel

/-- Refutes O56: a device's registers need not be listed once each, and a reading that is listed twice does not show the temperature
sampled. -/
theorem not_powerControl : ¬ Obligations.PowerControl := by
  rintro ⟨-, -, -, -, -, temp, -⟩
  have h := (temp (List.replicate 34 0) (List.length_replicate)).2 readTwice (Run.start readTwice) |>.1 0 (by decide)
  exact absurd (readTwice_shown.symm.trans h) (by decide)

end Sys2Proof.Machine
end


section
/-! PROOFS. Fences, checks and waits (R456 to R463). -/

namespace Sys2Proof.Machine

section
variable {s : State} {core : Nat}

/-! ## Fences (R458) -/

theorem coreFence_exec {cause : Nat} (up : s.halted = false) (h : cause = 1 ∨ cause = 2) :
    exec (.coreFence core cause) s = .next ((Run.start s).fenceAll [core] cause).settleSignals.s := by
  show execCoreFence core cause s = _
  unfold execCoreFence
  rw [if_pos (by simpa using h)]
  exact done_next up

theorem hangDetect_exec (up : s.halted = false) (hc : core < 192) (hf : fixState s core = 0)
    (ht : (s.core core).quiet + 1000000 ≤ s.now) (hg : ∃ kg ∈ s.gangs, kg.1 / 128 = core ∧ gangReady s core (kg.1 % 128) = true) :
    exec (.hangDetect core) s = .next ((Run.start s).fenceAll [core] 3).settleSignals.s := by
  have hg : (s.gangs.any fun kg => decide (kg.1 / 128 = core) && gangReady s core (kg.1 % 128)) = true := by
    obtain ⟨kg, hm, hk, hr⟩ := hg
    exact List.any_eq_true.mpr ⟨kg, hm, by rw [hr, decide_eq_true hk]; rfl⟩
  show execHangDetect core s = _
  unfold execHangDetect
  simp only [hc, hf, hg, ge_iff_le, ht, decide_true, Bool.and_self, if_true]
  exact done_next up

theorem supplyMonitorFence_exec {cl : Nat} (up : s.halted = false) (hc : cl < 16) : exec (.supplyMonitorFence cl) s = .next
    ((Run.start s).fenceAll (((List.range 12).map (12 * cl + ·)).filter fun c => fixState s c = 0) 4).settleSignals.s := by
  show execSupplyMonitorFence cl s = _
  unfold execSupplyMonitorFence
  rw [if_pos hc]
  exact done_next up

/-- A core that is fenced or retired is not fenced again. -/
theorem fenceCore_again {z : State} (r : Run z) {cause : Nat} (h : 192 ≤ core ∨ fixState r.s core = 4 ∨ fixState r.s core = 5) :
    r.fenceCore core cause = r := by
  unfold Run.fenceCore
  exact if_pos (by simpa [or_assoc] using h)

/-! ## Checks (R459, R463) -/

theorem checkEnd_eq {z : State} (r : Run z) {k : FixCheck} (hk : (r.s.fix.checks.find? fun k => k.core = core) = some k)
    (ht : k.start + 40000 ≤ r.s.now) :
    (fwRuns r.s 1 = true → r.checkEnd core true =
      (r.setFix { r.s.fix with checks := r.s.fix.checks.filter fun x => x ≠ k }).backNumber k.logical core) ∧
    r.checkEnd core false = (r.retire core).takeCore k.logical := by
  unfold Run.checkEnd
  simp only [hk, Nat.not_lt.mpr ht, if_false, if_true, Bool.false_eq_true, and_true]
  intro hf
  rw [hf]
  rfl

theorem entryCheckEnd_exec {pass : Bool} (up : s.halted = false)
    (h : ∀ w, s.fix.swap = some w → w.new ≠ core ∨ w.drain.isSome = true) :
    exec (.entryCheckEnd core pass) s = .next ((Run.start s).checkEnd core pass).s := by
  show execEntryCheckEnd core pass s = _
  unfold execEntryCheckEnd
  cases hw : s.fix.swap with
  | none => exact done_next up
  | some w =>
    have hn : ¬ (decide (w.new = core) && w.drain.isNone) = true := by
      rcases h w hw with h | h
      · simp [h]
      · simp [Option.isNone_eq_false_iff.mpr h]
    dsimp only
    rw [if_neg hn]
    exact done_next up

theorem entryCheckEnd_exec_swap {w : FixSwap} {pass : Bool} (up : s.halted = false) (hw : s.fix.swap = some w) (hn : w.new = core)
    (hd : w.drain = none) (ht : w.start + 40000 ≤ s.now) : exec (.entryCheckEnd core pass) s = .next (
      if pass then (Run.start s).setFix { s.fix with swap := some { w with drain := some s.now } }
      else ((Run.start s).setFix { s.fix with swap := none }).retire core).s := by
  show execEntryCheckEnd core pass s = _
  unfold execEntryCheckEnd
  simp only [hw, hn, hd, Nat.not_lt.mpr ht, Option.isNone_none, decide_true, Bool.and_self, if_true, if_false]
  cases pass <;> exact done_next up

/-! ## Waits (R461) -/

theorem degradedTimeout_exec {i t : Nat} {p : Parcel} (up : s.halted = false) (hp : s.parcel? i = some p)
    (hd : p.degradedAt = some t) (hf : fwRuns s 0 = true) (hs : p.stage = .running)
    (ht : t + s.fld (fixReg 8) 31 16 * 1000000 ≤ s.now) : exec (.degradedTimeout i) s = .next
      ((((Run.start s).withdraw fun q => q.parcel = i).setParcel i { p with
        fcore := ((List.range 176).find? fun l => placed p l && (coreOfLogical s l).isNone).getD 0xFF, degradedAt := none }).endParcel i
        stFencedRetry).s := by
  have ho : degradedOver s p = true := by
    unfold degradedOver
    rw [hd]
    exact decide_eq_true ht
  show execDegradedTimeout i s = _
  unfold execDegradedTimeout
  simp only [hp, hf, hs, ho, ne_eq, not_true_eq_false, decide_false, Bool.not_true, Bool.or_false, Bool.false_eq_true, if_false]
  exact done_next up

/-! ## The core that a number takes (R456) -/

theorem leastCore_mem {f : Nat → Nat} {l : List Nat} {c : Nat} (h : leastCore f l = some c) : c ∈ l := by
  have fold : ∀ (xs : List Nat) (x : Nat), xs.foldl (fun m y => if f y < f m then y else m) x ∈ x :: xs := by
    intro xs
    induction xs with
    | nil => exact fun x => List.mem_cons_self
    | cons y xs ih =>
      intro x
      have hm := ih (if f y < f x then y else x)
      rw [List.foldl_cons]
      split at hm
      · rw [if_pos ‹_›]
        exact List.mem_cons_of_mem _ hm
      · rw [if_neg ‹_›]
        rcases List.mem_cons.mp hm with hm | hm
        · rw [hm]
          exact List.mem_cons_self
        · exact List.mem_cons_of_mem _ (List.mem_cons_of_mem _ hm)
  cases l with
  | nil => exact absurd h (by simp [leastCore])
  | cons x xs =>
    obtain rfl : _ = c := Option.some.inj h
    exact fold xs x

/-- A number takes a core that is SPARE or TESTING, of its home cluster unless BORROW is 1. -/
theorem pickCore_spec {l c : Nat} (h : pickCore s l = some c) :
    c < 192 ∧ (fixState s c = 1 ∨ fixState s c = 2) ∧ (s.fld (fixReg 4) 1 1 = 1 ∨ c / 12 = homeCluster l) := by
  have among : ∀ {st : Nat} {f : Nat → Nat}, leastCore f ((List.range 192).filter fun c => fixState s c = st &&
      (decide (s.fld (fixReg 4) 1 1 = 1) || c / 12 = homeCluster l)) = some c →
      c < 192 ∧ fixState s c = st ∧ (s.fld (fixReg 4) 1 1 = 1 ∨ c / 12 = homeCluster l) := by
    intro st f h
    simpa using leastCore_mem h
  unfold pickCore at h
  dsimp only at h
  split at h
  · next c' h1 =>
    obtain rfl : c' = c := Option.some.inj h
    obtain ⟨hc, hs, hb⟩ := among h1
    exact ⟨hc, .inl hs, hb⟩
  · obtain ⟨hc, hs, hb⟩ := among h
    exact ⟨hc, .inr hs, hb⟩

end

/-- Settles O57: each event by its conditions, and the cores that are not fenced again and not taken. -/
theorem fenceEvents : Obligations.FenceEvents := by
  refine ⟨fun core cause h => .intro fun s up _ => ⟨_, coreFence_exec up h, rfl⟩,
    fun core hc => .intro fun s up ⟨hf, ht, hg⟩ => ⟨_, hangDetect_exec up hc hf ht hg, rfl⟩,
    fun cl hc => .intro fun s up _ => ⟨_, supplyMonitorFence_exec up hc, rfl⟩,
    fun core pass => ⟨.intro fun s up h => ⟨_, entryCheckEnd_exec up h, rfl⟩,
      fun k => .intro fun s up ⟨h, hk, ht, hf⟩ =>
        ⟨_, (by rw [entryCheckEnd_exec up h, (checkEnd_eq (Run.start s) hk ht).1 hf]; rfl), rfl⟩,
      fun w hn hd => ⟨.intro fun s up ⟨hw, ht⟩ => ⟨_, entryCheckEnd_exec_swap up hw hn hd ht, rfl⟩,
        .intro fun s up ⟨hw, ht⟩ => ⟨_, entryCheckEnd_exec_swap up hw hn hd ht, rfl⟩⟩⟩,
    fun s r core k hk ht => checkEnd_eq r hk ht,
    fun i p t => .intro fun s up ⟨hp, hd, hf, hs, ht⟩ => ⟨_, degradedTimeout_exec up hp hd hf hs ht, rfl⟩,
    fun s r core cause h => fenceCore_again r h, fun s l c h => pickCore_spec h⟩

end Sys2Proof.Machine
end


section
/-! PROOFS. Tests, rolling swaps and the Fence Ledger (R460 to R466). -/

namespace Sys2Proof.Machine

section
variable {s : State} {core : Nat}

/-! ## Tests (R462, R464) -/

theorem spareBistStart_exec (up : s.halted = false) (hc : core < 192) (hf : fixState s core = 1) (hh : s.fld (fixReg 8) 15 8 ≠ 0)
    (ht : SMap.get 0 s.fix.tested core + s.fld (fixReg 8) 15 8 * 3600000000000 ≤ s.now) : exec (.spareBistStart core) s = .next
      (((Run.start s).setFix { s.fix with tested := SMap.insert s.fix.tested core s.now }).toTesting core false).s := by
  have hd : decide (s.now ≥ SMap.get 0 s.fix.tested core + s.fld (fixReg 8) 15 8 * 3600000000000) = true := decide_eq_true ht
  show execSpareBistStart core s = _
  unfold execSpareBistStart
  simp only [hc, hf, hd, ne_eq, hh, not_false_eq_true, decide_true, Bool.and_self, if_true]
  exact done_next up

/-- A test of 40 ms ends, by the state of its core and by what failed (R462 to R464). -/
theorem bistEnd_exec {fails : Nat} {column : W32} {x : FixTest} (up : s.halted = false)
    (hx : (s.fix.tests.find? fun t => t.core = core) = some x) (ht : x.start + 40000000 ≤ s.now) :
    exec (.bistEnd core fails column) s = .next (
      let r := (Run.start s).scanned core
      if fixState s core = 2 then
        if fails = 0 then r.toSpare core else if x.rolled then r.retire core else (r.fenceAll [core] 2).settleSignals
      else if fixState s core ≠ 4 then r
      else if fails = 1 then r.owe 5 column.toNat
      else if fails ≠ 0 ∨ s.fld (fixReg 4) 0 0 = 0 then r.retire core
      else if x.second then ((r.setFix { r.s.fix with passed := SMap.erase r.s.fix.passed core }).toSpare core).owe 3 core
      else r.setFix { r.s.fix with passed := SMap.insert r.s.fix.passed core s.now }).s := by
  have ht : ¬ s.now < x.start + 40000000 := Nat.not_lt.mpr ht
  show execBistEnd core fails column s = _
  unfold execBistEnd
  simp only [hx, ht, if_false, Bool.or_eq_true, decide_eq_true_eq, done_next up]
  split
  · split
    · rfl
    · split <;> rfl
  · split
    · rfl
    · split
      · rfl
      · split
        · rfl
        · split <;> rfl

theorem reinstateBist_exec {t : Nat} (up : s.halted = false) (hp : SMap.find? s.fix.passed core = some t)
    (hf : fixState s core = 4) (ht : t + 3600000000000 ≤ s.now) (hn : ∀ x ∈ s.fix.tests, x.core ≠ core) :
    exec (.reinstateBist core) s = .next { s with
      fix := { s.fix with tests := s.fix.tests ++ [{ core := core, start := s.now, second := true }] } } := by
  have ht : decide (s.now < t + 3600000000000) = false := decide_eq_false (Nat.not_lt.mpr ht)
  have hn : (s.fix.tests.any fun x => x.core = core) = false := List.any_eq_false.mpr fun x hx => by simpa using hn x hx
  show execReinstateBist core s = _
  unfold execReinstateBist
  simp only [hp, hf, ht, hn, ne_eq, not_true_eq_false, decide_false, Bool.or_false, Bool.false_eq_true, if_false]
  exact done_next up

/-! ## Rolling swaps (R462, R463) -/

/-- The schedule of rolling swaps goes on to the next number; a policy that was written takes effect as a round begins. -/
def Run.swapTurned (r : Run s) : Run s :=
  let r := match s.sec.policyNext with
    | some p => if s.fix.rollNext = 0 then (r.setRegN (fixReg 4) p).put (.sec { s.sec with policyNext := none }) else r
    | none => r
  r.setFix { s.fix with rollNext := (s.fix.rollNext + 1) % 176, rollAt := s.now }

/-- The spare of a number's home cluster is checked, to take the number's work over. -/
def Run.swapStarts (r : Run s) (old new : Nat) : Run s :=
  let r := r.swapTurned
  let r := r.setFix { r.s.fix with swap := some { logical := s.fix.rollNext, old := old, new := new, start := s.now } }
  ((r.setCoreState new 3 0xFF).zeroCore new).fixCounts

theorem rollingSwapStart_exec (up : s.halted = false) (hr : s.fld (fixReg 4) 2 2 ≠ 0) (hd : s.fld (fixReg 8) 7 0 ≠ 0)
    (ha : awake s = true) (hs : s.fix.swap = none) (ht : s.fix.rollAt + s.fld (fixReg 8) 7 0 * 86400000000000 / 176 ≤ s.now) :
    (swapSpare s s.fix.rollNext = none ∨ coreOfLogical s s.fix.rollNext = none →
      exec .rollingSwapStart s = .next (Run.start s).swapTurned.s) ∧
    ∀ c p, swapSpare s s.fix.rollNext = some c → coreOfLogical s s.fix.rollNext = some p →
      exec .rollingSwapStart s = .next ((Run.start s).swapStarts p c).s := by
  have ht : decide (s.now < s.fix.rollAt + s.fld (fixReg 8) 7 0 * 86400000000000 / 176) = false :=
    decide_eq_false (Nat.not_lt.mpr ht)
  have hno : ¬ (decide (s.fld (fixReg 4) 2 2 = 0) || decide (s.fld (fixReg 8) 7 0 = 0) || !awake s || s.fix.swap.isSome ||
      decide (s.now < s.fix.rollAt + s.fld (fixReg 8) 7 0 * 86400000000000 / 176)) = true := by
    simp only [hr, hd, ha, hs, ht, decide_false, Bool.not_true, Option.isSome_none, Bool.or_false, Bool.false_eq_true,
      not_false_eq_true]
  have he : exec .rollingSwapStart s = execRollingSwapStart s := rfl
  rw [he]
  unfold execRollingSwapStart
  rw [if_neg hno]
  extract_lets l sec r1 fix r2
  refine ⟨fun h => ?_, fun c p hc hp => ?_⟩
  · have h2 : r2 = (Run.start s).swapTurned := rfl
    rw [← h2]
    split
    · next hc hp =>
      rcases h with h | h
      · exact absurd (h.symm.trans hc) (by simp)
      · exact absurd (h.symm.trans hp) (by simp)
    · exact done_next up
  · rw [show swapSpare s l = some c from hc, show coreOfLogical s l = some p from hp]
    exact done_next (r := (Run.start s).swapStarts p c) up

theorem rollingSwapTimeout_exec {w : FixSwap} {t : Nat} (up : s.halted = false) (hw : s.fix.swap = some w) (hd : w.drain = some t)
    (ht : t + 10000000 ≤ s.now) (hg : gangsOf s w.old ≠ []) : exec .rollingSwapTimeout s = .next
      (((Run.start s).setFix { s.fix with swap := none }).toSpare w.new).s := by
  have ht : decide (s.now < t + 10000000) = false := decide_eq_false (Nat.not_lt.mpr ht)
  have hg : (gangsOf s w.old).isEmpty = false := by simpa using hg
  show execRollingSwapTimeout s = _
  unfold execRollingSwapTimeout
  simp only [hw, hd, ht, hg, Bool.or_false, Bool.false_eq_true, if_false]
  exact done_next up

theorem rollingSwapCopyEnd_exec {w : FixSwap} (up : s.halted = false) (hw : s.fix.swap = some w) (hd : w.drain.isSome = true)
    (hg : gangsOf s w.old = []) (hf : fwRuns s 1 = true) : exec .rollingSwapCopyEnd s = .next
      ((((((Run.start s).setFix { s.fix with swap := none }).setBytes (carrelBase w.new) (s.bytes (carrelBase w.old) 0x40000)).setFld
        (coreReg w.old 0) 31 24 0xFF).backNumber w.logical w.new).toTesting w.old true).noteDegraded.s := by
  have hno : ¬ (w.drain.isNone || !(gangsOf s w.old).isEmpty || !fwRuns s 1) = true := by
    simp [Option.isNone_eq_false_iff.mpr hd, hg, hf]
  show execRollingSwapCopyEnd s = _
  unfold execRollingSwapCopyEnd
  rw [hw]
  show (if (w.drain.isNone || !(gangsOf s w.old).isEmpty || !fwRuns s 1) = true then done (Run.start s) else _) = _
  rw [if_neg hno]
  exact done_next up

/-! ## The Fence Ledger (R460, R465, R466) -/

theorem ledgerAppend_exec {x : LedgerRec} {rest : List LedgerRec} (up : s.halted = false) (ho : s.fix.owed = x :: rest)
    (hf : fwRuns s 4 = true) (hs : s.fix.seq < 24576) : exec .ledgerAppend s = .next
      (((Run.start s).setFix { s.fix with owed := rest }).ledgerOpen.ledgerPut
        (if x.kind = 1 then { x with arg1 := nowBacking s x.arg0 } else x)).s := by
  have hs : decide (s.fix.seq ≥ 24576) = false := decide_eq_false (Nat.not_le.mpr hs)
  show execLedgerAppend s = _
  unfold execLedgerAppend
  simp only [ho, hf, hs, Bool.not_true, Bool.or_false, Bool.false_eq_true, if_false]
  exact done_next up

theorem ledgerCompact_exec (up : s.halted = false) (hf : fwRuns s 4 = true) (hs : s.fix.seq ≠ 0) :
    exec .ledgerCompact s = .next (Run.start s).ledgerCompact.s := by
  show execLedgerCompact s = _
  unfold execLedgerCompact
  simp only [hf, ne_eq, hs, not_false_eq_true, decide_true, Bool.and_self, if_true]
  exact done_next up

end

section
variable {z : State} (r : Run z)

theorem bytes_setFix (x : Fix) (a n : Nat) : (r.setFix x).s.bytes a n = r.s.bytes a n := by
  induction n generalizing a with
  | zero => rfl
  | succ n ih => rw [State.bytes, State.bytes, ih]; rfl

/-- Bytes written from an address read back there. -/
theorem bytes_setBytes_self (hs : r.s.memWf) (a : Nat) (bs : List Byte) : (r.setBytes a bs).s.bytes a bs.length = bs := by
  refine List.ext_getElem? fun i => ?_
  by_cases hi : i < bs.length
  · rw [getElem?_bytes hi, byte_setBytes hs, if_pos (Nat.le_add_right a i), Nat.add_sub_cancel_left]
    simp [hi]
  · rw [List.getElem?_eq_none (by rw [length_bytes]; omega), List.getElem?_eq_none (by omega)]

/-- Bytes that end before the first byte written are as they were. -/
theorem bytes_setBytes_below (hs : r.s.memWf) (a : Nat) (bs : List Byte) {b n : Nat} (h : b + n ≤ a) :
    (r.setBytes a bs).s.bytes b n = r.s.bytes b n := by
  refine List.ext_getElem? fun i => ?_
  by_cases hi : i < n
  · rw [getElem?_bytes hi, getElem?_bytes hi, byte_setBytes hs, if_neg (by omega)]
  · rw [List.getElem?_eq_none (by rw [length_bytes]; omega), List.getElem?_eq_none (by rw [length_bytes]; omega)]

/-- A part of bytes that are in memory. -/
theorem bytes_part {s : State} {a n : Nat} {bs : List Byte} (h : s.bytes a n = bs) {i k : Nat} (hk : i + k ≤ n) :
    s.bytes (a + i) k = (bs.drop i).take k := by
  subst h
  refine List.ext_getElem? fun j => ?_
  by_cases hj : j < k
  · rw [getElem?_bytes hj, List.getElem?_take_of_lt hj, List.getElem?_drop, getElem?_bytes (by omega), Nat.add_assoc]
  · rw [List.getElem?_eq_none (by rw [length_bytes]; omega), List.getElem?_eq_none (by simp; omega)]

theorem ofLe_leBytes {n v : Nat} (h : v < 256 ^ n) : ofLe (leBytes n v) = v := by
  induction n generalizing v with
  | zero =>
    obtain rfl : v = 0 := by simpa using h
    rfl
  | succ n ih =>
    rw [leBytes, ofLe, ih (Nat.div_lt_of_lt_mul (by rwa [← Nat.pow_succ'])), BitVec.toNat_ofNat]
    omega

theorem length_ledgerBytes (x : LedgerRec) (seq : Nat) (prev : List Byte) : (ledgerBytes x seq prev).length = 64 := by
  simp [ledgerBytes, length_leBytes, Config.shake256]

/-- The words of a record, by their place. -/
theorem ledgerBytes_words (x : LedgerRec) (seq : Nat) (prev : List Byte) :
    ((ledgerBytes x seq prev).drop 0).take 4 = leBytes 4 (x.kind * 2 ^ 24) ∧ ((ledgerBytes x seq prev).drop 4).take 4 = leBytes 4 seq ∧
    ((ledgerBytes x seq prev).drop 8).take 8 = leBytes 8 x.time ∧ ((ledgerBytes x seq prev).drop 16).take 4 = leBytes 4 x.boot ∧
    ((ledgerBytes x seq prev).drop 20).take 4 = leBytes 4 x.arg0 ∧ ((ledgerBytes x seq prev).drop 24).take 4 = leBytes 4 x.arg1 :=
  ⟨rfl, rfl, rfl, rfl, rfl, rfl⟩

/-- A record whose octets stand at its place is read from there. -/
theorem ledgerRead_of_bytes {s : State} {half seq : Nat} {x : LedgerRec}
    (h : s.bytes (ledgerAt half seq) 64 = ledgerBytes x seq (prevTag s half seq)) (hq : seq < 24576) (hk : x.kind < 256)
    (h0 : x.arg0 < 2 ^ 32) (h1 : x.arg1 < 2 ^ 32) (hb : x.boot < 2 ^ 32) (ht : x.time < 2 ^ 64) : ledgerRead s half seq = some x := by
  obtain ⟨w0, w1, w2, w4, w5, w6⟩ := ledgerBytes_words x seq (prevTag s half seq)
  have word : ∀ {i n v : Nat}, i + n ≤ 64 → ((ledgerBytes x seq (prevTag s half seq)).drop i).take n = leBytes n v → v < 256 ^ n →
      s.load (ledgerAt half seq + i) n = v := by
    intro i n v hi hw hv
    rw [State.load, bytes_part h hi, hw, ofLe_leBytes hv]
  have e0 : s.load (ledgerAt half seq + 4 * 0) 4 = x.kind * 2 ^ 24 := word (by decide) w0 (by omega)
  have e1 : s.load (ledgerAt half seq + 4 * 1) 4 = seq := word (by decide) w1 (by omega)
  have e2 : s.load (ledgerAt half seq + 8) 8 = x.time := word (by decide) w2 (by omega)
  have e4 : s.load (ledgerAt half seq + 4 * 4) 4 = x.boot := word (by decide) w4 (by omega)
  have e5 : s.load (ledgerAt half seq + 4 * 5) 4 = x.arg0 := word (by decide) w5 (by omega)
  have e6 : s.load (ledgerAt half seq + 4 * 6) 4 = x.arg1 := word (by decide) w6 (by omega)
  unfold ledgerRead
  simp only [e0, e1, e2, e4, e5, e6, Nat.mul_div_cancel _ (show 0 < 2 ^ 24 by decide), h, decide_true, Bool.and_self, if_true]

/-- A record that was appended verifies when it is read back. -/
theorem ledgerRead_ledgerPut {x : LedgerRec} (hs : r.s.memWf) (hq : r.s.fix.seq < 24576) (hk : x.kind < 256) (h0 : x.arg0 < 2 ^ 32)
    (h1 : x.arg1 < 2 ^ 32) (hb : x.boot < 2 ^ 32) (ht : x.time < 2 ^ 64) :
    ledgerRead (r.ledgerPut x).s r.s.fix.half r.s.fix.seq = some x := by
  have hmem : ∀ a n, (r.ledgerPut x).s.bytes a n = (r.setBytes (ledgerAt r.s.fix.half r.s.fix.seq)
      (ledgerBytes x r.s.fix.seq (prevTag r.s r.s.fix.half r.s.fix.seq))).s.bytes a n := fun a n => by
    unfold Run.ledgerPut
    exact bytes_setFix _ _ a n
  have tag : prevTag (r.ledgerPut x).s r.s.fix.half r.s.fix.seq = prevTag r.s r.s.fix.half r.s.fix.seq := by
    unfold prevTag
    split
    · rfl
    · rw [hmem]
      refine bytes_setBytes_below r hs _ _ ?_
      unfold ledgerAt
      omega
  refine ledgerRead_of_bytes ?_ hq hk h0 h1 hb ht
  rw [tag, hmem]
  have h := bytes_setBytes_self r hs (ledgerAt r.s.fix.half r.s.fix.seq)
    (ledgerBytes x r.s.fix.seq (prevTag r.s r.s.fix.half r.s.fix.seq))
  rwa [length_ledgerBytes] at h

theorem ledgerPut_seq (x : LedgerRec) : (r.ledgerPut x).s.fix.seq = r.s.fix.seq + 1 := rfl

end

/-- Settles O58: each event by its conditions, and a record of the Fence Ledger that reads back. -/
theorem testAndLedgerEvents : Obligations.TestAndLedgerEvents := by
  refine ⟨fun core hc => .intro fun s up ⟨hf, hh, ht⟩ => ⟨_, spareBistStart_exec up hc hf hh ht, rfl⟩,
    fun core fails column x => ?tests,
    fun core t s up _ ⟨hp, hf, ht, hn⟩ => ⟨_, reinstateBist_exec up hp hf ht hn, rfl⟩, ?swaps,
    fun w t hd => .intro fun s up ⟨hw, ht, hg⟩ => ⟨_, rollingSwapTimeout_exec up hw hd ht hg, rfl⟩,
    fun w hd => .intro fun s up ⟨hw, hg, hf⟩ => ⟨_, rollingSwapCopyEnd_exec up hw hd hg hf, rfl⟩,
    fun x rest => .intro fun s up ⟨ho, hf, hs⟩ => ⟨_, ledgerAppend_exec up ho hf hs, rfl⟩,
    .intro fun s up ⟨hf, hs⟩ => ⟨_, ledgerCompact_exec up hf hs, rfl⟩,
    fun s r x hs _ _ hq hk h0 h1 hb ht => ⟨ledgerRead_ledgerPut r hs hq hk h0 h1 hb ht, ledgerPut_seq r x⟩⟩
  case tests =>
    intro tested st
    refine ⟨.intro fun s up ⟨⟨hx, ht⟩, hs, hf⟩ => ⟨_, (bistEnd_exec up hx ht).trans ?_, rfl⟩,
      .intro fun s up ⟨⟨hx, ht⟩, hs, hf, hr⟩ => ⟨_, (bistEnd_exec up hx ht).trans ?_, rfl⟩,
      .intro fun s up ⟨⟨hx, ht⟩, hs, hf, hr⟩ => ⟨_, (bistEnd_exec up hx ht).trans ?_, rfl⟩,
      .intro fun s up ⟨⟨hx, ht⟩, hs, hf⟩ => ⟨_, (bistEnd_exec up hx ht).trans ?_, rfl⟩,
      .intro fun s up ⟨⟨hx, ht⟩, hs, hf⟩ => ⟨_, (bistEnd_exec up hx ht).trans ?_, rfl⟩,
      .intro fun s up ⟨⟨hx, ht⟩, hs, hf, hp⟩ => ⟨_, (bistEnd_exec up hx ht).trans ?_, rfl⟩,
      .intro fun s up ⟨⟨hx, ht⟩, hs, hf, hp, hr⟩ => ⟨_, (bistEnd_exec up hx ht).trans ?_, rfl⟩,
      .intro fun s up ⟨⟨hx, ht⟩, hs, hf, hp, hr⟩ => ⟨_, (bistEnd_exec up hx ht).trans ?_, rfl⟩⟩
    all_goals have hs : fixState s core = _ := hs
    · simp [hs, hf]
    · simp [hs, hf, hr]
    · simp [hs, hf, hr]
    · simp [hs, hf]
    · simp [hs, show fails ≠ 0 by omega, show fails ≠ 1 by omega]
    · simp [hs, hf, hp]
    · simp [hs, hf, hp, hr]
    · simp [hs, hf, hp, hr]
  case swaps =>
    intro due turned
    exact ⟨.intro fun s up ⟨⟨hr, hd, ha, hs, ht⟩, hn⟩ => ⟨_, (rollingSwapStart_exec up hr hd ha hs ht).1 hn, rfl⟩,
      fun c p => .intro fun s up ⟨⟨hr, hd, ha, hs, ht⟩, hc, hp⟩ =>
        ⟨_, (rollingSwapStart_exec up hr hd ha hs ht).2 c p hc hp, rfl⟩⟩

end Sys2Proof.Machine
end


section
/-! PROOFS. An edge of TCK in a device whose registers do not show its protection state (R476, R482). -/

namespace Sys2Proof.Machine

/-- A device whose owner's key is enrolled, and whose SEC_STAT does not say so. -/
def enrolledUnshown : State := { sec := { enrolled := true } }

theorem enrolledUnshown_sound : enrolledUnshown.Sound :=
  ⟨by decide, by decide, by decide, by decide⟩

/-- TRST_N low holds the TAP in reset; the replaced protection state is shown in its registers. -/
theorem jtagReset_exec {s : State} (up : s.halted = false) (tms tdi : Bool) :
    exec (.jtagTckEdge tms tdi false) s = .next ((Run.start s).setSec { s.sec with jtag := {} }).s :=
  done_next up

theorem enrolledUnshown_edge : ((Run.start enrolledUnshown).setSec { enrolledUnshown.sec with jtag := {} }).s.fld (secReg 0) 31 31 = 1 ∧
    enrolledUnshown.fld (secReg 0) 31 31 = 0 := by
  decide +kernel

/-- Refutes O59: a TCK edge with TRST_N low writes the protection state's registers with the TAP, and in a sound state these need not
show the protection state already: SEC_STAT's bit 31 is then set by the edge. -/
theorem not_securityEvents : ¬ Obligations.SecurityEvents := by
  rintro ⟨-, -, jtagReset, -⟩
  obtain ⟨t, ht, rfl⟩ := jtagReset false false enrolledUnshown rfl enrolledUnshown_sound trivial
  obtain ⟨shown, hidden⟩ := enrolledUnshown_edge
  have same := Host.Outcome.next.inj ((jtagReset_exec (s := enrolledUnshown) rfl false false).symm.trans ht)
  rw [same] at shown
  exact absurd (shown.symm.trans hidden) (by decide)

end Sys2Proof.Machine
end


section
/-! PROOFS. Messages as their owners execute them: the queue, the checks of R320, and the session and work messages (R308, R311, R324 to R326). -/

namespace Sys2Proof.Machine

/-! ## The message at the front of a queue -/

section
variable {s : State} {q : Nat} {t : Msg → Bool} {m : Msg}

theorem nextMsg_of_frontMsg (h : frontMsg s q t = some m) : nextMsg s q = some m ∧ t m = true := by
  unfold frontMsg at h
  cases hn : nextMsg s q with
  | none =>
    rw [hn] at h
    cases h
  | some n =>
    rw [hn] at h
    by_cases hc : (t n && served s q n.opcode && (romAnswers s q || !notItsTurn s n)) = true
    · obtain rfl : n = m := by simpa [hc] using h
      simp only [Bool.and_eq_true] at hc
      exact ⟨rfl, hc.1.1⟩
    · simp [hc] at h

/-- Taking a message changes the queues of the owners alone. -/
theorem popMsg_queues (s : State) (q : Nat) :
    ∃ l, ((Run.start s).popMsg q).s = { s with mhy := { s.mhy with queues := l } } := by
  unfold Run.popMsg
  cases nextMsg (Run.start s).s q with
  | none => exact ⟨s.mhy.queues, rfl⟩
  | some m => exact ⟨_, rfl⟩

theorem popMsg_congr {α : Type} (f : State → α) (hf : ∀ (s : State) l, f { s with mhy := { s.mhy with queues := l } } = f s)
    (s : State) (q : Nat) :
    f ((Run.start s).popMsg q).s = f s := by
  obtain ⟨l, h⟩ := popMsg_queues s q
  rw [h]
  exact hf s l

end

/-! ## The checks of R320 -/

section
variable {c : Instr} {q op : Nat} {test test' len : Msg → Bool} {pre : State → Prop} {ok : State → Sess → Msg → Prop}
  {body : (s : State) → Sess → Msg → Run s → Run s} {out : {z : State} → Sess → Msg → Run z → Run z}

theorem serve_front {s : State} {m : Msg} {x : Sess} {b : Sess → Msg → Run s → Run s} (hf : frontMsg s q test' = some m)
    (hx : sess? s m.session = some x) : (Run.start s).serve q test' len b =
      let r := (Run.start s).popMsg q
      if x.releasing then r.reply m stLeaseLost
      else if !s.sec.recovery && !mayUse s x.peer.bind m.opcode then r.reply m stDenied
      else if !len m then r.reply m stBadLength
      else b x m r := by
  unfold Run.serve
  rw [show frontMsg (Run.start s).s q test' = some m from hf]
  dsimp only
  have hq : sess? ((Run.start s).popMsg q).s m.session = some x :=
    (popMsg_congr (fun s => sess? s m.session) (fun _ _ => rfl) s q).trans hx
  have hr := popMsg_congr (fun s => s.sec.recovery) (fun _ _ => rfl) s q
  have hm := popMsg_congr (fun s => mayUse s x.peer.bind m.opcode) (fun _ _ => rfl) s q
  rw [hq]
  dsimp only
  rw [hr, hm]
  rfl

/-- A row whose command serves its queue: the checks are those of `serve`, and the effect is what the body does once they pass. -/
theorem MessageRow.intro
    (he : ∀ s, pre s → s.halted = false → exec c s = .next ((Run.start s).serve q test' len (body s)).s)
    (ht : test' = fun m => isOp op m && test m)
    (hb : ∀ s x m, pre s → Taken s q op test len x m → ok s x m →
      body s x m ((Run.start s).popMsg q) = out x m ((Run.start s).popMsg q)) :
    MessageRow c q op test len pre ok out := by
  subst ht
  refine ⟨fun s x m hp hm ho => ?_, fun s x m hp up hv hf hx => ?_⟩
  · have hop : m.opcode = op := by
      have h := (nextMsg_of_frontMsg hm.front).2
      simp only [Bool.and_eq_true] at h
      exact of_decide_eq_true h.1
    rw [he s hp hm.up, serve_front hm.front hm.session]
    dsimp only
    rw [if_neg (by rw [hm.stays]; exact Bool.false_ne_true), if_neg, if_neg (by rw [hm.length]; exact Bool.false_ne_true), hb s x m hp hm ho]
    rw [hop]
    rcases hm.may with h | h <;> simp [h]
  · have hop : m.opcode = op := by
      have h := (nextMsg_of_frontMsg hf).2
      simp only [Bool.and_eq_true] at h
      exact of_decide_eq_true h.1
    dsimp only
    rw [he s hp up, serve_front hf hx, hv, hop]
    refine ⟨fun h => by simp [h], fun h hu => by simp [h, hu], fun h hu hl => by simp [h, hu, hl]⟩

end

end Sys2Proof.Machine
end
section
/-! ## Sessions and work -/

namespace Sys2Proof.Machine

theorem isOp_all (op : Nat) : isOp op = fun m => isOp op m && (fun _ => true) m := by
  funext m
  exact (Bool.and_true _).symm

theorem badLength_ok {z : State} (r : Run z) : r.badLength stOk = r := if_neg (by decide)

/-- The HELLO's own entry among the requests that execute. -/
def sameHello (m : Msg) (e : MExec) : Bool := e.opcode = 1 && e.seq = m.seq && e.peer.bind = m.peer.bind

/-- A run whose HELLO no longer counts as executing. -/
def helloClosed {z : State} (r : Run z) (m : Msg) : Run z :=
  r.setMhy { r.s.mhy with execs := r.s.mhy.execs.filter fun e => !sameHello m e }

/-- The features of an accepted HELLO, in the run that has drawn its token. -/
def helloFeats (s : State) (m : Msg) : List Nat :=
  (List.range 8).map fun i => (le m.payload (8 + 2 * i) 2 &&& (deviceFeats s).getD i 0) ||| (if i = 0 then 1 else 0)

theorem helloTaken_accept {z : State} {r : Run z} {m : Msg} {n : Nat} (hr : r.s.mhy.execs.find? (sameHello m) = none)
    (hn : closedSess (helloClosed r m).s = some n) (hs : helloStatus (helloClosed r m).s m = stOk) :
    r.helloTaken m =
      let d := (helloClosed r m).draw
      let token := d.1.toNat % (2 ^ 32 - 1) + 1
      let w := d.2.setSess n {
        token := token, peer := m.peer, feats := helloFeats d.2.s m, minor := min m.minor 2, nocrc := m.nocrc }
      let w := ((w.setLease n (m.w 0)).setFld (sessReg n 0) 31 30 1).setReg64 (sessReg n 4) m.stamp
      w.mhyAnswer m.peer (min m.minor 2) m.nocrc 1 n token m.seq stOk
        (leBytes 4 (leaseWord w.s n) ++ leBytes 4 8 ++ (helloFeats d.2.s m).flatMap (leBytes 2)) := by
  show Run.helloTaken r m = _
  unfold Run.helloTaken
  simp only [show (r.s.mhy.execs.find? fun e => decide (e.opcode = 1) && decide (e.seq = m.seq) && decide (e.peer.bind = m.peer.bind)) =
    none from hr]
  generalize hq : r.setMhy _ = q
  have hq : helloClosed r m = q := hq
  rw [hq] at hn hs ⊢
  rw [hn, hs]
  dsimp only
  rw [if_neg (by decide), badLength_ok]
  rfl

/-- Settles O35: each message by its queue, the checks of R320, and its own. -/
theorem sessionMessages : Obligations.SessionMessages := by
  unfold Obligations.SessionMessages
  intro all run
  refine ⟨fun m s up hf => ?hello, fun m n => ?accept,
    .intro (fun s _ up => done_next up) (isOp_all _) fun s x m _ _ _ => rfl,
    .intro (fun s _ up => done_next up) (isOp_all _) fun s x m _ _ _ => rfl,
    .intro (fun s _ up => done_next up) (isOp_all _) fun s x m _ _ ho => ?_,
    .intro (fun s _ up => done_next up) (isOp_all _) fun s x m _ _ ho => ?_,
    .intro (fun s _ up => done_next up) (isOp_all _) fun s x m _ _ ho => ?_,
    fun st hne => .intro (fun s _ up => done_next up) (isOp_all _) fun s x m _ _ ho => ?_,
    .intro (fun s _ up => done_next up) (isOp_all _) fun s x m _ _ ho => ?_,
    .intro (fun s _ up => done_next up) (isOp_all _) fun s x m _ _ ⟨hb, ho⟩ => ?_,
    .intro (fun s _ up => done_next up) (isOp_all _) fun s x m _ _ ⟨hb, ho⟩ => ?_,
    fun m s up hf => ?unknown⟩
  case hello =>
    show execHello s = _
    unfold execHello
    rw [hf]
    exact done_next up
  case accept =>
    intro same q s up ⟨hf, hr, hn, hs⟩
    show execHello s = _
    unfold execHello
    rw [hf]
    refine (done_next up).trans ?_
    exact congrArg (fun r : Run s => Host.Outcome.next r.s) (helloTaken_accept hr hn hs)
  case unknown =>
    show execMessageUnknownOpcode s = _
    unfold execMessageUnknownOpcode
    rw [hf]
    exact done_next up
  · dsimp only
    rw [if_neg (by rw [ho]; decide)]
  · dsimp only
    rw [if_pos (by rw [ho]; decide)]
  · dsimp only
    have h : submitStatus ((Run.start s).popMsg 0).s m = stOk :=
      (popMsg_congr (fun s => submitStatus s m) (fun _ _ => rfl) s 0).trans ho
    rw [if_neg (by rw [h]; decide)]
    by_cases hz : bits (m.w 0) 7 0 = 0
    · rw [if_pos hz]
      simp [hz, Run.when]
    · rw [if_neg hz]
      simp only [hz, Run.when, ne_eq, not_false_eq_true, decide_true, if_true] <;> rfl
  · have h : submitStatus ((Run.start s).popMsg 0).s m = st :=
      (popMsg_congr (fun s => submitStatus s m) (fun _ _ => rfl) s 0).trans ho
    dsimp only
    rw [if_pos (by rw [h]; exact hne), h]
  · have hw : bits (m.w 0) 31 14 = 0 := by
      unfold bits
      rw [Nat.div_eq_of_lt ho, Nat.zero_mod]
    have hl : bits (m.w 0) 13 0 = m.w 0 := by
      unfold bits
      rw [pow_zero, Nat.div_one, Nat.mod_eq_of_lt ho]
    rw [if_neg (by rw [hw]; decide), hl]
  · have h := popMsg_congr (fun s => bellOk s (m.w 0) m.stamp) (fun _ _ => rfl) s 0
    dsimp only at h ⊢
    rw [if_neg (by rw [hb]; decide), h, ho]
    rfl
  · have h := popMsg_congr (fun s => bellOk s (m.w 0) m.stamp) (fun _ _ => rfl) s 0
    dsimp only at h ⊢
    rw [if_neg (by rw [hb]; decide), h, ho]
    rfl

end Sys2Proof.Machine
end


section
/-! PROOFS. Messages about tallies, memory and pace (R109, R290, R325, R327 to R329, R445). -/

namespace Sys2Proof.Machine

/-- What a tally message does at its home: its act, then the value before it as the reply. -/
theorem tallyMsg_act {s : State} {m : Msg} {i : Nat} {act : Run s → Nat → W32 → Run s} (hw : m.w 0 < 3) (hi : tallyOf s (m.w 1) = some i) :
    (let r := (Run.start s).popMsg 0
      if bits (m.w 0) 31 2 ≠ 0 || bits (m.w 0) 1 0 = 3 then r.reply m stBounds
      else match tallyOf r.s (m.w 1) with
        | none => r.reply m stBounds
        | some i =>
          let old := (r.s.tally i).value.toNat
          ((act r i (BitVec.ofNat 32 (m.w 2))).reply m stOk (leBytes 4 old)).settleSignals) =
    ((act ((Run.start s).popMsg 0) i (BitVec.ofNat 32 (m.w 2))).reply m stOk
      (leBytes 4 (((Run.start s).popMsg 0).s.tally i).value.toNat)).settleSignals := by
  have hb : bits (m.w 0) 31 2 = 0 ∧ bits (m.w 0) 1 0 ≠ 3 := by
    unfold bits
    omega
  have ht := (popMsg_congr (fun s => tallyOf s (m.w 1)) (fun _ _ => rfl) s 0).trans hi
  dsimp only at ht ⊢
  rw [if_neg (by simp [hb]), ht]

theorem length_lookupBytes {s : State} {c : XCtx} {k : Access} {va n : Nat} {l : List Nat} (h : lookupBytes s c k va n = .ok l) :
    l.length = n := by
  induction n generalizing va l with
  | zero =>
    cases h
    rfl
  | succ n ih =>
    unfold lookupBytes at h
    cases hl : lookup s c k va with
    | error f =>
      rw [hl] at h
      cases h
    | ok x =>
      rw [hl] at h
      dsimp only at h
      by_cases hb : (!(region x.pa).isMem || (c.en && laneBarred s x.pa) || (k == .load && s.isUe x.pa)) = true
      · rw [if_pos hb] at h
        cases h
      · rw [if_neg hb] at h
        cases hr : lookupBytes s c k (va + 1) n with
        | error f =>
          rw [hr] at h
          cases h
        | ok as =>
          rw [hr] at h
          cases h
          rw [List.length_cons, ih hr]

/-- The reply to a READ carries the bytes that its addresses hold once the walk has marked its entries. -/
theorem reply_readIn {z : State} (r : Run z) (m : Msg) (c : XCtx) (va n : Nat) :
    (match r.readIn c va n with
      | (.ok v, r) => r.reply m stOk (leBytes n v)
      | (.error _, r) => r.reply m stBounds) =
    match lookupBytes (r.readIn c va n).2.s c .load va n with
      | .ok as => (r.readIn c va n).2.reply m stOk (as.map (r.readIn c va n).2.s.byte)
      | .error _ => (r.readIn c va n).2.reply m stBounds := by
  have hv : (r.readIn c va n).1 = readVirt (r.readIn c va n).2.s c va n := rfl
  generalize r.readIn c va n = p at hv ⊢
  obtain ⟨e, q⟩ := p
  obtain rfl : e = readVirt q.s c va n := hv
  dsimp only
  unfold readVirt
  cases hl : lookupBytes q.s c .load va n with
  | error f => rfl
  | ok l =>
    have h := leBytes_ofLe (l.map q.s.byte)
    rw [List.length_map, length_lookupBytes hl] at h
    dsimp only
    rw [h]

/-- Settles O36: each message by its queue, the checks of R320, and its own. -/
theorem workMessages : Obligations.WorkMessages := by
  unfold Obligations.WorkMessages
  intro all run
  refine ⟨.intro (fun s _ up => done_next up) (isOp_all _) fun s x m _ _ ⟨h1, h2, h3, h4, h5⟩ => ?alloc,
    .intro (fun s _ up => done_next up) (isOp_all _) fun s x m _ _ ⟨h1, h2⟩ => ?free,
    .intro (fun s _ up => done_next up) (isOp_all _) fun s x m _ _ ho => ?stale,
    fun i => ?ops, ?timeout,
    .intro (fun s _ up => done_next up) (isOp_all _) fun s x m _ _ ho => ?read,
    fun st hne => .intro (fun s _ up => done_next up) (isOp_all _) fun s x m _ _ ho => ?unread,
    .intro (fun s _ up => done_next up) (isOp_all _) fun s x m _ _ ⟨hv, hr, hc, hm⟩ => ?write,
    .intro (fun s _ up => done_next up) (isOp_all _) fun s x m _ _ ⟨hv, hr, hm⟩ => ?staged,
    .intro (fun s _ up => done_next up) (isOp_all _) fun s x m _ _ ⟨ho, hl, hf⟩ => ?bind,
    fun j => .intro (fun s _ up => done_next up) (isOp_all _) fun s x m _ _ ⟨hj, h0, hs, hn⟩ => ?pace, ?resend⟩
  case alloc =>
    have hf := (popMsg_congr (fun s => replyFits s x m (4 * bits (m.w 0) 7 0)) (fun _ _ => rfl) s 0).trans h4
    have ht := popMsg_congr (fun s => (s.tallies.filter fun t => t.2.allocated).length) (fun _ _ => rfl) s 0
    dsimp only at ht ⊢
    rw [if_neg (by simp [h1, h2, hf, Nat.not_lt.mpr h3]), if_neg (by rw [ht]; exact Nat.not_lt.mpr h5)]
  case free =>
    have hn : (freeHandles m).any (fun h => (tallyOf ((Run.start s).popMsg 0).s h).isNone) = false := by
      rw [show (fun h => (tallyOf ((Run.start s).popMsg 0).s h).isNone) = fun h => (tallyOf s h).isNone from
        popMsg_congr (fun s h => (tallyOf s h).isNone) (fun _ _ => rfl) s 0, List.any_eq_false]
      intro h hm
      rw [Option.isNone_eq_false_iff.mpr (h1 h hm)]
      exact Bool.false_ne_true
    rw [if_neg (by simp [hn, h2])]
  case stale =>
    rw [if_pos]
    rw [show (fun h => (tallyOf ((Run.start s).popMsg 0).s h).isNone) = fun h => (tallyOf s h).isNone from
      popMsg_congr (fun s h => (tallyOf s h).isNone) (fun _ _ => rfl) s 0]
    rcases ho with ⟨h, hm, hn⟩ | hd
    · simp only [Bool.or_eq_true, List.any_eq_true]
      exact .inl ⟨h, hm, Option.isNone_iff_eq_none.mpr hn⟩
    · simp [hd]
  case ops =>
    intro ok old
    refine ⟨.intro (fun s _ up => done_next up) ?_ fun s x m _ hm ⟨hw, hi⟩ => ?_,
      .intro (fun s _ up => done_next up) ?_ fun s x m _ hm ⟨hw, hi⟩ => ?_,
      .intro (fun s _ up => done_next up) ?_ fun s x m _ hm ⟨hw, hi⟩ => ?_,
      .intro (fun s _ up => done_next up) (isOp_all _) fun s x m _ hm ⟨hw, hi⟩ => ?_⟩
    · exact funext fun m => by simp [isTallyOp, isOp]
    · exact tallyMsg_act hw hi
    · exact funext fun m => by simp [isTallyOp, isOp]
    · exact tallyMsg_act hw hi
    · refine funext fun m => congrArg (isOp 0x0105 m && ·) ?_
      have h : bits (m.w 0) 1 0 < 4 := Nat.mod_lt _ (by decide)
      rw [List.contains_eq_mem]
      simp only [List.mem_cons, List.not_mem_nil, or_false]
      exact decide_eq_decide.mpr (by omega)
    · exact tallyMsg_act (act := fun r _ _ => r) hw hi
    · have ht := (popMsg_congr (fun s => tallyOf s (m.w 0)) (fun _ _ => rfl) s 0).trans hw
      have hn := popMsg_congr (fun s => (s.mhy.watches.filter fun w => w.session = m.session).length) (fun _ _ => rfl) s 0
      dsimp only at ht hn ⊢
      rw [ht]
      dsimp only
      rw [hn, if_neg (Nat.not_le.mpr hi)]
  case timeout =>
    intro session seq w s up ⟨hw, ht⟩
    show execTallyWatchTimeout session seq s = _
    unfold execTallyWatchTimeout
    rw [hw]
    dsimp only
    rw [if_neg (Nat.not_le.mpr ht)]
    exact done_next up
  case read =>
    have h : readStatus ((Run.start s).popMsg 1).s x m = stOk :=
      (popMsg_congr (fun s => readStatus s x m) (fun _ _ => rfl) s 1).trans ho
    dsimp only
    rw [if_neg (by rw [h]; decide), if_neg (by rw [h]; decide)]
    exact reply_readIn _ _ _ _ _
  case unread =>
    have h : readStatus ((Run.start s).popMsg 1).s x m = st :=
      (popMsg_congr (fun s => readStatus s x m) (fun _ _ => rfl) s 1).trans ho
    dsimp only
    rw [h]
    by_cases hu : st = stUncorrectable
    · rw [if_pos hu, if_pos hu]
    · rw [if_neg hu, if_neg hu, if_pos hne]
  case write =>
    have h1 := (popMsg_congr (fun s => s.sec.recovery) (fun _ _ => rfl) s 1).trans hv
    have h2 := (popMsg_congr (fun s => ctxSession s (memCtx m)) (fun _ _ => rfl) s 1).trans hc
    have h3 := (popMsg_congr (fun s => mapped s (ctxX s (memCtx m)) .store (memAddr m) (memLen m)) (fun _ _ => rfl) s 1).trans hm
    dsimp only at h1 h2 h3 ⊢
    rw [hr, h1, if_neg Bool.false_ne_true, if_neg Bool.false_ne_true, if_neg (not_not_intro h2),
      if_neg (by rw [h3]; decide)] <;> rfl
  case staged =>
    have h1 := (popMsg_congr (fun s => s.sec.recovery) (fun _ _ => rfl) s 1).trans hv
    dsimp only at h1 ⊢
    rw [hr, h1, if_neg Bool.false_ne_true, if_pos rfl, if_neg (Nat.not_lt.mpr hm)]
  case bind =>
    have h1 := popMsg_congr (fun s => s.mhy.jobs) (fun _ _ => rfl) s 0
    have h2 := popMsg_congr (fun s => s.fld (pwrReg 0x304) 31 31) (fun _ _ => rfl) s 0
    dsimp only at h1 h2 ⊢
    have hfull : ¬ (!paceOk m || decide ((s.mhy.jobs.filter fun i => i.job ≠ (paceJob m).job).length ≥ 16)) = true := by
      simp only [ho, Bool.not_true, Bool.false_or, decide_eq_true_eq, ge_iff_le, not_le]
      exact hl
    have hfixed : ¬ (decide (s.fld (pwrReg 0x304) 31 31 = 1) && decide ((paceJob m).n > 2)) = true := by
      simpa using hf
    rw [h1, h2, if_neg hfull, if_neg hfixed] <;> rfl
  case pace =>
    have h1 := popMsg_congr (fun s => s.mhy.jobs) (fun _ _ => rfl) s 0
    dsimp only at h1 ⊢
    rw [h1, hj]
    dsimp only
    rw [if_neg (by simp [h0, hs, hn])] <;> rfl
  case resend =>
    intro s up hf
    have hs : fwRuns s 0 = true := by
      by_contra hn
      have hq : (Run.start s).mhyFlush = Run.start s := if_pos (show (!fwRuns s 0) = true by simp [hn])
      rw [hq] at hf
      exact hn hf
    show execPaceResend s = _
    unfold execPaceResend
    dsimp only
    rw [if_neg (by rw [hs]; decide)]
    exact done_next up

end Sys2Proof.Machine
end


section
/-! PROOFS. Messages of observation, power and security (R303, R305, R325, R428, R443, R469, R474, R475, R480, R485, R491). -/

namespace Sys2Proof.Machine

section
variable {z : State} (r : Run z)

/-! ## Snapshots (R485) -/

theorem snapArm_armed {t stamp : Nat} (ht : stamp + 2000 ≤ t) (hd : r.s.fld (topReg 0x200) 31 31 = 0) :
    r.snapArm t stamp =
      let w := (r.setReg64 (topReg 0x204) t).setFld (topReg 0x200) 31 31 1
      (stOk, ((w.s.reg (topReg 0x20C)).toNat + 1) % 2 ^ 32, w.snapStatus stOk) := by
  unfold Run.snapArm
  rw [if_neg]
  rw [hd]
  simpa using ht

/-! ## Power states (R427, R428) -/

/-- Nothing stands in the way of a request: none is under way, the device is awake, no entry and no switch runs, and no claim is above. -/
structure PowerFree (s : State) (t : Nat) : Prop where
  req : s.power.req = none
  asked : s.power.asked = none
  entering : s.power.entering = none
  switch : s.sec.switch = none
  awake : powerState s ≤ 1
  moves : t ≠ powerState s
  claims : t ≤ claimState s

variable {t : Nat} {a : Nat × Nat}

theorem requestState_free (h : PowerFree r.s t) : r.requestState t (some a) =
    if t = 0 && anySensor r.s (tAlert r.s) then r.endRequest (some a) stPwrThermal
    else if decide (powerState r.s ≤ 1) && decide (t ≤ 1) then
      ((r.setPower { r.s.power with last := t }).reachState t).endRequest (some a) stOk
    else if powerState r.s ≤ 1 then
      if reflexInFlight r.s then r.endRequest (some a) stReflexActive
      else if r.s.vault.windows ≠ [] then r.endRequest (some a) stPwrBadState
      else (r.setPower { r.s.power with req := some ⟨t, r.s.now + r.s.fld (pwrReg 8) 15 0 * 1000000, some a⟩ }).setFld (pwrReg 4) 28 28 1
    else r.endRequest (some a) stPwrBadState := by
  unfold Run.requestState
  simp only []
  rw [if_neg (by simp [h.req, h.asked, h.entering, h.switch]), if_neg (by simp), if_neg h.moves, if_neg (Nat.not_lt.mpr h.claims)]

theorem requestState_awake (h : PowerFree r.s t) (ht : t ≤ 1) (hs : t = 0 → anySensor r.s (tAlert r.s) = false) :
    r.requestState t (some a) = ((r.setPower { r.s.power with last := t }).reachState t).endRequest (some a) stOk := by
  rw [requestState_free r h, if_neg, if_pos (by simp [h.awake, ht])]
  simpa using hs

theorem requestState_drains (h : PowerFree r.s t) (ht : 2 ≤ t) (hf : reflexInFlight r.s = false) (hw : r.s.vault.windows = []) :
    r.requestState t (some a) =
      (r.setPower { r.s.power with req := some ⟨t, r.s.now + r.s.fld (pwrReg 8) 15 0 * 1000000, some a⟩ }).setFld (pwrReg 4) 28 28 1 := by
  rw [requestState_free r h, if_neg (by simp; omega), if_neg (by simp; omega), if_pos h.awake, if_neg (by simp [hf]), if_neg (by simp [hw])]

theorem writeCap_taken {w : Nat} (h : w ≤ r.s.fld (pwrReg 0x300) 7 0 ∨ anySensor r.s (tAlert r.s) = false) :
    r.writeCap w = (stOk, r.setFld (pwrReg 0x300) 7 0 w) := by
  unfold Run.writeCap
  rw [if_neg]
  rcases h with h | h
  · simp [Nat.not_lt.mpr h]
  · simp [h]

/-! ## Changes (R474, R475) -/

theorem propose_held {p : List Byte} {stamp : Nat} (hs : r.s.sec.switch = none) (hp : proposeStatus r.s p = stNeedCountersign) :
    r.propose p stamp = (stNeedCountersign, r.setSec { r.s.sec with held := some {
        kind := bits (le p 0 4) 31 24, party := bits (le p 0 4) 23 16, ctr := le p 0x18 8, head := p.take (0x40 + le p 4 4)
        body := slice p 0x40 (le p 4 4), at_ := stamp } }) := by
  unfold Run.propose
  rw [if_neg (by rw [hs]; decide)]
  simp only []
  rw [if_neg (by simp [hp]), hp]

/-- A change that passes R475 is committed, then its effect by its kind. -/
theorem countersign_passes {m : Msg} {h : Proposal} (hs : countersignStatus r.s m.payload m.stamp = stOk)
    (hw : r.s.sec.env.storeWrites = true) (hh : r.s.sec.held = some h) : r.countersign m =
      let w := r.secCommit h.ctr
      let ok (r : Run z) : Run z := (r.trace 0x14 0x0050 (h.ctr % 2 ^ 32)).mhyReply m.session m.seq stOk []
      let sw (next : List Byte) (unlock : Bool) : Switch := {
        at_ := m.stamp, next := next, unlock := unlock, peer := m.peer, session := m.session, seq := m.seq
        minor := match sess? w.s m.session with | some x => x.minor | none => 2
        nocrc := m.nocrc }
      match h.kind with
      | 1 => ok (w.setSec { w.s.sec with
          enrolled := true, ownerKey := slice h.body 4 keyLen, operatorKey := slice h.body (4 + keyLen) keyLen })
      | 2 => ok (w.setSec { w.s.sec with ownerKey := h.body.take keyLen, operatorKey := h.body.drop keyLen })
      | 3 => (w.setSec { w.s.sec with stored := h.body }).switchBegin (sw h.body false)
      | 4 => (w.trace 0x14 0x0050 (h.ctr % 2 ^ 32)).fwWindow h.body m.session m.seq
      | 5 => (w.setSec { w.s.sec with stored := [], debug := w.s.sec.debug && decide (le h.body 0 4 = 1) }).switchBegin
          (sw [] (decide (le h.body 0 4 = 1)))
      | 6 => ok (w.linkKeyUse (le h.body 0 4 = 1))
      | 7 => ok (w.repairPolicy (le h.body 0 4))
      | _ => ok (w.setSec { w.s.sec with baseRegs := baselineRegs w.s, baseEth := baselineTables w.s }) := by
  unfold Run.countersign
  simp only [hs]
  rw [if_neg (by decide), if_neg (by decide), if_neg (by simp [hw]), hh] <;> rfl

/-! ## Restarts (R302, R303) -/

theorem fwRestart_begins {p : Nat} (hp : p ≤ 4) (h1 : fwState r.s p ≠ 1) (hq : ∀ q ∈ r.s.fw.queue, q.p ≠ p) (h3 : fwState r.s p ≠ 3)
    (hf : fwFree r.s p = true) : r.fwRestart p 1 true = r.fwBegin p 1 true := by
  unfold Run.fwRestart
  rw [if_neg (Nat.not_lt.mpr hp), if_neg h1, if_neg (by simpa using hq), if_neg h3, if_neg (by simp), if_neg (by simp [hf])]

end

theorem powerFree_popMsg {s : State} {t : Nat} (h : PowerFree s t) (q : Nat) : PowerFree ((Run.start s).popMsg q).s t := by
  obtain ⟨l, e⟩ := popMsg_queues s q
  rw [e]
  exact ⟨h.req, h.asked, h.entering, h.switch, h.awake, h.moves, h.claims⟩

theorem countersign_exec {s : State} (up : s.halted = false) (he : s.power.entering = none) : exec .countersign s =
    .next ((Run.start s).serve 4 (isOp 0x0501) (fun _ => true) fun _ m r => (r.countersign m).settleSignals).s :=
  (if_neg (by rw [he]; exact Bool.false_ne_true)).trans (done_next up)

/-- Outside network recovery a restart request is a message as any other. -/
theorem fwRestart_exec {s : State} (up : s.halted = false) (hv : s.sec.recovery = false) : exec .fwRestart s =
    .next ((Run.start s).serve 4 (isOp 0x0504) (lenIs 4) fun _ m r =>
      if m.w 0 > 4 then r.reply m stBounds
      else if r.s.sec.recovery then r.reply m stFeature
      else (r.put (.fw { r.s.fw with askers := r.s.fw.askers ++ [(m.w 0, m.session, m.seq)] })).fwRestart (m.w 0) 1 true).s := by
  have hr : isReboot s = false := by
    unfold isReboot
    rw [hv, Bool.false_and]
  show execFwRestart s = _
  unfold execFwRestart
  rw [if_neg (by rw [up]; exact Bool.false_ne_true), if_neg (by rw [hr]; exact Bool.false_ne_true)]
  exact done_next up

/-- The image passes the checks of R305, and its writing begins. -/
theorem fwUpdate_begins {z : State} (r : Run z) {ctx : Option Nat} {addr len session seq : Nat} (hv : r.s.sec.recovery = false)
    (hl : len ≤ (stageBytes r.s ctx addr len).length) (hx : len = imgExtent (imgView (stageBytes r.s ctx addr len)) 0)
    (hb : imgBad (imgView (stageBytes r.s ctx addr len)) 0 = false) (hg : imgSigned (imgView (stageBytes r.s ctx addr len)) 0 = true)
    (hc : ∀ c ∈ imgComps (imgView (stageBytes r.s ctx addr len)) 0,
      compOk (imgView (stageBytes r.s ctx addr len)) 0 c = true ∧ r.s.fld (fwReg (c.id - 0x10) 8) 31 16 ≤ c.svn)
    (hp : imgMinprev (imgView (stageBytes r.s ctx addr len)) 0 ≤ r.s.fw.imgver) (hu : r.s.fw.update = none) :
    r.fwUpdate ctx addr len session seq =
      (r.markStage ctx addr len).setFw { (r.markStage ctx addr len).s.fw with update := some {
        image := addr, ctx := ctx, len := len, session := session, seq := seq
        digest := Config.shake256 (stageBytes r.s ctx addr len) } } := by
  unfold Run.fwUpdate
  simp only [hv]
  generalize stageBytes r.s ctx addr len = bs at *
  have hs : ((imgComps (imgView bs) 0).any fun c =>
      !compOk (imgView bs) 0 c || decide (c.svn < r.s.fld (fwReg (c.id - 0x10) 8) 31 16)) = false := by
    rw [List.any_eq_false]
    intro c hm
    simp [(hc c hm).1, (hc c hm).2]
  rw [if_neg (Nat.not_lt.mpr hl), if_neg (not_not_intro hx)]
  simp only [Bool.false_eq_true, if_false, hb, hg, hs, hu, decide_eq_false (Nat.not_lt.mpr hp), Bool.not_true, Bool.or_false,
    Bool.and_false, Bool.false_and, Option.isSome_none, ne_eq, not_true_eq_false]

/-- The registers that a REG_READ names are reached when those it counts and the first are. -/
theorem reaches_all {s : State} {k n : Nat} (h : ∀ i, i = 0 ∨ i < n → reaches s none (k + 4 * i) false = true) :
    (!reaches s none k false || ((List.range n).map fun i => k + 4 * i).any fun k => !reaches s none k false) = false := by
  have h0 : reaches s none k false = true := h 0 (.inl rfl)
  rw [h0, Bool.not_true, Bool.false_or, List.any_eq_false]
  intro a ha
  obtain ⟨i, hi, rfl⟩ := List.mem_map.mp ha
  simp [h i (.inr (List.mem_range.mp hi))]

/-- An FW_UPDATE outside network recovery reads its image under its context. -/
theorem fwUpdate_staged {z : State} {r : Run z} {m : Msg} (h1 : bits (m.w 0) 31 28 = 0) (h2 : bits (m.w 0) 15 0 = 0)
    (h3 : bits (m.w 2) 31 16 = 0) (hv : r.s.sec.recovery = false) (hc : ctxSession r.s (memCtx m) = m.session) :
    (let addr := m.w 1 + 2 ^ 32 * m.w 2
      let len := m.w 3
      if bits (m.w 0) 31 28 ≠ 0 || bits (m.w 0) 15 0 ≠ 0 || bits (m.w 2) 31 16 ≠ 0 then r.reply m stBounds
      else if r.s.sec.recovery then
        (if addr + len > 0x200000 then r.reply m stBounds else r.fwUpdate none addr len m.session m.seq)
      else if ctxSession r.s (memCtx m) ≠ m.session then r.reply m stDenied
      else r.fwUpdate (some (memCtx m)) addr len m.session m.seq) =
    r.fwUpdate (some (memCtx m)) (m.w 1 + 2 ^ 32 * m.w 2) (m.w 3) m.session m.seq := by
  dsimp only
  rw [if_neg (by simp [h1, h2, h3]), if_neg (by rw [hv]; exact Bool.false_ne_true), if_neg (not_not_intro hc)]

/-- Settles O37: each message by its queue, the checks of R320, and its own. -/
theorem serviceMessages : Obligations.ServiceMessages := by
  unfold Obligations.ServiceMessages
  intro all run
  refine ⟨.intro (fun s _ up => done_next up) (isOp_all _) fun s x m _ _ _ => rfl,
    .intro (fun s _ up => done_next up) (isOp_all _) fun s x m _ _ ⟨ht, hd⟩ => ?armed,
    .intro (fun s _ up => done_next up) (isOp_all _) fun s x m _ _ ⟨h0, hk, hn, hb, hf, hr⟩ => ?regRead,
    fun ps => .intro (fun s _ up => done_next up) (isOp_all _) fun s x m _ _ ⟨hps, hp⟩ => ?regWrite,
    .intro (fun s _ up => done_next up) (isOp_all _) fun s x m _ _ ⟨hp, hn, hs, hf⟩ => ?log,
    .intro (fun s _ up => done_next up) (isOp_all _) fun s x m _ _ ht => if_neg (Nat.not_lt.mpr ht),
    ⟨.intro (fun s _ up => done_next up) (isOp_all _) fun s x m _ _ ⟨hf, ht, hs⟩ => ?awake,
      .intro (fun s _ up => done_next up) (isOp_all _) fun s x m _ _ ⟨hf, h2, h4, hi, hw⟩ => ?drains⟩,
    .intro (fun s _ up => done_next up) (isOp_all _) fun s x m _ _ ⟨hl, hu⟩ => ?cap,
    .intro (fun s _ up => done_next up) (isOp_all _) fun s x m _ _ ⟨hl, hu, ht⟩ => ?capTaken,
    .intro (fun s _ up => done_next up) (isOp_all _) fun s x m _ _ _ => rfl,
    .intro (fun s _ up => done_next up) (isOp_all _) fun s x m _ _ ⟨hs, hp⟩ => ?held,
    .intro (fun s he up => countersign_exec up he) (isOp_all _) fun s x m _ _ _ => rfl,
    fun h => ?changes,
    .intro (fun s _ up => done_next up) (isOp_all _) fun s x m _ _ hf => ?attest,
    .intro (fun s _ up => done_next up) (isOp_all _) fun s x m _ _ ⟨h1, h2, h3, hv, hc⟩ => ?update,
    .intro (fun s _ up => done_next up) (isOp_all _) fun s x m _ _ ho => ?updated,
    .intro (fun s hv up => fwRestart_exec up hv) (isOp_all _) fun s x m hv _ hp => ?restart,
    .intro (fun s hv up => fwRestart_exec up hv) (isOp_all _) fun s x m hv _ ⟨hp, h1, hq, h3, hf⟩ => ?restarts⟩
  case armed =>
    have hd := (popMsg_congr (fun s => s.fld (topReg 0x200) 31 31) (fun _ _ => rfl) s 0).trans hd
    dsimp only
    rw [snapArm_armed _ ht hd]
    rfl
  case regRead =>
    have hf := (popMsg_congr (fun s => replyFits s x m (4 * m.w 1)) (fun _ _ => rfl) s 0).trans hf
    have hr := reaches_all fun i hi =>
      (popMsg_congr (fun s => reaches s none (addrKey (m.w 0) + 4 * i) false) (fun _ _ => rfl) s 0).trans (hr i hi)
    dsimp only at hf hr ⊢
    simp only [h0, hk, hf, hr, gt_iff_lt, decide_eq_false (Nat.not_lt.mpr hn), decide_eq_false (Nat.not_lt.mpr hb), ne_eq,
      not_true_eq_false, decide_false, Bool.or_self, Bool.not_true, Bool.false_eq_true, if_false]
  case regWrite =>
    subst hps
    have hr : ∀ p ∈ (List.range (m.payload.length / 8)).map fun i => (m.w (2 * i), m.w (2 * i + 1)),
        reaches ((Run.start s).popMsg 0).s none (addrKey p.1) true = true := fun p hm =>
      (popMsg_congr (fun s => reaches s none (addrKey p.1) true) (fun _ _ => rfl) s 0).trans (hp p hm).2.2
    dsimp only
    rw [if_neg, if_neg]
    · rw [Bool.not_eq_true, List.any_eq_false]
      intro p hm
      simp [hr p hm]
    · rw [Bool.not_eq_true, List.any_eq_false]
      intro p hm
      simp [(hp p hm).1, (hp p hm).2.1]
  case log =>
    have hw : bits (m.w 0) 31 3 = 0 ∧ bits (m.w 0) 2 0 = m.w 0 := by
      unfold bits
      omega
    have hs := (popMsg_congr (fun s => fwState s (m.w 0)) (fun _ _ => rfl) s 0).trans hs
    have hf := (popMsg_congr (fun s => replyFits s x m (logRecords s (m.w 0) (m.w 1) (m.w 2)).length) (fun _ _ => rfl) s 0).trans hf
    dsimp only at hs hf ⊢
    rw [hw.2, if_neg (by simp [hw.1, Nat.not_lt.mpr hp, Nat.not_lt.mpr hn]), if_neg (not_not_intro hs), if_neg (by simp [hf])]
  case awake =>
    have hs := fun h0 => (popMsg_congr (fun s => anySensor s (tAlert s)) (fun _ _ => rfl) s 3).trans (hs h0)
    rw [if_neg (by omega)]
    obtain ⟨a, b, c, d, e, f, g⟩ := hf
    exact requestState_awake _ (powerFree_popMsg ⟨a, b, c, d, e, f, g⟩ 3) ht hs
  case drains =>
    have hi := (popMsg_congr reflexInFlight (fun _ _ => rfl) s 3).trans hi
    have hw := (popMsg_congr (fun s => s.vault.windows) (fun _ _ => rfl) s 3).trans hw
    rw [if_neg (by omega)]
    obtain ⟨a, b, c, d, e, f, g⟩ := hf
    exact requestState_drains _ (powerFree_popMsg ⟨a, b, c, d, e, f, g⟩ 3) h2 hi hw
  case cap =>
    rw [if_neg (by simp; omega)]
  case capTaken =>
    have ht : m.w 0 ≤ ((Run.start s).popMsg 3).s.fld (pwrReg 0x300) 7 0 ∨
        anySensor ((Run.start s).popMsg 3).s (tAlert ((Run.start s).popMsg 3).s) = false := by
      rw [popMsg_congr (fun s => s.fld (pwrReg 0x300) 7 0) (fun _ _ => rfl) s 3,
        popMsg_congr (fun s => anySensor s (tAlert s)) (fun _ _ => rfl) s 3]
      exact ht
    rw [if_neg (by simp; omega), writeCap_taken _ ht]
  case held =>
    have hs := (popMsg_congr (fun s => s.sec.switch) (fun _ _ => rfl) s 4).trans hs
    rw [propose_held _ hs hp]
  case changes =>
    intro at_ applies switches
    refine ⟨?_, ?_, ?_, ?_, ?_, ?_, ?_⟩ <;>
      refine .intro (fun s he up => countersign_exec up he) (isOp_all _) fun s x m _ _ ⟨hs, hw, hh, hk⟩ => ?_
    all_goals
      have hw := (popMsg_congr (fun s => s.sec.env.storeWrites) (fun _ _ => rfl) s 4).trans hw
      have hh := (popMsg_congr (fun s => s.sec.held) (fun _ _ => rfl) s 4).trans hh
      rw [countersign_passes _ hs hw hh, hk]
      rfl
  case attest =>
    dsimp only
    rw [if_neg (by simp [hf _ rfl])]
  case update =>
    have hv := (popMsg_congr (fun s => s.sec.recovery) (fun _ _ => rfl) s 4).trans hv
    have hc := (popMsg_congr (fun s => ctxSession s (memCtx m)) (fun _ _ => rfl) s 4).trans hc
    exact fwUpdate_staged h1 h2 h3 hv hc
  case updated =>
    obtain ⟨h1, h2, h3, hv, hc, hl, hx, hb, hg, hcs, hp, hu⟩ := ho
    have hv := (popMsg_congr (fun s => s.sec.recovery) (fun _ _ => rfl) s 4).trans hv
    have hc := (popMsg_congr (fun s => ctxSession s (memCtx m)) (fun _ _ => rfl) s 4).trans hc
    have hp := hp.trans_eq (popMsg_congr (fun s => s.fw.imgver) (fun _ _ => rfl) s 4).symm
    have hu := (popMsg_congr (fun s => s.fw.update) (fun _ _ => rfl) s 4).trans hu
    refine (fwUpdate_staged h1 h2 h3 hv hc).trans (fwUpdate_begins _ hv hl hx hb hg (fun c hm => ⟨(hcs c hm).1, ?_⟩) hp hu)
    exact (popMsg_congr (fun s => s.fld (fwReg (c.id - 0x10) 8) 31 16) (fun _ _ => rfl) s 4).trans_le (hcs c hm).2
  case restart =>
    have hv := (popMsg_congr (fun s => s.sec.recovery) (fun _ _ => rfl) s 4).trans hv
    rw [if_neg (Nat.not_lt.mpr hp), if_neg (by rw [hv]; exact Bool.false_ne_true)]
  case restarts =>
    have hv := (popMsg_congr (fun s => s.sec.recovery) (fun _ _ => rfl) s 4).trans hv
    have h1 := fun h => h1 ((popMsg_congr (fun s => fwState s (m.w 0)) (fun _ _ => rfl) s 4).symm.trans h)
    have h3 := fun h => h3 ((popMsg_congr (fun s => fwState s (m.w 0)) (fun _ _ => rfl) s 4).symm.trans h)
    have hq : ∀ q ∈ ((Run.start s).popMsg 4).s.fw.queue, q.p ≠ m.w 0 := by
      rw [popMsg_congr (fun s => s.fw.queue) (fun _ _ => rfl) s 4]
      exact hq
    have hf := (popMsg_congr (fun s => fwFree s (m.w 0)) (fun _ _ => rfl) s 4).trans hf
    rw [if_neg (Nat.not_lt.mpr hp), if_neg (by rw [hv]; exact Bool.false_ne_true)]
    exact fwRestart_begins _ hp h1 hq h3 hf

end Sys2Proof.Machine
end

section
/-! PROOFS. The local copies of fabric time under every operation that a command's run uses (R27, R29): none but a realignment
touches them, so each operation has one equation, which `simp` uses from then on. -/

namespace Sys2Proof.Machine

section
variable {z : State} (r : Run z)

/-- The local copies of fabric time in the state that a run has reached. -/
def Run.copies (r : Run z) : SMap (Nat × Nat) := r.s.copies

/-! ### Local copies of fabric time -/

/-- The primitive updates other than a realignment leave the local copies as they were. -/
@[simp] theorem Run.put_copies (u : Upd) : (r.put u).copies = match u with
    | .realign lags => timeBlocks.zipWith (fun b lag => (b, (lag % 5, r.s.timeAt b))) lags
    | _ => r.copies :=
  Upd.apply_copies u r.s

@[simp] theorem ite_copies {c : Prop} [Decidable c] (r q : Run z) :
    (if c then r else q).copies = if c then r.copies else q.copies :=
  apply_ite Run.copies c r q

/-- A fold whose step keeps something keeps it. -/
theorem foldl_keeps {α β γ : Type} {f : β → α → β} {g : β → γ} (hf : ∀ b a, g (f b a) = g b) (l : List α)
    (b : β) : g (l.foldl f b) = g b := by
  induction l generalizing b with
  | nil => rfl
  | cons a l ih => exact (ih (f b a)).trans (hf b a)

/-- What a run in a pair keeps, read off the pair's equation. -/
theorem copies_of_eq {α : Type} {p : α × Run z} {a : α} {q : Run z} {l : SMap (Nat × Nat)} (h : p = (a, q))
    (hp : p.2.copies = l) : q.copies = l := by
  rw [h] at hp
  exact hp

@[simp] theorem Run.each_copies {α : Type} {f : α → Run z → Run z} (hf : ∀ a r, (f a r).copies = r.copies)
    (r : Run z) (l : List α) : (r.each l f).copies = r.copies :=
  foldl_keeps (fun r a => hf a r) l r

@[simp] theorem Run.when_copies {f : Run z → Run z} (hf : ∀ r, (f r).copies = r.copies) (r : Run z) (c : Bool) :
    (r.when c f).copies = r.copies := by
  cases c with
  | false => rfl
  | true => exact hf r

/-! ### Fabric time -/

@[simp] theorem Run.setNow_copies (t) : (r.setNow t).copies = r.copies := by
  simp [Run.setNow]

@[simp] theorem Run.setByte_copies (a b) : (r.setByte a b).copies = r.copies := by
  simp [Run.setByte]

@[simp] theorem Run.setBytes_copies (a : Nat) (bs : List Byte) : (r.setBytes a bs).copies = r.copies := by
  induction bs generalizing r a with
  | nil => rfl
  | cons b bs ih => exact (ih _ _).trans (Run.setByte_copies r a b)

@[simp] theorem Run.store_copies (a n v) : (r.store a n v).copies = r.copies := by
  simp [Run.store]

@[simp] theorem Run.setReg_copies (k v) : (r.setReg k v).copies = r.copies := by
  simp [Run.setReg]

@[simp] theorem Run.setRegN_copies (k v) : (r.setRegN k v).copies = r.copies := by
  simp [Run.setRegN]

@[simp] theorem Run.setFld_copies (k hi lo v) : (r.setFld k hi lo v).copies = r.copies := by
  simp [Run.setFld]

@[simp] theorem Run.setReg64_copies (k v) : (r.setReg64 k v).copies = r.copies := by
  simp [Run.setReg64]

@[simp] theorem Run.bump_copies (k n) : (r.bump k n).copies = r.copies := by
  simp [Run.bump]

@[simp] theorem Run.setMirror_copies (k v) : (r.setMirror k v).copies = r.copies := by
  simp [Run.setMirror]

@[simp] theorem Run.setLatch_copies (k v) : (r.setLatch k v).copies = r.copies := by
  simp [Run.setLatch]

@[simp] theorem Run.setHart_copies (k h) : (r.setHart k h).copies = r.copies := by
  simp [Run.setHart]

@[simp] theorem Run.setCore_copies (n c) : (r.setCore n c).copies = r.copies := by
  simp [Run.setCore]

@[simp] theorem Run.setGang_copies (core g x) : (r.setGang core g x).copies = r.copies := by
  simp [Run.setGang]

@[simp] theorem Run.dropGang_copies (core g) : (r.dropGang core g).copies = r.copies := by
  simp [Run.dropGang]

@[simp] theorem Run.setTally_copies (i t) : (r.setTally i t).copies = r.copies := by
  simp [Run.setTally]

@[simp] theorem Run.draw_copies : r.draw.2.copies = r.copies := by
  simp [Run.draw]

@[simp] theorem Run.takeMirror_copies (k) : (r.takeMirror k).copies = r.copies := by
  unfold Run.takeMirror
  split <;> simp

@[simp] theorem Run.takeMirrors_copies (p) : (r.takeMirrors p).copies = r.copies := by
  simp [Run.takeMirrors]

/-! ### Tensor descriptors, KIND 0b00 -/

@[simp] theorem Run.writeElem_copies (t : TDesc) (m : SMap Nat) (i k v : Nat) :
    (r.writeElem t m i k v).copies = r.copies :=
  foldl_keeps (g := fun p => p.1.copies) (fun _ _ => by simp) _ (r, v)

@[simp] theorem Run.markUsed_copies (c k l) : (r.markUsed c k l).copies = r.copies := by
  simp [Run.markUsed]

theorem Run.translate_copies {r q : Run z} {c : XCtx} {k : Access} {va pa : Nat} (h : r.translate c k va = .ok (pa, q)) :
    q.copies = r.copies := by
  unfold Run.translate at h
  split at h
  · cases h
  · cases h
    simp

/-! ### Block accesses through a context, page by page (completion records, descriptors, rings) -/

@[simp] theorem Run.markRange_copies (c k va n) : (r.markRange c k va n).copies = r.copies := by
  unfold Run.markRange
  split
  · rfl
  · refine Run.each_copies (fun _ _ => ?_) _ _
    split <;> simp

/-! ### Gangs -/

@[simp] theorem Run.setParcel_copies (i p) : (r.setParcel i p).copies = r.copies := by
  simp [Run.setParcel]

@[simp] theorem Run.dropParcel_copies (i) : (r.dropParcel i).copies = r.copies := by
  simp [Run.dropParcel]

@[simp] theorem Run.noteReady_copies (core) : (r.noteReady core).copies = r.copies := by
  simp [Run.noteReady]

@[simp] theorem Run.dropGangWaits_copies (core g) : (r.dropGangWaits core g).copies = r.copies := by
  simp [Run.dropGangWaits]

@[simp] theorem Run.stopParcel_copies (i status) : (r.stopParcel i status).copies = r.copies := by
  unfold Run.stopParcel
  split <;> simp

@[simp] theorem Run.recordFault_copies (f) : (r.recordFault f).copies = r.copies := by
  simp [Run.recordFault]

@[simp] theorem Run.laneFault_copies (core g c tval pc mask status late) :
    (r.laneFault core g c tval pc mask status late).copies = r.copies := by
  unfold Run.laneFault
  dsimp only
  (repeat' split) <;> simp

/-! ### The ladder table (R404): words of entry e, and verdicts -/

@[simp] theorem Run.endWait_copies (w status) : (r.endWait w status).copies = r.copies := by
  unfold Run.endWait
  dsimp only
  (repeat' split) <;> simp

@[simp] theorem Run.wakeTally_copies (i) : (r.wakeTally i).copies = r.copies := by
  simp [Run.wakeTally]

@[simp] theorem Run.endWindow_copies (n status) : (r.endWindow n status).copies = r.copies := by
  simp [Run.endWindow]

@[simp] theorem Run.windowsFreed_copies (i) : (r.windowsFreed i).copies = r.copies := by
  simp [Run.windowsFreed]

@[simp] theorem Run.parcelsMet_copies (i) : (r.parcelsMet i).copies = r.copies := by
  simp [Run.parcelsMet]

@[simp] theorem Run.watchesMet_copies (i old v) : (r.watchesMet i old v).copies = r.copies := by
  simp [Run.watchesMet]

@[simp] theorem Run.verdictSignal_copies (i) : (r.verdictSignal i).copies = r.copies := by
  refine Run.each_copies (fun _ _ => ?_) _ _
  split <;> simp

@[simp] theorem Run.signalTo_copies (i v) : (r.signalTo i v).copies = r.copies := by
  simp [Run.signalTo]

@[simp] theorem Run.tsigAt_copies (i v) : (r.tsigAt i v).copies = r.copies := by
  simp [Run.tsigAt]

@[simp] theorem Run.taddAt_copies (i v) : (r.taddAt i v).copies = r.copies := by
  simp [Run.taddAt]

@[simp] theorem Run.deviceAdd_copies (h) : (r.deviceAdd h).copies = r.copies := by
  unfold Run.deviceAdd
  (repeat' split) <;> simp

@[simp] theorem Run.allocTally_copies (ctx) : (r.allocTally ctx).2.copies = r.copies := by
  unfold Run.allocTally
  dsimp only
  split <;> simp

@[simp] theorem Run.wake_copies (key) : (r.wake key).copies = r.copies := by
  simp [Run.wake]

@[simp] theorem Run.raiseExt_copies (n) : (r.raiseExt n).copies = r.copies := by
  simp [Run.raiseExt]

@[simp] theorem Run.raiseMbx_copies (n) : (r.raiseMbx n).copies = r.copies := by
  simp [Run.raiseMbx]

@[simp] theorem Run.errFirst_copies (b) : (r.errFirst b).copies = r.copies := by
  simp [Run.errFirst]

@[simp] theorem Run.errEvent_copies (b) : (r.errEvent b).copies = r.copies := by
  simp [Run.errEvent]

@[simp] theorem Run.countErr_copies (k b n) : (r.countErr k b n).copies = r.copies := by
  simp [Run.countErr]

/-! ### Writes to memory by any agent -/

@[simp] theorem Run.correct_copies (pa) : (r.correct pa).copies = r.copies := by
  simp [Run.correct]

@[simp] theorem Run.scrub_copies (pa n) : (r.scrub pa n).copies = r.copies := by
  simp [Run.scrub]

@[simp] theorem Run.scrubRead_copies (k pa n) : (r.scrubRead k pa n).copies = r.copies := by
  simp [Run.scrubRead]

@[simp] theorem Run.scrubWalk_copies (c va) : (r.scrubWalk c va).copies = r.copies := by
  simp [Run.scrubWalk]

@[simp] theorem Run.stackError_copies (pa) : (r.stackError pa).copies = r.copies := by
  simp [Run.stackError]

@[simp] theorem Run.countUe_copies (pa) : (r.countUe pa).copies = r.copies := by
  simp [Run.countUe]

@[simp] theorem Run.countUeWrite_copies (pa) : (r.countUeWrite pa).copies = r.copies := by
  simp [Run.countUeWrite]

@[simp] theorem Run.prismTouch_copies (page) : (r.prismTouch page).copies = r.copies := by
  simp [Run.prismTouch]

@[simp] theorem Run.clearUe_copies (pa) : (r.clearUe pa).copies = r.copies := by
  simp [Run.clearUe]

@[simp] theorem Run.mergeWeak_copies (cells) : (r.mergeWeak cells).copies = r.copies := by
  simp [Run.mergeWeak]

@[simp] theorem Run.clearParity_copies (cells) : (r.clearParity cells).copies = r.copies := by
  simp [Run.clearParity]

@[simp] theorem Run.storePhys_copies (cells : List (Nat × Byte)) : (r.storePhys cells).copies = r.copies := by
  unfold Run.storePhys
  refine (foldl_keeps (g := Run.copies) (fun r c => ?_) cells _).trans (by simp)
  dsimp only
  (repeat' split) <;> simp

@[simp] theorem Run.storeMem_copies (pa n v) : (r.storeMem pa n v).copies = r.copies := by
  simp [Run.storeMem]

@[simp] theorem Run.noteUe_copies (c va n) : (r.noteUe c va n).copies = r.copies := by
  refine Run.each_copies (fun _ _ => ?_) _ _
  split <;> simp

@[simp] theorem Run.readIn_copies (c va n) : (r.readIn c va n).2.copies = r.copies := by
  unfold Run.readIn
  dsimp only
  (repeat' split) <;> simp

@[simp] theorem Run.readBlock_copies (c va n) : (r.readBlock c va n).2.copies = r.copies := by
  simp [Run.readBlock]

/-- A read of a block under a name that does not unfold: a proof that splits on its outcome does so without computing it. -/
theorem exists_readBlock : ∃ f, f = @Run.readBlock ∧ ∀ z (r : Run z) x a n, (f r x a n).2.copies = r.copies :=
  ⟨_, rfl, fun _ r x a n => r.readBlock_copies x a n⟩

theorem Run.writeVirt_copies {r q : Run z} {c : XCtx} {va n v : Nat} (h : r.writeVirt c va n v = .ok q) :
    q.copies = r.copies := by
  unfold Run.writeVirt at h
  split at h
  · cases h
  · cases h
    simp

@[simp] theorem Run.tryWrite_copies (c : XCtx) (va n v : Nat) : (r.tryWrite c va n v).copies = r.copies := by
  unfold Run.tryWrite
  split
  · next h => exact Run.writeVirt_copies h
  · rfl

theorem Run.writeVirtBytes_copies {r q : Run z} {c : XCtx} {va : Nat} {bs : List Byte} (h : r.writeVirtBytes c va bs = .ok q) :
    q.copies = r.copies := by
  unfold Run.writeVirtBytes at h
  split at h
  · cases h
  · cases h
    simp

/-- A write of bytes under a name that does not unfold: a proof that splits on its outcome does so without computing it. -/
theorem exists_writeVirtBytes : ∃ f, f = @Run.writeVirtBytes ∧
    ∀ z (r q : Run z) c va bs, f r c va bs = .ok q → q.copies = r.copies :=
  ⟨_, rfl, fun _ _ _ _ _ _ h => Run.writeVirtBytes_copies h⟩

@[simp] theorem Run.trcDrop_copies : r.trcDrop.copies = r.copies := by
  simp [Run.trcDrop]

@[simp] theorem Run.traceOffer_copies (src point arg : Nat) : (r.traceOffer src point arg).copies = r.copies := by
  unfold Run.traceOffer
  extract_lets us n obs r₁ ctrl size idx produced consumed rec_
  have h₁ : r₁.copies = r.copies := by simp [r₁]
  split
  · simp [h₁]
  split
  · next h => simp [Run.writeVirt_copies h, h₁]
  · simp [h₁]

@[simp] theorem Run.trace_copies (src point arg) : (r.trace src point arg).copies = r.copies := by
  simp [Run.trace]

@[simp] theorem Run.traceCore_copies (core point arg) : (r.traceCore core point arg).copies = r.copies := by
  simp [Run.traceCore]

/-! ### Freeing a tally -/

@[simp] theorem Run.endParcelWaits_copies (h) : (r.endParcelWaits h).copies = r.copies := by
  simp [Run.endParcelWaits]

@[simp] theorem Run.freeTally_copies (i) : (r.freeTally i).copies = r.copies := by
  simp [Run.freeTally]

/-! ### Snapshots -/

@[simp] theorem Run.snapStatus_copies (st) : (r.snapStatus st).copies = r.copies := by
  simp [Run.snapStatus]

@[simp] theorem Run.snapArm_copies (t stamp) : (r.snapArm t stamp).2.2.copies = r.copies := by
  unfold Run.snapArm
  split <;> simp

@[simp] theorem Run.snapCancel_copies : r.snapCancel.copies = r.copies := by
  simp [Run.snapCancel]

@[simp] theorem Run.snapDisarm_copies : r.snapDisarm.copies = r.copies := by
  simp [Run.snapDisarm]

@[simp] theorem Run.snapTake_copies : r.snapTake.copies = r.copies := by
  simp [Run.snapTake]

/-! ### Error summary clear, trace index, UART1 -/

@[simp] theorem Run.errClear_copies (v) : (r.errClear v).copies = r.copies := by
  simp [Run.errClear]

@[simp] theorem Run.trcAck_copies (v) : (r.trcAck v).copies = r.copies := by
  simp [Run.trcAck]

@[simp] theorem Run.uartStat_copies : r.uartStat.copies = r.copies := by
  simp [Run.uartStat]

@[simp] theorem Run.uartSend_copies (b) : (r.uartSend b).copies = r.copies := by
  simp [Run.uartSend]

@[simp] theorem Run.uartRead_copies : r.uartRead.2.copies = r.copies := by
  unfold Run.uartRead
  split <;> simp

@[simp] theorem Run.uartRx_copies (b) : (r.uartRx b).copies = r.copies := by
  simp [Run.uartRx]

@[simp] theorem Run.uartSent_copies : r.uartSent.copies = r.copies := by
  unfold Run.uartSent
  split <;> simp

@[simp] theorem gpioIn_copies : (gpioIn r).2.copies = r.copies := by
  simp [gpioIn]

@[simp] theorem Run.fwBegin_copies (p cause forced) : (r.fwBegin p cause forced).copies = r.copies := by
  simp [Run.fwBegin]

@[simp] theorem Run.fwNext_copies (fuel : Nat) : (r.fwNext fuel).copies = r.copies := by
  induction fuel generalizing r with
  | zero => rfl
  | succ fuel ih =>
    unfold Run.fwNext
    split
    · rfl
    · simp [ih]

@[simp] theorem Run.fwRestart_copies (p cause forced) : (r.fwRestart p cause forced).copies = r.copies := by
  simp [Run.fwRestart]

/-! ### Windows of a firmware processor -/

theorem Run.hartAddr_copies {r q : Run z} {key : Nat} {h : Hart} {k : Access} {a n pa : Nat}
    (he : r.hartAddr key h k a n = .ok (pa, q)) : q.copies = r.copies := by
  unfold Run.hartAddr at he
  split at he
  · split at he
    · cases he
    · split at he
      · cases he
      · cases he
        simp
  · split at he
    · cases he
    · next ht =>
      split at he
      · cases he
      · cases he
        simp [Run.translate_copies ht]

@[simp] theorem Run.hartTrap_copies (key h c tval long) : (r.hartTrap key h c tval long).copies = r.copies := by
  unfold Run.hartTrap
  cases hartUe r.s key h c tval <;> simp

theorem hartFetch_copies {r q : Run z} {key : Nat} {h : Hart} {as : List Nat} (he : hartFetch r key h as = .ok q) :
    q.copies = r.copies := by
  induction as generalizing r with
  | nil =>
    cases he
    rfl
  | cons a as ih =>
    unfold hartFetch at he
    split at he
    · cases he
    split at he
    · cases he
    next ha =>
    split at he
    · cases he
    · exact (ih he).trans (Run.hartAddr_copies ha)

/-- An instruction of a host thread leaves the copies where what it does leaves them. -/
@[simp] theorem hartIssue_copies (key : Nat) (w : Words) (legal : Bool) {body : Hart → Run z → Run z × HEnd}
    (hb : ∀ h r, (body h r).1.copies = r.copies) : (hartIssue r key w legal body).copies = r.copies := by
  unfold hartIssue
  dsimp only
  split
  · rfl
  split
  · simp
  next r' hf =>
  have hr := hartFetch_copies hf
  split
  · simp [hr]
  split
  · next q _ he =>
    have hq : q.copies = r'.copies := (congrArg (·.1.copies) he).symm.trans (hb _ _)
    simp [hq, hr]
  · rfl
  · simp [hr]

theorem laneFetch_copies {r q : Run z} {c : XCtx} {as : List Nat} (he : laneFetch r c as = .ok q) :
    q.copies = r.copies := by
  induction as generalizing r with
  | nil =>
    cases he
    rfl
  | cons a as ih =>
    unfold laneFetch at he
    split at he
    · cases he
    next ha =>
    split at he
    · exact (ih he).trans (by simp [Run.translate_copies ha])
    · cases he

@[simp] theorem faultLanes_copies (core g pc fs) : (faultLanes r core g pc fs).copies = r.copies := by
  unfold faultLanes
  dsimp only
  (repeat' split) <;> simp

@[simp] theorem noteIssue_copies (core g) : (noteIssue r core g).copies = r.copies := by
  simp [noteIssue]

/-- An instruction of a gang leaves the copies where what it does leaves them. -/
@[simp] theorem laneIssue_copies (core g : Nat) (w : Words) (legal : Bool) (guard : BitVec 4)
    (regs tds : List Nat) {body : LCtx → Gang → Run z → Run z × LEnd}
    (hb : ∀ cx x r, (body cx x r).1.copies = r.copies) : (laneIssue r core g w legal guard regs tds body).copies = r.copies := by
  unfold laneIssue
  split
  · rfl
  split
  · rfl
  dsimp only
  split
  · simp
  next r' hf =>
  have hr := laneFetch_copies hf
  split
  · simp
  split
  · next q _ he =>
    have hq : q.copies = r'.copies := (congrArg (·.1.copies) he).symm.trans (hb _ _ _)
    simp [hq, hr]
  · next q he =>
    have hq : q.copies = r'.copies := (congrArg (·.1.copies) he).symm.trans (hb _ _ _)
    simp [hq, hr]
  · rfl
  · simp

@[simp] theorem compute_copies (i ag prof legal guard regs onHart onLane) :
    (compute r i ag prof legal guard regs onHart onLane).copies = r.copies := by
  unfold compute
  split <;> simp

/-! ### The TALLY group, major 0x28 -/

@[simp] theorem tallyAct_copies (i : Nat) (a : TallyAct) : (tallyAct r i a).2.copies = r.copies := by
  cases a with
  | sig v => simp [tallyAct]
  | add v => simp [tallyAct]
  | read => simp [tallyAct]
  | wait who th dl dest =>
    simp only [tallyAct]
    (repeat' split) <;> simp

@[simp] theorem tallyHart_copies (key : Nat) (w : Words) (legal : Bool) (f : R3) (cause : Cause)
    (act : Hart → TallyAct) : (tallyHart r key w legal f cause act).copies = r.copies := by
  refine hartIssue_copies _ _ _ _ fun h r => ?_
  split
  · rfl
  split
  · next h => exact copies_of_eq h (tallyAct_copies ..)
  · next h => exact copies_of_eq h (tallyAct_copies ..)

@[simp] theorem tallyLane_copies (c g : Nat) (f : R3) (act : Nat → Thread → TallyAct) (p : Run z × List (Nat × Nat))
    (lane : Nat) : (tallyLane c g f act p lane).1.copies = p.1.copies := by
  unfold tallyLane
  split
  · rfl
  dsimp only
  split
  · rfl
  split
  · next h =>
    have hq := copies_of_eq h (tallyAct_copies ..)
    split <;> simp [hq]
  · next h =>
    have hq := copies_of_eq h (tallyAct_copies ..)
    split <;> simp [hq]

@[simp] theorem tallyLanes_copies (c g : Nat) (w : Words) (legal : Bool) (f : R3) (regs : List Nat)
    (cause : Cause) (act : Nat → Thread → TallyAct) : (tallyLanes r c g w legal f regs cause act).copies = r.copies := by
  unfold tallyLanes
  split
  · rfl
  refine laneIssue_copies _ _ _ _ _ _ _ _ fun cx x r => ?_
  dsimp only
  have fold (l : List Nat) (p : Run z × List (Nat × Nat)) : (l.foldl (tallyLane c g f act) p).1.copies = p.1.copies :=
    foldl_keeps (g := fun p => p.1.copies) (fun p k => tallyLane_copies c g f act p k) l p
  split <;> simp [fold]

@[simp] theorem laneBranch_copies (cx x target link) : (laneBranch r cx x target link).1.copies = r.copies := by
  unfold laneBranch
  dsimp only
  split <;> simp

@[simp] theorem branchHart_copies (key w legal off link) : (branchHart r key w legal off link).copies = r.copies := by
  simp [branchHart]

@[simp] theorem branchLanes_copies (c g w legal guard off link) :
    (branchLanes r c g w legal guard off link).copies = r.copies := by
  simp [branchLanes]

@[simp] theorem jrHart_copies (key w legal f) : (jrHart r key w legal f).copies = r.copies := by
  simp [jrHart]

/-! ### Specials and control registers -/

@[simp] theorem csrInstr_copies (key : Nat) (w : Words) (legal : Bool) (n : Nat) (d : BitVec 5)
    (next : Hart → W64 → Option W64) (write : Bool) : (csrInstr r key w legal n d next write).copies = r.copies := by
  refine hartIssue_copies _ _ _ _ fun h r => ?_
  split
  · rfl
  dsimp only
  split <;> rfl

@[simp] theorem hostOnly_copies (ag : Agent) (w : Words) {onHart : Nat → Run z → Run z}
    (hh : ∀ k r, (onHart k r).copies = r.copies) : (hostOnly r ag w onHart).copies = r.copies := by
  unfold hostOnly
  split
  · simp
  · split
    · exact hh _ _
    · rfl

/-! ### Issue -/

/-- A tensor instruction leaves the copies where what it does leaves them. -/
@[simp] theorem tensorIssue_copies (ag : Agent) (i : Instr) (legal : Bool) (regs tds : List Nat)
    (bank : Option Nat) {body : LCtx → Gang → Run z → Run z × LEnd} (hb : ∀ cx x r, (body cx x r).1.copies = r.copies) :
    (tensorIssue r ag i legal regs tds bank body).copies = r.copies := by
  unfold tensorIssue
  dsimp only
  split
  · simp
  · simp
  · split
    · rfl
    · refine laneIssue_copies _ _ _ _ _ _ _ _ fun cx x q => ?_
      split
      · rfl
      split
      · split
        · rfl
        · exact hb _ _ _
      · exact hb _ _ _

@[simp] theorem enqueue_copies (cx x f op bank upd) : (enqueue r cx x f op bank upd).1.copies = r.copies := by
  simp [enqueue]

/-! ### Start -/

@[simp] theorem Run.unqueue_copies (core t) : (r.unqueue core t).copies = r.copies := by
  simp [Run.unqueue]

@[simp] theorem Run.markStats_copies (x) : (r.markStats x).copies = r.copies := by
  unfold Run.markStats
  split <;> simp

@[simp] theorem Run.countWalk_copies (c k ps) : (r.countWalk c k ps).copies = r.copies := by
  unfold Run.countWalk
  split <;> simp

@[simp] theorem Run.tensorRefuse_copies (core x t) : (r.tensorRefuse core x t).copies = r.copies := by
  simp [Run.tensorRefuse]

/-! ### The carrel mapping -/

@[simp] theorem Run.mapLogical_copies (l) : (r.mapLogical l).copies = r.copies := by
  simp [Run.mapLogical]

@[simp] theorem Run.buildCmap_copies : r.buildCmap.copies = r.copies := by
  simp [Run.buildCmap]

@[simp] theorem Run.tlbInv_copies (hi v) : (r.tlbInv hi v).copies = r.copies := by
  simp [Run.tlbInv]

/-! ### Block placement -/

@[simp] theorem Run.permuteBlock_copies (b) : (r.permuteBlock b).copies = r.copies := by
  simp [Run.permuteBlock]

@[simp] theorem Run.writeLblk_copies (n v) : (r.writeLblk n v).copies = r.copies := by
  simp [Run.writeLblk]

/-! ### Weight windows -/

@[simp] theorem Run.windowRefuse_copies (n status) : (r.windowRefuse n status).copies = r.copies := by
  simp [Run.windowRefuse]

@[simp] theorem Run.windowStart_copies (c n) : (r.windowStart c n).copies = r.copies := by
  unfold Run.windowStart
  dsimp only
  (repeat' split) <;> simp

@[simp] theorem Run.setWindow_copies (n w) : (r.setWindow n w).copies = r.copies := by
  simp [Run.setWindow]

@[simp] theorem Run.windowStop_copies (n) : (r.windowStop n).copies = r.copies := by
  unfold Run.windowStop
  split <;> simp

/-- The run in which a chunk's copy ended, whole or cut short. -/
def chunkRun : Except (Nat × Run z) (Run z) → Run z
  | .error e => e.2
  | .ok q => q

theorem chunkCopy_copies (w : Window) (g : Nat) : (chunkRun (chunkCopy r w g)).copies = r.copies := by
  unfold chunkCopy
  refine foldl_keeps (g := fun acc => (chunkRun acc).copies) (fun acc k => ?_) _ _
  cases acc with
  | error e => rfl
  | ok r =>
    dsimp only
    (repeat' split) <;> simp [chunkRun]

/-! ### Draining -/

@[simp] theorem Run.gatherStat_copies (core bank j fmt v sat) : (r.gatherStat core bank j fmt v sat).copies = r.copies := by
  simp [Run.gatherStat]

@[simp] theorem Run.drawTen_copies (core g) : (r.drawTen core g).2.copies = r.copies := by
  unfold Run.drawTen
  split <;> simp

@[simp] theorem Run.drainCell_copies (core t c out i j) : (r.drainCell core t c out i j).copies = r.copies := by
  unfold Run.drainCell
  dsimp only
  (repeat' split) <;> simp

@[simp] theorem Run.drainAll_copies (core x t) : (r.drainAll core x t).copies = r.copies := by
  simp [Run.drainAll]

/-! ### Rescaling, recirculation, checkpoints -/

@[simp] theorem Run.setBank_copies (core bank b) : (r.setBank core bank b).copies = r.copies := by
  simp [Run.setBank]

@[simp] theorem Run.scaleRows_copies (core t) : (r.scaleRows core t).copies = r.copies := by
  simp [Run.scaleRows]

@[simp] theorem Run.recMarks_copies (core t) : (r.recMarks core t).copies = r.copies := by
  simp [Run.recMarks]

@[simp] theorem Run.auditBank_copies (core t) : (r.auditBank core t).copies = r.copies := by
  simp [Run.auditBank]

/-! ### Rotary position -/

@[simp] theorem Run.ropeRows_copies (t) : (r.ropeRows t).copies = r.copies := by
  simp [Run.ropeRows]

/-! ### Masks -/

@[simp] theorem Run.maskCells_copies (core t) : (r.maskCells core t).copies = r.copies := by
  simp [Run.maskCells]

/-! ### Online softmax -/

@[simp] theorem Run.vecSet_copies (t d i v) : (r.vecSet t d i v).copies = r.copies := by
  simp [Run.vecSet]

@[simp] theorem Run.smInit_copies (t) : (r.smInit t).copies = r.copies := by
  simp [Run.smInit]

@[simp] theorem Run.vecBit_copies (t d w i b) : (r.vecBit t d w i b).copies = r.copies := by
  simp [Run.vecBit]

@[simp] theorem Run.smRow_copies (core t nk i) : (r.smRow core t nk i).copies = r.copies := by
  simp [Run.smRow]

@[simp] theorem Run.smStep_copies (core : Nat) (t : TInstr) : (r.smStep core t).copies = r.copies := by
  unfold Run.smStep
  dsimp only
  rw [Run.vecSet_copies, Run.each_copies]
  · exact Run.each_copies (fun _ _ => Run.smRow_copies ..) _ _
  · intro i r
    split <;> simp

@[simp] theorem Run.smFinal_copies (t) : (r.smFinal t).copies = r.copies := by
  refine Run.each_copies (fun _ _ => ?_) _ _
  dsimp only
  (repeat' split) <;> simp

@[simp] theorem Run.smMerge_copies (t) : (r.smMerge t).copies = r.copies := by
  simp [Run.smMerge]

@[simp] theorem Run.smax_copies (core t) : (r.smax core t).copies = r.copies := by
  unfold Run.smax
  split <;> simp

/-! ### Finish -/

@[simp] theorem Run.finished_copies (core t) : (r.finished core t).copies = r.copies := by
  simp [Run.finished]

@[simp] theorem Run.bump64_copies (k n) : (r.bump64 k n).copies = r.copies := by
  simp [Run.bump64]

@[simp] theorem Run.tensorEffect_copies (core x t) : (r.tensorEffect core x t).copies = r.copies := by
  unfold Run.tensorEffect
  split <;> simp

/-! ### Folio moves -/

@[simp] theorem Run.copyFolio_copies (src dst) : (r.copyFolio src dst).copies = r.copies := by
  simp [Run.copyFolio]

@[simp] theorem Run.freeFolio_copies (dst) : (r.freeFolio dst).copies = r.copies := by
  simp [Run.freeFolio]

/-- The search over the rows of a folio stands under a name of its own, so that no step of the proof computes it. -/
@[simp] theorem Run.moveFolios_copies (free l) : (r.moveFolios free l).1.copies = r.copies := by
  obtain ⟨is, hi⟩ : ∃ is, is = List.range 512 := ⟨_, rfl⟩
  generalize hm : @Run.moveFolios = m
  delta Run.moveFolios Run.moveFolios._f at hm
  rw [← hi] at hm
  subst hm
  induction l generalizing r with
  | nil => rfl
  | cons p l ih =>
    show (match is.find? fun i => r.s.isUe (p.1 * 4096 + 8 * i) with
      | some i => (r.countUe (p.1 * 4096 + 8 * i), some p.1)
      | none => _).1.copies = r.copies
    split
    · simp
    · exact (ih _).trans (by rw [ite_copies, Run.freeFolio_copies, Run.copyFolio_copies, Run.scrub_copies, ite_self])

@[simp] theorem Run.moveStop_copies (core t pg) : (r.moveStop core t pg).copies = r.copies := by
  simp [Run.moveStop]

/-! ### Cards -/

@[simp] theorem Run.setCard_copies (n c) : (r.setCard n c).copies = r.copies := by
  simp [Run.setCard]

@[simp] theorem Run.setHw_copies (n i v) : (r.setHw n i v).copies = r.copies := by
  simp [Run.setHw]

@[simp] theorem Run.bumpHw_copies (n i) : (r.bumpHw n i).copies = r.copies := by
  simp [Run.bumpHw]

@[simp] theorem Run.cardEvent_copies (n) : (r.cardEvent n).copies = r.copies := by
  simp [Run.cardEvent]

@[simp] theorem Run.writeBack_copies (n) : (r.writeBack n).copies = r.copies := by
  simp [Run.writeBack]

@[simp] theorem Run.readBack_copies (n) : (r.readBack n).copies = r.copies := by
  simp [Run.readBack]

@[simp] theorem Run.touchCard_copies (n) : (r.touchCard n).copies = r.copies := by
  unfold Run.touchCard
  dsimp only
  (repeat' split) <;> simp

/-! ### Contexts -/

@[simp] theorem Run.writeCtxCfg_copies (n v) : (r.writeCtxCfg n v).copies = r.copies := by
  simp [Run.writeCtxCfg]

@[simp] theorem Run.writeCtxRoot_copies (n hi v) : (r.writeCtxRoot n hi v).copies = r.copies := by
  simp [Run.writeCtxRoot]

@[simp] theorem Run.setCtxInflight_copies (n v) : (r.setCtxInflight n v).copies = r.copies := by
  simp [Run.setCtxInflight]

/-! ### Doorbells -/

@[simp] theorem Run.queueDoorbell_copies (n v stamp) : (r.queueDoorbell n v stamp).copies = r.copies := by
  simp [Run.queueDoorbell]

@[simp] theorem Run.mbxIgnore_copies (n) : (r.mbxIgnore n).copies = r.copies := by
  simp [Run.mbxIgnore]

@[simp] theorem Run.mailboxDoorbell_copies (n rx v stamp) : (r.mailboxDoorbell n rx v stamp).copies = r.copies := by
  simp [Run.mailboxDoorbell]

@[simp] theorem Run.doorbell_copies (v stamp) : (r.doorbell v stamp).copies = r.copies := by
  unfold Run.doorbell
  dsimp only
  (repeat' split) <;> simp

/-! ### Tallies for contexts -/

@[simp] theorem Run.readTallyAlloc_copies : (r.readTallyAlloc).2.copies = r.copies := by
  unfold Run.readTallyAlloc
  dsimp only
  split
  · simp
  split
  · next h => simp [copies_of_eq h (Run.allocTally_copies ..)]
  · next h => simp [copies_of_eq h (Run.allocTally_copies ..)]

@[simp] theorem Run.writeTallyFree_copies (h) : (r.writeTallyFree h).copies = r.copies := by
  unfold Run.writeTallyFree
  split <;> simp

/-! ### Taking an entry -/

@[simp] theorem Run.addParcel_copies (p) : (r.addParcel p).copies = r.copies := by
  simp [Run.addParcel]

@[simp] theorem Run.takeEntry_copies (n : Nat) : (r.takeEntry n).copies = r.copies := by
  unfold Run.takeEntry
  dsimp only
  split
  · next h => simp [copies_of_eq h (Run.readIn_copies ..)]
  · next h => simp [copies_of_eq h (Run.readIn_copies ..)]

/-! ### Statistics blocks -/

@[simp] theorem Run.setStat_copies (p off v) : (r.setStat p off v).copies = r.copies := by
  simp [Run.setStat]

@[simp] theorem Run.withStats_copies (i : Nat) (p : Parcel) {f : Run z → Run z}
    (hf : ∀ r, (f r).copies = r.copies) : (r.withStats i p f).copies = r.copies := by
  unfold Run.withStats
  (repeat' split) <;> simp [hf]

@[simp] theorem Run.zeroStats_copies (p rerun) : (r.zeroStats p rerun).copies = r.copies := by
  simp [Run.zeroStats]

@[simp] theorem Run.mergeBank_copies (p core bank) : (r.mergeBank p core bank).copies = r.copies := by
  simp [Run.mergeBank]

@[simp] theorem Run.closeStats_copies (p) : (r.closeStats p).copies = r.copies := by
  simp [Run.closeStats]

/-! ### Dispatch -/

@[simp] theorem Run.endParcel_copies (i status) : (r.endParcel i status).copies = r.copies := by
  unfold Run.endParcel
  split <;> simp

@[simp] theorem Run.dispatchKernel_copies (i : Nat) (p : Parcel) :
    (r.dispatchKernel i p).copies = r.copies := by
  unfold Run.dispatchKernel
  dsimp only
  split
  · next h => exact (Run.endParcel_copies ..).trans ((copies_of_eq h (Run.readIn_copies ..)).trans (Run.noteUe_copies ..))
  next h =>
  have hr := (copies_of_eq h (Run.readIn_copies ..)).trans (Run.noteUe_copies ..)
  (repeat' split) <;> simp [hr]

/-! ### Permits -/

@[simp] theorem Run.countWait_copies (q) : (r.countWait q).copies = r.copies := by
  simp [Run.countWait]

@[simp] theorem Run.withdraw_copies (gone) : (r.withdraw gone).copies = r.copies := by
  simp [Run.withdraw]

/-! ### Gangs: admission, retirement, parking -/

@[simp] theorem Run.noteDegraded_copies : r.noteDegraded.copies = r.copies := by
  simp [Run.noteDegraded]

@[simp] theorem Run.freshBank_copies (core b) : (r.freshBank core b).copies = r.copies := by
  simp [Run.freshBank]

@[simp] theorem Run.askPermit_copies (i core p) : (r.askPermit i core p).copies = r.copies := by
  simp [Run.askPermit]

@[simp] theorem Run.settleDormant_copies (cl) : (r.settleDormant cl).copies = r.copies := by
  simp [Run.settleDormant]

@[simp] theorem Run.closeRun_copies (i) : (r.closeRun i).copies = r.copies := by
  unfold Run.closeRun
  split <;> simp

@[simp] theorem Run.closeStopped_copies (i) : (r.closeStopped i).copies = r.copies := by
  unfold Run.closeStopped
  split <;> simp

/-- The cores are settled under a name of its own, so that no step of the proof computes what they answer. -/
@[simp] theorem Run.retireGang_copies (core gang x) : (r.retireGang core gang x).copies = r.copies := by
  generalize hf : @Run.retireGang = f
  delta Run.retireGang at hf
  subst hf
  obtain ⟨settle, hd, hs⟩ : ∃ f, f = @Run.settleDormant ∧ ∀ z (r : Run z) c, (f r c).copies = r.copies :=
    ⟨_, rfl, fun _ r c => r.settleDormant_copies c⟩
  rw [← hd]
  dsimp only
  split
  all_goals
    simp [hs]
    intro _
    split <;> simp

/-! ### Completion -/

@[simp] theorem Run.leaveFlight_copies (i p) : (r.leaveFlight i p).copies = r.copies := by
  simp [Run.leaveFlight]

@[simp] theorem Run.writeRecord_copies (n idx : Nat) (p : Parcel) (status : Nat) (lost : Bool) :
    (r.writeRecord n idx p status lost).copies = r.copies := by
  unfold Run.writeRecord
  dsimp only
  split
  · simp
  · next h => simp [Run.writeVirt_copies h]

@[simp] theorem Run.completeQueue_copies (i p n idx) : (r.completeQueue i p n idx).copies = r.copies := by
  simp [Run.completeQueue]

/-! ### The Page Index -/

@[simp] theorem Run.setSeqW_copies (q off v) : (r.setSeqW q off v).copies = r.copies := by
  simp [Run.setSeqW]

@[simp] theorem Run.setSeqState_copies (q v) : (r.setSeqState q v).copies = r.copies := by
  simp [Run.setSeqState]

@[simp] theorem Run.setSeqPins_copies (q v) : (r.setSeqPins q v).copies = r.copies := by
  simp [Run.setSeqPins]

@[simp] theorem Run.countFree_copies : r.countFree.copies = r.copies := by
  simp [Run.countFree]

@[simp] theorem Run.setEnt_copies (e) : (r.setEnt e).copies = r.copies := by
  simp [Run.setEnt]

@[simp] theorem Run.setPageWord_copies (q layer page v) : (r.setPageWord q layer page v).copies = r.copies := by
  simp [Run.setPageWord]

@[simp] theorem Run.freeEnts_copies (es) : (r.freeEnts es).copies = r.copies := by
  simp [Run.freeEnts]

@[simp] theorem Run.refreshUsed_copies (q) : (r.refreshUsed q).copies = r.copies := by
  simp [Run.refreshUsed]

@[simp] theorem Run.allocPages_copies (q pages fill) : (r.allocPages q pages fill).copies = r.copies := by
  simp [Run.allocPages]

/-! ### Eviction -/

@[simp] theorem Run.evictFrom_copies (q p0) : (r.evictFrom q p0).copies = r.copies := by
  simp [Run.evictFrom]

@[simp] theorem Run.evictFor_copies (q k) : (r.evictFor q k).copies = r.copies := by
  simp [Run.evictFor]

/-! ### Requests -/

@[simp] theorem Run.kvComplete_copies (q status result) : (r.kvComplete q status result).copies = r.copies := by
  simp [Run.kvComplete]

@[simp] theorem Run.kvOk_copies (q seq result) : (r.kvOk q seq result).copies = r.copies := by
  simp [Run.kvOk]

@[simp] theorem Run.kvOpenSeq_copies (q w) : (r.kvOpenSeq q w).copies = r.copies := by
  unfold Run.kvOpenSeq
  split
  · simp
  · dsimp only
    rw [Run.kvOk_copies, Run.each_copies, Run.setSeqW_copies, Run.each_copies, Run.each_copies] <;> simp

@[simp] theorem Run.closeSeq_copies (n) : (r.closeSeq n).copies = r.copies := by
  simp [Run.closeSeq]

@[simp] theorem Run.freeEmpty_copies (n) : (r.freeEmpty n).copies = r.copies := by
  simp [Run.freeEmpty]

@[simp] theorem Run.kvFinish_copies (q) : (r.kvFinish q).copies = r.copies := by
  unfold Run.kvFinish
  split <;> simp

@[simp] theorem Run.kvZero_copies (q) : (r.kvZero q).copies = r.copies := by
  simp [Run.kvZero]

@[simp] theorem Run.submitRecompute_copies (n : Nat) : (r.submitRecompute n).copies = r.copies := by
  unfold Run.submitRecompute
  dsimp only
  split
  · next h => simp [copies_of_eq h (Run.readIn_copies ..)]
  · next h => simp [copies_of_eq h (Run.readIn_copies ..)]

@[simp] theorem Run.startRecompute_copies (n) : (r.startRecompute n).copies = r.copies := by
  simp [Run.startRecompute]

@[simp] theorem Run.owedRecompute_copies : r.owedRecompute.copies = r.copies := by
  unfold Run.owedRecompute
  split <;> simp

@[simp] theorem Run.kvHold_copies (q front) : (r.kvHold q front).copies = r.copies := by
  simp [Run.kvHold]

@[simp] theorem Run.kvServe_copies (q) : (r.kvServe q).copies = r.copies := by
  unfold Run.kvServe
  split <;> simp

@[simp] theorem Run.kvDrain_copies (n fuel : Nat) : (r.kvDrain n fuel).copies = r.copies := by
  induction fuel generalizing r with
  | zero => rfl
  | succ fuel ih =>
    unfold Run.kvDrain
    (repeat' split) <;> simp [ih]

/-- A key-value request that is taken leaves the copies where its handler leaves them. -/
@[simp] theorem Run.kvTake_copies (mine : Nat → Bool) {serve : KvReq → Nat → Run z → Run z}
    (hs : ∀ q e r, (serve q e r).copies = r.copies) : (r.kvTake mine serve).copies = r.copies := by
  unfold Run.kvTake
  dsimp only
  split
  · rfl
  · rw [hs]
    simp

@[simp] theorem Run.kvQueue_copies (q e) : (r.kvQueue q e).copies = r.copies := by
  simp [Run.kvQueue]

/-! ### Stream identification -/

@[simp] theorem Run.setEth_copies (e) : (r.setEth e).copies = r.copies := by
  simp [Run.setEth]

@[simp] theorem Run.setPort_copies (n p) : (r.setPort n p).copies = r.copies := by
  simp [Run.setPort]

@[simp] theorem Run.countPort_copies (n off k) : (r.countPort n off k).copies = r.copies := by
  simp [Run.countPort]

@[simp] theorem Run.traceStream_copies (point port flt) : (r.traceStream point port flt).copies = r.copies := by
  unfold Run.traceStream
  split <;> simp

@[simp] theorem Run.setCbState_copies (i c) : (r.setCbState i c).copies = r.copies := by
  simp [Run.setCbState]

/-- The tag of a frame and the span of the history stand under names of their own, so that no step of the proof computes them. -/
theorem Run.cbRecover_eq_copies {i g : Nat} {f : Frame} {b : Bool} {q : Run z} (h : r.cbRecover i g f = (b, q)) :
    q.copies = r.copies := by
  unfold Run.cbRecover at h
  obtain ⟨tag, ht⟩ : ∃ t, t = rtagSeq f := ⟨_, rfl⟩
  obtain ⟨ms, hm⟩ : ∃ m, m = 1000000 := ⟨_, rfl⟩
  rw [← ht, ← hm] at h
  dsimp only at h
  (repeat' split at h) <;> cases h <;> simp

@[simp] theorem Run.cbRecover_copies (i g f) : (r.cbRecover i g f).2.copies = r.copies := r.cbRecover_eq_copies rfl

@[simp] theorem Run.streamCheck_copies (f : Frame) (len ingress : Nat) (flt : Option Nat) :
    (r.streamCheck f len ingress flt).2.copies = r.copies := by
  unfold Run.streamCheck
  split
  · rfl
  dsimp only
  split
  · simp
  split
  · simp
  refine foldl_keeps (g := fun p => p.2.copies) (fun p k => ?_) _ (true, r)
  split <;> simp

/-! ### Egress -/

@[simp] theorem Run.ethEnqueue_copies (port f cls) : (r.ethEnqueue port f cls).copies = r.copies := by
  simp [Run.ethEnqueue]

@[simp] theorem Run.cbGenerate_copies (f : Frame) (flt : Option Nat) :
    (r.cbGenerate f flt).2.copies = r.copies :=
  foldl_keeps (g := fun p => p.2.copies) (fun p k => by simp) _ (f, r)

/-! ### Forwarding database -/

@[simp] theorem Run.learn_copies (f ingress) : (r.learn f ingress).copies = r.copies := by
  unfold Run.learn
  dsimp only
  (repeat' split) <;> simp

@[simp] theorem Run.forwardOut_copies (f flt dests) : (r.forwardOut f flt dests).copies = r.copies := by
  simp [Run.forwardOut]

@[simp] theorem Run.sendFrame_copies (f) : (r.sendFrame f).copies = r.copies := by
  simp [Run.sendFrame]

/-! ### Gates -/

@[simp] theorem Run.preempt_copies (n) : (r.preempt n).copies = r.copies := by
  unfold Run.preempt
  dsimp only
  split <;> simp

@[simp] theorem Run.gateApply_copies (n) : (r.gateApply n).copies = r.copies := by
  unfold Run.gateApply
  dsimp only
  split <;> simp

@[simp] theorem Run.qbvChange_copies (n) : (r.qbvChange n).copies = r.copies := by
  simp [Run.qbvChange]

@[simp] theorem Run.ftState_copies (v) : (r.ftState v).copies = r.copies := by
  simp [Run.ftState]

@[simp] theorem Run.holdover_copies : r.holdover.copies = r.copies := by
  simp [Run.holdover]

@[simp] theorem Run.syncMeasured_copies (offset rate) : (r.syncMeasured offset rate).copies = r.copies := by
  simp [Run.syncMeasured]

/-! ### What a gPTP domain knows -/

@[simp] theorem Run.setGptp_copies (d n p) : (r.setGptp d n p).copies = r.copies := by
  simp [Run.setGptp]

@[simp] theorem Run.gptpPut_copies (n body) : (r.gptpPut n body).copies = r.copies := by
  simp [Run.gptpPut]

@[simp] theorem Run.gptpSelect_copies (d) : (r.gptpSelect d).copies = r.copies := by
  unfold Run.gptpSelect
  dsimp only
  (repeat' split) <;> simp

@[simp] theorem Run.gptpSelects_copies : r.gptpSelects.copies = r.copies := by
  simp [Run.gptpSelects]

/-! ### Messages sent -/

@[simp] theorem Run.gptpSync_copies (d n relay) : (r.gptpSync d n relay).copies = r.copies := by
  simp [Run.gptpSync]

@[simp] theorem Run.gptpSend_copies (d n) : (r.gptpSend d n).copies = r.copies := by
  unfold Run.gptpSend
  dsimp only
  split <;> simp

@[simp] theorem Run.gptpSent_copies (n body stamp) : (r.gptpSent n body stamp).copies = r.copies := by
  unfold Run.gptpSent
  dsimp only
  (repeat' split) <;> simp

@[simp] theorem Run.gptpAge_copies (d n) : (r.gptpAge d n).copies = r.copies := by
  unfold Run.gptpAge
  dsimp only
  split <;> simp

/-! ### Messages received -/

@[simp] theorem Run.gptpAnnounce_copies (d n body) : (r.gptpAnnounce d n body).copies = r.copies := by
  simp [Run.gptpAnnounce]

@[simp] theorem Run.gptpFollow_copies (d n y body) : (r.gptpFollow d n y body).copies = r.copies := by
  simp [Run.gptpFollow]

@[simp] theorem Run.gptpReceive_copies (n body stamp) : (r.gptpReceive n body stamp).copies = r.copies := by
  unfold Run.gptpReceive
  dsimp only
  (repeat' split) <;> simp

/-! ### Transmission -/

@[simp] theorem Run.txStart_copies (n c f rest) : (r.txStart n c f rest).copies = r.copies := by
  simp [Run.txStart]

@[simp] theorem Run.txUnprotected_copies (n c rest) : (r.txUnprotected n c rest).copies = r.copies := by
  simp [Run.txUnprotected]

@[simp] theorem Run.ethTxStart_copies (n) : (r.ethTxStart n).copies = r.copies := by
  unfold Run.ethTxStart
  dsimp only
  (repeat' split) <;> simp

/-! ### Link -/

@[simp] theorem Run.dropQueues_copies (n) : (r.dropQueues n).copies = r.copies := by
  simp [Run.dropQueues]

@[simp] theorem Run.mkaState_copies (n v) : (r.mkaState n v).copies = r.copies := by
  simp [Run.mkaState]

@[simp] theorem Run.linkLost_copies (n v) : (r.linkLost n v).copies = r.copies := by
  simp [Run.linkLost]

/-! ### Table access -/

@[simp] theorem Run.tblEnd_copies (status) : (r.tblEnd status).copies = r.copies := by
  simp [Run.tblEnd]

@[simp] theorem Run.tblWrite_copies (table port i d) : (r.tblWrite table port i d).2.copies = r.copies := by
  unfold Run.tblWrite
  dsimp only
  (repeat' split) <;> simp

@[simp] theorem Run.setMhy_copies (m) : (r.setMhy m).copies = r.copies := by
  simp [Run.setMhy]

@[simp] theorem Run.setSess_copies (n x) : (r.setSess n x).copies = r.copies := by
  simp [Run.setSess]

@[simp] theorem Run.countMhy_copies (off) : (r.countMhy off).copies = r.copies := by
  simp [Run.countMhy]

@[simp] theorem Run.badLength_copies (status) : (r.badLength status).copies = r.copies := by
  simp [Run.badLength]

/-! ### Sending -/

@[simp] theorem Run.mhySend_copies (p bs cls) : (r.mhySend p bs cls).copies = r.copies := by
  unfold Run.mhySend
  split <;> simp

@[simp] theorem Run.mhyParts_copies (p h payload) : (r.mhyParts p h payload).copies = r.copies := by
  simp [Run.mhyParts]

@[simp] theorem Run.mhyAnswer_copies (p minor nocrc opcode session token seq status payload again) :
    (r.mhyAnswer p minor nocrc opcode session token seq status payload again).copies = r.copies := by
  simp [Run.mhyAnswer]

@[simp] theorem Run.mhyReply_copies (session seq status payload) : (r.mhyReply session seq status payload).copies = r.copies := by
  unfold Run.mhyReply
  split <;> simp

/-! ### Leases -/

@[simp] theorem Run.renewLease_copies (n stamp) : (r.renewLease n stamp).copies = r.copies := by
  simp [Run.renewLease]

@[simp] theorem Run.heartbeat_copies (n stamp) : (r.heartbeat n stamp).copies = r.copies := by
  simp [Run.heartbeat]

@[simp] theorem Run.reclaim_copies (n stamp) : (r.reclaim n stamp).copies = r.copies := by
  unfold Run.reclaim
  dsimp only
  split <;> simp

/-! ### Receiving -/

@[simp] theorem Run.mhyReject_copies (p h status) : (r.mhyReject p h status).copies = r.copies := by
  simp [Run.mhyReject]

@[simp] theorem Run.mhyEnqueue_copies (m) : (r.mhyEnqueue m).copies = r.copies := by
  simp [Run.mhyEnqueue]

@[simp] theorem Run.mhyRepeat_copies (p h x k) : (r.mhyRepeat p h x k).copies = r.copies := by
  simp [Run.mhyRepeat]

@[simp] theorem Run.mhyPart_copies (p h x payload stamp) : (r.mhyPart p h x payload stamp).copies = r.copies := by
  simp [Run.mhyPart]

@[simp] theorem Run.paceAnswered_copies (session seq) : (r.paceAnswered session seq).copies = r.copies := by
  simp [Run.paceAnswered]

@[simp] theorem Run.mhyAccept_copies (p h payload stamp) : (r.mhyAccept p h payload stamp).copies = r.copies := by
  unfold Run.mhyAccept
  dsimp only
  (repeat' split) <;> simp

@[simp] theorem Run.mhyReceive_copies (p : Peer) (stamp : Nat) (bs : List Byte) (fuel : Nat) :
    (r.mhyReceive p stamp bs fuel).copies = r.copies := by
  induction fuel generalizing r bs with
  | zero => rfl
  | succ fuel ih =>
    unfold Run.mhyReceive
    dsimp only
    (repeat' split) <;> simp [ih]

/-! ### Network flows -/

@[simp] theorem Run.flowReceive_copies (n ingress : Nat) (raw : List Byte) (stamp : Nat) :
    (r.flowReceive n ingress raw stamp).copies = r.copies := by
  unfold Run.flowReceive
  dsimp only
  split
  · simp
  split
  · simp
  · next h => simp [Run.writeVirtBytes_copies h]

@[simp] theorem Run.flowDb_copies (v) : (r.flowDb v).copies = r.copies := by
  simp [Run.flowDb]

@[simp] theorem Run.mkaReceive_copies (n body) : (r.mkaReceive n body).copies = r.copies := by
  unfold Run.mkaReceive
  dsimp only
  (repeat' split) <;> simp

theorem Run.mhyFrame_copies {r q : Run z} {n : Nat} {f : Frame} {stamp : Nat} (h : r.mhyFrame n f stamp = some q) :
    q.copies = r.copies := by
  unfold Run.mhyFrame at h
  dsimp only at h
  (repeat' split at h) <;> cases h <;> simp

@[simp] theorem Run.deliver4_copies (n : Nat) (f : Frame) (flt : Option Nat) (stamp : Nat) :
    (r.deliver4 n f flt stamp).copies = r.copies := by
  unfold Run.deliver4
  dsimp only
  split
  · simp
  split
  · simp
  split
  · simp
  split
  · simp
  split
  · next h => exact Run.mhyFrame_copies h
  · split <;> simp

theorem Run.unprotect_copies {r q : Run z} {n : Nat} {raw bs : List Byte} (h : r.unprotect n raw = some (bs, q)) :
    q.copies = r.copies := by
  unfold Run.unprotect at h
  dsimp only at h
  (repeat' split at h) <;> cases h <;> simp

@[simp] theorem Run.switchFrame_copies (n raw stamp) : (r.switchFrame n raw stamp).copies = r.copies := by
  simp [Run.switchFrame]

@[simp] theorem Run.setPower_copies (p) : (r.setPower p).copies = r.copies := by
  simp [Run.setPower]

@[simp] theorem Run.answer_copies (asker status payload) : (r.answer asker status payload).copies = r.copies := by
  unfold Run.answer
  split <;> simp

@[simp] theorem Run.reachState_copies (st) : (r.reachState st).copies = r.copies := by
  simp [Run.reachState]

@[simp] theorem Run.endRequest_copies (asker status) : (r.endRequest asker status).copies = r.copies := by
  simp [Run.endRequest]

@[simp] theorem Run.failRequest_copies : r.failRequest.copies = r.copies := by
  unfold Run.failRequest
  split <;> simp

@[simp] theorem Run.requestState_copies (target asker) : (r.requestState target asker).copies = r.copies := by
  simp [Run.requestState]

@[simp] theorem Run.settleState_copies : r.settleState.copies = r.copies := by
  simp [Run.settleState]

@[simp] theorem Run.powerResume_copies : r.powerResume.copies = r.copies := by
  unfold Run.powerResume
  split <;> simp

@[simp] theorem Run.addClaim_copies (owner st) : (r.addClaim owner st).copies = r.copies := by
  simp [Run.addClaim]

@[simp] theorem Run.dropClaim_copies (owner) : (r.dropClaim owner).copies = r.copies := by
  simp [Run.dropClaim]

@[simp] theorem Run.wakeTo_copies (source target) : (r.wakeTo source target).copies = r.copies := by
  unfold Run.wakeTo
  split <;> simp

/-! ### DVFS -/

@[simp] theorem Run.setVolt_copies (c p) : (r.setVolt c p).copies = r.copies := by
  simp [Run.setVolt]

@[simp] theorem Run.atPoint_copies (c p) : (r.atPoint c p).copies = r.copies := by
  simp [Run.atPoint]

@[simp] theorem Run.startMove_copies (c p) : (r.startMove c p).copies = r.copies := by
  simp [Run.startMove]

@[simp] theorem Run.refuseDvfs_copies (c) : (r.refuseDvfs c).copies = r.copies := by
  simp [Run.refuseDvfs]

@[simp] theorem Run.writeDiv_copies (c p) : (r.writeDiv c p).copies = r.copies := by
  simp [Run.writeDiv]

@[simp] theorem Run.writeDvfs_copies (c v) : (r.writeDvfs c v).copies = r.copies := by
  simp [Run.writeDvfs]

@[simp] theorem Run.addPin_copies (c owner freq) : (r.addPin c owner freq).copies = r.copies := by
  simp [Run.addPin]

@[simp] theorem Run.dropPin_copies (owner) : (r.dropPin owner).copies = r.copies := by
  simp [Run.dropPin]

/-! ### The Ledger -/

@[simp] theorem Run.moveBy_copies (c up) : (r.moveBy c up).copies = r.copies := by
  simp [Run.moveBy]

@[simp] theorem Run.adaptive_copies (powerMw hostUp hostDown) : (r.adaptive powerMw hostUp hostDown).1.copies = r.copies := by
  simp [Run.adaptive]

@[simp] theorem Run.writeCap_copies (w : Nat) : (r.writeCap w).2.copies = r.copies := by
  unfold Run.writeCap
  split <;> simp

@[simp] theorem Run.writeMode_copies (v) : (r.writeMode v).2.copies = r.copies := by
  unfold Run.writeMode
  dsimp only
  (repeat' split) <;> simp

/-! ### Droop and heat -/

@[simp] theorem Run.showTemps_copies (temps) : (r.showTemps temps).copies = r.copies := by
  simp [Run.showTemps]

@[simp] theorem Run.coolDown_copies : r.coolDown.copies = r.copies := by
  simp [Run.coolDown]

/-! ### State columns -/

@[simp] theorem Run.setRfxCell_copies (core d i e code) : (r.setRfxCell core d i e code).copies = r.copies := by
  simp [Run.setRfxCell]

@[simp] theorem Run.rfxReload_copies (core d i) : (r.rfxReload core d i).copies = r.copies := by
  simp [Run.rfxReload]

@[simp] theorem Run.rfxClear_copies (core d) : (r.rfxClear core d).copies = r.copies := by
  simp [Run.rfxClear]

@[simp] theorem Run.setRfx_copies (key g) : (r.setRfx key g).copies = r.copies := by
  simp [Run.setRfx]

@[simp] theorem Run.rfxStanding_copies : r.rfxStanding.copies = r.copies := by
  simp [Run.rfxStanding]

@[simp] theorem Run.rfxEnd_copies (key g status) : (r.rfxEnd key g status).copies = r.copies := by
  unfold Run.rfxEnd
  dsimp only
  split <;> simp

/-! ### Reflex cores -/

@[simp] theorem Run.writeRfxCore_copies (n v) : (r.writeRfxCore n v).copies = r.copies := by
  simp [Run.writeRfxCore]

/-! ### Starting a group -/

@[simp] theorem Run.touchPages_copies (pa n) : (r.touchPages pa n).copies = r.copies := by
  simp [Run.touchPages]

@[simp] theorem Run.copyIn_copies (c : XCtx) (va pa n : Nat) : (r.copyIn c va pa n).copies = r.copies := by
  unfold Run.copyIn
  split
  · next h => simp [copies_of_eq h (Run.readIn_copies ..)]
  · next h => exact copies_of_eq h (Run.readIn_copies ..)

@[simp] theorem Run.rfxCopy_copies (core d c) : (r.rfxCopy core d c).copies = r.copies := by
  simp [Run.rfxCopy]

@[simp] theorem Run.rfxStart_copies (i : Nat) (p : Parcel) : (r.rfxStart i p).copies = r.copies := by
  unfold Run.rfxStart
  dsimp only
  split
  · next h => simp [copies_of_eq h (Run.readIn_copies ..)]
  next h =>
  have hr := copies_of_eq h (Run.readIn_copies ..)
  split
  · next k => simp [copies_of_eq k (Run.readIn_copies ..), hr]
  · next k =>
    have hk := copies_of_eq k (Run.readIn_copies ..)
    split <;> simp [hk, hr]

/-! ### Frames in -/

@[simp] theorem Run.rfxLand_copies (key g stream payload) : (r.rfxLand key g stream payload).copies = r.copies := by
  simp [Run.rfxLand]

/-! ### Latches -/

@[simp] theorem Run.rfxLatch_copies (key g l) : (r.rfxLatch key g l).copies = r.copies := by
  simp [Run.rfxLatch]

@[simp] theorem Run.rfxCount_copies (key off) : (r.rfxCount key off).copies = r.copies := by
  simp [Run.rfxCount]

/-! ### Steps -/

@[simp] theorem Run.rfxCkptBanks_copies (core d base) : (r.rfxCkptBanks core d base).copies = r.copies := by
  simp [Run.rfxCkptBanks]

@[simp] theorem Run.rfxCheckpoint_copies (key core g ctx step) : (r.rfxCheckpoint key core g ctx step).copies = r.copies := by
  obtain ⟨write, hd, hw⟩ := exists_writeVirtBytes
  unfold Run.rfxCheckpoint
  rw [← hd]
  dsimp only
  split
  · simp only [Run.setRfx_copies, Run.setBytes_copies, Run.rfxCkptBanks_copies]
  split
  · simp only [Run.setRfx_copies, Run.setBytes_copies, Run.rfxCkptBanks_copies]
  next h =>
  have h₁ := hw _ _ _ _ _ _ h
  simp only [Run.setRfx_copies, Run.setBytes_copies, Run.rfxCkptBanks_copies] at h₁
  split
  · split <;> simp only [h₁, Run.setRfx_copies]
  · next h =>
    have h₂ := hw _ _ _ _ _ _ h
    split <;> simp only [h₁, h₂, Run.setRfx_copies]

/-! ### Marks, stopping, holding, fences -/

@[simp] theorem Run.rfxMark_copies (key v) : (r.rfxMark key v).copies = r.copies := by
  unfold Run.rfxMark
  split <;> simp

@[simp] theorem Run.rfxStop_copies (key status) : (r.rfxStop key status).copies = r.copies := by
  unfold Run.rfxStop
  split <;> simp

@[simp] theorem Run.rfxAbort_copies (key status) : (r.rfxAbort key status).copies = r.copies := by
  unfold Run.rfxAbort
  split <;> simp

@[simp] theorem Run.rfxHold_copies (key) : (r.rfxHold key).copies = r.copies := by
  unfold Run.rfxHold
  split <;> simp

@[simp] theorem Run.rfxOrphan_copies (session policy) : (r.rfxOrphan session policy).copies = r.copies := by
  unfold Run.rfxOrphan
  split <;> simp

@[simp] theorem Run.rfxFence_copies (logical) : (r.rfxFence logical).copies = r.copies := by
  simp [Run.rfxFence]

@[simp] theorem Run.rfxRestore_copies (core d img) : (r.rfxRestore core d img).copies = r.copies := by
  simp [Run.rfxRestore]

@[simp] theorem Run.setAud_copies (a) : (r.setAud a).copies = r.copies := by
  simp [Run.setAud]

@[simp] theorem Run.settlePorts_copies : r.settlePorts.copies = r.copies := by
  simp [Run.settlePorts]

@[simp] theorem Run.settleLed_copies : r.settleLed.copies = r.copies := by
  simp [Run.settleLed]

/-! ### IMA ADPCM -/

@[simp] theorem Run.rowBoundary_copies : r.rowBoundary.copies = r.copies := by
  simp [Run.rowBoundary]

/-! ### The copy engine -/

@[simp] theorem Run.copyRow_copies (c : ACopy) (row : Nat) : (r.copyRow c row).copies = r.copies := by
  have put (r : Run z) (x : XCtx) (va : Nat) (bs : List Byte) :
      (match r.writeVirtBytes x va bs with | .ok q => q | .error _ => r).copies = r.copies := by
    split
    · next h => exact Run.writeVirtBytes_copies h
    · rfl
  unfold Run.copyRow
  dsimp only
  split
  · exact put ..
  · exact Run.each_copies (fun _ _ => put ..) _ _

@[simp] theorem Run.copyRows_copies (c n) : (r.copyRows c n).copies = r.copies := by
  simp [Run.copyRows]

@[simp] theorem Run.copyEnd_copies (c status) : (r.copyEnd c status).copies = r.copies := by
  simp [Run.copyEnd]

@[simp] theorem Run.rowComplete_copies (samples) : (r.rowComplete samples).copies = r.copies := by
  unfold Run.rowComplete
  split <;> simp

@[simp] theorem Run.copyGo_copies : r.copyGo.copies = r.copies := by
  simp [Run.copyGo]

/-! ### Beams -/

@[simp] theorem Run.audStop_copies : r.audStop.copies = r.copies := by
  simp [Run.audStop]

@[simp] theorem Run.audOff_copies : r.audOff.copies = r.copies := by
  simp [Run.audOff]

@[simp] theorem Run.audStart_copies : r.audStart.copies = r.copies := by
  simp [Run.audStart]

/-! ### Audio channels -/

@[simp] theorem Run.micDeliver_copies (n from_ dropped : Nat) (mics : List (List (BitVec 16))) :
    (r.micDeliver n from_ dropped mics).copies = r.copies := by
  unfold Run.micDeliver
  dsimp only
  split
  · simp
  split
  · simp
  · next h => simp [Run.writeVirtBytes_copies h]

@[simp] theorem Run.audRingDb_copies (v) : (r.audRingDb v).copies = r.copies := by
  unfold Run.audRingDb
  dsimp only
  (repeat' split) <;> simp

@[simp] theorem Run.setCam_copies (c) : (r.setCam c).copies = r.copies := by
  simp [Run.setCam]

@[simp] theorem Run.setStream_copies (n x) : (r.setStream n x).copies = r.copies := by
  simp [Run.setStream]

@[simp] theorem Run.setFrame_copies (n f) : (r.setFrame n f).copies = r.copies := by
  simp [Run.setFrame]

@[simp] theorem Run.countCsi_copies (port i) : (r.countCsi port i).copies = r.copies := by
  simp [Run.countCsi]

@[simp] theorem Run.countEcc1_copies (port ecc1) : (r.countEcc1 port ecc1).copies = r.copies := by
  simp [Run.countEcc1]

@[simp] theorem Run.countDrop_copies (n word hi f) : (r.countDrop n word hi f).copies = r.copies := by
  simp [Run.countDrop]

@[simp] theorem Run.removeFrame_copies (n i f) : (r.removeFrame n i f).copies = r.copies := by
  simp [Run.removeFrame]

/-! ### ISP parameters -/

@[simp] theorem Run.applySet_copies (stream : Nat) (set : SMap W32) :
    (r.applySet stream set).copies = r.copies := by
  unfold Run.applySet
  dsimp only
  rw [Run.setFld_copies]
  refine Run.each_copies (fun k r => ?_) _ _
  split <;> simp

@[simp] theorem Run.takeParams_copies (ctx : Nat) (f : CamFrame) :
    (r.takeParams ctx f).2.2.copies = r.copies := by
  unfold Run.takeParams
  dsimp only
  split
  · rfl
  split
  · next h => exact copies_of_eq h (Run.readBlock_copies ..)
  · next h => exact copies_of_eq h (Run.readBlock_copies ..)

@[simp] theorem Run.setPend_copies (stream l) : (r.setPend stream l).copies = r.copies := by
  simp [Run.setPend]

@[simp] theorem Run.ispArm_copies (stream tag) : (r.ispArm stream tag).copies = r.copies := by
  simp [Run.ispArm]

@[simp] theorem Run.chooseKeyed_copies (n ctx f) : (r.chooseKeyed n ctx f).2.2.copies = r.copies := by
  unfold Run.chooseKeyed
  dsimp only
  (repeat' split) <;> simp

/-! ### Closing and dropping -/

@[simp] theorem Run.closeFrame_copies (n t late cut short) : (r.closeFrame n t late cut short).copies = r.copies := by
  unfold Run.closeFrame
  split <;> simp

/-! ### The pipe -/

@[simp] theorem Run.readLine_copies (pipe) : (r.readLine pipe).copies = r.copies := by
  unfold Run.readLine
  split <;> simp

@[simp] theorem Run.dropOverflow_copies (n i f) : (r.dropOverflow n i f).copies = r.copies := by
  unfold Run.dropOverflow
  dsimp only
  split <;> simp

@[simp] theorem Run.takeSlot_copies (n t) : (r.takeSlot n t).copies = r.copies := by
  unfold Run.takeSlot
  dsimp only
  (repeat' split) <;> simp

/-! ### Delivery -/

@[simp] theorem Run.frameDeliver_copies (n) : (r.frameDeliver n).2.copies = r.copies := by
  obtain ⟨write, hd, hw⟩ := exists_writeVirtBytes
  unfold Run.frameDeliver
  rw [← hd]
  dsimp only
  split
  · simp
  split
  · simp
  split
  · simp
  next h =>
  have h₁ := hw _ _ _ _ _ _ h
  split
  · simp [h₁]
  · next h => simp [h₁, hw _ _ _ _ _ _ h]

@[simp] theorem Run.csiConsume_copies (n v) : (r.csiConsume n v).copies = r.copies := by
  simp [Run.csiConsume]

@[simp] theorem Run.csiRingDb_copies (v) : (r.csiRingDb v).copies = r.copies := by
  simp [Run.csiRingDb]

@[simp] theorem Run.writeCamPort_copies (port v) : (r.writeCamPort port v).copies = r.copies := by
  simp [Run.writeCamPort]

/-! ### FSYNC and I3C -/

@[simp] theorem Run.fsyncWritten_copies (k) : (r.fsyncWritten k).copies = r.copies := by
  simp [Run.fsyncWritten]

@[simp] theorem Run.i3cGo_copies (k xfer) : (r.i3cGo k xfer).copies = r.copies := by
  simp [Run.i3cGo]

/-! ### The table and its ladders -/

@[simp] theorem Run.setLad_copies (x) : (r.setLad x).copies = r.copies := by
  simp [Run.setLad]

@[simp] theorem Run.setLadder_copies (k l) : (r.setLadder k l).copies = r.copies := by
  simp [Run.setLadder]

@[simp] theorem Run.showRung_copies (k code) : (r.showRung k code).copies = r.copies := by
  simp [Run.showRung]

/-! ### Tickets -/

@[simp] theorem Run.showQueue_copies : r.showQueue.copies = r.copies := by
  simp [Run.showQueue]

@[simp] theorem Run.ringTicket_copies (w : List W32) : (r.ringTicket w).copies = r.copies := by
  unfold Run.ringTicket
  dsimp only
  split
  · simp
  · next h => simp [Run.writeVirtBytes_copies h]

@[simp] theorem Run.queueTicket_copies (w) : (r.queueTicket w).copies = r.copies := by
  simp [Run.queueTicket]

@[simp] theorem Run.writeTicket_copies (lens w) : (r.writeTicket lens w).copies = r.copies := by
  simp [Run.writeTicket]

@[simp] theorem Run.makeTicket_copies (k frm l ev flags) : (r.makeTicket k frm l ev flags).2.copies = r.copies := by
  simp [Run.makeTicket]

/-! ### Submission -/

@[simp] theorem Run.queueEval_copies (ev) : (r.queueEval ev).copies = r.copies := by
  simp [Run.queueEval]

@[simp] theorem Run.failSubmit_copies (k l) : (r.failSubmit k l).copies = r.copies := by
  simp [Run.failSubmit]

@[simp] theorem Run.submitTo_copies (card : Nat) (desc : List Byte) :
    (r.submitTo card desc).2.copies = r.copies := by
  unfold Run.submitTo
  dsimp only
  split
  · rfl
  split
  · rfl
  · next h => simp [Run.writeVirtBytes_copies h]

@[simp] theorem Run.ladCopy_copies (k l) : (r.ladCopy k l).2.copies = r.copies := by
  unfold Run.ladCopy
  dsimp only
  (repeat' split) <;> simp

@[simp] theorem Run.ladSubmit_copies (k : Nat) : (r.ladSubmit k).copies = r.copies := by
  unfold Run.ladSubmit
  split
  · rfl
  dsimp only
  split
  · next h => simp [copies_of_eq h (Run.readBlock_copies ..)]
  next h =>
  have h1 := copies_of_eq h (Run.readBlock_copies ..)
  split
  · next h => simp [copies_of_eq h (Run.ladCopy_copies ..), h1]
  next h =>
  have h2 := (copies_of_eq h (Run.ladCopy_copies ..)).trans h1
  split
  · simp [h2]
  next h =>
  have h3 := (Run.writeVirtBytes_copies h).trans h2
  split
  · next h => simp [copies_of_eq h (Run.submitTo_copies ..), h3]
  · next h => simp [copies_of_eq h (Run.submitTo_copies ..), h3]

@[simp] theorem Run.raiseAsked_copies (k l c freq) : (r.raiseAsked k l c freq).copies = r.copies := by
  simp [Run.raiseAsked]

@[simp] theorem Run.ladPump_copies : r.ladPump.copies = r.copies := by
  unfold Run.ladPump
  split
  · rfl
  refine Run.each_copies (fun kl r => ?_) _ _
  dsimp only
  (repeat' split) <;> simp

/-! ### Moving between rungs -/

@[simp] theorem Run.stopServices_copies (l) : (r.stopServices l).copies = r.copies := by
  simp [Run.stopServices]

@[simp] theorem Run.unlinked_copies (before : List Nat) (t : Nat) :
    (r.unlinked before t).copies = r.copies := by
  refine Run.each_copies (fun st r => ?_) _ _
  (repeat' split) <;> simp

@[simp] theorem Run.moveRung_copies (k new ev flags) : (r.moveRung k new ev flags).copies = r.copies := by
  unfold Run.moveRung
  dsimp only
  (repeat' split) <;> simp

@[simp] theorem Run.raiseLinked_copies (ev) : (r.raiseLinked ev).copies = r.copies := by
  refine Run.each_copies (fun _ _ => ?_) _ _
  split <;> simp

@[simp] theorem Run.arrive_copies (k new ev flags) : (r.arrive k new ev flags).copies = r.copies := by
  simp [Run.arrive]

@[simp] theorem Run.descend_copies (k ev flags) : (r.descend k ev flags).copies = r.copies := by
  unfold Run.descend
  split <;> simp

@[simp] theorem Run.expireBefore_copies (k t fuel : Nat) : (Run.expireBefore k t fuel r).copies = r.copies := by
  induction fuel generalizing r with
  | zero => rfl
  | succ fuel ih =>
    unfold Run.expireBefore
    (repeat' split) <;> simp [ih]

@[simp] theorem Run.judge_copies (ev) : (r.judge ev).copies = r.copies := by
  unfold Run.judge
  dsimp only
  split <;> simp

@[simp] theorem Run.ladFlush_copies : r.ladFlush.copies = r.copies := by
  simp [Run.ladFlush]

/-! ### Frames held and released -/

@[simp] theorem Run.releaseSlots_copies (k n fuel : Nat) : (Run.releaseSlots k n fuel r).copies = r.copies := by
  induction fuel generalizing r with
  | zero => rfl
  | succ fuel ih =>
    unfold Run.releaseSlots
    dsimp only
    split <;> simp [ih]

@[simp] theorem Run.ladRelease_copies : r.ladRelease.copies = r.copies := by
  unfold Run.ladRelease
  split
  · rfl
  · refine Run.each_copies (fun _ _ => ?_) _ _
    split <;> simp

@[simp] theorem Run.ladRun_copies : r.ladRun.copies = r.copies := by
  simp [Run.ladRun]

/-! ### Taking the table up, and leaving it -/

@[simp] theorem Run.ladLeave_copies : r.ladLeave.copies = r.copies := by
  simp [Run.ladLeave]

@[simp] theorem Run.ladTakeUp_copies : r.ladTakeUp.copies = r.copies := by
  unfold Run.ladTakeUp
  obtain ⟨readBlock, hd, hs⟩ := exists_readBlock
  rw [← hd]
  dsimp only
  split
  · simp
  split
  · next h => simp [copies_of_eq h (hs ..)]
  · next h =>
    have hr := copies_of_eq h (hs ..)
    split <;> simp [hr]

@[simp] theorem Run.writeLadCfg_copies (v) : (r.writeLadCfg v).copies = r.copies := by
  simp [Run.writeLadCfg]

@[simp] theorem Run.ladAck_copies (v) : (r.ladAck v).copies = r.copies := by
  simp [Run.ladAck]

/-! ### Completions, entries and the mute path -/

@[simp] theorem Run.ladCompleted_copies (card idx status) : (r.ladCompleted card idx status).copies = r.copies := by
  unfold Run.ladCompleted
  dsimp only
  refine (Run.each_copies (fun _ _ => ?_) _ _).trans (by simp)
  (repeat' split) <;> simp

@[simp] theorem Run.forceDown_copies (k dest flags) : (r.forceDown k dest flags).copies = r.copies := by
  unfold Run.forceDown
  split <;> simp

@[simp] theorem Run.ladEntryDown_copies : r.ladEntryDown.copies = r.copies := by
  refine Run.each_copies (fun _ _ => ?_) _ _
  split <;> simp

@[simp] theorem Run.ladMuted_copies : r.ladMuted.copies = r.copies := by
  unfold Run.ladMuted
  dsimp only
  refine (Run.each_copies (fun _ _ => ?_) _ _).trans (by simp)
  split <;> simp

/-! ### Loupe -/

@[simp] theorem Run.lensRestart_copies (s0) : (r.lensRestart s0).copies = r.copies := by
  simp [Run.lensRestart]

@[simp] theorem Run.loupeTrigger_copies (n s0 : Nat) : (r.loupeTrigger n s0).copies = r.copies := by
  unfold Run.loupeTrigger
  extract_lets deepEntry deep r₁
  have h₁ : r₁.copies = r.copies := by
    cases h : ladder? r.s n <;> simp [r₁, h]
  simp [h₁]

@[simp] theorem Run.sendPace_copies (j k epoch seq) : (r.sendPace j k epoch seq).copies = r.copies := by
  unfold Run.sendPace
  split <;> simp

@[simp] theorem Run.startPace_copies (job epoch) : (r.startPace job epoch).copies = r.copies := by
  unfold Run.startPace
  split
  · rfl
  · refine Run.each_copies (fun _ _ => ?_) _ _
    split <;> simp

@[simp] theorem Run.mhyFlush_copies : r.mhyFlush.copies = r.copies := by
  unfold Run.mhyFlush
  split
  · rfl
  · refine (Run.each_copies (fun _ _ => ?_) _ _).trans (by simp)
    split <;> simp

@[simp] theorem Run.settleSignals_copies : r.settleSignals.copies = r.copies := by
  simp [Run.settleSignals]

@[simp] theorem Run.deliverAll_copies (n fuel : Nat) : (Run.deliverAll n fuel r).copies = r.copies := by
  induction fuel generalizing r with
  | zero => rfl
  | succ fuel ih =>
    unfold Run.deliverAll
    dsimp only
    split <;> simp [ih]

@[simp] theorem Run.stopCameras_copies : r.stopCameras.copies = r.copies := by
  simp [Run.stopCameras]

@[simp] theorem Run.stopBlocks_copies : r.stopBlocks.copies = r.copies := by
  simp [Run.stopBlocks]

@[simp] theorem Run.loseSas_copies : r.loseSas.copies = r.copies := by
  refine Run.each_copies (fun n r => ?_) _ _
  simp

@[simp] theorem Run.loseState_copies : r.loseState.copies = r.copies := by
  simp [Run.loseState]

@[simp] theorem Run.applyWake_copies (source target) : (r.applyWake source target).copies = r.copies := by
  simp [Run.applyWake]

@[simp] theorem Run.cardSync_copies (n asker) : (r.cardSync n asker).copies = r.copies := by
  simp [Run.cardSync]

@[simp] theorem Run.install_copies (n ws) : (r.install n ws).copies = r.copies := by
  unfold Run.install
  dsimp only
  split <;> simp

@[simp] theorem Run.takeUp_copies (n) : (r.takeUp n).copies = r.copies := by
  unfold Run.takeUp
  extract_lets c r₁ ws st r₂ r₃ hw r₄ sync r₅
  have h₂ : r₂.copies = r.copies := by
    simp only [r₂]
    rw [Run.when_copies]
    · simp [r₁]
    · intro r
      split <;> simp
  split
  · rfl
  · simp [r₅, r₄, r₃, h₂]

@[simp] theorem Run.markStage_copies (ctx a n) : (r.markStage ctx a n).copies = r.copies := by
  unfold Run.markStage
  split <;> simp

@[simp] theorem Run.setFw_copies (x) : (r.setFw x).copies = r.copies := by
  simp [Run.setFw]

@[simp] theorem Run.fwLog_copies (p level code args) : (r.fwLog p level code args).copies = r.copies := by
  simp [Run.fwLog]

@[simp] theorem Run.drawArgs_copies : r.drawArgs.2.copies = r.copies :=
  foldl_keeps (g := fun p : List Nat × Run z => p.2.copies) (fun p _ => Run.draw_copies p.2) (List.range 4) ([], r)

@[simp] theorem Run.fwLoad_copies (base p c) : (r.fwLoad base p c).copies = r.copies := by
  simp [Run.fwLoad]

@[simp] theorem Run.fwRelease_copies (p) : (r.fwRelease p).copies = r.copies := by
  simp [Run.fwRelease]

@[simp] theorem Run.updateNext_copies : r.updateNext.copies = r.copies := by
  unfold Run.updateNext
  dsimp only
  (repeat' split) <;> simp

@[simp] theorem Run.fwResume_copies (p) : (r.fwResume p).copies = r.copies := by
  unfold Run.fwResume
  split <;> simp

@[simp] theorem Run.fwUpdate_copies (ctx addr len session seq) : (r.fwUpdate ctx addr len session seq).copies = r.copies := by
  simp [Run.fwUpdate]

@[simp] theorem Run.zeroCard_copies (n) : (r.zeroCard n).copies = r.copies := by
  simp [Run.zeroCard]

@[simp] theorem Run.freeTallies_copies (cs keep) : (r.freeTallies cs keep).copies = r.copies := by
  simp [Run.freeTallies]

@[simp] theorem Run.orphanEnd_copies (ctx) : (r.orphanEnd ctx).copies = r.copies := by
  simp [Run.orphanEnd]

@[simp] theorem Run.dropWaiting_copies (cs) : (r.dropWaiting cs).copies = r.copies := by
  simp [Run.dropWaiting]

@[simp] theorem Run.dropFrames_copies (cs) : (r.dropFrames cs).copies = r.copies := by
  simp [Run.dropFrames]

@[simp] theorem Run.beginRelease_copies (n bye) : (r.beginRelease n bye).copies = r.copies := by
  unfold Run.beginRelease
  split <;> simp

@[simp] theorem Run.finishRelease_copies (n) : (r.finishRelease n).copies = r.copies := by
  unfold Run.finishRelease
  (repeat' split) <;> simp

@[simp] theorem Run.setFix_copies (x) : (r.setFix x).copies = r.copies := by
  simp [Run.setFix]

@[simp] theorem Run.setCoreState_copies (c st l) : (r.setCoreState c st l).copies = r.copies := by
  simp [Run.setCoreState]

@[simp] theorem Run.fixCounts_copies : r.fixCounts.copies = r.copies := by
  simp [Run.fixCounts]

@[simp] theorem Run.owe_copies (kind arg0) : (r.owe kind arg0).copies = r.copies := by
  simp [Run.owe]

@[simp] theorem Run.retire_copies (c) : (r.retire c).copies = r.copies := by
  simp [Run.retire]

@[simp] theorem Run.zeroCore_copies (c) : (r.zeroCore c).copies = r.copies := by
  unfold Run.zeroCore
  dsimp only
  refine (Run.each_copies (fun _ _ => ?_) _ _).trans ?_
  · simp
  · rw [Run.setCore_copies, Run.setBytes_copies]

@[simp] theorem Run.startCheck_copies (l c) : (r.startCheck l c).copies = r.copies := by
  simp [Run.startCheck]

@[simp] theorem Run.takeCore_copies (l) : (r.takeCore l).copies = r.copies := by
  unfold Run.takeCore
  split <;> simp

@[simp] theorem Run.offerCore_copies (c) : (r.offerCore c).copies = r.copies := by
  unfold Run.offerCore
  split <;> simp

@[simp] theorem Run.toSpare_copies (c) : (r.toSpare c).copies = r.copies := by
  simp [Run.toSpare]

@[simp] theorem Run.toTesting_copies (c rolled) : (r.toTesting c rolled).copies = r.copies := by
  simp [Run.toTesting]

@[simp] theorem Run.retireEnded_copies (core) : (r.retireEnded core).copies = r.copies := by
  simp [Run.retireEnded]

@[simp] theorem Run.fenceParcels_copies (core l) : (r.fenceParcels core l).copies = r.copies := by
  unfold Run.fenceParcels
  dsimp only
  refine (Run.each_copies (fun _ _ => ?_) _ _).trans (by simp)
  (repeat' split) <;> simp

@[simp] theorem Run.fenceRest_copies (core l cause) : (r.fenceRest core l cause).copies = r.copies := by
  simp [Run.fenceRest]

@[simp] theorem Run.fenceCore_copies (core cause) : (r.fenceCore core cause).copies = r.copies := by
  unfold Run.fenceCore
  dsimp only
  (repeat' split) <;> simp

@[simp] theorem Run.fenceAll_copies (cores cause) : (r.fenceAll cores cause).copies = r.copies := by
  unfold Run.fenceAll
  dsimp only
  split <;> simp

@[simp] theorem Run.backNumber_copies (l c) : (r.backNumber l c).copies = r.copies := by
  simp [Run.backNumber]

@[simp] theorem Run.checkEnd_copies (core pass) : (r.checkEnd core pass).copies = r.copies := by
  unfold Run.checkEnd
  split <;> simp

/-! ### Built-in self-test -/

@[simp] theorem Run.scanned_copies (core) : (r.scanned core).copies = r.copies := by
  simp [Run.scanned]

/-! ### The Fence Ledger -/

@[simp] theorem Run.ledgerPut_copies (x) : (r.ledgerPut x).copies = r.copies := by
  simp [Run.ledgerPut]

@[simp] theorem Run.ledgerOpen_copies : r.ledgerOpen.copies = r.copies := by
  simp [Run.ledgerOpen]

@[simp] theorem Run.ledgerCompact_copies : r.ledgerCompact.copies = r.copies := by
  simp [Run.ledgerCompact]

/-! ### Vault rows and timeouts -/

@[simp] theorem Run.agentUe_copies (ag c va pa) : (r.agentUe ag c va pa).copies = r.copies := by
  unfold Run.agentUe
  (repeat' split) <;> simp

@[simp] theorem Run.secShow_copies : r.secShow.copies = r.copies := by
  simp [Run.secShow]

@[simp] theorem Run.setSec_copies (x) : (r.setSec x).copies = r.copies := by
  simp [Run.setSec]

/-! ### Proposals -/

@[simp] theorem Run.propose_copies (p stamp) : (r.propose p stamp).2.copies = r.copies := by
  unfold Run.propose
  dsimp only
  (repeat' split) <;> simp

@[simp] theorem Run.secCommit_copies (ctr) : (r.secCommit ctr).copies = r.copies := by
  simp [Run.secCommit]

@[simp] theorem Run.fwWindow_copies (body session seq) : (r.fwWindow body session seq).copies = r.copies := by
  simp [Run.fwWindow]

@[simp] theorem Run.linkKeyUse_copies (on) : (r.linkKeyUse on).copies = r.copies := by
  unfold Run.linkKeyUse
  extract_lets sec r₁ eth r₂
  have h₂ : r₂.copies = r.copies := by simp [r₂, r₁]
  refine (Run.each_copies (fun _ _ => ?_) _ _).trans h₂
  (repeat' split) <;> simp

@[simp] theorem Run.repairPolicy_copies (v) : (r.repairPolicy v).copies = r.copies := by
  simp [Run.repairPolicy]

/-! ### Measurements -/

@[simp] theorem Run.mmStat_copies (busy st) : (r.mmStat busy st).copies = r.copies := by
  simp [Run.mmStat]

@[simp] theorem Run.mmWrite_copies (v) : (r.mmWrite v).copies = r.copies := by
  simp [Run.mmWrite]

@[simp] theorem Run.switchRegs_copies : r.switchRegs.copies = r.copies := by
  simp [Run.switchRegs]

@[simp] theorem Run.switchNet_copies : r.switchNet.copies = r.copies := by
  simp [Run.switchNet]

@[simp] theorem Run.switchStop_copies : r.switchStop.copies = r.copies := by
  simp [Run.switchStop]

@[simp] theorem Run.switchScrub_copies : r.switchScrub.copies = r.copies := by
  simp [Run.switchScrub]

@[simp] theorem Run.switchFirmware_copies : r.switchFirmware.copies = r.copies := by
  simp [Run.switchFirmware]

@[simp] theorem Run.switchBegin_copies (sw) : (r.switchBegin sw).copies = r.copies := by
  simp [Run.switchBegin]

@[simp] theorem Run.countersign_copies (m) : (r.countersign m).copies = r.copies := by
  unfold Run.countersign
  (repeat' split) <;> simp

@[simp] theorem Run.tenancyStart_copies (t) : (r.tenancyStart t).copies = r.copies := by
  simp [Run.tenancyStart]

@[simp] theorem Run.regRead_copies (who k) : (r.regRead who k).2.copies = r.copies := by
  unfold Run.regRead
  dsimp only
  (repeat' split) <;> simp

/-! ### Writes -/

@[simp] theorem Run.regStore_copies (k v) : (r.regStore k v).copies = r.copies := by
  unfold Run.regStore
  split <;> simp

@[simp] theorem Run.ftCtrl_copies (v) : (r.ftCtrl v).copies = r.copies := by
  simp [Run.ftCtrl]

@[simp] theorem Run.snapCtrl_copies (v) : (r.snapCtrl v).copies = r.copies := by
  simp [Run.snapCtrl]

@[simp] theorem Run.stateCtrl_copies (v) : (r.stateCtrl v).copies = r.copies := by
  simp [Run.stateCtrl]

@[simp] theorem Run.fwpCtrl_copies (p v) : (r.fwpCtrl p v).copies = r.copies := by
  simp [Run.fwpCtrl]

@[simp] theorem Run.fwpKick_copies (p) : (r.fwpKick p).copies = r.copies := by
  simp [Run.fwpKick]

@[simp] theorem Run.rqCfg_copies (v) : (r.rqCfg v).copies = r.copies := by
  simp [Run.rqCfg]

@[simp] theorem Run.ethCfg_copies (n v) : (r.ethCfg n v).copies = r.copies := by
  simp [Run.ethCfg]

@[simp] theorem Run.windowCtrl_copies (who n v) : (r.windowCtrl who n v).copies = r.copies := by
  unfold Run.windowCtrl
  dsimp only
  (repeat' split) <;> simp

@[simp] theorem Run.trcCtrl_copies (v) : (r.trcCtrl v).copies = r.copies := by
  simp [Run.trcCtrl]

@[simp] theorem Run.fltClear_copies (k v) : (r.fltClear k v).copies = r.copies := by
  simp [Run.fltClear]

@[simp] theorem Run.i3cXfer_copies (k v) : (r.i3cXfer k v).copies = r.copies := by
  simp [Run.i3cXfer]

/-- Every run that an option offers keeps the local copies. -/
def OffersCopies (l : SMap (Nat × Nat)) (o : Option (Run z)) : Prop := ∀ q, o = some q → q.copies = l

@[simp] theorem offersCopies_some (l : SMap (Nat × Nat)) (q : Run z) : OffersCopies l (some q) ↔ q.copies = l := by
  simp [OffersCopies]

@[simp] theorem offersCopies_none (l : SMap (Nat × Nat)) : OffersCopies l (none : Option (Run z)) := by
  simp [OffersCopies]

@[simp] theorem offersCopies_map {α : Type} {l : SMap (Nat × Nat)} {f : α → Run z} (hf : ∀ a, (f a).copies = l)
    (o : Option α) : OffersCopies l (o.map f) := by
  cases o <;> simp [hf]

/-- What a write of a register with an effect of its own does, block by block of the register file. -/
theorem Run.regSpecial_copies (who k v) : OffersCopies r.copies (r.regSpecial who k v) := by
  unfold Run.regSpecial
  obtain ⟨block, hb⟩ : ∃ n, n = k / 2 ^ 20 := ⟨_, rfl⟩
  obtain ⟨off, ho⟩ : ∃ n, n = k % 2 ^ 20 := ⟨_, rfl⟩
  rw [← hb, ← ho]
  dsimp only
  split
  all_goals (repeat' split) <;> simp

@[simp] theorem Run.regWrite_copies (who k v) : (r.regWrite who k v).copies = r.copies := by
  unfold Run.regWrite
  split
  · rfl
  split
  · rfl
  split
  · next h => exact r.regSpecial_copies who k v _ h
  · simp

/-! ### An agent's access at a register command -/

@[simp] theorem Run.accessFault_copies (ag off write) : (r.accessFault ag off write).copies = r.copies := by
  unfold Run.accessFault
  (repeat' split) <;> simp

@[simp] theorem Run.agentWrite_copies (ag off v) : (r.agentWrite ag off v).copies = r.copies := by
  simp [Run.agentWrite]

@[simp] theorem Run.agentRead_copies (ag off) : (r.agentRead ag off).copies = r.copies := by
  simp [Run.agentRead]

/-! ### Harts -/

@[simp] theorem hartLoad_copies (ag : Agent) (key : Nat) (w : Words) (legal : Bool) (m : MemOp) (d : BitVec 5)
    (ea : Hart → W64) : (hartLoad r ag key w legal m d ea).copies = r.copies := by
  refine hartIssue_copies _ _ _ _ fun h r => ?_
  dsimp only
  split
  · rfl
  split
  · rfl
  next ha =>
  have hr := Run.hartAddr_copies ha
  split
  · exact hr
  · exact (Run.regRead_copies ..).trans hr
  · split <;> exact hr

@[simp] theorem hartStore_copies (ag : Agent) (key : Nat) (w : Words) (legal : Bool) (m : MemOp) (b : BitVec 5)
    (ea : Hart → W64) : (hartStore r ag key w legal m b ea).copies = r.copies := by
  refine hartIssue_copies _ _ _ _ fun h r => ?_
  dsimp only
  split
  · rfl
  split
  · rfl
  next ha =>
  have hr := Run.hartAddr_copies ha
  split
  · exact hr
  · simp [hr]
  · simp [hr]

/-! ### Lanes -/

theorem laneAt_copies {r q : Run z} {ag : Agent} {c : XCtx} {k : Access} {m : MemOp} {t : Thread} {a : Nat} {off : Int}
    {p : Place} (h : laneAt r ag c k m t a off = .ok (p, q)) : q.copies = r.copies := by
  unfold laneAt at h
  dsimp only at h
  split at h
  · cases h
  split at h
  · cases h
  next ht =>
  split at h
  · cases h
  split at h
  · cases h
  · cases h
    simp [Run.translate_copies ht]

@[simp] theorem lanesAt_copies (ag : Agent) (c : XCtx) (k : Access) (m : MemOp) (x : Gang) (lanes : List Nat)
    (a : Nat) (off : Int) : (lanesAt r ag c k m x lanes a off).1.copies = r.copies := by
  unfold lanesAt
  dsimp only
  rw [Run.put_copies]
  dsimp only
  refine foldl_keeps (g := fun p : Run z × List (Nat × Place) × List (Nat × Cause × Nat) => p.1.copies) (fun p l => ?_) lanes
    (r, [], [])
  split
  · next h => exact laneAt_copies h
  · rfl

@[simp] theorem lanesLoad_copies (core g : Nat) (w : Words) (legal : Bool) (guard : BitVec 4) (m : MemOp)
    (d a : BitVec 5) (off : Int) : (lanesLoad r core g w legal guard m d a off).copies = r.copies := by
  refine laneIssue_copies _ _ _ _ _ _ _ _ fun cx x r => ?_
  split
  · next h =>
    refine Eq.trans ?_ ((congrArg (·.1.copies) h).symm.trans (lanesAt_copies ..))
    refine foldl_keeps (g := fun p : Run z × Gang => p.1.copies) (fun p lp => ?_) _ _
    dsimp only
    split
    · rfl
    · exact Run.regRead_copies ..
  · next h => exact (congrArg (·.1.copies) h).symm.trans (lanesAt_copies ..)

@[simp] theorem lanesStore_copies (core g : Nat) (w : Words) (legal : Bool) (guard : BitVec 4) (m : MemOp)
    (b a : BitVec 5) (off : Int) : (lanesStore r core g w legal guard m b a off).copies = r.copies := by
  refine laneIssue_copies _ _ _ _ _ _ _ _ fun cx x r => ?_
  split
  · next h =>
    refine Eq.trans ?_ ((congrArg (·.1.copies) h).symm.trans (lanesAt_copies ..))
    dsimp only
    rw [Run.when_copies Run.settleSignals_copies]
    refine (Run.each_copies (fun lp r => ?_) _ _).trans (Run.setGang_copies ..)
    split
    · exact Run.storeMem_copies ..
    · exact Run.regWrite_copies ..
  · next h => exact (congrArg (·.1.copies) h).symm.trans (lanesAt_copies ..)

/-! ### Both profiles -/

@[simp] theorem loadOp_copies (i ag m legal lane guard d a off) :
    (loadOp r i ag m legal lane guard d a off).copies = r.copies := by
  unfold loadOp
  split <;> simp

@[simp] theorem storeOp_copies (i ag m legal guard b a off) : (storeOp r i ag m legal guard b a off).copies = r.copies := by
  unfold storeOp
  split <;> simp

/-! ### Fences -/

@[simp] theorem fenceOp_copies (i ag scope f) : (fenceOp r i ag scope f).copies = r.copies := by
  simp [fenceOp]

/-! ### Atomics -/

@[simp] theorem Run.atomAt_copies (op size pa b d) : (r.atomAt op size pa b d).2.copies = r.copies := by
  unfold Run.atomAt
  dsimp only
  split <;> simp

@[simp] theorem hartAtom_copies (ag : Agent) (key : Nat) (w : Words) (op : AtomOp) (m : MemOp) (f : R3) :
    (hartAtom r ag key w op m f).copies = r.copies := by
  refine hartIssue_copies _ _ _ _ fun h r => ?_
  dsimp only
  split
  · rfl
  split
  · rfl
  next ha =>
  have hr := Run.hartAddr_copies ha
  split
  · split
    · exact hr
    · exact (Run.atomAt_copies ..).trans hr
  · exact hr

@[simp] theorem lanesAtom_copies (core g : Nat) (w : Words) (op : AtomOp) (m : MemOp) (f : R3) :
    (lanesAtom r core g w op m f).copies = r.copies := by
  refine laneIssue_copies _ _ _ _ _ _ _ _ fun cx x r => ?_
  split
  · next h =>
    refine Eq.trans ?_ ((congrArg (·.1.copies) h).symm.trans (lanesAt_copies ..))
    refine foldl_keeps (g := fun p : Run z × Gang => p.1.copies) (fun p lp => ?_) _ _
    split
    · rfl
    · exact Run.atomAt_copies ..
  · next h => exact (congrArg (·.1.copies) h).symm.trans (lanesAt_copies ..)

@[simp] theorem atomOp_copies (i ag op dw f) : (atomOp r i ag op dw f).copies = r.copies := by
  unfold atomOp
  dsimp only
  split <;> simp

@[simp] theorem Run.setLease_copies (n w) : (r.setLease n w).copies = r.copies := by
  simp [Run.setLease]

@[simp] theorem Run.popMsg_copies (q) : (r.popMsg q).copies = r.copies := by
  unfold Run.popMsg
  split <;> simp

/-- A message that is taken leaves the copies where its handler leaves them. -/
@[simp] theorem Run.serve_copies (q : Nat) (test len : Msg → Bool) {body : Sess → Msg → Run z → Run z}
    (hb : ∀ x m r, (body x m r).copies = r.copies) : (r.serve q test len body).copies = r.copies := by
  unfold Run.serve
  split
  · rfl
  dsimp only
  (repeat' split) <;> simp [hb]

@[simp] theorem Run.reply_copies (m st payload) : (r.reply m st payload).copies = r.copies := by
  simp [Run.reply]

/-! ### Sessions -/

@[simp] theorem Run.helloTaken_copies (m) : (r.helloTaken m).copies = r.copies := by
  unfold Run.helloTaken
  dsimp only
  split
  · simp
  split
  · simp
  · rw [Run.each_copies] <;> simp

/-! ### Work -/

@[simp] theorem Run.allocTallies_copies (ctx : Nat) (by_ : Nat × Nat) (n : Nat) :
    (r.allocTallies ctx by_ n).1.copies = r.copies := by
  induction n generalizing r with
  | zero => rfl
  | succ n ih =>
    unfold Run.allocTallies
    split
    · next h => exact copies_of_eq h (Run.allocTally_copies ..)
    · next h =>
      dsimp only
      rw [ih]
      simp [copies_of_eq h (Run.allocTally_copies ..)]

@[simp] theorem Run.tallyMsg_copies (ops : List Nat) {act : Run z → Nat → W32 → Run z}
    (ha : ∀ r i v, (act r i v).copies = r.copies) : (r.tallyMsg ops act).copies = r.copies := by
  refine Run.serve_copies _ _ _ _ fun _ m r => ?_
  (repeat' split) <;> simp [ha]

end

end Sys2Proof.Machine
end

section
/-! PROOFS. The local copies of fabric time under every command (R27, R29): all but TIME_TREE_REALIGN, POWER_RETURN and the
reboots leave them as they were. -/

namespace Sys2Proof.Machine

/-- A command leaves the local copies of fabric time as they were. -/
structure KeepsCopies (s : State) (o : Host.Outcome State Fault Refusal) : Prop where
  copies : ∀ t, o = .next t → t.copies = s.copies

/-! ### Local copies of fabric time -/

@[simp] theorem Run.start_copies (s : State) : (Run.start s).copies = s.copies := by simp [Run.copies]

@[simp] theorem KeepsCopies.of_run {s : State} (r : Run s) (h : r.copies = s.copies) : KeepsCopies s (done r) := by
  refine ⟨fun t ht => ?_⟩
  cases ht
  split
  · rfl
  · exact h

@[simp] theorem keepsCopies_ite {s : State} {c : Prop} [Decidable c] {o p : Host.Outcome State Fault Refusal} :
    KeepsCopies s (if c then o else p) ↔ (c → KeepsCopies s o) ∧ (¬ c → KeepsCopies s p) := by
  split <;> simp [*]

/-! ### Error summary clear, trace index, UART1 -/

@[simp] theorem execSnapshotTake_copies (s) : KeepsCopies s (execSnapshotTake s) := by
  simp [execSnapshotTake]

@[simp] theorem execUart1ByteRx_copies (b s) : KeepsCopies s (execUart1ByteRx b s) := by
  simp [execUart1ByteRx]

@[simp] theorem execUart1ByteSent_copies (s) : KeepsCopies s (execUart1ByteSent s) := by
  simp [execUart1ByteSent]

/-! ### The TALLY group, major 0x28 -/

@[simp] theorem execTwait_copies (ag scope f s) : KeepsCopies s (execTwait ag scope f s) := by
  unfold execTwait
  split <;> simp

@[simp] theorem execTread_copies (ag scope f s) : KeepsCopies s (execTread ag scope f s) := by
  unfold execTread
  split <;> simp

@[simp] theorem execTwaitTimeout_copies (ag lane s) : KeepsCopies s (execTwaitTimeout ag lane s) := by
  simp [execTwaitTimeout]

@[simp] theorem execBra_copies (ag f s) : KeepsCopies s (execBra ag f s) := by
  unfold execBra
  split <;> simp

@[simp] theorem execCall_copies (ag f s) : KeepsCopies s (execCall ag f s) := by
  unfold execCall
  split <;> simp

@[simp] theorem execBral_copies (ag f s) : KeepsCopies s (execBral ag f s) := by
  unfold execBral
  split <;> simp

@[simp] theorem execJr_copies (ag f s) : KeepsCopies s (execJr ag f s) := by
  unfold execJr
  split <;> simp

/-! ### The SYS group -/

@[simp] theorem execNop_copies (ag f s) : KeepsCopies s (execNop ag f s) := by
  simp [execNop]

@[simp] theorem execExit_copies (ag f s) : KeepsCopies s (execExit ag f s) := by
  unfold execExit
  split <;> simp

@[simp] theorem execBar_copies (ag f s) : KeepsCopies s (execBar ag f s) := by
  unfold execBar
  split <;> simp

@[simp] theorem execYield_copies (ag f s) : KeepsCopies s (execYield ag f s) := by
  unfold execYield
  cases ag with
  | host n => simp
  | fw p => simp
  | lane c g =>
    refine .of_run _ (laneIssue_copies _ _ _ _ _ _ _ _ fun cx x r => ?_)
    dsimp only
    split <;> rfl

@[simp] theorem execYieldExpiry_copies (core gang s) : KeepsCopies s (execYieldExpiry core gang s) := by
  unfold execYieldExpiry
  (repeat' split) <;> simp

@[simp] theorem execUpcall_copies (ag f s) : KeepsCopies s (execUpcall ag f s) := by
  simp [execUpcall]

@[simp] theorem execBrk_copies (ag f s) : KeepsCopies s (execBrk ag f s) := by
  unfold execBrk
  cases ag with
  | host n => simp
  | fw p => simp
  | lane c g =>
    refine .of_run _ (laneIssue_copies _ _ _ _ _ _ _ _ fun cx x r => ?_)
    split <;> rfl

@[simp] theorem execTret_copies (ag f s) : KeepsCopies s (execTret ag f s) := by
  simp [execTret]

@[simp] theorem execSnooze_copies (ag f s) : KeepsCopies s (execSnooze ag f s) := by
  simp [execSnooze]

@[simp] theorem execIflush_copies (ag f s) : KeepsCopies s (execIflush ag f s) := by
  simp [execIflush]

/-! ### Specials and control registers -/

@[simp] theorem execRds_copies (ag f s) : KeepsCopies s (execRds ag f s) := by
  unfold execRds
  split <;> simp

@[simp] theorem execCrd_copies (ag f s) : KeepsCopies s (execCrd ag f s) := by
  simp [execCrd]

@[simp] theorem execCwr_copies (ag f s) : KeepsCopies s (execCwr ag f s) := by
  simp [execCwr]

@[simp] theorem execCmsk_copies (ag f s) : KeepsCopies s (execCmsk ag f s) := by
  simp [execCmsk]

/-! ### Interrupts -/

@[simp] theorem execTimerInterruptPending_copies (ag s) : KeepsCopies s (execTimerInterruptPending ag s) := by
  unfold execTimerInterruptPending
  split <;> simp

@[simp] theorem execInterruptTake_copies (ag s) : KeepsCopies s (execInterruptTake ag s) := by
  unfold execInterruptTake
  dsimp only
  (repeat' split) <;> simp

@[simp] theorem execIllegalInstr_copies (ag w0 w1 s) : KeepsCopies s (execIllegalInstr ag w0 w1 s) := by
  unfold execIllegalInstr
  (repeat' split) <;> simp

@[simp] theorem xlaneGroup_copies (i ag legal guard regs write s) : KeepsCopies s (xlaneGroup i ag legal guard regs write s) := by
  unfold xlaneGroup
  (repeat' split) <;> simp

@[simp] theorem execShfl_copies (ag f s) : KeepsCopies s (execShfl ag f s) := by
  simp [execShfl]

@[simp] theorem execBallot_copies (ag f s) : KeepsCopies s (execBallot ag f s) := by
  simp [execBallot]

@[simp] theorem execAny_copies (ag f s) : KeepsCopies s (execAny ag f s) := by
  simp [execAny]

@[simp] theorem execAll_copies (ag f s) : KeepsCopies s (execAll ag f s) := by
  simp [execAll]

@[simp] theorem reduceGroup_copies (i ag f op s) : KeepsCopies s (reduceGroup i ag f op s) := by
  simp [reduceGroup]

@[simp] theorem execRadd_copies (ag f s) : KeepsCopies s (execRadd ag f s) := by
  simp [execRadd]

@[simp] theorem execRmin_copies (ag f s) : KeepsCopies s (execRmin ag f s) := by
  simp [execRmin]

@[simp] theorem execRmax_copies (ag f s) : KeepsCopies s (execRmax ag f s) := by
  simp [execRmax]

@[simp] theorem execFradd_copies (ag f s) : KeepsCopies s (execFradd ag f s) := by
  simp [execFradd]

@[simp] theorem execFrmin_copies (ag f s) : KeepsCopies s (execFrmin ag f s) := by
  simp [execFrmin]

@[simp] theorem execFrmax_copies (ag f s) : KeepsCopies s (execFrmax ag f s) := by
  simp [execFrmax]

/-! ### Issue -/

@[simp] theorem execFmove_copies (ag f s) : KeepsCopies s (execFmove ag f s) := by
  simp [execFmove]

@[simp] theorem execTmma_copies (ag f s) : KeepsCopies s (execTmma ag f s) := by
  simp [execTmma]

@[simp] theorem execTdrain_copies (ag f s) : KeepsCopies s (execTdrain ag f s) := by
  simp [execTdrain]

@[simp] theorem execAccScale_copies (ag f s) : KeepsCopies s (execAccScale ag f s) := by
  simp [execAccScale]

@[simp] theorem execTclr_copies (ag f s) : KeepsCopies s (execTclr ag f s) := by
  simp [execTclr]

@[simp] theorem execTrec_copies (ag f s) : KeepsCopies s (execTrec ag f s) := by
  simp [execTrec]

@[simp] theorem execStateAudit_copies (ag f s) : KeepsCopies s (execStateAudit ag f s) := by
  simp [execStateAudit]

@[simp] theorem execRope_copies (ag f s) : KeepsCopies s (execRope ag f s) := by
  simp [execRope]

@[simp] theorem execTmask_copies (ag f s) : KeepsCopies s (execTmask ag f s) := by
  simp [execTmask]

@[simp] theorem tsmaxIssue_copies (i mode ag f s) : KeepsCopies s (tsmaxIssue i mode ag f s) := by
  unfold tsmaxIssue
  dsimp only
  refine keepsCopies_ite.mpr ⟨fun _ => by simp, fun _ => .of_run _ (tensorIssue_copies _ _ _ _ _ _ _ fun cx x r => ?_)⟩
  simp

@[simp] theorem execTsmaxStep_copies (ag f s) : KeepsCopies s (execTsmaxStep ag f s) := by
  simp [execTsmaxStep]

@[simp] theorem execTsmaxFinal_copies (ag f s) : KeepsCopies s (execTsmaxFinal ag f s) := by
  simp [execTsmaxFinal]

@[simp] theorem execTsmaxMerge_copies (ag f s) : KeepsCopies s (execTsmaxMerge ag f s) := by
  simp [execTsmaxMerge]

@[simp] theorem execTsmaxInit_copies (ag f s) : KeepsCopies s (execTsmaxInit ag f s) := by
  simp [execTsmaxInit]

@[simp] theorem execTdw_copies (ag f s) : KeepsCopies s (execTdw ag f s) := by
  simp [execTdw]

@[simp] theorem execTdld_copies (ag f s) : KeepsCopies s (execTdld ag f s) := by
  refine .of_run _ (tensorIssue_copies _ _ _ _ _ _ _ fun _ x r => ?_)
  dsimp only
  split
  · rfl
  split
  · rfl
  · next h =>
    have hr := Run.translate_copies h
    split <;> simp [hr]

@[simp] theorem execTdst_copies (ag f s) : KeepsCopies s (execTdst ag f s) := by
  refine .of_run _ (tensorIssue_copies _ _ _ _ _ _ _ fun _ x r => ?_)
  dsimp only
  split
  · rfl
  split
  · rfl
  · next h =>
    have hr := Run.translate_copies h
    split <;> simp [hr]

@[simp] theorem execTsync_copies (ag f s) : KeepsCopies s (execTsync ag f s) := by
  refine .of_run _ (tensorIssue_copies _ _ _ _ _ _ _ fun _ x r => ?_)
  dsimp only
  split <;> rfl

/-! ### Start -/

@[simp] theorem execTensorInstrStart_copies (core seq s) : KeepsCopies s (execTensorInstrStart core seq s) := by
  have marked (x : XCtx) (l : List (Nat × Access)) (r : Run s) : (r.each l fun p r =>
      match lookup r.s x p.2 (p.1 * 4096) with
      | .ok l => (r.scrubWalk x (p.1 * 4096)).markUsed x p.2 l
      | .error _ => r).copies = r.copies := by
    refine Run.each_copies (fun p r => ?_) _ _
    split <;> simp
  unfold execTensorInstrStart
  dsimp only
  split
  · simp
  split
  · simp
  split
  · simp
  split
  · simp
  split
  · simp
  · simp
  · simp
  split
  · refine .of_run _ ?_
    rw [Run.setGang_copies, Run.setCore_copies, ite_copies, Run.markStats_copies, ite_self]
    exact (marked ..).trans (by simp)
  · simp

/-! ### Weight windows -/

@[simp] theorem execChunkStart_copies (n s) : KeepsCopies s (execChunkStart n s) := by
  unfold execChunkStart
  split <;> simp

@[simp] theorem execChunkLanded_copies (n g s) : KeepsCopies s (execChunkLanded n g s) := by
  unfold execChunkLanded
  dsimp only
  split
  · simp
  next w _ =>
  split
  · simp
  have hc := (chunkCopy_copies (Run.start s) w g).trans (Run.start_copies s)
  split
  · next q h =>
    rw [h] at hc
    exact .of_run _ ((Run.endWindow_copies ..).trans hc)
  · next q h =>
    rw [h] at hc
    have hq : q.copies = s.copies := hc
    (repeat' split) <;> simp [hq]

@[simp] theorem execTlbinvDone_copies (s) : KeepsCopies s (execTlbinvDone s) := by
  simp [execTlbinvDone]

/-! ### Vault integrity -/

@[simp] theorem execPatrolRead_copies (pa err s) : KeepsCopies s (execPatrolRead pa err s) := by
  simp [execPatrolRead]

@[simp] theorem execVaultRefresh_copies (v waited s) : KeepsCopies s (execVaultRefresh v waited s) := by
  simp [execVaultRefresh]

@[simp] theorem execVaultRetrainEnd_copies (v ok s) : KeepsCopies s (execVaultRetrainEnd v ok s) := by
  simp [execVaultRetrainEnd]

@[simp] theorem aluGroup_copies (i ag w32 f bZero op s) : KeepsCopies s (aluGroup i ag w32 f bZero op s) := by
  simp [aluGroup]

@[simp] theorem execAdd_copies (ag w32 f s) : KeepsCopies s (execAdd ag w32 f s) := by
  simp [execAdd]

@[simp] theorem execSub_copies (ag w32 f s) : KeepsCopies s (execSub ag w32 f s) := by
  simp [execSub]

@[simp] theorem execMul_copies (ag w32 f s) : KeepsCopies s (execMul ag w32 f s) := by
  simp [execMul]

@[simp] theorem execMulh_copies (ag w32 f s) : KeepsCopies s (execMulh ag w32 f s) := by
  simp [execMulh]

@[simp] theorem execMulhu_copies (ag w32 f s) : KeepsCopies s (execMulhu ag w32 f s) := by
  simp [execMulhu]

@[simp] theorem execDiv_copies (ag w32 f s) : KeepsCopies s (execDiv ag w32 f s) := by
  simp [execDiv]

@[simp] theorem execDivu_copies (ag w32 f s) : KeepsCopies s (execDivu ag w32 f s) := by
  simp [execDivu]

@[simp] theorem execRem_copies (ag w32 f s) : KeepsCopies s (execRem ag w32 f s) := by
  simp [execRem]

@[simp] theorem execRemu_copies (ag w32 f s) : KeepsCopies s (execRemu ag w32 f s) := by
  simp [execRemu]

@[simp] theorem execAnd_copies (ag w32 f s) : KeepsCopies s (execAnd ag w32 f s) := by
  simp [execAnd]

@[simp] theorem execOr_copies (ag w32 f s) : KeepsCopies s (execOr ag w32 f s) := by
  simp [execOr]

@[simp] theorem execXor_copies (ag w32 f s) : KeepsCopies s (execXor ag w32 f s) := by
  simp [execXor]

@[simp] theorem execShl_copies (ag w32 f s) : KeepsCopies s (execShl ag w32 f s) := by
  simp [execShl]

@[simp] theorem execShr_copies (ag w32 f s) : KeepsCopies s (execShr ag w32 f s) := by
  simp [execShr]

@[simp] theorem execSra_copies (ag w32 f s) : KeepsCopies s (execSra ag w32 f s) := by
  simp [execSra]

@[simp] theorem execMin_copies (ag w32 f s) : KeepsCopies s (execMin ag w32 f s) := by
  simp [execMin]

@[simp] theorem execMinu_copies (ag w32 f s) : KeepsCopies s (execMinu ag w32 f s) := by
  simp [execMinu]

@[simp] theorem execMax_copies (ag w32 f s) : KeepsCopies s (execMax ag w32 f s) := by
  simp [execMax]

@[simp] theorem execMaxu_copies (ag w32 f s) : KeepsCopies s (execMaxu ag w32 f s) := by
  simp [execMaxu]

@[simp] theorem execClz_copies (ag w32 f s) : KeepsCopies s (execClz ag w32 f s) := by
  simp [execClz]

@[simp] theorem execPopc_copies (ag w32 f s) : KeepsCopies s (execPopc ag w32 f s) := by
  simp [execPopc]

@[simp] theorem execAddp_copies (ag w32 f s) : KeepsCopies s (execAddp ag w32 f s) := by
  simp [execAddp]

@[simp] theorem immGroup_copies (i ag legal guard d a op s) : KeepsCopies s (immGroup i ag legal guard d a op s) := by
  simp [immGroup]

@[simp] theorem execAddi_copies (ag f s) : KeepsCopies s (execAddi ag f s) := by
  simp [execAddi]

@[simp] theorem execAndi_copies (ag f s) : KeepsCopies s (execAndi ag f s) := by
  simp [execAndi]

@[simp] theorem execOri_copies (ag f s) : KeepsCopies s (execOri ag f s) := by
  simp [execOri]

@[simp] theorem execXori_copies (ag f s) : KeepsCopies s (execXori ag f s) := by
  simp [execXori]

@[simp] theorem execShi_copies (ag f s) : KeepsCopies s (execShi ag f s) := by
  simp [execShi]

@[simp] theorem execLi_copies (ag f s) : KeepsCopies s (execLi ag f s) := by
  simp [execLi]

@[simp] theorem execAddx_copies (ag f s) : KeepsCopies s (execAddx ag f s) := by
  simp [execAddx]

@[simp] theorem execCmp_copies (ag func f s) : KeepsCopies s (execCmp ag func f s) := by
  simp [execCmp]

@[simp] theorem predGroup_copies (i ag legal guard regs op s) : KeepsCopies s (predGroup i ag legal guard regs op s) := by
  simp [predGroup]

@[simp] theorem execPand_copies (ag f s) : KeepsCopies s (execPand ag f s) := by
  simp [execPand]

@[simp] theorem execPor_copies (ag f s) : KeepsCopies s (execPor ag f s) := by
  simp [execPor]

@[simp] theorem execPxor_copies (ag f s) : KeepsCopies s (execPxor ag f s) := by
  simp [execPxor]

@[simp] theorem execPandn_copies (ag f s) : KeepsCopies s (execPandn ag f s) := by
  simp [execPandn]

@[simp] theorem execPnot_copies (ag f s) : KeepsCopies s (execPnot ag f s) := by
  simp [execPnot]

@[simp] theorem execP2g_copies (ag f s) : KeepsCopies s (execP2g ag f s) := by
  simp [execP2g]

@[simp] theorem execG2p_copies (ag f s) : KeepsCopies s (execG2p ag f s) := by
  simp [execG2p]

/-! ### The Prism feed -/

@[simp] theorem execPrismFeedFetch_copies (core s) : KeepsCopies s (execPrismFeedFetch core s) := by
  unfold execPrismFeedFetch
  dsimp only
  split <;> simp

@[simp] theorem execTensorInstrFinish_copies (core seq s) : KeepsCopies s (execTensorInstrFinish core seq s) := by
  unfold execTensorInstrFinish
  (repeat' split) <;> simp

/-! ### Folio moves -/

@[simp] theorem execFmoveFinish_copies (core seq s) : KeepsCopies s (execFmoveFinish core seq s) := by
  unfold execFmoveFinish
  dsimp only
  split
  · simp
  split
  · next h => 
    have hq := (congrArg (fun p => p.1.copies) h).symm.trans (Run.moveFolios_copies ..)
    exact .of_run _ (hq.trans (by simp))
  · next h => 
    have hq := (congrArg (fun p => p.1.copies) h).symm.trans (Run.moveFolios_copies ..)
    exact .of_run _ ((Run.laneFault_copies ..).trans (hq.trans (by simp)))

/-! ### Cards -/

@[simp] theorem execCardFetch_copies (n s) : KeepsCopies s (execCardFetch n s) := by
  simp [execCardFetch]

/-! ### Taking an entry -/

@[simp] theorem execParcelTake_copies (card s) : KeepsCopies s (execParcelTake card s) := by
  simp [execParcelTake]

/-! ### Dispatch -/

@[simp] theorem execParcelWaitTimeout_copies (i s) : KeepsCopies s (execParcelWaitTimeout i s) := by
  unfold execParcelWaitTimeout
  split <;> simp

/-! ### Permits -/

@[simp] theorem execPermitGrant_copies (s) : KeepsCopies s (execPermitGrant s) := by
  unfold execPermitGrant
  dsimp only
  (repeat' split) <;> simp

@[simp] theorem execPermitTimeout_copies (i s) : KeepsCopies s (execPermitTimeout i s) := by
  unfold execPermitTimeout
  split <;> simp

/-! ### Gangs: admission, retirement, parking -/

@[simp] theorem execGangAdmit_copies (core parcel gang banks s) : KeepsCopies s (execGangAdmit core parcel gang banks s) := by
  unfold execGangAdmit
  (repeat' split) <;> simp

@[simp] theorem execGangRetire_copies (core gang s) : KeepsCopies s (execGangRetire core gang s) := by
  unfold execGangRetire
  split <;> simp

@[simp] theorem execParcelRerun_copies (i s) : KeepsCopies s (execParcelRerun i s) := by
  unfold execParcelRerun
  split <;> simp

@[simp] theorem execGangParkSwap_copies (core s) : KeepsCopies s (execGangParkSwap core s) := by
  unfold execGangParkSwap
  dsimp only
  (repeat' split) <;> simp

/-! ### The request commands: the memory processor takes the next entry of the ring -/

@[simp] theorem execKvOpen_copies (s) : KeepsCopies s (execKvOpen s) := by
  refine .of_run _ (Run.kvTake_copies _ _ fun q e r => ?_)
  dsimp only
  (repeat' split) <;> simp

@[simp] theorem execClose_copies (s) : KeepsCopies s (execClose s) := by
  simp [execClose]

@[simp] theorem execPin_copies (s) : KeepsCopies s (execPin s) := by
  simp [execPin]

@[simp] theorem execUnpin_copies (s) : KeepsCopies s (execUnpin s) := by
  simp [execUnpin]

@[simp] theorem execAppend_copies (s) : KeepsCopies s (execAppend s) := by
  simp [execAppend]

@[simp] theorem execTappend_copies (s) : KeepsCopies s (execTappend s) := by
  simp [execTappend]

@[simp] theorem execCommit_copies (s) : KeepsCopies s (execCommit s) := by
  simp [execCommit]

@[simp] theorem execDiscard_copies (s) : KeepsCopies s (execDiscard s) := by
  simp [execDiscard]

@[simp] theorem execKvBadRequest_copies (s) : KeepsCopies s (execKvBadRequest s) := by
  simp [execKvBadRequest]

@[simp] theorem execRecomputeComplete_copies (i s) : KeepsCopies s (execRecomputeComplete i s) := by
  unfold execRecomputeComplete
  dsimp only
  (repeat' split) <;> simp

/-! ### Gates -/

@[simp] theorem execQbvConfigChange_copies (n s) : KeepsCopies s (execQbvConfigChange n s) := by
  unfold execQbvConfigChange
  split <;> simp

@[simp] theorem execGateControlEntry_copies (n s) : KeepsCopies s (execGateControlEntry n s) := by
  simp [execGateControlEntry]

/-! ### Link -/

@[simp] theorem execLinkDown_copies (n fault s) : KeepsCopies s (execLinkDown n fault s) := by
  simp [execLinkDown]

@[simp] theorem execLinkUp_copies (n verified s) : KeepsCopies s (execLinkUp n verified s) := by
  simp [execLinkUp]

/-! ### Table access -/

@[simp] theorem execEthTblRead_copies (s) : KeepsCopies s (execEthTblRead s) := by
  unfold execEthTblRead
  dsimp only
  (repeat' split) <;> simp

@[simp] theorem execEthTblWrite_copies (s) : KeepsCopies s (execEthTblWrite s) := by
  simp [execEthTblWrite]

@[simp] theorem execFdbAgeOut_copies (i s) : KeepsCopies s (execFdbAgeOut i s) := by
  unfold execFdbAgeOut
  split <;> simp

@[simp] theorem execCbHistoryReset_copies (i s) : KeepsCopies s (execCbHistoryReset i s) := by
  simp [execCbHistoryReset]

/-! ### MKA timers and gPTP messages -/

@[simp] theorem execSakRekey_copies (n s) : KeepsCopies s (execSakRekey n s) := by
  simp [execSakRekey]

@[simp] theorem execMkaTimer_copies (n s) : KeepsCopies s (execMkaTimer n s) := by
  simp [execMkaTimer]

@[simp] theorem execGptpMessageInterval_copies (d s) : KeepsCopies s (execGptpMessageInterval d s) := by
  simp [execGptpMessageInterval]

/-! ### Network flows -/

@[simp] theorem execFlowTxTake_copies (n s) : KeepsCopies s (execFlowTxTake n s) := by
  obtain ⟨readBlock, hd, hs⟩ := exists_readBlock
  unfold execFlowTxTake
  rw [← hd]
  dsimp only
  split
  · simp
  refine .of_run _ ?_
  rw [Run.cardEvent_copies, Run.setHw_copies]
  split
  · next h => exact (copies_of_eq h (hs ..)).trans (by simp)
  next h =>
  have h₁ := (copies_of_eq h (hs ..)).trans (Run.touchCard_copies ..)
  split
  · exact h₁
  split
  · next h => exact (copies_of_eq h (hs ..)).trans h₁
  · next h => exact (Run.ethEnqueue_copies ..).trans ((copies_of_eq h (hs ..)).trans h₁)

@[simp] theorem execMailboxTxTake_copies (n s) : KeepsCopies s (execMailboxTxTake n s) := by
  obtain ⟨readBlock, hd, hs⟩ := exists_readBlock
  unfold execMailboxTxTake
  rw [← hd]
  dsimp only
  split
  · simp
  refine .of_run _ ?_
  rw [Run.cardEvent_copies]
  split
  · next h => exact (copies_of_eq h (hs ..)).trans (by simp)
  next h =>
  have h₁ := (copies_of_eq h (hs ..)).trans (show _ = s.copies by simp)
  split <;> simp [h₁]

@[simp] theorem execReassemblyTimeout_copies (n s) : KeepsCopies s (execReassemblyTimeout n s) := by
  unfold execReassemblyTimeout
  (repeat' split) <;> simp

@[simp] theorem execEthFrameRx_copies (n raw fcsOk s) : KeepsCopies s (execEthFrameRx n raw fcsOk s) := by
  unfold execEthFrameRx
  dsimp only
  split
  · simp
  split
  · simp
  split
  · simp
  · next h => simp [Run.unprotect_copies h]

@[simp] theorem execPowerDrainTimeout_copies (s) : KeepsCopies s (execPowerDrainTimeout s) := by
  unfold execPowerDrainTimeout
  split <;> simp

@[simp] theorem execAutoIdleEntry_copies (s) : KeepsCopies s (execAutoIdleEntry s) := by
  simp [execAutoIdleEntry]

@[simp] theorem execWakePin_copies (s) : KeepsCopies s (execWakePin s) := by
  simp [execWakePin]

@[simp] theorem execWakeTimer_copies (s) : KeepsCopies s (execWakeTimer s) := by
  simp [execWakeTimer]

/-! ### DVFS -/

@[simp] theorem execDvfsStepEnd_copies (c s) : KeepsCopies s (execDvfsStepEnd c s) := by
  simp [execDvfsStepEnd]

@[simp] theorem execVstepAck_copies (s) : KeepsCopies s (execVstepAck s) := by
  unfold execVstepAck
  split <;> simp

@[simp] theorem execVstepTimeout_copies (s) : KeepsCopies s (execVstepTimeout s) := by
  unfold execVstepTimeout
  split <;> simp

@[simp] theorem execClusterWake_copies (c s) : KeepsCopies s (execClusterWake c s) := by
  simp [execClusterWake]

/-! ### The Ledger -/

@[simp] theorem execLedgerRefill_copies (s) : KeepsCopies s (execLedgerRefill s) := by
  simp [execLedgerRefill]

@[simp] theorem execLedgerRateUpdate_copies (powerMw fixedMw hostUp hostDown s) :
    KeepsCopies s (execLedgerRateUpdate powerMw fixedMw hostUp hostDown s) := by
  unfold execLedgerRateUpdate
  dsimp only
  (repeat' split) <;> simp

/-! ### Droop and heat -/

@[simp] theorem execDroopDetect_copies (c s) : KeepsCopies s (execDroopDetect c s) := by
  simp [execDroopDetect]

@[simp] theorem execDroopStretchEnd_copies (c s) : KeepsCopies s (execDroopStretchEnd c s) := by
  unfold execDroopStretchEnd
  split <;> simp

@[simp] theorem execTempSample_copies (temps s) : KeepsCopies s (execTempSample temps s) := by
  simp [execTempSample]

@[simp] theorem execThermalTrip_copies (s) : KeepsCopies s (execThermalTrip s) := by
  simp [execThermalTrip]

/-! ### Reflex cores -/

@[simp] theorem execReflexCoreReady_copies (n s) : KeepsCopies s (execReflexCoreReady n s) := by
  simp [execReflexCoreReady]

/-! ### Starting a group -/

@[simp] theorem execParcelWaitEnd_copies (i s) : KeepsCopies s (execParcelWaitEnd i s) := by
  unfold execParcelWaitEnd
  split <;> simp

/-! ### Frames in -/

@[simp] theorem execReflexFrameLanding_copies (s) : KeepsCopies s (execReflexFrameLanding s) := by
  unfold execReflexFrameLanding
  split <;> simp

/-! ### Latches -/

@[simp] theorem execReflexTick_copies (n k s) : KeepsCopies s (execReflexTick n k s) := by
  unfold execReflexTick
  dsimp only
  split <;> simp

@[simp] theorem execReflexArriveLatch_copies (n k s) : KeepsCopies s (execReflexArriveLatch n k s) := by
  unfold execReflexArriveLatch
  dsimp only
  (repeat' split) <;> simp

/-! ### Steps -/

@[simp] theorem execReflexStepStart_copies (n s) : KeepsCopies s (execReflexStepStart n s) := by
  unfold execReflexStepStart
  split <;> simp

@[simp] theorem execReflexStepEnd_copies (n k s) : KeepsCopies s (execReflexStepEnd n k s) := by
  unfold execReflexStepEnd
  dsimp only
  split
  · split
    · simp
    · refine keepsCopies_ite.mpr ⟨fun _ => by simp, fun _ => .of_run _ ?_⟩
      rw [Run.deviceAdd_copies, ite_copies, Run.rfxCheckpoint_copies, ite_self, Run.when_copies fun r => Run.setFld_copies ..,
        Run.setRfx_copies, Run.bump_copies, Run.when_copies fun r => Run.rfxCount_copies .., Run.setReg64_copies]
      exact Run.each_copies (fun i r => Run.each_copies (fun e r => Run.setRfxCell_copies ..) _ _) _ _
  · simp

/-! ### Frames out -/

@[simp] theorem execReflexOutputFrame_copies (n k s) : KeepsCopies s (execReflexOutputFrame n k s) := by
  unfold execReflexOutputFrame
  dsimp only
  split
  · simp
  split
  · simp
  split
  · simp
  split
  · simp
  split
  · split
    · next h => exact .of_run _ ((copies_of_eq h (Run.readIn_copies ..)).trans (by simp))
    · next h => exact .of_run _ ((Run.ethEnqueue_copies ..).trans ((copies_of_eq h (Run.readIn_copies ..)).trans (by simp)))
  · simp

/-! ### Marks, stopping, holding, fences -/

@[simp] theorem execReflexGroupEnd_copies (n k s) : KeepsCopies s (execReflexGroupEnd n k s) := by
  unfold execReflexGroupEnd
  (repeat' split) <;> simp

@[simp] theorem execReflexHoldExpiry_copies (n k s) : KeepsCopies s (execReflexHoldExpiry n k s) := by
  unfold execReflexHoldExpiry
  (repeat' split) <;> simp

@[simp] theorem execReflexResume_copies (n k s) : KeepsCopies s (execReflexResume n k s) := by
  unfold execReflexResume
  dsimp only
  (repeat' split) <;> simp

@[simp] theorem execMicClockStart_copies (n s) : KeepsCopies s (execMicClockStart n s) := by
  unfold execMicClockStart
  dsimp only
  split <;> simp

/-! ### The copy engine -/

@[simp] theorem execArchiveRowComplete_copies (samples s) : KeepsCopies s (execArchiveRowComplete samples s) := by
  simp [execArchiveRowComplete]

@[simp] theorem execArchiveCopyEnd_copies (s) : KeepsCopies s (execArchiveCopyEnd s) := by
  unfold execArchiveCopyEnd
  split <;> simp

/-! ### Audio channels -/

@[simp] theorem execMicBlockDeliver_copies (n mics s) : KeepsCopies s (execMicBlockDeliver n mics s) := by
  simp [execMicBlockDeliver]

@[simp] theorem execOutputBlockPlay_copies (n s) : KeepsCopies s (execOutputBlockPlay n s) := by
  unfold execOutputBlockPlay
  dsimp only
  refine keepsCopies_ite.mpr ⟨fun _ => by simp, fun _ => keepsCopies_ite.mpr ⟨fun _ => by simp, fun _ => .of_run _ ?_⟩⟩
  rw [Run.cardEvent_copies, Run.setHw_copies, Run.tryWrite_copies, Run.tryWrite_copies]
  split
  · next h => exact (Run.setAud_copies ..).trans ((copies_of_eq h (Run.readBlock_copies ..)).trans (by simp))
  · next h => exact (Run.setAud_copies ..).trans ((copies_of_eq h (Run.readBlock_copies ..)).trans (by simp))

/-! ### Packets -/

@[simp] theorem execCsiLine_copies (port vc dt px crcOk ecc1 s) : KeepsCopies s (execCsiLine port vc dt px crcOk ecc1 s) := by
  unfold execCsiLine
  dsimp only
  (repeat' split) <;> simp

@[simp] theorem execEmbeddedDataPacket_copies (port vc data found s) :
    KeepsCopies s (execEmbeddedDataPacket port vc data found s) := by
  unfold execEmbeddedDataPacket
  (repeat' split) <;> simp

@[simp] theorem execCameraFrameEnd_copies (port vc ecc1 s) : KeepsCopies s (execCameraFrameEnd port vc ecc1 s) := by
  unfold execCameraFrameEnd
  (repeat' split) <;> simp

@[simp] theorem execFrameWatchdogExpiry_copies (n s) : KeepsCopies s (execFrameWatchdogExpiry n s) := by
  unfold execFrameWatchdogExpiry
  split <;> simp

@[simp] theorem execCsiPacketDiscard_copies (port cause s) : KeepsCopies s (execCsiPacketDiscard port cause s) := by
  unfold execCsiPacketDiscard
  (repeat' split) <;> simp

@[simp] theorem execCsiLinkStateChange_copies (port link deskewed s) :
    KeepsCopies s (execCsiLinkStateChange port link deskewed s) := by
  simp [execCsiLinkStateChange]

@[simp] theorem execIspLineProcess_copies (pipe s) : KeepsCopies s (execIspLineProcess pipe s) := by
  simp [execIspLineProcess]

/-! ### FSYNC and I3C -/

@[simp] theorem execFsyncEdge_copies (k s) : KeepsCopies s (execFsyncEdge k s) := by
  unfold execFsyncEdge
  dsimp only
  (repeat' split) <;> simp

@[simp] theorem execI3cXferStart_copies (k s) : KeepsCopies s (execI3cXferStart k s) := by
  unfold execI3cXferStart
  split <;> simp

@[simp] theorem execI3cXferDone_copies (k nack data s) : KeepsCopies s (execI3cXferDone k nack data s) := by
  unfold execI3cXferDone
  split <;> simp

/-! ### Loupe -/

@[simp] theorem execLoupeFrame_copies (n xs s) : KeepsCopies s (execLoupeFrame n xs s) := by
  unfold execLoupeFrame
  dsimp only
  (repeat' split) <;> simp

/-! ### Lens -/

@[simp] theorem execLensHop_copies (n k s) : KeepsCopies s (execLensHop n k s) := by
  unfold execLensHop
  dsimp only
  (repeat' split) <;> simp

/-! ### Looking -/

@[simp] theorem execFrameDeliver_copies (n s) : KeepsCopies s (execFrameDeliver n s) := by
  unfold execFrameDeliver
  dsimp only
  split
  · simp
  split
  · next h => exact .of_run _ ((copies_of_eq h (Run.frameDeliver_copies ..)).trans (by simp))
  next h =>
  have hr := (copies_of_eq h (Run.frameDeliver_copies ..)).trans (Run.start_copies s)
  split <;> simp [hr]

@[simp] theorem execVerdictDeadline_copies (k s) : KeepsCopies s (execVerdictDeadline k s) := by
  unfold execVerdictDeadline
  split <;> simp

@[simp] theorem execDemotionExpiry_copies (k s) : KeepsCopies s (execDemotionExpiry k s) := by
  unfold execDemotionExpiry
  dsimp only
  (repeat' split) <;> simp

@[simp] theorem execPeriodicSubmit_copies (k s) : KeepsCopies s (execPeriodicSubmit k s) := by
  unfold execPeriodicSubmit
  dsimp only
  split <;> simp

@[simp] theorem execTicketMove_copies (s) : KeepsCopies s (execTicketMove s) := by
  unfold execTicketMove
  split <;> simp

/-! ### The mute path -/

@[simp] theorem execMuteEngage_copies (s) : KeepsCopies s (execMuteEngage s) := by
  unfold execMuteEngage
  (repeat' split) <;> simp

@[simp] theorem execMuteRelease_copies (s) : KeepsCopies s (execMuteRelease s) := by
  simp [execMuteRelease]

@[simp] theorem execTsig_copies (ag scope f s) : KeepsCopies s (execTsig ag scope f s) := by
  unfold execTsig
  split <;> simp

@[simp] theorem execTadd_copies (ag scope f s) : KeepsCopies s (execTadd ag scope f s) := by
  unfold execTadd
  split <;> simp

@[simp] theorem execEthFrameTxStart_copies (n s) : KeepsCopies s (execEthFrameTxStart n s) := by
  simp [execEthFrameTxStart]

@[simp] theorem execMailboxDeliver_copies (n s) : KeepsCopies s (execMailboxDeliver n s) := by
  unfold execMailboxDeliver
  dsimp only
  split
  · simp
  split
  · simp
  split
  · simp
  · next h => simp [Run.writeVirtBytes_copies h]

@[simp] theorem execPaceResend_copies (s) : KeepsCopies s (execPaceResend s) := by
  unfold execPaceResend
  dsimp only
  split
  · simp
  · refine .of_run _ ((Run.each_copies (fun j r => Run.each_copies (fun o r => ?_) _ _) _ _).trans (by simp))
    simp

@[simp] theorem execPowerEntryBegin_copies (s) : KeepsCopies s (execPowerEntryBegin s) := by
  unfold execPowerEntryBegin
  split <;> simp

@[simp] theorem execDeepSleepEntryBegin_copies (s) : KeepsCopies s (execDeepSleepEntryBegin s) := by
  simp [execDeepSleepEntryBegin]

@[simp] theorem execPowerEntryComplete_copies (s) : KeepsCopies s (execPowerEntryComplete s) := by
  unfold execPowerEntryComplete
  dsimp only
  (repeat' split) <;> simp

@[simp] theorem execCardTakeUp_copies (n s) : KeepsCopies s (execCardTakeUp n s) := by
  simp [execCardTakeUp]

@[simp] theorem execCameraFrameStart_copies (port vc fnum ecc1 s) : KeepsCopies s (execCameraFrameStart port vc fnum ecc1 s) := by
  unfold execCameraFrameStart
  dsimp only
  split
  · simp
  split
  · simp
  next n _ =>
  have closed : (match openFrame s n with
      | some f =>
        if camNow s > frameExpiry f then ((Run.start s).countEcc1 port ecc1).closeFrame n (frameExpiry f) true false false
        else (((Run.start s).countEcc1 port ecc1).countCsi port 5).closeFrame n (camNow s) false false true
      | none => (Run.start s).countEcc1 port ecc1).copies = s.copies := by
    (repeat' split) <;> simp
  have taken := (Run.takeUp_copies _ n).trans closed
  generalize Run.takeUp _ n = q at taken ⊢
  refine keepsCopies_ite.mpr ⟨fun _ => .of_run _ taken, fun _ => ?_⟩
  cases (camCard q.s n).keyed <;> simp [taken]

@[simp] theorem execFwpRestartEnd_copies (p s) : KeepsCopies s (execFwpRestartEnd p s) := by
  unfold execFwpRestartEnd
  (repeat' split) <;> simp

@[simp] theorem execWatchdogExpiry_copies (p s) : KeepsCopies s (execWatchdogExpiry p s) := by
  simp [execWatchdogExpiry]

@[simp] theorem execFwFlashWriteEnd_copies (s) : KeepsCopies s (execFwFlashWriteEnd s) := by
  unfold execFwFlashWriteEnd
  split <;> simp

@[simp] theorem execParcelComplete_copies (i s) : KeepsCopies s (execParcelComplete i s) := by
  unfold execParcelComplete
  (repeat' split) <;> simp

@[simp] theorem execLeaseExpiry_copies (n s) : KeepsCopies s (execLeaseExpiry n s) := by
  unfold execLeaseExpiry
  dsimp only
  (repeat' split) <;> simp

@[simp] theorem execHoldExpiry_copies (n s) : KeepsCopies s (execHoldExpiry n s) := by
  simp [execHoldExpiry]

@[simp] theorem execSessionRelease_copies (n s) : KeepsCopies s (execSessionRelease n s) := by
  unfold execSessionRelease
  split <;> simp

@[simp] theorem execCoreFence_copies (core cause s) : KeepsCopies s (execCoreFence core cause s) := by
  simp [execCoreFence]

@[simp] theorem execHangDetect_copies (core s) : KeepsCopies s (execHangDetect core s) := by
  simp [execHangDetect]

@[simp] theorem execSupplyMonitorFence_copies (cl s) : KeepsCopies s (execSupplyMonitorFence cl s) := by
  simp [execSupplyMonitorFence]

@[simp] theorem execEntryCheckEnd_copies (core pass s) : KeepsCopies s (execEntryCheckEnd core pass s) := by
  unfold execEntryCheckEnd
  split <;> simp

@[simp] theorem execDegradedTimeout_copies (i s) : KeepsCopies s (execDegradedTimeout i s) := by
  unfold execDegradedTimeout
  split <;> simp

/-! ### Built-in self-test -/

@[simp] theorem execSpareBistStart_copies (core s) : KeepsCopies s (execSpareBistStart core s) := by
  simp [execSpareBistStart]

@[simp] theorem execBistEnd_copies (core fails column s) : KeepsCopies s (execBistEnd core fails column s) := by
  unfold execBistEnd
  split <;> simp

@[simp] theorem execReinstateBist_copies (core s) : KeepsCopies s (execReinstateBist core s) := by
  unfold execReinstateBist
  split <;> simp

/-! ### Rolling swaps -/

@[simp] theorem execRollingSwapStart_copies (s) : KeepsCopies s (execRollingSwapStart s) := by
  unfold execRollingSwapStart
  dsimp only
  (repeat' split) <;> simp

@[simp] theorem execRollingSwapTimeout_copies (s) : KeepsCopies s (execRollingSwapTimeout s) := by
  unfold execRollingSwapTimeout
  (repeat' split) <;> simp

@[simp] theorem execRollingSwapCopyEnd_copies (s) : KeepsCopies s (execRollingSwapCopyEnd s) := by
  unfold execRollingSwapCopyEnd
  split <;> simp

/-! ### The Fence Ledger -/

@[simp] theorem execLedgerAppend_copies (s) : KeepsCopies s (execLedgerAppend s) := by
  unfold execLedgerAppend
  split <;> simp

@[simp] theorem execLedgerCompact_copies (s) : KeepsCopies s (execLedgerCompact s) := by
  simp [execLedgerCompact]

/-! ### Vault rows and timeouts -/

@[simp] theorem execRowSparing_copies (pa waited s) : KeepsCopies s (execRowSparing pa waited s) := by
  simp [execRowSparing]

@[simp] theorem execVaultAccessTimeout_copies (rd va pa fetch s) : KeepsCopies s (execVaultAccessTimeout rd va pa fetch s) := by
  unfold execVaultAccessTimeout
  (repeat' split) <;> simp

/-! ### Measurements -/

@[simp] theorem execModelMeasureEnd_copies (s) : KeepsCopies s (execModelMeasureEnd s) := by
  unfold execModelMeasureEnd
  dsimp only
  split
  · simp
  split
  · simp
  split
  · simp
  split
  · next h => simp [copies_of_eq h (Run.readBlock_copies ..)]
  · next h => simp [copies_of_eq h (Run.readBlock_copies ..)]

/-! ### The TAP -/

@[simp] theorem execJtagTckEdge_copies (tms tdi trstN s) : KeepsCopies s (execJtagTckEdge tms tdi trstN s) := by
  simp [execJtagTckEdge]

@[simp] theorem execSettleEnd_copies (s) : KeepsCopies s (execSettleEnd s) := by
  unfold execSettleEnd
  split <;> simp

@[simp] theorem execTenantSwitchEnd_copies (s) : KeepsCopies s (execTenantSwitchEnd s) := by
  unfold execTenantSwitchEnd
  (repeat' split) <;> simp

@[simp] theorem execLoHiReadLatch_copies (ag off s) : KeepsCopies s (execLoHiReadLatch ag off s) := by
  simp [execLoHiReadLatch]

@[simp] theorem execRegisterWrite_copies (ag off v s) : KeepsCopies s (execRegisterWrite ag off v s) := by
  simp [execRegisterWrite]

@[simp] theorem execHoldoverEntry_copies (s) : KeepsCopies s (execHoldoverEntry s) := by
  simp [execHoldoverEntry]

@[simp] theorem execTopFtCtrlWrite_copies (ag v s) : KeepsCopies s (execTopFtCtrlWrite ag v s) := by
  simp [execTopFtCtrlWrite]

@[simp] theorem execCoreFltCauseClear_copies (ag core v s) : KeepsCopies s (execCoreFltCauseClear ag core v s) := by
  simp [execCoreFltCauseClear]

/-! ### Scheduler -/

@[simp] theorem execSchedTallyAlloc_copies (ag s) : KeepsCopies s (execSchedTallyAlloc ag s) := by
  simp [execSchedTallyAlloc]

@[simp] theorem execSchedTallyFree_copies (ag v s) : KeepsCopies s (execSchedTallyFree ag v s) := by
  simp [execSchedTallyFree]

@[simp] theorem execSchedCardSync_copies (ag n s) : KeepsCopies s (execSchedCardSync ag n s) := by
  simp [execSchedCardSync]

@[simp] theorem execContextEnable_copies (ag n v s) : KeepsCopies s (execContextEnable ag n v s) := by
  simp [execContextEnable]

@[simp] theorem execContextDisable_copies (ag n s) : KeepsCopies s (execContextDisable ag n s) := by
  simp [execContextDisable]

@[simp] theorem execSchedDb_copies (ag v s) : KeepsCopies s (execSchedDb ag v s) := by
  simp [execSchedDb]

@[simp] theorem execSchedHeartbeat_copies (ag v s) : KeepsCopies s (execSchedHeartbeat ag v s) := by
  simp [execSchedHeartbeat]

/-! ### The reflex lane -/

@[simp] theorem execReflexCoreEnable_copies (ag n lcore s) : KeepsCopies s (execReflexCoreEnable ag n lcore s) := by
  simp [execReflexCoreEnable]

@[simp] theorem execReflexCoreDisable_copies (ag n s) : KeepsCopies s (execReflexCoreDisable ag n s) := by
  simp [execReflexCoreDisable]

@[simp] theorem execReflexResetMark_copies (ag group v s) : KeepsCopies s (execReflexResetMark ag group v s) := by
  simp [execReflexResetMark]

@[simp] theorem execReflexStop_copies (ag group s) : KeepsCopies s (execReflexStop ag group s) := by
  simp [execReflexStop]

/-! ### Memory -/

@[simp] theorem execPidxRqDb_copies (ag v s) : KeepsCopies s (execPidxRqDb ag v s) := by
  simp [execPidxRqDb]

@[simp] theorem execVltCmapWrite_copies (ag hi v s) : KeepsCopies s (execVltCmapWrite ag hi v s) := by
  simp [execVltCmapWrite]

@[simp] theorem execVltTlbinv_copies (ag hi v s) : KeepsCopies s (execVltTlbinv ag hi v s) := by
  simp [execVltTlbinv]

@[simp] theorem execVltLblkWrite_copies (ag n v s) : KeepsCopies s (execVltLblkWrite ag n v s) := by
  simp [execVltLblkWrite]

@[simp] theorem execWindowStart_copies (ag n s) : KeepsCopies s (execWindowStart ag n s) := by
  simp [execWindowStart]

@[simp] theorem execWindowStop_copies (ag n s) : KeepsCopies s (execWindowStop ag n s) := by
  simp [execWindowStop]

/-! ### Firmware processors -/

@[simp] theorem execFwpRestartRequest_copies (ag p s) : KeepsCopies s (execFwpRestartRequest ag p s) := by
  simp [execFwpRestartRequest]

@[simp] theorem execFwpKick_copies (p s) : KeepsCopies s (execFwpKick p s) := by
  simp [execFwpKick]

/-! ### Ethernet, audio and cameras -/

@[simp] theorem execQbvChange_copies (ag n v s) : KeepsCopies s (execQbvChange ag n v s) := by
  simp [execQbvChange]

@[simp] theorem execEthFlowDb_copies (ag v s) : KeepsCopies s (execEthFlowDb ag v s) := by
  simp [execEthFlowDb]

@[simp] theorem execArchiveCopy_copies (ag v s) : KeepsCopies s (execArchiveCopy ag v s) := by
  simp [execArchiveCopy]

@[simp] theorem execAudRingDb_copies (ag v s) : KeepsCopies s (execAudRingDb ag v s) := by
  simp [execAudRingDb]

@[simp] theorem execCsiRingDb_copies (ag v s) : KeepsCopies s (execCsiRingDb ag v s) := by
  simp [execCsiRingDb]

@[simp] theorem execIspArm_copies (ag stream v s) : KeepsCopies s (execIspArm ag stream v s) := by
  simp [execIspArm]

@[simp] theorem execI3cXfer_copies (ag bus v s) : KeepsCopies s (execI3cXfer ag bus v s) := by
  simp [execI3cXfer]

/-! ### The cascade ladder -/

@[simp] theorem execLadderEnable_copies (ag v s) : KeepsCopies s (execLadderEnable ag v s) := by
  simp [execLadderEnable]

@[simp] theorem execLadderDisable_copies (ag s) : KeepsCopies s (execLadderDisable ag s) := by
  simp [execLadderDisable]

@[simp] theorem execLadderReload_copies (ag s) : KeepsCopies s (execLadderReload ag s) := by
  simp [execLadderReload]

@[simp] theorem execAudLadAck_copies (ag v s) : KeepsCopies s (execAudLadAck ag v s) := by
  simp [execAudLadAck]

/-! ### Power -/

@[simp] theorem execPwrStateRequest_copies (ag target s) : KeepsCopies s (execPwrStateRequest ag target s) := by
  simp [execPwrStateRequest]

@[simp] theorem execDvfsTargetWrite_copies (ag c v s) : KeepsCopies s (execDvfsTargetWrite ag c v s) := by
  simp [execDvfsTargetWrite]

@[simp] theorem execDvfsVselWrite_copies (ag c v s) : KeepsCopies s (execDvfsVselWrite ag c v s) := by
  simp [execDvfsVselWrite]

@[simp] theorem execClkDivWrite_copies (ag c v s) : KeepsCopies s (execClkDivWrite ag c v s) := by
  simp [execClkDivWrite]

@[simp] theorem execPwrCapWrite_copies (ag v s) : KeepsCopies s (execPwrCapWrite ag v s) := by
  simp [execPwrCapWrite]

@[simp] theorem execPwrModeWrite_copies (ag v s) : KeepsCopies s (execPwrModeWrite ag v s) := by
  simp [execPwrModeWrite]

/-! ### Repair, security and observation -/

@[simp] theorem execFixFence_copies (ag v s) : KeepsCopies s (execFixFence ag v s) := by
  simp [execFixFence]

@[simp] theorem execModelMeasure_copies (ag v s) : KeepsCopies s (execModelMeasure ag v s) := by
  simp [execModelMeasure]

@[simp] theorem execTopSnapArm_copies (ag s) : KeepsCopies s (execTopSnapArm ag s) := by
  simp [execTopSnapArm]

@[simp] theorem execTopSnapCancel_copies (ag s) : KeepsCopies s (execTopSnapCancel ag s) := by
  simp [execTopSnapCancel]

@[simp] theorem execObsTrcAck_copies (ag v s) : KeepsCopies s (execObsTrcAck ag v s) := by
  simp [execObsTrcAck]

@[simp] theorem execErrSumClear_copies (ag v s) : KeepsCopies s (execErrSumClear ag v s) := by
  simp [execErrSumClear]

@[simp] theorem execUart1Send_copies (ag b s) : KeepsCopies s (execUart1Send ag b s) := by
  simp [execUart1Send]

@[simp] theorem execUart1ReceiveRead_copies (ag s) : KeepsCopies s (execUart1ReceiveRead ag s) := by
  simp [execUart1ReceiveRead]

/-! ### Loads and stores -/

@[simp] theorem execLdb_copies (ag f s) : KeepsCopies s (execLdb ag f s) := by
  simp [execLdb]

@[simp] theorem execLdbu_copies (ag f s) : KeepsCopies s (execLdbu ag f s) := by
  simp [execLdbu]

@[simp] theorem execLdh_copies (ag f s) : KeepsCopies s (execLdh ag f s) := by
  simp [execLdh]

@[simp] theorem execLdhu_copies (ag f s) : KeepsCopies s (execLdhu ag f s) := by
  simp [execLdhu]

@[simp] theorem execLdw_copies (ag f s) : KeepsCopies s (execLdw ag f s) := by
  simp [execLdw]

@[simp] theorem execLdwu_copies (ag f s) : KeepsCopies s (execLdwu ag f s) := by
  simp [execLdwu]

@[simp] theorem execLdd_copies (ag f s) : KeepsCopies s (execLdd ag f s) := by
  simp [execLdd]

@[simp] theorem execStb_copies (ag f s) : KeepsCopies s (execStb ag f s) := by
  simp [execStb]

@[simp] theorem execSth_copies (ag f s) : KeepsCopies s (execSth ag f s) := by
  simp [execSth]

@[simp] theorem execStw_copies (ag f s) : KeepsCopies s (execStw ag f s) := by
  simp [execStw]

@[simp] theorem execStd_copies (ag f s) : KeepsCopies s (execStd ag f s) := by
  simp [execStd]

/-! ### Ordered loads and stores -/

@[simp] theorem execLdwAcq_copies (ag scope f s) : KeepsCopies s (execLdwAcq ag scope f s) := by
  simp [execLdwAcq]

@[simp] theorem execLddAcq_copies (ag scope f s) : KeepsCopies s (execLddAcq ag scope f s) := by
  simp [execLddAcq]

@[simp] theorem execStwRel_copies (ag scope f s) : KeepsCopies s (execStwRel ag scope f s) := by
  simp [execStwRel]

@[simp] theorem execStdRel_copies (ag scope f s) : KeepsCopies s (execStdRel ag scope f s) := by
  simp [execStdRel]

/-! ### Fences -/

@[simp] theorem execFenceAcq_copies (ag scope f s) : KeepsCopies s (execFenceAcq ag scope f s) := by
  simp [execFenceAcq]

@[simp] theorem execFenceRel_copies (ag scope f s) : KeepsCopies s (execFenceRel ag scope f s) := by
  simp [execFenceRel]

@[simp] theorem execFenceAr_copies (ag scope f s) : KeepsCopies s (execFenceAr ag scope f s) := by
  simp [execFenceAr]

/-! ### Atomics -/

@[simp] theorem execAtomAdd_copies (ag dw scope f s) : KeepsCopies s (execAtomAdd ag dw scope f s) := by
  simp [execAtomAdd]

@[simp] theorem execAtomMin_copies (ag dw scope f s) : KeepsCopies s (execAtomMin ag dw scope f s) := by
  simp [execAtomMin]

@[simp] theorem execAtomMax_copies (ag dw scope f s) : KeepsCopies s (execAtomMax ag dw scope f s) := by
  simp [execAtomMax]

@[simp] theorem execAtomAnd_copies (ag dw scope f s) : KeepsCopies s (execAtomAnd ag dw scope f s) := by
  simp [execAtomAnd]

@[simp] theorem execAtomOr_copies (ag dw scope f s) : KeepsCopies s (execAtomOr ag dw scope f s) := by
  simp [execAtomOr]

@[simp] theorem execAtomXor_copies (ag dw scope f s) : KeepsCopies s (execAtomXor ag dw scope f s) := by
  simp [execAtomXor]

@[simp] theorem execAtomSwap_copies (ag dw scope f s) : KeepsCopies s (execAtomSwap ag dw scope f s) := by
  simp [execAtomSwap]

@[simp] theorem execAtomCas_copies (ag dw scope f s) : KeepsCopies s (execAtomCas ag dw scope f s) := by
  simp [execAtomCas]

@[simp] theorem execAtomArAdd_copies (ag dw scope f s) : KeepsCopies s (execAtomArAdd ag dw scope f s) := by
  simp [execAtomArAdd]

@[simp] theorem execAtomArMin_copies (ag dw scope f s) : KeepsCopies s (execAtomArMin ag dw scope f s) := by
  simp [execAtomArMin]

@[simp] theorem execAtomArMax_copies (ag dw scope f s) : KeepsCopies s (execAtomArMax ag dw scope f s) := by
  simp [execAtomArMax]

@[simp] theorem execAtomArAnd_copies (ag dw scope f s) : KeepsCopies s (execAtomArAnd ag dw scope f s) := by
  simp [execAtomArAnd]

@[simp] theorem execAtomArOr_copies (ag dw scope f s) : KeepsCopies s (execAtomArOr ag dw scope f s) := by
  simp [execAtomArOr]

@[simp] theorem execAtomArXor_copies (ag dw scope f s) : KeepsCopies s (execAtomArXor ag dw scope f s) := by
  simp [execAtomArXor]

@[simp] theorem execAtomArSwap_copies (ag dw scope f s) : KeepsCopies s (execAtomArSwap ag dw scope f s) := by
  simp [execAtomArSwap]

@[simp] theorem execAtomArCas_copies (ag dw scope f s) : KeepsCopies s (execAtomArCas ag dw scope f s) := by
  simp [execAtomArCas]

/-! ### Sessions -/

@[simp] theorem execHello_copies (s) : KeepsCopies s (execHello s) := by
  unfold execHello
  split <;> simp

@[simp] theorem execBye_copies (s) : KeepsCopies s (execBye s) := by
  simp [execBye]

@[simp] theorem execHeartbeat_copies (s) : KeepsCopies s (execHeartbeat s) := by
  simp [execHeartbeat]

@[simp] theorem execLeaseCfg_copies (s) : KeepsCopies s (execLeaseCfg s) := by
  simp [execLeaseCfg]

/-! ### Work -/

@[simp] theorem execSubmit_copies (s) : KeepsCopies s (execSubmit s) := by
  have written (r : Run s) (c : XCtx) (m : Msg) (l : List (Nat × Nat)) : (r.each l fun iv r =>
      match r.writeVirtBytes c iv.2 (slice m.payload (8 + 64 * iv.1) 64) with
      | .ok r => r
      | .error _ => r).copies = r.copies := by
    refine Run.each_copies (fun iv r => ?_) _ _
    split
    · next h => exact Run.writeVirtBytes_copies h
    · rfl
  refine .of_run _ (Run.serve_copies _ _ _ _ fun _ m r => ?_)
  dsimp only
  split
  · simp
  · rw [Run.reply_copies, Run.when_copies fun r => Run.setHw_copies ..]
    exact written ..

@[simp] theorem execCardSync_copies (s) : KeepsCopies s (execCardSync s) := by
  simp [execCardSync]

@[simp] theorem execDoorbell_copies (s) : KeepsCopies s (execDoorbell s) := by
  simp [execDoorbell]

@[simp] theorem execTallyAlloc_copies (s) : KeepsCopies s (execTallyAlloc s) := by
  simp [execTallyAlloc]

@[simp] theorem execTallyFree_copies (s) : KeepsCopies s (execTallyFree s) := by
  refine .of_run _ (Run.serve_copies _ _ _ _ fun _ m r => ?_)
  dsimp only
  split <;> simp

@[simp] theorem execTallyOpTsig_copies (s) : KeepsCopies s (execTallyOpTsig s) := by
  simp [execTallyOpTsig]

@[simp] theorem execTallyOpTadd_copies (s) : KeepsCopies s (execTallyOpTadd s) := by
  simp [execTallyOpTadd]

@[simp] theorem execTallyOpTread_copies (s) : KeepsCopies s (execTallyOpTread s) := by
  simp [execTallyOpTread]

@[simp] theorem execTallyWatch_copies (s) : KeepsCopies s (execTallyWatch s) := by
  refine .of_run _ (Run.serve_copies _ _ _ _ fun _ m r => ?_)
  dsimp only
  split <;> simp

@[simp] theorem execTallyWatchTimeout_copies (session seq s) : KeepsCopies s (execTallyWatchTimeout session seq s) := by
  unfold execTallyWatchTimeout
  split <;> simp

/-! ### Memory -/

@[simp] theorem execRead_copies (s) : KeepsCopies s (execRead s) := by
  refine .of_run _ (Run.serve_copies _ _ _ _ fun x m r => ?_)
  dsimp only
  split
  · simp
  split
  · simp
  split
  · next h => simp [copies_of_eq h (Run.readIn_copies ..)]
  · next h => simp [copies_of_eq h (Run.readIn_copies ..)]

@[simp] theorem execWrite_copies (s) : KeepsCopies s (execWrite s) := by
  refine .of_run _ (Run.serve_copies _ _ _ _ fun _ m r => ?_)
  dsimp only
  split
  · simp
  split
  · simp
  split
  · simp
  split
  · simp
  split
  · next h => simp [Run.writeVirtBytes_copies h]
  · simp

/-! ### Observation -/

@[simp] theorem execSnapshot_copies (s) : KeepsCopies s (execSnapshot s) := by
  simp [execSnapshot]

@[simp] theorem execRegRead_copies (s) : KeepsCopies s (execRegRead s) := by
  refine .of_run _ (Run.serve_copies _ _ _ _ fun x m r => ?_)
  dsimp only
  split
  · simp
  split
  · simp
  rw [Run.reply_copies]
  exact foldl_keeps (g := fun p : List Byte × Run s => p.2.copies) (fun p k => Run.regRead_copies ..) _ ([], r)

@[simp] theorem execRegWrite_copies (s) : KeepsCopies s (execRegWrite s) := by
  refine .of_run _ (Run.serve_copies _ _ _ _ fun _ m r => ?_)
  dsimp only
  (repeat' split) <;> simp

@[simp] theorem execLogRead_copies (s) : KeepsCopies s (execLogRead s) := by
  simp [execLogRead]

/-! ### Power and pace -/

@[simp] theorem execPowerState_copies (s) : KeepsCopies s (execPowerState s) := by
  simp [execPowerState]

@[simp] theorem execPowerCap_copies (s) : KeepsCopies s (execPowerCap s) := by
  simp [execPowerCap]

@[simp] theorem execPaceBind_copies (s) : KeepsCopies s (execPaceBind s) := by
  simp [execPaceBind]

@[simp] theorem execPace_copies (s) : KeepsCopies s (execPace s) := by
  refine .of_run _ (Run.serve_copies _ _ _ _ fun _ m r => ?_)
  dsimp only
  split
  · simp
  split
  · simp
  · rw [Run.settleSignals_copies, Run.reply_copies]
    split <;> simp

/-! ### Security -/

@[simp] theorem execPropose_copies (s) : KeepsCopies s (execPropose s) := by
  simp [execPropose]

@[simp] theorem execCountersign_copies (s) : KeepsCopies s (execCountersign s) := by
  simp [execCountersign]

@[simp] theorem execAttest_copies (s) : KeepsCopies s (execAttest s) := by
  simp [execAttest]

@[simp] theorem execFwUpdate_copies (s) : KeepsCopies s (execFwUpdate s) := by
  simp [execFwUpdate]

@[simp] theorem execMessageUnknownOpcode_copies (s) : KeepsCopies s (execMessageUnknownOpcode s) := by
  unfold execMessageUnknownOpcode
  split <;> simp

@[simp] theorem fpGroup_copies (i ag legal f op s) : KeepsCopies s (fpGroup i ag legal f op s) := by
  simp [fpGroup]

@[simp] theorem execFadd_copies (ag f s) : KeepsCopies s (execFadd ag f s) := by
  simp [execFadd]

@[simp] theorem execFsub_copies (ag f s) : KeepsCopies s (execFsub ag f s) := by
  simp [execFsub]

@[simp] theorem execFmul_copies (ag f s) : KeepsCopies s (execFmul ag f s) := by
  simp [execFmul]

@[simp] theorem execFfma_copies (ag f s) : KeepsCopies s (execFfma ag f s) := by
  simp [execFfma]

@[simp] theorem execFmin_copies (ag f s) : KeepsCopies s (execFmin ag f s) := by
  simp [execFmin]

@[simp] theorem execFmax_copies (ag f s) : KeepsCopies s (execFmax ag f s) := by
  simp [execFmax]

@[simp] theorem execFabs_copies (ag f s) : KeepsCopies s (execFabs ag f s) := by
  simp [execFabs]

@[simp] theorem execFneg_copies (ag f s) : KeepsCopies s (execFneg ag f s) := by
  simp [execFneg]

@[simp] theorem execFexp2_copies (ag f s) : KeepsCopies s (execFexp2 ag f s) := by
  simp [execFexp2]

@[simp] theorem execFlog2_copies (ag f s) : KeepsCopies s (execFlog2 ag f s) := by
  simp [execFlog2]

@[simp] theorem execFrcp_copies (ag f s) : KeepsCopies s (execFrcp ag f s) := by
  simp [execFrcp]

@[simp] theorem execFrsq_copies (ag f s) : KeepsCopies s (execFrsq ag f s) := by
  simp [execFrsq]

@[simp] theorem execFsig_copies (ag f s) : KeepsCopies s (execFsig ag f s) := by
  simp [execFsig]

@[simp] theorem execFtanh_copies (ag f s) : KeepsCopies s (execFtanh ag f s) := by
  simp [execFtanh]

@[simp] theorem execFmvGf_copies (ag f s) : KeepsCopies s (execFmvGf ag f s) := by
  simp [execFmvGf]

@[simp] theorem execFmvFg_copies (ag f s) : KeepsCopies s (execFmvFg ag f s) := by
  simp [execFmvFg]

@[simp] theorem execCvt_copies (ag func f s) : KeepsCopies s (execCvt ag func f s) := by
  unfold execCvt
  split <;> simp

@[simp] theorem pkGroup_copies (i ag fp16 func f s) : KeepsCopies s (pkGroup i ag fp16 func f s) := by
  simp [pkGroup]

@[simp] theorem execAdd2_copies (ag fp16 f s) : KeepsCopies s (execAdd2 ag fp16 f s) := by
  simp [execAdd2]

@[simp] theorem execMul2_copies (ag fp16 f s) : KeepsCopies s (execMul2 ag fp16 f s) := by
  simp [execMul2]

@[simp] theorem execFma2_copies (ag fp16 f s) : KeepsCopies s (execFma2 ag fp16 f s) := by
  simp [execFma2]

@[simp] theorem execMin2_copies (ag fp16 f s) : KeepsCopies s (execMin2 ag fp16 f s) := by
  simp [execMin2]

@[simp] theorem execMax2_copies (ag fp16 f s) : KeepsCopies s (execMax2 ag fp16 f s) := by
  simp [execMax2]

/-! ## Every command at once -/

/-- The commands that realign the local copies of fabric time. -/
def Realigns : Instr → Prop
  | .timeTreeRealign => True
  | .powerReturn => True
  | _ => False

/-- No other command touches the local copies. -/
theorem exec_keepsCopies (c : Instr) (s : State) (h : ¬ Reboots c) (hr : ¬ Realigns c) : KeepsCopies s (exec c s) := by
  cases c with
  | powerOnReset => exact absurd trivial h
  | loHiReadLatch => exact execLoHiReadLatch_copies ..
  | registerWrite => exact execRegisterWrite_copies ..
  | timeTreeRealign => exact absurd trivial hr
  | holdoverEntry => exact execHoldoverEntry_copies ..
  | topFtCtrlWrite => exact execTopFtCtrlWrite_copies ..
  | add => exact execAdd_copies ..
  | sub => exact execSub_copies ..
  | mul => exact execMul_copies ..
  | mulh => exact execMulh_copies ..
  | mulhu => exact execMulhu_copies ..
  | div => exact execDiv_copies ..
  | divu => exact execDivu_copies ..
  | rem => exact execRem_copies ..
  | remu => exact execRemu_copies ..
  | and => exact execAnd_copies ..
  | or => exact execOr_copies ..
  | xor => exact execXor_copies ..
  | shl => exact execShl_copies ..
  | shr => exact execShr_copies ..
  | sra => exact execSra_copies ..
  | min => exact execMin_copies ..
  | minu => exact execMinu_copies ..
  | max => exact execMax_copies ..
  | maxu => exact execMaxu_copies ..
  | clz => exact execClz_copies ..
  | popc => exact execPopc_copies ..
  | addp => exact execAddp_copies ..
  | addi => exact execAddi_copies ..
  | andi => exact execAndi_copies ..
  | ori => exact execOri_copies ..
  | xori => exact execXori_copies ..
  | shi => exact execShi_copies ..
  | li => exact execLi_copies ..
  | addx => exact execAddx_copies ..
  | cmp => exact execCmp_copies ..
  | pand => exact execPand_copies ..
  | por => exact execPor_copies ..
  | pxor => exact execPxor_copies ..
  | pandn => exact execPandn_copies ..
  | pnot => exact execPnot_copies ..
  | p2g => exact execP2g_copies ..
  | g2p => exact execG2p_copies ..
  | fadd => exact execFadd_copies ..
  | fsub => exact execFsub_copies ..
  | fmul => exact execFmul_copies ..
  | ffma => exact execFfma_copies ..
  | fmin => exact execFmin_copies ..
  | fmax => exact execFmax_copies ..
  | fabs => exact execFabs_copies ..
  | fneg => exact execFneg_copies ..
  | fmvGf => exact execFmvGf_copies ..
  | fmvFg => exact execFmvFg_copies ..
  | fexp2 => exact execFexp2_copies ..
  | flog2 => exact execFlog2_copies ..
  | frcp => exact execFrcp_copies ..
  | frsq => exact execFrsq_copies ..
  | fsig => exact execFsig_copies ..
  | ftanh => exact execFtanh_copies ..
  | cvt => exact execCvt_copies ..
  | add2 => exact execAdd2_copies ..
  | mul2 => exact execMul2_copies ..
  | fma2 => exact execFma2_copies ..
  | min2 => exact execMin2_copies ..
  | max2 => exact execMax2_copies ..
  | ldb => exact execLdb_copies ..
  | ldbu => exact execLdbu_copies ..
  | ldh => exact execLdh_copies ..
  | ldhu => exact execLdhu_copies ..
  | ldw => exact execLdw_copies ..
  | ldwu => exact execLdwu_copies ..
  | ldd => exact execLdd_copies ..
  | stb => exact execStb_copies ..
  | sth => exact execSth_copies ..
  | stw => exact execStw_copies ..
  | std => exact execStd_copies ..
  | ldwAcq => exact execLdwAcq_copies ..
  | lddAcq => exact execLddAcq_copies ..
  | stwRel => exact execStwRel_copies ..
  | stdRel => exact execStdRel_copies ..
  | fenceAcq => exact execFenceAcq_copies ..
  | fenceRel => exact execFenceRel_copies ..
  | fenceAr => exact execFenceAr_copies ..
  | atomAdd => exact execAtomAdd_copies ..
  | atomMin => exact execAtomMin_copies ..
  | atomMax => exact execAtomMax_copies ..
  | atomAnd => exact execAtomAnd_copies ..
  | atomOr => exact execAtomOr_copies ..
  | atomXor => exact execAtomXor_copies ..
  | atomSwap => exact execAtomSwap_copies ..
  | atomCas => exact execAtomCas_copies ..
  | atomArAdd => exact execAtomArAdd_copies ..
  | atomArMin => exact execAtomArMin_copies ..
  | atomArMax => exact execAtomArMax_copies ..
  | atomArAnd => exact execAtomArAnd_copies ..
  | atomArOr => exact execAtomArOr_copies ..
  | atomArXor => exact execAtomArXor_copies ..
  | atomArSwap => exact execAtomArSwap_copies ..
  | atomArCas => exact execAtomArCas_copies ..
  | bra => exact execBra_copies ..
  | call => exact execCall_copies ..
  | jr => exact execJr_copies ..
  | bral => exact execBral_copies ..
  | nop => exact execNop_copies ..
  | exit => exact execExit_copies ..
  | bar => exact execBar_copies ..
  | yield => exact execYield_copies ..
  | yieldExpiry => exact execYieldExpiry_copies ..
  | upcall => exact execUpcall_copies ..
  | brk => exact execBrk_copies ..
  | tret => exact execTret_copies ..
  | snooze => exact execSnooze_copies ..
  | iflush => exact execIflush_copies ..
  | rds => exact execRds_copies ..
  | crd => exact execCrd_copies ..
  | cwr => exact execCwr_copies ..
  | cmsk => exact execCmsk_copies ..
  | timerInterruptPending => exact execTimerInterruptPending_copies ..
  | interruptTake => exact execInterruptTake_copies ..
  | shfl => exact execShfl_copies ..
  | ballot => exact execBallot_copies ..
  | any => exact execAny_copies ..
  | all => exact execAll_copies ..
  | radd => exact execRadd_copies ..
  | rmin => exact execRmin_copies ..
  | rmax => exact execRmax_copies ..
  | fradd => exact execFradd_copies ..
  | frmin => exact execFrmin_copies ..
  | frmax => exact execFrmax_copies ..
  | tsig => exact execTsig_copies ..
  | tadd => exact execTadd_copies ..
  | twait => exact execTwait_copies ..
  | tread => exact execTread_copies ..
  | twaitTimeout => exact execTwaitTimeout_copies ..
  | tdld => exact execTdld_copies ..
  | tdw => exact execTdw_copies ..
  | tdst => exact execTdst_copies ..
  | fmove => exact execFmove_copies ..
  | tmma => exact execTmma_copies ..
  | tdrain => exact execTdrain_copies ..
  | accScale => exact execAccScale_copies ..
  | tclr => exact execTclr_copies ..
  | trec => exact execTrec_copies ..
  | stateAudit => exact execStateAudit_copies ..
  | tsync => exact execTsync_copies ..
  | rope => exact execRope_copies ..
  | tmask => exact execTmask_copies ..
  | tsmaxStep => exact execTsmaxStep_copies ..
  | tsmaxFinal => exact execTsmaxFinal_copies ..
  | tsmaxMerge => exact execTsmaxMerge_copies ..
  | tsmaxInit => exact execTsmaxInit_copies ..
  | tensorInstrStart => exact execTensorInstrStart_copies ..
  | tensorInstrFinish => exact execTensorInstrFinish_copies ..
  | prismFeedFetch => exact execPrismFeedFetch_copies ..
  | fmoveFinish => exact execFmoveFinish_copies ..
  | gangAdmit => exact execGangAdmit_copies ..
  | gangRetire => exact execGangRetire_copies ..
  | gangParkSwap => exact execGangParkSwap_copies ..
  | coreFltCauseClear => exact execCoreFltCauseClear_copies ..
  | schedTallyAlloc => exact execSchedTallyAlloc_copies ..
  | schedTallyFree => exact execSchedTallyFree_copies ..
  | parcelRerun => exact execParcelRerun_copies ..
  | pidxRqDb => exact execPidxRqDb_copies ..
  | kvOpen => exact execKvOpen_copies ..
  | close => exact execClose_copies ..
  | pin => exact execPin_copies ..
  | unpin => exact execUnpin_copies ..
  | append => exact execAppend_copies ..
  | tappend => exact execTappend_copies ..
  | commit => exact execCommit_copies ..
  | discard => exact execDiscard_copies ..
  | kvBadRequest => exact execKvBadRequest_copies ..
  | recomputeComplete => exact execRecomputeComplete_copies ..
  | reflexCoreEnable => exact execReflexCoreEnable_copies ..
  | reflexCoreDisable => exact execReflexCoreDisable_copies ..
  | reflexCoreReady => exact execReflexCoreReady_copies ..
  | reflexFrameLanding => exact execReflexFrameLanding_copies ..
  | reflexTick => exact execReflexTick_copies ..
  | reflexArriveLatch => exact execReflexArriveLatch_copies ..
  | reflexStepStart => exact execReflexStepStart_copies ..
  | reflexStepEnd => exact execReflexStepEnd_copies ..
  | reflexOutputFrame => exact execReflexOutputFrame_copies ..
  | reflexResetMark => exact execReflexResetMark_copies ..
  | reflexStop => exact execReflexStop_copies ..
  | reflexGroupEnd => exact execReflexGroupEnd_copies ..
  | reflexHoldExpiry => exact execReflexHoldExpiry_copies ..
  | reflexResume => exact execReflexResume_copies ..
  | vltCmapWrite => exact execVltCmapWrite_copies ..
  | vltTlbinv => exact execVltTlbinv_copies ..
  | tlbinvDone => exact execTlbinvDone_copies ..
  | vltLblkWrite => exact execVltLblkWrite_copies ..
  | windowStart => exact execWindowStart_copies ..
  | windowStop => exact execWindowStop_copies ..
  | chunkStart => exact execChunkStart_copies ..
  | chunkLanded => exact execChunkLanded_copies ..
  | vaultAccessTimeout => exact execVaultAccessTimeout_copies ..
  | vaultRetrainEnd => exact execVaultRetrainEnd_copies ..
  | rowSparing => exact execRowSparing_copies ..
  | patrolRead => exact execPatrolRead_copies ..
  | vaultRefresh => exact execVaultRefresh_copies ..
  | schedCardSync => exact execSchedCardSync_copies ..
  | cardTakeUp => exact execCardTakeUp_copies ..
  | cardFetch => exact execCardFetch_copies ..
  | contextEnable => exact execContextEnable_copies ..
  | contextDisable => exact execContextDisable_copies ..
  | schedDb => exact execSchedDb_copies ..
  | parcelTake => exact execParcelTake_copies ..
  | parcelWaitEnd => exact execParcelWaitEnd_copies ..
  | parcelWaitTimeout => exact execParcelWaitTimeout_copies ..
  | permitGrant => exact execPermitGrant_copies ..
  | permitTimeout => exact execPermitTimeout_copies ..
  | parcelComplete => exact execParcelComplete_copies ..
  | mailboxDeliver => exact execMailboxDeliver_copies ..
  | mailboxTxTake => exact execMailboxTxTake_copies ..
  | fwpRestartRequest => exact execFwpRestartRequest_copies ..
  | fwpRestartEnd => exact execFwpRestartEnd_copies ..
  | fwpKick => exact execFwpKick_copies ..
  | watchdogExpiry => exact execWatchdogExpiry_copies ..
  | fwFlashWriteEnd => exact execFwFlashWriteEnd_copies ..
  | schedHeartbeat => exact execSchedHeartbeat_copies ..
  | leaseExpiry => exact execLeaseExpiry_copies ..
  | holdExpiry => exact execHoldExpiry_copies ..
  | sessionRelease => exact execSessionRelease_copies ..
  | hello => exact execHello_copies ..
  | bye => exact execBye_copies ..
  | heartbeat => exact execHeartbeat_copies ..
  | leaseCfg => exact execLeaseCfg_copies ..
  | submit => exact execSubmit_copies ..
  | cardSync => exact execCardSync_copies ..
  | doorbell => exact execDoorbell_copies ..
  | tallyAlloc => exact execTallyAlloc_copies ..
  | tallyFree => exact execTallyFree_copies ..
  | tallyOpTsig => exact execTallyOpTsig_copies ..
  | tallyOpTadd => exact execTallyOpTadd_copies ..
  | tallyOpTread => exact execTallyOpTread_copies ..
  | tallyWatch => exact execTallyWatch_copies ..
  | tallyWatchTimeout => exact execTallyWatchTimeout_copies ..
  | read => exact execRead_copies ..
  | write => exact execWrite_copies ..
  | snapshot => exact execSnapshot_copies ..
  | regRead => exact execRegRead_copies ..
  | regWrite => exact execRegWrite_copies ..
  | logRead => exact execLogRead_copies ..
  | powerState => exact execPowerState_copies ..
  | powerCap => exact execPowerCap_copies ..
  | paceBind => exact execPaceBind_copies ..
  | pace => exact execPace_copies ..
  | paceResend => exact execPaceResend_copies ..
  | propose => exact execPropose_copies ..
  | countersign => exact execCountersign_copies ..
  | attest => exact execAttest_copies ..
  | fwUpdate => exact execFwUpdate_copies ..
  | fwRestart => exact absurd trivial h
  | messageUnknownOpcode => exact execMessageUnknownOpcode_copies ..
  | reassemblyTimeout => exact execReassemblyTimeout_copies ..
  | ethFrameRx => exact execEthFrameRx_copies ..
  | ethFrameTxStart => exact execEthFrameTxStart_copies ..
  | gateControlEntry => exact execGateControlEntry_copies ..
  | qbvChange => exact execQbvChange_copies ..
  | qbvConfigChange => exact execQbvConfigChange_copies ..
  | linkDown => exact execLinkDown_copies ..
  | linkUp => exact execLinkUp_copies ..
  | ethTblRead => exact execEthTblRead_copies ..
  | ethTblWrite => exact execEthTblWrite_copies ..
  | fdbAgeOut => exact execFdbAgeOut_copies ..
  | cbHistoryReset => exact execCbHistoryReset_copies ..
  | sakRekey => exact execSakRekey_copies ..
  | ethFlowDb => exact execEthFlowDb_copies ..
  | flowTxTake => exact execFlowTxTake_copies ..
  | muteEngage => exact execMuteEngage_copies ..
  | muteRelease => exact execMuteRelease_copies ..
  | micClockStart => exact execMicClockStart_copies ..
  | archiveRowComplete => exact execArchiveRowComplete_copies ..
  | archiveCopy => exact execArchiveCopy_copies ..
  | archiveCopyEnd => exact execArchiveCopyEnd_copies ..
  | loupeFrame => exact execLoupeFrame_copies ..
  | lensHop => exact execLensHop_copies ..
  | micBlockDeliver => exact execMicBlockDeliver_copies ..
  | outputBlockPlay => exact execOutputBlockPlay_copies ..
  | audRingDb => exact execAudRingDb_copies ..
  | cameraFrameStart => exact execCameraFrameStart_copies ..
  | csiLine => exact execCsiLine_copies ..
  | embeddedDataPacket => exact execEmbeddedDataPacket_copies ..
  | cameraFrameEnd => exact execCameraFrameEnd_copies ..
  | frameWatchdogExpiry => exact execFrameWatchdogExpiry_copies ..
  | ispLineProcess => exact execIspLineProcess_copies ..
  | frameDeliver => exact execFrameDeliver_copies ..
  | csiRingDb => exact execCsiRingDb_copies ..
  | ispArm => exact execIspArm_copies ..
  | fsyncEdge => exact execFsyncEdge_copies ..
  | i3cXfer => exact execI3cXfer_copies ..
  | i3cXferStart => exact execI3cXferStart_copies ..
  | i3cXferDone => exact execI3cXferDone_copies ..
  | ladderEnable => exact execLadderEnable_copies ..
  | ladderDisable => exact execLadderDisable_copies ..
  | ladderReload => exact execLadderReload_copies ..
  | verdictDeadline => exact execVerdictDeadline_copies ..
  | demotionExpiry => exact execDemotionExpiry_copies ..
  | periodicSubmit => exact execPeriodicSubmit_copies ..
  | ticketMove => exact execTicketMove_copies ..
  | audLadAck => exact execAudLadAck_copies ..
  | pwrStateRequest => exact execPwrStateRequest_copies ..
  | powerEntryBegin => exact execPowerEntryBegin_copies ..
  | powerDrainTimeout => exact execPowerDrainTimeout_copies ..
  | deepSleepEntryBegin => exact execDeepSleepEntryBegin_copies ..
  | powerEntryComplete => exact execPowerEntryComplete_copies ..
  | autoIdleEntry => exact execAutoIdleEntry_copies ..
  | wakePin => exact execWakePin_copies ..
  | wakeTimer => exact execWakeTimer_copies ..
  | powerReturn => exact absurd trivial hr
  | clusterWake => exact execClusterWake_copies ..
  | dvfsTargetWrite => exact execDvfsTargetWrite_copies ..
  | clkDivWrite => exact execClkDivWrite_copies ..
  | dvfsVselWrite => exact execDvfsVselWrite_copies ..
  | dvfsStepEnd => exact execDvfsStepEnd_copies ..
  | vstepAck => exact execVstepAck_copies ..
  | vstepTimeout => exact execVstepTimeout_copies ..
  | ledgerRefill => exact execLedgerRefill_copies ..
  | ledgerRateUpdate => exact execLedgerRateUpdate_copies ..
  | pwrCapWrite => exact execPwrCapWrite_copies ..
  | pwrModeWrite => exact execPwrModeWrite_copies ..
  | droopDetect => exact execDroopDetect_copies ..
  | droopStretchEnd => exact execDroopStretchEnd_copies ..
  | tempSample => exact execTempSample_copies ..
  | thermalTrip => exact execThermalTrip_copies ..
  | coreFence => exact execCoreFence_copies ..
  | hangDetect => exact execHangDetect_copies ..
  | supplyMonitorFence => exact execSupplyMonitorFence_copies ..
  | fixFence => exact execFixFence_copies ..
  | entryCheckEnd => exact execEntryCheckEnd_copies ..
  | degradedTimeout => exact execDegradedTimeout_copies ..
  | ledgerAppend => exact execLedgerAppend_copies ..
  | ledgerCompact => exact execLedgerCompact_copies ..
  | spareBistStart => exact execSpareBistStart_copies ..
  | bistEnd => exact execBistEnd_copies ..
  | reinstateBist => exact execReinstateBist_copies ..
  | rollingSwapStart => exact execRollingSwapStart_copies ..
  | rollingSwapTimeout => exact execRollingSwapTimeout_copies ..
  | rollingSwapCopyEnd => exact execRollingSwapCopyEnd_copies ..
  | settleEnd => exact execSettleEnd_copies ..
  | tenantSwitchEnd => exact execTenantSwitchEnd_copies ..
  | modelMeasure => exact execModelMeasure_copies ..
  | modelMeasureEnd => exact execModelMeasureEnd_copies ..
  | topSnapArm => exact execTopSnapArm_copies ..
  | topSnapCancel => exact execTopSnapCancel_copies ..
  | snapshotTake => exact execSnapshotTake_copies ..
  | obsTrcAck => exact execObsTrcAck_copies ..
  | errSumClear => exact execErrSumClear_copies ..
  | uart1Send => exact execUart1Send_copies ..
  | uart1ReceiveRead => exact execUart1ReceiveRead_copies ..
  | uart1ByteRx => exact execUart1ByteRx_copies ..
  | supplyBelowRange => exact absurd trivial h
  | illegalInstr => exact execIllegalInstr_copies ..
  | gptpMessageInterval => exact execGptpMessageInterval_copies ..
  | mkaTimer => exact execMkaTimer_copies ..
  | csiLinkStateChange => exact execCsiLinkStateChange_copies ..
  | csiPacketDiscard => exact execCsiPacketDiscard_copies ..
  | uart1ByteSent => exact execUart1ByteSent_copies ..
  | jtagTckEdge => exact execJtagTckEdge_copies ..

end Sys2Proof.Machine
end

section
/-! PROOFS. Local times, and the events of fabric time (R27, R29, R32, R338). -/

namespace Sys2Proof.Machine

/-! ## Fabric time as a block reads it -/

/-- The value of a key in a map that lists some keys, each with a value that the key determines. -/
theorem get_zipWith_map {α β : Type} (d : α) (f : Nat → β → α) (g : Nat → β) {l : List Nat} {b : Nat} (hb : b ∈ l) :
    SMap.get d (l.zipWith (fun b x => (b, f b x)) (l.map g)) b = f b (g b) := by
  induction l with
  | nil => cases hb
  | cons a l ih =>
    rcases eq_or_ne a b with rfl | hab
    · simp [SMap.get, SMap.find?]
    · have hl : b ∈ l := (List.mem_cons.mp hb).resolve_left hab.symm
      simpa [SMap.get, SMap.find?, hab] using ih hl

/-- A realigned copy stands its lag behind the master, and keeps what the block has read as its floor. -/
theorem Run.realign_copy {z : State} (r : Run z) (lag : Nat → Nat) {b : Nat} (hb : b ∈ timeBlocks) :
    SMap.get (0, 0) (r.realign lag).copies b = (lag b % 5, r.s.timeAt b) :=
  get_zipWith_map (0, 0) (fun b x => (x % 5, r.s.timeAt b)) lag hb

/-- A copy whose floor is what the block has read before does not go back. -/
theorem timeAt_ge_floor {s : State} {b k v : Nat} (h : SMap.get (0, 0) s.copies b = (k, v)) : v ≤ s.timeAt b := by
  simp [State.timeAt, h]

/-- Where the copies stand as they were, no block reads a smaller time later. -/
theorem timeAt_mono {s t : State} (hc : t.copies = s.copies) (hn : s.now ≤ t.now) (b : Nat) : s.timeAt b ≤ t.timeAt b := by
  simp only [State.timeAt, hc]
  omega

/-- Fabric time does not go back in the outcome of a run (R29). -/
theorem done_now_le {s t : State} {r : Run s} (h : done r = .next t) : s.now ≤ t.now := by
  cases h
  split
  · exact le_rfl
  · exact r.ok.now_le

/-- What follows a realignment in a command's run keeps the realigned copies, and so no block's time goes back. -/
theorem timeAt_le_realigned {s t : State} (q : Run s) (lag : Nat → Nat) {r : Run s} (hr : r.copies = (q.realign lag).copies)
    (ht : done r = .next t) {b : Nat} (hq : q.s.timeAt b = s.timeAt b) (hb : b ∈ timeBlocks) : s.timeAt b ≤ t.timeAt b := by
  cases ht
  split
  · exact le_rfl
  · have hf := q.realign_copy lag hb
    rw [← hr, hq] at hf
    exact timeAt_ge_floor hf

/-- At TIME_TREE_REALIGN no block's time goes back. -/
theorem execTimeTreeRealign_timeAt {s t : State} (h : execTimeTreeRealign s = .next t) {b : Nat} (hb : b ∈ timeBlocks) :
    s.timeAt b ≤ t.timeAt b := by
  unfold execTimeTreeRealign at h
  dsimp only at h
  split at h
  · exact timeAt_le_realigned (Run.start s) _ rfl h rfl hb
  · exact timeAt_mono ((KeepsCopies.of_run _ (Run.start_copies s)).copies t h) (done_now_le h) b

/-- At POWER_RETURN no block's time goes back: its first steps realign the copies, and the rest leaves them. -/
theorem execPowerReturn_timeAt {s t : State} (h : execPowerReturn s = .next t) {b : Nat} (hb : b ∈ timeBlocks) :
    s.timeAt b ≤ t.timeAt b := by
  unfold execPowerReturn at h
  dsimp only at h
  split at h
  · exact timeAt_mono ((KeepsCopies.of_run _ (Run.start_copies s)).copies t h) (done_now_le h) b
  · refine timeAt_le_realigned ((Run.start s).setPower { s.power with ret := none }) (fun _ => 0) ?_ h rfl hb
    simp

/-- No command but a reboot lets a block read a smaller time later (R29). -/
theorem exec_timeAt_mono (c : Instr) (s t : State) (h : exec c s = .next t) (hb : ¬ Reboots c) {b : Nat}
    (hm : b ∈ timeBlocks) : s.timeAt b ≤ t.timeAt b := by
  by_cases hr : Realigns c
  · cases c with
    | timeTreeRealign => exact execTimeTreeRealign_timeAt h hm
    | powerReturn => exact execPowerReturn_timeAt h hm
    | _ => exact hr.elim
  · obtain ⟨r, he⟩ := exec_fromRun c s hb
    exact timeAt_mono ((exec_keepsCopies c s hb hr).copies t h) (done_now_le (he.symm.trans h)) b

/-! ## The events of fabric time -/

/-- What TIME_TREE_REALIGN makes of what a block reads: the lag it draws, or what the block has read before. -/
theorem Run.realign_timeAt {z : State} (r : Run z) (lag : Nat → Nat) {b : Nat} (hb : b ∈ timeBlocks) :
    (r.realign lag).s.timeAt b = max (r.s.timeAt b) (r.s.now - lag b % 5) := by
  have h := r.realign_copy lag hb
  rw [Run.copies] at h
  rw [State.timeAt, h]
  rfl

theorem timeTreeRealign_post : EventPost .timeTreeRealign (fun s => powerState s ≤ 1) (fun s t =>
    (∀ b ∈ timeBlocks, s.now ≤ t.timeAt b + Config.copyLag s.free b % 5 ∧
      (s.timeAt b < s.now - Config.copyLag s.free b % 5 → t.timeAt b = s.now - Config.copyLag s.free b % 5)) ∧
    t = { s with copies := t.copies, free := s.free + 1 }) := by
  intro s hup _ haw
  refine ⟨((Run.start s).realign fun b => Config.copyLag s.free b).s, ?_, fun b hb => ?_, rfl⟩
  · exact (congrArg done (if_pos (by simp [awake, haw]))).trans (done_next hup)
  · have ht := (Run.start s).realign_timeAt (fun b => Config.copyLag s.free b) hb
    have hn : (Run.start s).s = s := rfl
    rw [hn] at ht
    rw [ht]
    omega

theorem holdoverEntry_post : EventPost .holdoverEntry
    (fun s => (s.fld (topReg 0x10C) 1 0 = 1 ∨ s.fld (topReg 0x10C) 1 0 = 2) ∧ s.eth.lastSync + 3 * Config.syncInterval ≤ s.now)
    (fun s t => t.fld (topReg 0x10C) 1 0 = 3 ∧ (∀ k, k ≠ topReg 0x10C → t.reg k = s.reg k) ∧
      t = { s with regs := t.regs, eth := { s.eth with good := 0 } }) := by
  intro s hup hs ⟨hst, hsync⟩
  have hreg : RegsOnly (· = topReg 0x10C) { s with eth := { s.eth with good := 0 } } (Run.start s).holdover.s :=
    RegsOnly.setFld (K := (· = topReg 0x10C)) (r := (Run.start s).setEth { s.eth with good := 0 }) (.refl _) rfl 1 0 3
  refine ⟨(Run.start s).holdover.s, ?_, ?_, hreg.same, hreg.rest⟩
  · exact (congrArg done (if_pos (by simp [hst, hsync]))).trans (done_next hup)
  · exact fld_setFld_self (r := (Run.start s).setEth { s.eth with good := 0 }) (a := 1) (b := 0) (v := 3) hs.regs
      (by decide) (by decide)

/-- GPTP_MESSAGE_INTERVAL of a gPTP domain that runs. -/
theorem gptpMessageInterval_row {d : Nat} (hd : d < 2) : EventRow (.gptpMessageInterval d) (fun s => gptpOn s d = true)
    fun s r =>
      let q := (r.each (gptpPorts s d) fun n r => r.gptpAge d n).gptpSelect d
      q.each (gptpPorts s d) fun n r => r.gptpSend d n := by
  intro s hup hon
  exact (if_neg (by simp [hon, hd])).trans (done_next hup)

/-- Settles O38: the local copies stand at most 4 ns behind the master in a sound state; every command but a realignment leaves
them, and a realignment keeps what each block has read as its floor; the three events by their definitions. -/
theorem timeCommands : Obligations.TimeCommands := by
  refine ⟨fun s h b b' => ?_, fun c s t h hr b hb => exec_timeAt_mono c s t h hr hb, timeTreeRealign_post, holdoverEntry_post,
    fun d hd => gptpMessageInterval_row hd⟩
  have hb := State.timeAt_near h.times b
  have hb' := State.timeAt_near h.times b'
  omega

end Sys2Proof.Machine
end
